-- ==== Sys2Proof/Word.lean ====
section
/-! DEFINITION. Words, node addresses, sparse tables and the STICK counter: the plainest types of the model. -/
namespace Sys2Proof

/-- One byte. -/
abbrev Byte := BitVec 8
/-- 16-bit word. -/
abbrev W16 := BitVec 16
/-- 32-bit word. -/
abbrev W32 := BitVec 32
/-- 64-bit word. -/
abbrev W64 := BitVec 64
/-- A fabric node address (R33). -/
abbrev Node := BitVec 10
/-- A memory-object handle (R308). -/
abbrev Handle := BitVec 18
/-- A sparse table: key and value pairs, keys strictly rising, no value equal to the table's default. -/
abbrev SMap (α : Type) := List (Nat × α)
/-- Byte-addressed memory as sparse cells (address, byte); an unlisted address reads as 0. -/
abbrev Mem := SMap Byte

/-- A STICK counter (R8): holds at its largest value and keeps its overflow flag. -/
structure Stick (w : Nat) where
  val : BitVec w := 0
  sat : Bool := false
deriving DecidableEq, Repr

/-- One more event on a STICK counter (R8): at the largest value the count holds, the flag is set and the event is lost. -/
def Stick.inc {w : Nat} (c : Stick w) : Stick w :=
  if c.val = BitVec.allOnes w then { c with sat := true } else { c with val := c.val + 1 }

/-- `n` more events on a STICK counter. -/
def Stick.add {w : Nat} (c : Stick w) (n : Nat) : Stick w :=
  if c.val.toNat + n < 2 ^ w then { c with val := BitVec.ofNat w (c.val.toNat + n) }
  else { val := BitVec.allOnes w, sat := true }

end Sys2Proof
end

