-- ==== Sys2Proof/Syntax.lean ====
section
/-! DEFINITION. The commands of the block, one constructor per row of the opcode table, and the types of their operands. -/

namespace Sys2Proof

/-- The two mailboxes (R328). -/
inductive Mailbox | dispatch | lantern
deriving DecidableEq, Repr

/-- Width of a host access to BAR0 (R563). -/
inductive AccW | b8 | b16 | b32 | b64
deriving DecidableEq, Repr

/-- How a write reaches a 64-bit WO register (R564). -/
inductive HalfWrite
  | whole (v : W64) | low (rid : W16) (v : W32) | high (rid : W16) (v : W32)
deriving DecidableEq, Repr

/-- The fault sources, in the order of their groups (R439). -/
inductive Source
  | fabLinkTimeout | fabCe | fabHdrUe | fabReplyTimeout | fabQuiesceTimeout
  | coreRegPe | coreImemUe | coreImemCe | coreMemUe | coreMemCe | coreIllegalOp | coreIllegalFormat | coreAlign
  | coreRdPoison | coreRouteUndeclared | coreMsgOversize | coreWaitLimit | coreClkRange | resourceOverflow
  | destAbsent | agBadDescriptor
  | planShapeMiss | planNoTiling | seqBucketOverflow | kvDrop | kvPreempt | kvSumpUnreachable | kvPoolExhausted
  | deadlineMiss
  | chmCe | chmUe | stgCe | stgUe | chmCmpUnmapped | chmCmpPartial | chmCmpPool | dramCe | dramUe | dramPairRetired
  | dramNoMargin | dramSafetyUnmet | dramDataLost
  | sensorLoss | csiLaneOrder | csiHdrUe | csiCrc | csiOverflow | vdecStreamErr | msrCorrupt | focusList
  | intakeUndeclared
  | hostLinkDown | hostAtomicUr | objInvalid | objRefSat | objRefAnomaly | mbLate | mbInternal | mbStateRefused
  | mirSkewPe | mirWindowLong | mirMismatch | mirVerdictDiffer | mirRetry | mirRetryFailed | twinMismatch
  | dvLane | dvWidth | dvRetrain | dvLinkDown | dvMiswire | partnerLost | partnerFault | dvFaultPin | dvDataDrop
  | dvRealignFail | partnerAbsent
  | pwrCeiling | coolantSensor | coolantRange | noBudget | tjHigh | railRange | clkRefRange
  | ltnLockstep | ltnConfigLost | ltnSramUe | ltnWatchdog | dspLockstep | dspWatchdog | ltnReconcile | bootFallback
  | sioHarnessSwap | sioShort | sioOpen | sioReadback
  | recoveryLimit | torchStartFail | torchRunFail | colChannelDiffer
deriving DecidableEq, Repr

/-- A fault instance (R462): node, sub-index (port, channel, stream, pair or pin). -/
structure Inst where
  node : Node := 0x3FF
  sub : Byte := 0
deriving DecidableEq, Repr

/-- What the ECC of a word or flit shows (R43, R59, R188, R191). -/
inductive Ecc | clean | corrected | uncorrectable
deriving DecidableEq, Repr

/-- STATUS of a fabric message (R37). -/
inductive FabStatus | ok | poison | islandDown
deriving DecidableEq, Repr

/-- The spaces of R77. -/
inductive Space | lcl | chamber | staging | dram | host | peer
deriving DecidableEq, Repr

/-- The two atomics (R85). -/
inductive AtomicOp | fetchAdd | cas
deriving DecidableEq, Repr

/-- A READ_REQ or WRITE_REQ as it reaches its endpoint (R37, R40, R85). `en` empty means every byte enabled. -/
structure FabReq where
  src : Node
  dst : Node
  tag : W16
  space : Space
  addr : W64
  len : Nat
  data : List Byte := []
  en : List Bool := []
  atomic : Option AtomicOp := none
  obj : Handle := 0
deriving DecidableEq, Repr

/-- A DATA message (R37). -/
structure DataMsg where
  src : Node
  dst : Node
  chan : BitVec 3
  poison : Bool := false
  data : List Byte
deriving DecidableEq, Repr

/-- Kinds of message (R37). -/
inductive MsgKind | data | readReq | writeReq | reply | credit | nackIslandDown | control
deriving DecidableEq, Repr

/-- A flit on one link (R31, R37, R43): `head` for the header flit; `payload` is the message's payload length in bytes. -/
structure Flit where
  id : Nat
  head : Bool
  src : Node
  dst : Node
  kind : MsgKind
  payload : Nat
  ecc : Ecc
deriving DecidableEq, Repr

/-- What dispatch firmware does with an island once QUIESCED has arrived (R45 step 6). -/
inductive QAction | hold | reset | update | gate
deriving DecidableEq, Repr

/-- Which pending item of a core a NACK answers (R46): a SEND's route or a request's entry. -/
inductive NackOf | route (r : BitVec 5) | entry (tag : W16)
deriving DecidableEq, Repr

/-- SCALAR operations (R72). `undefinedOp` stands for an OP value that the class does not define. -/
inductive ScalarOp
  | add | sub | and | or | xor | shl | shr | sar | mulLo | mulHi | mulHiU | min | max | minU | maxU
  | setEq | setNe | setLt | setGe | setLtU | setGeU | movImm | undefinedOp
deriving DecidableEq, Repr

/-- BRANCH operations (R72). -/
inductive BranchOp | cond | jump | jumpReg | undefinedOp
deriving DecidableEq, Repr

/-- Compare relations of the vector engine (R67). -/
inductive VRel | eq | ne | lt | ge
deriving DecidableEq, Repr

/-- Functions of the transcendental unit (R68). -/
inductive TransFn | recip | rsqrt | exp | log | tanh | sigmoid
deriving DecidableEq, Repr

/-- VECTOR operations other than RESCALE and SCLLOAD (R67, R72, R143, R175). Formats are codes of R74. -/
inductive VecOp
  | add | sub | mul | fma | min | max | addSat | subSat
  | cmp (r : VRel)
  | select
  | convert (dst : BitVec 3)
  | trans (fn : TransFn)
  | accRead (bank : Bool) (pair : BitVec 4)
  | stateWrite (pair : BitVec 4) (sbase : BitVec 10)
  | stateRead (pair : BitVec 4) (sbase : BitVec 10)
  | undefinedOp
deriving DecidableEq, Repr

/-- The selections a RESCALE makes in its EXT field besides EXT[19:18] (R173): bank and row pair, or an FP32 vector source. -/
structure RescaleSel where
  fromVector : Bool
  bank : Bool
  pair : BitVec 4
  base : BitVec 9
deriving DecidableEq, Repr

/-- Which core memory a scrub slot visits (R59). -/
inductive CoreMem | imem | cmem
deriving DecidableEq, Repr

/-- A tensor shape seen at a frame start (R115, R164). -/
structure DynShape where
  op : Nat
  m : Nat
  n : Nat
  k : Nat
  /-- The lengths of a ragged operator's sequences (R164, R165). -/
  lengths : List Nat := []
deriving DecidableEq, Repr

/-- What the cores of one plan output wrote in a frame (R403, R451). -/
structure OutData where
  index : Nat
  offset : W64
  data : List Byte
deriving DecidableEq, Repr

/-- A CSI-2 packet as received (R225, R227). -/
structure CsiPkt where
  vc : BitVec 4
  dt : BitVec 6
  hdr : Ecc
  crcOk : Bool := true
  overflow : Bool := false
  data : List Byte := []
deriving DecidableEq, Repr

/-- An IP datagram inside an Ethernet frame (R230). -/
structure IpPkt where
  v6 : Bool
  src : BitVec 128
  dst : BitVec 128
  unsupported : Bool := false
  hdrSumOk : Bool := true
  udpSumZero : Bool := false
  udpSumOk : Bool := true
  sport : W16
  dport : W16
  payload : List Byte
deriving DecidableEq, Repr

/-- An Ethernet frame as received by a MAC (R229). -/
structure EthFrame where
  len : Nat
  fcsOk : Bool := true
  dmac : BitVec 48
  vlan : Option (BitVec 12) := none
  ethertype : W16
  ip : Option IpPkt := none
deriving DecidableEq, Repr

/-- A decoded picture (R236). -/
structure Picture where
  irap : Bool
  clean : Bool
  depth : Nat
  y : List (List Nat)
  cb : List (List Nat)
  cr : List (List Nat)
deriving DecidableEq, Repr

/-- A gPTP Sync with its precise origin, as the port sees it (R267, R268). -/
structure SyncMsg where
  domain : Byte
  twoStep : Bool
  seqId : W16
  originNs : Int
  rxNs : Int
  cumRatePpb : Int
deriving DecidableEq, Repr

/-- A PTC value in whole seconds and nanoseconds (R264). -/
structure PtcVal where
  sec : BitVec 48
  ns : BitVec 30
deriving DecidableEq, Repr

/-- A guarded-change kind (R353). -/
inductive GKind | config | manifest | scaleCommit | scaleRevert | ceiling | debugUnlock | spare | retireClear
deriving DecidableEq, Repr

/-- BAR2 accesses (R289). -/
inductive Bar2Op
  | read (len : Nat)
  | write (data : List Byte) (ep : Bool)
  | atomic (op : AtomicOp) (wide : Bool) (a b : W64)
deriving DecidableEq, Repr

/-- Result of a host completion for a device request (R296). -/
inductive CplStatus | success | ep | unsupportedRequest | otherError
deriving DecidableEq, Repr

/-- What a slot fault's fetch brought back (R316). -/
inductive Fetched | poison | bytes (b : List Byte)
deriving DecidableEq, Repr

/-- The verdict of a comparator on one window (R397). -/
inductive CmpVerdict | equal | unequal | timeout | overrun
deriving DecidableEq, Repr

/-- A signature flit (R396). -/
structure SigMsg where
  pair : Byte
  trail : Bool
  attempt : Bool
  frame : W16
  window : W32
  sig : W64
deriving DecidableEq, Repr

/-- What a port's training finds (R407–R409): per-lane open, shorted, number read, inverted; the far end's IDENT. -/
structure LaneState where
  opened : Bool := false
  shorted : Bool := false
  number : BitVec 2
  inverted : Bool := false
deriving DecidableEq, Repr

/-- An IDENT message (R425). -/
structure Ident where
  p : Byte
  n : Byte
  digest : List Byte
  serial : BitVec 128
deriving DecidableEq, Repr

/-- What a slot fault fetches (R315, R316, R318). -/
inductive SlotFaultOf
  | context (id : Nat) | queue (id : Nat) | object (h : Handle) (page : Nat) (gallery : Option Nat) | event (id : Nat)
deriving DecidableEq, Repr

/-- A HEARTBEAT or FAULT_STATE message body (R425). -/
structure Beat where
  devstate : Byte
  cls : Byte
  rung : Byte
  frame : W32
deriving DecidableEq, Repr

/-- A FRAME_SIG message (R420). -/
structure FrameSigMsg where
  unagreed : Bool
  realign : Bool
  degraded : Bool
  rung : Byte
  frame : W32
  sig : W64
  ltcEnd : W64
  mapped : W32
deriving DecidableEq, Repr

/-- A TIME_RESP message with its receive stamp (R422). -/
structure TimeRespMsg where
  t1 : W64
  t2 : W64
  t3 : W64
  t4 : W64
  corrReq : W32
  corrResp : W32
  frame : W32
  frameLtc : W64
deriving DecidableEq, Repr

/-- A TIME_REPORT message (R422). -/
structure TimeReportMsg where
  delta : Int
  dev : Int
  delay : W32
  inc : W64
  realign : Bool
deriving DecidableEq, Repr

/-- A PLAN_CHECK message (R425). -/
structure PlanCheckMsg where
  plan : List Byte
  scale : List Byte
  planner : W32
  manifest : List Byte
deriving DecidableEq, Repr

/-- What a rail monitor sample of a supervised pin shows (R522). -/
structure PinSample where
  pin : Nat
  level : Bool
  atLimit : Bool
  microAmp : Nat
  legPercent : Nat := 50
deriving DecidableEq, Repr

/-- A unit's state in a reconciliation view, in ascending order of restriction (R480). -/
inductive UnitState | up | quiesced | gated | unavailable
deriving DecidableEq, Repr

/-- The units of reconciliation (R480): core sites by node, chamber port groups by gallery and port, DRAM channels, CSI-2 ports,
MACs, Dvorpo ports, Prism, the decoder and the host link controller. -/
inductive RUnit
  | core (n : Node) | chamber (g k : Nat) | dram (k : Nat) | csi (k : Nat) | mac (k : Nat) | dvorpo (k : Nat) | prism | decoder | hostLink
deriving DecidableEq, Repr

/-- DAP operations (R512). -/
inductive DapOp | read (addr len : Nat) | write (addr : Nat) (data : List Byte) | halt | step | resume
deriving DecidableEq, Repr

/-- JTAG instructions (R509, R511). -/
inductive JtagInstr | bypass | idcode | samplePreload | extest | clamp | highz | dap
deriving DecidableEq, Repr

/-- The firmware bodies (R354). -/
inductive FwBody | dispatch | lantern
deriving DecidableEq, Repr

/-- What the start-up pattern's readbacks gave (R374). -/
structure PatternResult where
  safeAHigh : Bool := true
  safeBHigh : Bool := false
  drivenOk : Bool := true
  badPin : Nat := 0
deriving DecidableEq, Repr

/-- What one image slot's boot checks found (R369). -/
structure SlotCheck where
  wellFormed : Bool
  signatureOk : Bool
  rollback : Nat
  version : W64
  digest : List Byte
deriving DecidableEq, Repr

/-- What verification finds in a staged image, check by check (R477), and the image as the slot would hold it. -/
structure StageCheck where
  magic : Bool := true
  stepping : Bool := true
  signature : Bool := true
  body : Bool := true
  rollback : Nat
  version : W64
  digest : List Byte
deriving DecidableEq, Repr

/-- What a boot reads: the flash's image slots and whether a configuration copy is valid (R369, R371, R372), and the straps (R530). -/
structure FlashEnv where
  lanternA : SlotCheck
  lanternB : SlotCheck
  dispatchA : SlotCheck
  dispatchB : SlotCheck
  configValid : Bool
  /-- The strap balls: bit 0 FLASH_0, bit 1 FLASH_1, bit 2 TEST; sampled at power-on only (R530). -/
  straps : BitVec 3 := 0
deriving DecidableEq, Repr

/-- What steps 5 and 8 of R367 find: the start-up pattern's readbacks, failed sites, and DRAM channels without lock. -/
structure BootEnv where
  pattern : PatternResult := {}
  failedSites : List Node := []
  dramLockFail : List Nat := []
deriving DecidableEq, Repr

/-- One MSR record as record decode takes it from the file (R238). -/
structure MsrRec where
  header : List Byte
  payload : List Byte
  crc : W32
  atEnd : Bool := false
deriving DecidableEq, Repr

/-- What opening an MSR file finds (R237, R240). -/
structure MsrFile where
  header : List Byte
  sceneFrames : Nat
  indexValid : Bool
deriving DecidableEq, Repr

/-- The measured figures of a recalibration (R183). -/
structure RecalFigures where
  leadDigest : List Byte
  trailDigest : List Byte
  entriesNormal : Bool
  clipOk : Bool
  headOk : Bool
  winogradOk : Bool
  worstClip : W32
  worstHead : W32
  worstWino : W32
deriving DecidableEq, Repr

/-- An adaptable channel as the recalibration plan's cores judge it in a fitting epoch (R182): core, counter, its base
exponent, and for each j from −8 to 8 whether the predicted clip share meets the target. -/
structure FitChannel where
  core : Node
  counter : Nat
  predicted : List Bool
deriving DecidableEq, Repr

/-- Stream kinds (R219). -/
inductive StreamKind | csi | lidarFlow | rtpHevc | udpRaw
deriving DecidableEq, Repr

/-- A stream declaration (R219). -/
structure StreamDecl where
  id : Nat
  kind : StreamKind
  port : Nat
  vc : BitVec 4 := 0
  dt : BitVec 6 := 0
  flow : Nat := 0
  width : Nat
  height : Nat
  rate : Nat
  timeout : Nat := 0
  safety : Bool := false
  profile : Nat := 255
  fsync : Bool := false
deriving DecidableEq, Repr

/-- A CSI-2 port's configuration (R225, R226): lanes or trios, rate per lane in kb/s or ksym/s, and the lane map. -/
structure CsiCfg where
  port : Nat
  dphy : Bool := true
  lanes : Nat
  rate : Nat
  map : List Nat := []
deriving DecidableEq, Repr

/-- A classifier entry (R230). -/
structure Flow where
  macMask : BitVec 4
  vlan : Option (BitVec 12) := none
  v6 : Bool := false
  src : BitVec 128 := 0
  srcLen : Nat := 0
  dst : BitVec 128
  dport : W16
  sport : Option W16 := none
  kind : StreamKind
  template : Nat := 0
  ssrc : W32 := 0
  pt : BitVec 7 := 0
deriving DecidableEq, Repr

/-- A field of a point record (R232). -/
structure PField where
  off : Nat
  code : Nat
  scale : W32
  offset : W32
deriving DecidableEq, Repr

/-- A lidar parse template (R232). -/
structure Template where
  hdrLen : Nat
  recLen : Nat
  /-- A fixed count, or the offset and type code of a count field. -/
  fixed : Option Nat
  countOff : Nat := 0
  countCode : Nat := 0
  /-- Sequence field: offset and bytes (2 or 4). -/
  seq : Option (Nat × Nat) := none
  fields : List PField
  fp32 : Bool := true
deriving DecidableEq, Repr

/-- The vehicle manifest as ATTACH fetches it: its bytes (R377) and its sections decoded (R378; log entry 9). -/
structure Manifest where
  bytes : List Byte
  n : Nat := 1
  p : Nat := 0
  twin : Bool := false
  /-- This device is its pair's preferred source (R22). -/
  preferred : Bool := false
  /-- FSYNC outputs whose takeover is declared (R280). -/
  takeover : List Nat := []
  streams : List StreamDecl := []
  ports : List CsiCfg := []
  flows : List Flow := []
  templates : List Template := []
  macs : List (BitVec 48) := []
  gptp : List Nat := []
  /-- SUPERVISED_IO (R527): the in-use mask and the streams of LTRIG_0–3. -/
  sioMask : W16 := 0
  ltrig : List Nat := [255, 255, 255, 255]
  /-- COOLANT (R207): T_knee and T_top in 0.01 °C, P_hi and P_lo in mW. -/
  coolant : Option (Int × Int × Nat × Nat) := none
  /-- SPLIT_ORDER (R259): stream, and the host object of a DEVICE_FORWARD stream. -/
  split : List (Nat × Option Handle) := []
deriving DecidableEq, Repr

/-- A window-table entry (R76). -/
structure Window where
  space : Space
  base : W64
  length : Nat
  r : Bool
  w : Bool
  a : Bool
  tolerant : Bool := false
  obj : Handle := 0
deriving DecidableEq, Repr

/-- Bandwidth classes (R195). -/
inductive BwClass | safety | sensor | bulk | bestEffort
deriving DecidableEq, Repr

/-- A declared compressed region (R133). -/
structure RegionDecl where
  gallery : Nat
  base : Nat
  length : Nat
  slot : Nat
  pool : Nat
  storage : Nat
deriving DecidableEq, Repr


/-- A DRAM bandwidth declaration of one rung (R196). -/
structure BwDecl where
  /-- A core's window (node and window), a stream (0x400 + ID), or the inbound-window group (0x500). -/
  agent : Nat
  win : Nat := 0
  cls : BwClass
  /-- Rate or cap in MB/s. -/
  rate : Nat
deriving DecidableEq, Repr

/-- One rung of the ladder (R210). -/
structure Rung where
  /-- E_decl in µJ. -/
  energy : Nat
  /-- Core frequency targets in 10 MHz units (R69). -/
  freqs : List (Node × Nat) := []
  /-- Every piece of safety-related work runs in this rung (R210). -/
  allSafety : Bool := true
  bw : List BwDecl := []
deriving DecidableEq, Repr

/-- A plan output (R449, R451). -/
structure OutDecl where
  obj : Handle
  /-- Core nodes and streams to which the plan attributes it (R449). -/
  cores : List Node := []
  streams : List Nat := []
  torch : Bool := false
deriving DecidableEq, Repr

/-- A matrix operator of the plan (R115–R119). -/
structure OpDecl where
  id : Nat
  dynamic : Bool
  /-- Element sizes in nibbles (R116: 0.5 byte counts 1). -/
  e : Nat
  o : Nat
  budget : Nat
  cores : Nat
  /-- Precompiled entries keyed by (M, N, K). -/
  table : List (Nat × Nat × Nat) := []
  /-- A static shape (R119). -/
  shape : Option (Nat × Nat × Nat) := none
  /-- Bounds of bucket mode (R165). -/
  buckets : List Nat := []
  outputs : List Nat := []
deriving DecidableEq, Repr

/-- A declared sequence (R150). -/
structure SeqDecl where
  id : Nat
  priority : Nat
  guaranteed : Bool
  dh : Nat
  heads : Nat
  format : Nat
  pMax : Nat
  k : Nat
  w : Nat
  sigmaS : W32
  sigmaQ : W32
  index : Nat
deriving DecidableEq, Repr

/-- KV pools (R151): chamber frames per gallery with the segments' base, DRAM frames and base, sump frames and object. -/
structure KvPools where
  chamber : List (Nat × Nat) := []
  dram : Nat × Nat := (0, 0)
  sump : Nat := 0
  sumpObj : Option Handle := none
deriving DecidableEq, Repr

/-- A recurrent operator's limits (R145) and fused pairs, Winograd and convolution limits (R120, R126, R129). -/
structure OpLimits where
  /-- Cell type code 0–2, D_f, all rows, sequences, D_in, gate rows (R145). -/
  recurrent : List (Nat × Nat × Nat × Nat × Nat × Nat) := []
  /-- Fused pairs: N1, K1, N2, and whether the pair is placed on a core whose A1 is in state mode (R120). -/
  fused : List (Nat × Nat × Nat × Bool) := []
  /-- Winograd operators: KH, KW, SX, SY, DX, DY, then input INT8, input FP8, scales carried (R129, R131). -/
  winograd : List (List Nat × Bool × Bool × Bool) := []
  /-- Convolutions: KH, KW, SY, SX, DY, DX, PAD_T, PAD_L and channels per group (R126). -/
  conv : List (List Nat) := []
deriving DecidableEq, Repr

/-- A core section (R98). -/
structure CoreSect where
  site : Node
  words : List W64
  entry : BitVec 13
  wins : List (Nat × Window)
  /-- Route index, logical node, channel, share, OPTIONAL (R87). -/
  routes : List (Nat × Node × BitVec 3 × Nat × Bool)
  /-- Channel index, LOCAL base, slot size (R88). -/
  chans : List (Nat × Nat × Nat)
  segs : List (Nat × List Byte) := []
  scl : List (Nat × W32) := []
  lds : List (Nat × W32) := []
  waitUs : Nat := 9000
  resident : Bool := false
  safety : Bool := false
  torch : Bool := false
  clipThresh : W32 := 0
  clipEvent : W16 := 0xFFFF
  /-- The program uses a RESCALE with the clamp activation (R170, R173). -/
  clamp : Bool := false
  /-- The frame-start channel, if declared (R100). -/
  frameChan : Option Nat := none
  /-- Sequences the core writes (R100, R153). -/
  writes : List Nat := []
  /-- Core image offset reported on refusal (R346). -/
  offset : Nat := 0
deriving DecidableEq, Repr

/-- The torch section (R453). -/
structure TorchSect where
  cores : List Node
  pairs : List Nat
  streams : List Nat
  banks : List Nat := []
  energy : Nat
deriving DecidableEq, Repr

/-- An ROI list entry (R253). -/
structure Roi where
  x0 : Nat
  y0 : Nat
  w : Nat
  h : Nat
  wo : Nat
  ho : Nat
  slot : Nat
  priority : Bool := false
  track : Nat := 0
deriving DecidableEq, Repr

/-- RAW modes (R244). -/
inductive RawMode | demosaic | phases | mono
deriving DecidableEq, Repr

/-- A pre-processing profile (R243, R244). -/
structure Profile where
  id : Nat
  raw : RawMode := .mono
  /-- 0 RGGB, 1 GRBG, 2 GBRG, 3 BGGR. -/
  cfa : Nat := 0
  bl : List Nat := [0, 0, 0, 0]
  gain : List W32 := [0x3F800000, 0x3F800000, 0x3F800000, 0x3F800000]
  /-- 0 NONE, 1 BT601, 2 BT709, 3 BT2020, 4 CUSTOM. -/
  matrix : Nat := 0
  limited : Bool := false
  /-- CUSTOM: nine coefficients row by row, then three offsets. -/
  custom : List W32 := []
  bgr : Bool := false
  a : List W32
  b : List W32
  /-- 0 INT8, 1 E4M3, 2 E5M2, 3 BF16, 4 FP16. -/
  ofmt : Nat
  width : Nat
  height : Nat
  /-- Chamber address of the base window: gallery × 2^24 + offset. -/
  base : Nat
  /-- ROI slots with their largest output size, the ROI chamber address, and the default list. -/
  slots : List (Nat × Nat) := []
  roiBase : Nat := 0
  roiDefault : List Roi := []
deriving DecidableEq, Repr

/-- What a plan declares for a stream that it consumes (R251, R253, R254). -/
structure CamDecl where
  stream : Nat
  /-- INTAKE_DONE routes: node and channel. -/
  routes : List (Node × BitVec 3) := []
  mirrored : Bool := false
  /-- Staging offset of the list region, and the frame offset between its parity copies is 2 × the copy size (R253). -/
  list : Nat := 0
deriving DecidableEq, Repr

/-- A declared DATA sink (R427). -/
structure Sink where
  id : Nat
  lo : Nat
  len : Nat
  event : W16 := 0xFFFF
deriving DecidableEq, Repr

/-- A plan image's content as PLAN_LOAD reads it: the image's bytes (R356), and its sections, whose byte layout the
spec does not give (log entry 9), decoded. -/
structure PlanImage where
  bytes : List Byte
  scales : List Byte := []
  rungs : List Rung
  cores : List CoreSect
  /-- Mirror pairs declared (R386), as pair numbers. -/
  pairs : List Nat := []
  outputs : List OutDecl := []
  ops : List OpDecl := []
  limits : OpLimits := {}
  seqs : List SeqDecl := []
  pools : KvPools := {}
  regions : List RegionDecl := []
  torch : Option TorchSect := none
  /-- Streams consumed (R403), and objects of HOST windows with their paged entry counts (R317). -/
  streams : List Nat := []
  hostObjs : List (Handle × Nat) := []
  /-- Chamber banks, DRAM agents and streams marked SAFETY (R440). -/
  safeBanks : List Nat := []
  safeAgents : List Nat := []
  /-- Recalibration (R182, R183). -/
  adaptable : List (Node × Nat) := []
  /-- Pre-processing (R243, R251, R254), DATA sinks (R427), the LOAD_SPLIT event (R260). -/
  profiles : List Profile := []
  cams : List CamDecl := []
  sinks : List Sink := []
  splitEvent : W16 := 0xFFFF
  /-- Domains that the plan's power schedule gates (R537, R539). -/
  gates : List Nat := []
deriving DecidableEq, Repr

/-- The commands: one constructor per row of the opcode table. Commands of a mailbox take their arguments from the REQ bytes
of the slot they serve; their operands are what the command fetches from outside. -/
inductive Instr
  /-- REGISTER_WRITE. A BAR0 write without a row of its own (R4). -/
  | registerWrite (off : Nat) (w : AccW) (v : W64) (rid : W16)
  /-- LOW_HALF_READ. A 32-bit read of the low half of a 64-bit register (R7). -/
  | lowHalfRead (off : Nat)
  /-- LTC_LO_READ. A read of LTC_LO (R282). -/
  | ltcLoRead
  /-- AR_SESSION_READ. A read of AR_SESSION (R578). -/
  | arSessionRead
  /-- TIME_EVENT. A W1C write to TIME_EVENT (R283). -/
  | timeEvent (v : W32)
  /-- LEDGER_FLAGS. A W1C write to LEDGER_FLAGS (R217). -/
  | ledgerFlags (v : W32)
  /-- OBJ_FLAGS. A W1C write to OBJ_FLAGS (R574). -/
  | objFlags (v : W32)
  /-- TRC_FLAGS. A W1C write to TRC_FLAGS (R506). -/
  | trcFlags (v : W32)
  /-- MB_BAD_SAT. A write to MB_BAD_SAT (R329). -/
  | mbBadSat (mb : Mailbox) (v : W32)
  /-- MB_DOORBELL. A write to MB_DOORBELL (R330). -/
  | mbDoorbell (mb : Mailbox) (v : W32)
  /-- MB_DONE. A write to MB_DONE (R330). -/
  | mbDone (mb : Mailbox) (v : W32)
  /-- MB_LATE. A response limit expires (R334). -/
  | mbLate (mb : Mailbox) (slot : Nat)
  /-- URG_ACK. A write to the urgent slot's ACK (R339). -/
  | urgAck (v : W32)
  /-- QUEUE_DB. A queue doorbell (R572). -/
  | queueDb (w : HalfWrite)
  /-- EVT_REARM. A write to EVT_REARM (R573). -/
  | evtRearm (v : W32)
  /-- FLIT_TRANSFER. A flit crosses an island boundary (R31). -/
  | flitTransfer (f : Flit)
  /-- FAB_LINK_TIMEOUT. No acknowledgement within 1 µs for a flit presented on the link from `near` to `far` (R32). -/
  | fabLinkTimeout (near far : Node) (f : Flit)
  /-- DATA_ARRIVAL. A DATA message arrives (R88). -/
  | dataArrival (m : DataMsg)
  /-- READ_REQ. A READ_REQ arrives at its endpoint (R40). -/
  | readReq (r : FabReq)
  /-- WRITE_REQ. A WRITE_REQ arrives at its endpoint (R40). -/
  | writeReq (r : FabReq)
  /-- REPLY. A REPLY arrives (R82). -/
  | reply (core : Node) (tag : W16) (st : FabStatus) (data : List Byte)
  /-- CREDIT. A CREDIT arrives (R39). -/
  | credit (core : Node) (route : Nat)
  /-- NACK_ISLAND_DOWN. A NACK arrives (R46). -/
  | nackIslandDown (core : Node) (what : NackOf)
  /-- FAB_REPLY_TIMEOUT. A pending entry's reply timeout (R44). -/
  | fabReplyTimeout (core : Node) (tag : W16)
  /-- QUIESCE. CONTROL QUIESCE arrives (R45). -/
  | quiesce (node : Node) (limitNs : Nat)
  /-- QUIESCED. The drain ends (R45). -/
  | quiesced (node : Node)
  /-- FAB_QUIESCE_TIMEOUT. The drain limit expires (R45). -/
  | fabQuiesceTimeout (node : Node)
  /-- QUIESCED_RECEIVED. QUIESCED reaches dispatch firmware (R45). -/
  | quiescedReceived (node : Node) (act : QAction)
  /-- ADMIT. CONTROL ADMIT (R48). -/
  | readmit (node : Node)
  /-- SCRUB_SLOT. A scrub slot of a core reads the line of a 64-bit word and finds this of the word (R59). -/
  | scrubSlot (core : Node) (m : CoreMem) (word : Nat) (ecc : Ecc)
  /-- FREQUENCY_TARGET. A frequency target arrives, in 10 MHz units (R69). -/
  | frequencyTarget (core : Node) (units : Nat)
  /-- FREQUENCY_CHANGE. The latched target takes effect (R69). -/
  | frequencyChange (core : Node)
  /-- CORE_CLK_RANGE. A core generator's frequency is measured (R69). -/
  | coreClkRange (core : Node) (mhz : Nat)
  /-- CONTROL_START. CONTROL START (R99). -/
  | controlStart (core : Node)
  /-- TRAIL_START. TRAIL's SKEW count expires (R389). -/
  | trailStart (core : Node)
  /-- PACE. A PACE flit arrives (R390). -/
  | pace (core : Node) (count : W32)
  /-- WAIT_RESTART. The awaited handshake arrives (R70). -/
  | waitRestart (core : Node)
  /-- CORE_WAIT_LIMIT. A core's wait limit is checked (R93). -/
  | coreWaitLimit (core : Node)
  /-- SCALAR. SCALAR (R73). -/
  | scalar (core : Node) (op : ScalarOp) (f : BitVec 54)
  /-- BRANCH. BRANCH (R73). -/
  | branch (core : Node) (op : BranchOp) (f : BitVec 54)
  /-- SCALAR_LOAD. SMEM load (R78). -/
  | scalarLoad (core : Node) (f : BitVec 54)
  /-- SCALAR_STORE. SMEM store (R83). -/
  | scalarStore (core : Node) (f : BitVec 54)
  /-- FETCH_ADD. Fetch-add (R85). -/
  | fetchAdd (core : Node) (f : BitVec 54)
  /-- COMPARE_AND_SWAP. Compare-and-swap (R85). -/
  | compareAndSwap (core : Node) (f : BitVec 54)
  /-- MATRIX. MATRIX (R61). -/
  | matrix (core : Node) (f : BitVec 54)
  /-- VECTOR. VECTOR operations (R67). -/
  | vector (core : Node) (op : VecOp) (f : BitVec 54)
  /-- RESCALE. RESCALE (R173). -/
  | rescale (core : Node) (sel : RescaleSel) (f : BitVec 54)
  /-- SCLLOAD. SCLLOAD (R170). -/
  | sclload (core : Node) (base : BitVec 10) (f : BitVec 54)
  /-- VECTOR_LOAD. VMEM load (R79). -/
  | vectorLoad (core : Node) (f : BitVec 54)
  /-- VECTOR_STORE. VMEM store (R78). -/
  | vectorStore (core : Node) (f : BitVec 54)
  /-- LDLOAD. LDLOAD (R102). -/
  | ldload (core : Node) (f : BitVec 54)
  /-- BIND. BIND (R102). -/
  | bind (core : Node) (f : BitVec 54)
  /-- AGEN_START. START (R110). -/
  | agenStart (core : Node) (f : BitVec 54)
  /-- AG_ACCESS. A generator visit (R112); `data` is what AG2 writes. -/
  | agAccess (core : Node) (ag : Nat) (data : List Byte)
  /-- AG_RUN_END. A generator's run ends (R104). -/
  | agRunEnd (core : Node) (ag : Nat)
  /-- AGEN_WAIT. AGEN WAIT (R102). -/
  | agenWait (core : Node) (f : BitVec 54)
  /-- SEND. SEND (R89). -/
  | send (core : Node) (f : BitVec 54)
  /-- SENDS. SENDS (R89). -/
  | sends (core : Node) (f : BitVec 54)
  /-- RECV. RECV (R90). -/
  | recv (core : Node) (f : BitVec 54)
  /-- RELEASE. RELEASE (R90). -/
  | release (core : Node) (f : BitVec 54)
  /-- POLL. POLL (R90). -/
  | poll (core : Node) (f : BitVec 54)
  /-- GET. GET (R82). -/
  | get (core : Node) (f : BitVec 54)
  /-- PUT. PUT (R82). -/
  | put (core : Node) (f : BitVec 54)
  /-- WAITT. WAITT (R82). -/
  | waitt (core : Node) (f : BitVec 54)
  /-- END. END (R99). -/
  | end_ (core : Node) (f : BitVec 54)
  /-- NOP. NOP (R72). -/
  | nop (core : Node) (f : BitVec 54)
  /-- FENCE. FENCE (R84). -/
  | fence (core : Node) (f : BitVec 54)
  /-- A1MODE. A1MODE (R66). -/
  | a1mode (core : Node) (f : BitVec 54)
  /-- SIGMARK. SIGMARK (R394). -/
  | sigmark (core : Node) (f : BitVec 54)
  /-- TRACEMARK. TRACEMARK (R502). -/
  | tracemark (core : Node) (f : BitVec 54)
  /-- CLRFLAG. CLRFLAG (R75). -/
  | clrflag (core : Node) (f : BitVec 54)
  /-- STATUS. STATUS (R75). -/
  | status (core : Node) (f : BitVec 54)
  /-- CHAMBER_SCRUB. A chamber or staging port scrubs the 8-byte word at an address (R188). -/
  | chamberScrub (staging : Bool) (addr : Nat) (ecc : Ecc)
  /-- PATROL_SCRUB. The patrol scrubber reads a line (R191). -/
  | patrolScrub (chan line : Nat) (ecc : Ecc)
  /-- PHY_LOCK_LOSS. A channel loses PHY lock (R193). -/
  | phyLockLoss (chan : Nat)
  /-- PHY_RETRAIN_TIMEOUT. 100 µs pass without lock (R193). -/
  | phyRetrainTimeout (chan : Nat)
  /-- MIGRATION_COMPLETE. Migration ends (R194). -/
  | migrationComplete
  /-- KV_FETCH. KV_FETCH reaches the manager (R156). -/
  | kvFetch (core : Node) (body : List Byte)
  /-- KV_PLACE. The pages of a core's fetch are placed (R157). -/
  | kvPlace (core : Node)
  /-- KV_SEAL. KV_SEAL reaches the manager (R153). -/
  | kvSeal (core : Node) (body : List Byte)
  /-- SUMP_PAGE_ARRIVAL. A sump page's data arrives (R160). -/
  | sumpPageArrival (seq page : Nat) (data : List Byte)
  /-- PAGE_WRITE_COMPLETE. A moved page's write completes (R160). -/
  | pageWriteComplete (seq page : Nat)
  /-- DEMOTION_WRITES_ACCEPTED. A demoted page's posted writes are accepted (R161). -/
  | demotionWritesAccepted (seq page : Nat)
  /-- ADAPT_RUN. ADAPT_RUN (R181). -/
  | adaptRun
  /-- EPOCH_END. A fitting epoch's replay ends (R182). -/
  | epochEnd (fit : List FitChannel)
  /-- RECALIBRATION_COMPLETE. The validation replay ends (R183). -/
  | recalibrationComplete (r : RecalFigures)
  /-- FRAME_START. The LTC reaches a frame start (R276). -/
  | frameStart (shapes : List DynShape)
  /-- FRAME_END. A frame's work ends (R449). -/
  | frameEnd (outs : List OutData)
  /-- RESULT_GATE_OPEN. The result gate opens (R452). -/
  | resultGateOpen
  /-- RETIRE_POINT. Every access of a frame's agents has completed (R320). -/
  | retirePoint
  /-- DECISION_POINT. 2.0 ms before a frame start (R211). -/
  | decisionPoint
  /-- CEILING_INTERVAL. A 100 µs meter interval ends, with the energy of each domain in µJ (R215). -/
  | ceilingInterval (uj : List Nat)
  /-- METER_TRIM. Lantern trims the estimators of domains, by ratios over 2^16 (R202). -/
  | meterTrim (scale : List (Nat × Nat))
  /-- LOOP_HEAT_EXPIRY. A loop heat allowance's second ends (R208). -/
  | loopHeatExpiry
  /-- COOLANT_SAMPLE. A coolant sample, the converter's 16 bits (R209, R528). -/
  | coolantSample (v : Nat)
  /-- JUNCTION_SAMPLE. Junction sensors are sampled, in 0.01 °C (R466). -/
  | junctionSample (temps : List (Nat × Int))
  /-- RAIL_CURRENT_SAMPLE. Rail currents are sampled, in mA (R466). -/
  | railCurrentSample (ma : List (Nat × Nat))
  /-- RAIL_RANGE. A voltage monitor sees its rail outside its window for 1 µs (R466). -/
  | railRange (rail : Nat)
  /-- CLK_REF_RANGE. REFCLK leaves its range or stops (R555). -/
  | clkRefRange
  /-- CSI_PACKET. A CSI-2 packet (R227). -/
  | csiPacket (port : Nat) (pkt : CsiPkt)
  /-- CSI_LANE_ORDER. Header ECC has failed for 1 ms; the permutation that decodes (R226). -/
  | csiLaneOrder (port : Nat) (perm : Option (List Nat))
  /-- ETH_FRAME. An Ethernet frame (R230). -/
  | ethFrame (mac : Nat) (f : EthFrame)
  /-- RTP_REORDER_EXPIRY. A packet's reorder time passes (R234). -/
  | rtpReorderExpiry (stream : Nat)
  /-- PICTURE_DECODED. The decoder completes a picture (R236). -/
  | pictureDecoded (stream : Nat) (pic : Picture)
  /-- LOSS_TIMEOUT. A stream's LOSS_TIMEOUT expires (R224). -/
  | lossTimeout (stream : Nat)
  /-- RECORD_DECODE. Record decode takes one MSR record (R241). -/
  | recordDecode (set file : Nat) (rec : MsrRec)
  /-- INTAKE_DONE. A stream's image and ROIs are written (R251). -/
  | intakeDone (stream : Nat)
  /-- FOCUS_SEAL. FOCUS_SEAL (R254). -/
  | focusSeal (src : Node) (stream : Nat) (copyB : Bool) (target : W32)
  /-- PRISM_UTIL_SAMPLE. A 1 ms utilisation sample (R252). -/
  | prismUtilSample (util : Nat)
  /-- SYNC. A gPTP Sync (R268). -/
  | sync (port : Nat) (m : SyncMsg)
  /-- ANNOUNCE. An Announce (R268). -/
  | announce (port : Nat) (domain : Byte) (gm : W64)
  /-- PDELAY_REQ. A Pdelay_Req (R267), with its receive stamp and the response's transmit stamp. -/
  | pdelayReq (port : Nat) (domain : Byte) (seqId : W16) (rxNs : Int) (txNs : Int)
  /-- PDELAY_RESP. A Pdelay_Resp with its follow-up (R267). -/
  | pdelayResp (port : Nat) (seqId : W16) (t1 t2 t3 t4 : Int)
  /-- PDELAY_REQ_SEND. The Pdelay_Req interval expires (R267). -/
  | pdelayReqSend (port : Nat) (txNs : Int)
  /-- SYNC_RECEIPT_TIMEOUT. syncReceiptTimeout (R270). -/
  | syncReceiptTimeout (port : Nat)
  /-- ANNOUNCE_RECEIPT_TIMEOUT. announceReceiptTimeout (R270). -/
  | announceReceiptTimeout (port : Nat)
  /-- TIME_STEP_APPLY. The LTC reaches a step's application value (R273). -/
  | timeStepApply
  /-- TRIG_EDGE. The PTC reaches a series point (R278). -/
  | trigEdge (n : Nat)
  /-- TRIG_PULSE_END. A pulse's width expires (R278). -/
  | trigPulseEnd (n : Nat)
  /-- DL_DOWN. DL_Down (R303). -/
  | dlDown
  /-- DL_UP. The link returns (R304). -/
  | dlUp (cxl : Bool) (width rate : Nat)
  /-- PERST_N. PERST_N is asserted (R303). -/
  | perstN
  /-- PERST_N_DEASSERT. PERST_N deasserts (R368). -/
  | perstNDeassert
  /-- HOT_RESET. A hot reset (R303). -/
  | hotReset
  /-- FLR. A function level reset (R303). -/
  | flr
  /-- D3HOT. D3hot (R303). -/
  | d3hot
  /-- BUS_MASTER_ENABLE_CLEAR. Bus Master Enable is cleared (R303). -/
  | busMasterEnableClear
  /-- HOLD_LIMIT. 10 ms after detachment (R304). -/
  | holdLimit
  /-- MSIX_UNMASK. MSI-X enable and a vector's unmasking (R302). -/
  | msixUnmask (enable : Bool) (vec : Nat) (addr : W64) (data : W32)
  /-- BAR2_ACCESS. A host access to BAR2 (R289). -/
  | bar2Access (addr : Nat) (op : Bar2Op)
  /-- BAR2_READ_TIMEOUT. A held BAR2 read reaches 9 ms (R290). -/
  | bar2ReadTimeout
  /-- INBOUND_WRITE. A write to an inbound window (R298). -/
  | inboundWrite (w off : Nat) (data : List Byte) (ep : Bool) (rid : W16)
  /-- INBOUND_DOORBELL. A doorbell write (R299). -/
  | inboundDoorbell (w : Nat) (v : W32) (rid : W16)
  /-- INB_RELEASE. INB_RELEASE (R300). -/
  | inbRelease (w buf : Nat)
  /-- HOST_COMPLETION. A host completion (R296). -/
  | hostCompletion (tag : Nat) (st : CplStatus) (data : List Byte)
  /-- HOST_COMPLETION_TIMEOUT. The completion timeout (R296). -/
  | hostCompletionTimeout (tag : Nat)
  /-- QUEUE_ENTRY. A ring entry is consumed, as fetched (R312). -/
  | queueEntry (queue : Nat) (entry : List Byte)
  /-- DOORBELL_FIFO_RELEASE. An activation slot frees (R315). -/
  | doorbellFifoRelease
  /-- SLOT_FAULT_SERVED. A descriptor or page-list fetch completes (R316). -/
  | slotFaultServed (f : SlotFaultOf) (got : Fetched)
  /-- INVALIDATE_COMPLETE. Every access with a dropped copy has completed (R325). -/
  | invalidateComplete (id : W32)
  /-- SIGNATURE. A signature flit arrives (R397). -/
  | signature (cmp1 : Bool) (m : SigMsg)
  /-- COMPARATOR_TIMEOUT. 1 ms without a counterpart (R397). -/
  | comparatorTimeout (cmp1 : Bool) (pair : Nat) (trail : Bool) (window : W32)
  /-- VERDICT. A verdict flit arrives (R398). -/
  | verdict (pair : Nat) (cmp1 : Bool) (window : W32) (v : CmpVerdict)
  /-- VERDICT_TIMEOUT. 1.5 µs after one verdict (R398). -/
  | verdictTimeout (pair : Nat) (window : W32)
  /-- MIR_WINDOW_LONG. A window has been open 1 ms (R395). -/
  | mirWindowLong (core : Node)
  /-- RETRY_RESTART. The cores of a retry start again (R400). -/
  | retryRestart (pair : Nat)
  /-- LINK_TRAINING. A Dvorpo port trains (R407). -/
  | linkTraining (port : Nat) (lanes : List LaneState) (farGood : BitVec 4) (far : Option Ident)
  /-- TRAINING_RETRY. The 10 ms retry interval expires (R407). -/
  | trainingRetry (port : Nat)
  /-- LANE_LOCK_LOSS. A lane loses lock (R410). -/
  | laneLockLoss (port lane : Nat)
  /-- FLIT_RECEIVE. A 256-byte Dvorpo flit arrives (R412). -/
  | flitReceive (port : Nat) (bytes : List Byte)
  /-- REPLAY_TIMEOUT. 1 µs without an ACK (R413). -/
  | replayTimeout (port : Nat)
  /-- DV_LINK_DOWN. A port leaves ACTIVE (R417). -/
  | dvLinkDown (port : Nat)
  /-- FRAME_SIG. FRAME_SIG arrives (R421). -/
  | frameSig (m : FrameSigMsg)
  /-- FRAME_SIG_WAIT_EXPIRY. 180 µs after a frame end (R421). -/
  | frameSigWaitExpiry
  /-- TIME_REQ_INTERVAL. The 250 µs interval expires (R422). -/
  | timeReqInterval
  /-- TIME_REQ. TIME_REQ arrives (R422). -/
  | timeReq (t1 : W64) (corr : W32)
  /-- TIME_RESP. TIME_RESP arrives (R423). -/
  | timeResp (m : TimeRespMsg)
  /-- TIME_REPORT. TIME_REPORT arrives (R423). -/
  | timeReport (m : TimeReportMsg)
  /-- EXCHANGE_HOLD. 1 ms without an exchange (R424). -/
  | exchangeHold
  /-- HEARTBEAT_INTERVAL. The 1 ms heartbeat interval (R425). -/
  | heartbeatInterval
  /-- HEARTBEAT. HEARTBEAT arrives (R425). -/
  | heartbeat (b : Beat)
  /-- FAULT_STATE. FAULT_STATE arrives (R425). -/
  | faultState (fromPartner : Bool) (b : Beat) (src : W16)
  /-- PLAN_CHECK. PLAN_CHECK arrives (R425). -/
  | planCheck (m : PlanCheckMsg)
  /-- LOOP_PROPOSE. LOOP_PROPOSE arrives (R431). -/
  | loopPropose (e : W64) (frame : W32) (running : Bool)
  /-- RUNG_ENERGY. RUNG_ENERGY arrives (R214). -/
  | rungEnergy (rung : Nat) (frame : W32)
  /-- RUNG_FLOOR. RUNG_FLOOR arrives (R201). -/
  | rungFloor (floor : Nat) (frame : W32)
  /-- SPLIT_MOVE. SPLIT_MOVE arrives (R260). -/
  | splitMove (stream : Nat) (toHost : Bool) (frame : W32)
  /-- REALIGN_ENTER. REALIGN_ENTER arrives (R433). -/
  | realignEnter (frame : W32) (d : Int)
  /-- REALIGN_EXIT. REALIGN_EXIT arrives (R435). -/
  | realignExit (frame : W32)
  /-- SIDEBAND_TEST. SIDEBAND_TEST arrives (R430). -/
  | sidebandTest (phase : Nat) (result : Bool)
  /-- DATA_MESSAGE. A DATA message arrives (R427). -/
  | dataMessage (transfer off : Nat) (data : List Byte) (last : Bool)
  /-- PARTNER_LOST. 3 ms without a message of the partner (R426). -/
  | partnerLost
  /-- FAULT_IN. FAULT_IN is sensed high (R429). -/
  | faultIn
  /-- FAULT_IN_CLASSIFY. The partner fault is classified (R429). -/
  | faultInClassify (pulse : Bool)
  /-- DV_FAULT_PIN. FAULT_IN has read high for 10 ms (R430). -/
  | dvFaultPin
  /-- FAULT_RAISE. A fault line or fault flit reaches the collector (R441). -/
  | faultRaise (src : Source) (where_ : Inst) (detail : List Byte)
  /-- COL_CHANNEL_DIFFER. The reaction channels have differed for 100 ns (R445). -/
  | colChannelDiffer
  /-- TORCH_START. The torch plan is started (R454). -/
  | torchStart
  /-- TORCH_START_FAIL. 20 ms after detection (R454). -/
  | torchStartFail
  /-- TORCH_FRAME_START. A torch frame starts (R455). -/
  | torchFrameStart
  /-- QUIET_PERIOD_EXPIRY. An episode's quiet period runs out (R457). -/
  | quietPeriodExpiry (src : Source) (where_ : Inst)
  /-- ALIVE_TOGGLE. 500 µs pass (R447). -/
  | aliveToggle
  /-- WATCHDOG_REFRESH. The watchdog is refreshed (R447). -/
  | watchdogRefresh
  /-- LTN_WATCHDOG. A refresh has been missed (R447). -/
  | ltnWatchdog
  /-- SIO_SAMPLE. The bank samples its outputs (R522). -/
  | sioSample (pins : List PinSample)
  /-- POWER_ON. VDD_AON becomes valid (R367). -/
  | powerOn (flash : FlashEnv)
  /-- BOOT_COMPLETE. Boot completes (R361). -/
  | bootComplete (env : BootEnv)
  /-- WARM_RESET. DEV_RST_N is low for 10 µs (R366). -/
  | warmReset (flash : FlashEnv)
  /-- POWER_CYCLE. VDD_AON is below 0.5 V for 10 ms (R460). -/
  | powerCycle
  /-- CAN_WAKE. A CAN FD frame arrives (R384). -/
  | canWake (ident : BitVec 29)
  /-- PARKED_CHARGING_EXPIRY. PARKED_CHARGING is 1 s old (R382). -/
  | parkedChargingExpiry
  /-- DOMAIN_POWER_UP. Lantern powers a gated domain (R538). -/
  | domainPowerUp (domain : Nat)
  /-- DOMAIN_GATE. A request to gate a domain (R539). -/
  | domainGate (domain : Nat)
  /-- VOLTAGE_STEP. One adaptive voltage step (R467). -/
  | voltageStep (gallery : Nat)
  /-- PMBUS_POLL. Lantern polls a regulator; `none` is a failed transaction (R467). -/
  | pmbusPoll (reg : Nat) (word : Option W16)
  /-- I3C_READ. Lantern reads a board sensor (R468). -/
  | i3cRead (sensor : Nat) (v : W16)
  /-- LOG_FLUSH. Log records are flushed (R470). -/
  | logFlush
  /-- SPI_TRANSACTION. An SPI transaction is received (R471). -/
  | spiTransaction (mosi : List Byte) (edges : Nat)
  /-- SPI_STATUS. The STATUS request (R472). -/
  | spiStatus
  /-- GUARD_QUERY. GUARD_QUERY (R472). -/
  | guardQuery
  /-- ENDORSE. ENDORSE (R485). -/
  | endorse (payload : List Byte)
  /-- SPI_VETO. A VETO request (R487). -/
  | spiVeto (id : W32)
  /-- PARKED_CHARGING. The PARKED_CHARGING report (R381). -/
  | parkedCharging (on : Bool)
  /-- STANDBY. The standby request (R383). -/
  | standby
  /-- WAKE. The WAKE request (R384). -/
  | wake
  /-- SPI_RESET. The RESET request (R472). -/
  | spiReset (payload : List Byte)
  /-- LOG_READ. LOG_READ (R472). -/
  | logRead (seq : W32)
  /-- SPI_SILENCE. 100 ms without a valid SPI request (R473). -/
  | spiSilence
  /-- CONFIG_WRITE_DONE. A configuration write is verified (R475). -/
  | configWriteDone (ok : Bool)
  /-- PROPOSAL_EXPIRY. A proposal's deadline passes (R487). -/
  | proposalExpiry
  /-- FW_STAGE_DONE. Staging ends (R477). -/
  | fwStageDone (img : StageCheck) (writeOk : Bool)
  /-- RECONCILE_ROUND. A reconciliation round with dispatch firmware's view; `none` is a missed round (R480). -/
  | reconcileRound (dsp : Option (List (RUnit × UnitState)))
  /-- PARTNER_CHECK_TIMEOUT. 100 ms after LOOP_START (R347). -/
  | partnerCheckTimeout
  /-- DAP_ACCESS. A DAP access (R512). -/
  | dapAccess (core : Node) (op : DapOp)
  /-- JTAG_INSTRUCTION. A TAP instruction (R511). -/
  | jtagInstruction (ji : JtagInstr)
  /-- ATTACH. ATTACH, with the manifest object as fetched, `none` for POISON (R376), and AtomicOp Requester Enable as it stands (R286). -/
  | attach (man : Option Manifest) (atomicEn : Bool)
  /-- DETACH. DETACH (R380). -/
  | detach
  /-- TORN_READ. TORN_READ (R305). -/
  | tornRead
  /-- IDENTIFY. IDENTIFY (R341). -/
  | identify
  /-- OBJ_QUERY. OBJ_QUERY (R343). -/
  | objQuery
  /-- INVALIDATE. INVALIDATE (R325). -/
  | invalidate
  /-- EVT_QUERY. EVT_QUERY (R343). -/
  | evtQuery
  /-- INBOUND_BIND. INBOUND_BIND, with the object's descriptor as fetched (R297). -/
  | inboundBind (desc : List Byte)
  /-- INBOUND_UNBIND. INBOUND_UNBIND (R297). -/
  | inboundUnbind
  /-- PLAN_LOAD. PLAN_LOAD, with the context descriptor, the plan object and the descriptors of the objects it names as fetched (R357). -/
  | planLoad (ctx : List Byte) (img : Option PlanImage) (objs : List (Handle × List Byte))
  /-- PLAN_UNLOAD. PLAN_UNLOAD (R345). -/
  | planUnload
  /-- LOOP_START. LOOP_START (R347). -/
  | loopStart
  /-- LOOP_STOP. LOOP_STOP (R365). -/
  | loopStop
  /-- ADAPT_ENTER. ADAPT_ENTER (R381). -/
  | adaptEnter
  /-- ADAPT_RESULT. ADAPT_RESULT (R345). -/
  | adaptResult
  /-- ADAPT_EXIT. ADAPT_EXIT (R382). -/
  | adaptExit
  /-- CLIP_READ. CLIP_READ (R178). -/
  | clipRead
  /-- MEM_STATUS. MEM_STATUS (R192). -/
  | memStatus
  /-- CORE_STATUS. CORE_STATUS (R345). -/
  | coreStatus
  /-- STREAM_STATUS. STREAM_STATUS (R348). -/
  | streamStatus
  /-- RECORD_OPEN. RECORD_OPEN, with the file as read (R348). -/
  | recordOpen (file : Option MsrFile)
  /-- RECORD_CLOSE. RECORD_CLOSE (R348). -/
  | recordClose
  /-- INTAKE_COUNTERS. INTAKE_COUNTERS (R348). -/
  | intakeCounters
  /-- SPLIT_STATUS. SPLIT_STATUS (R348). -/
  | splitStatus
  /-- PRISM_STATUS. PRISM_STATUS (R348). -/
  | prismStatus
  /-- TIME_STATUS. TIME_STATUS (R272). -/
  | timeStatus
  /-- TIME_STEP. TIME_STEP (R273). -/
  | timeStep
  /-- TIME_CONFIG. TIME_CONFIG (R272). -/
  | timeConfig
  /-- TRIG_SET. TRIG_SET (R278). -/
  | trigSet
  /-- TRIG_STOP. TRIG_STOP (R272). -/
  | trigStop
  /-- ENERGY_BUDGET. ENERGY_BUDGET (R205). -/
  | energyBudget
  /-- ENERGY_LOOP. ENERGY_LOOP (R208). -/
  | energyLoop
  /-- ENERGY_STATUS. ENERGY_STATUS (R217). -/
  | energyStatus
  /-- ENERGY_THRESH. ENERGY_THRESH (R218). -/
  | energyThresh
  /-- PROPOSE. PROPOSE, with the staged object as fetched (R483). -/
  | propose (staged : Option (List Byte))
  /-- VETO. A host VETO (R487). -/
  | veto
  /-- GUARD_STATUS. GUARD_STATUS (R352). -/
  | guardStatus
  /-- RECOVER. RECOVER (R459). -/
  | recover
  /-- FAULT_READ. FAULT_READ (R462). -/
  | faultRead
  /-- SPARE_SUBSTITUTE. SPARE_SUBSTITUTE (R52). -/
  | spareSubstitute
  /-- RETIRE_CLEAR. RETIRE_CLEAR (R193). -/
  | retireClear
  /-- FW_STAGE. FW_STAGE, with the image's version and rollback step as its header in DRAM gives them (R476, R477). -/
  | fwStage (version : W32) (rollback : W32)
  /-- FW_ACTIVATE. FW_ACTIVATE (R478). -/
  | fwActivate
  /-- FW_STATUS. FW_STATUS (R354). -/
  | fwStatus
  /-- BOOT_MEASURE. BOOT_MEASURE (R373). -/
  | bootMeasure
  /-- TRACE_CONFIG. TRACE_CONFIG (R505). -/
  | traceConfig
  /-- TRACE_START. TRACE_START (R506). -/
  | traceStart
  /-- TRACE_STOP. TRACE_STOP (R355). -/
  | traceStop
  /-- TRACE_STATUS. TRACE_STATUS (R355). -/
  | traceStatus
  /-- FAULT_IN_LOW. FAULT_IN returns low (R429). -/
  | faultInLow
  /-- HOST_SNOOP. A host snoop (R292). -/
  | hostSnoop (obj : Handle) (line : Nat)
  /-- PHY_LOCK_REGAIN. A channel regains PHY lock (R193). -/
  | phyLockRegain (chan : Nat)
  /-- METER_THRESHOLD. A meter crosses its threshold or wraps (R218). -/
  | meterThreshold (m : Nat)
  /-- FOLLOW_UP. A Follow_Up (R267). -/
  | followUp (port : Nat) (domain : Byte) (seqId : W16) (originNs : Int) (cumRatePpb : Int)
  /-- TXTS_CONSUME. Lantern firmware consumes a transmit stamp (R277). -/
  | txtsConsume (port : Nat)
  /-- DISPATCH_RESTART. The dispatch complex finishes or misses its restart (R478). -/
  | dispatchRestart (ok : Bool)
deriving DecidableEq, Repr

end Sys2Proof
end

