-- ==== Sys2Proof/Machine/Map.lean ====
section
/-! DEFINITION. Sparse tables and byte memory: reading, writing in canonical form, little-endian fields. -/

namespace Sys2Proof.Machine

/-- The value at `k`; an unlisted key reads as the default `d`. -/
def getK {α : Type} (d : α) : SMap α → Nat → α
  | [], _ => d
  | e :: m, k => if e.1 = k then e.2 else getK d m k

/-- The table with `v` at `k`, keys rising, no entry equal to the default. -/
def putK {α : Type} [DecidableEq α] (d : α) : SMap α → Nat → α → SMap α
  | [], k, v => if v = d then [] else [(k, v)]
  | e :: m, k, v =>
    if k < e.1 then (if v = d then e :: m else (k, v) :: e :: m)
    else if k = e.1 then (if v = d then m else (k, v) :: m)
    else e :: putK d m k v

/-- Canonical form: keys strictly rising from above `lo`, no entry equal to the default. -/
def wfFrom {α : Type} [DecidableEq α] (d : α) : Nat → SMap α → Bool
  | _, [] => true
  | lo, e :: m => decide (lo ≤ e.1) && decide (e.2 ≠ d) && wfFrom d (e.1 + 1) m

/-- The canonical form of a table. -/
def wfK {α : Type} [DecidableEq α] (d : α) (m : SMap α) : Bool := wfFrom d 0 m

/-- Change the value at `k`. -/
def updK {α : Type} [DecidableEq α] (d : α) (m : SMap α) (k : Nat) (f : α → α) : SMap α :=
  putK d m k (f (getK d m k))

/-- Write `vs` at `k`, `k + 1`, …. -/
def putsK {α : Type} [DecidableEq α] (d : α) : SMap α → Nat → List α → SMap α
  | m, _, [] => m
  | m, k, v :: vs => putsK d (putK d m k v) (k + 1) vs

/-- The table of `f` on 0 … n − 1. -/
def tabulateK {α : Type} [DecidableEq α] (d : α) (n : Nat) (f : Nat → α) : SMap α :=
  (List.range n).filterMap (fun i => if f i = d then none else some (i, f i))

/-- One byte of memory. -/
def rd (m : Mem) (a : Nat) : Byte := getK 0 m a
/-- `n` bytes from `a` up. -/
def rdN (m : Mem) (a n : Nat) : List Byte := (List.range n).map (fun i => rd m (a + i))
/-- Write bytes at `a` up. -/
def wrN (m : Mem) (a : Nat) (bs : List Byte) : Mem := putsK 0 m a bs
/-- Write the bytes whose enable is set; an empty enable list enables every byte. -/
def wrEn : Mem → Nat → List Byte → List Bool → Mem
  | m, _, [], _ => m
  | m, a, b :: bs, [] => wrEn (putK 0 m a b) (a + 1) bs []
  | m, a, b :: bs, e :: es => wrEn (if e then putK 0 m a b else m) (a + 1) bs es

/-- The little-endian value of bytes (R3). -/
def leVal : List Byte → Nat
  | [] => 0
  | b :: bs => b.toNat + 256 * leVal bs
/-- `n` little-endian bytes of a value (R3). -/
def leBytes : Nat → Nat → List Byte
  | 0, _ => []
  | n + 1, v => BitVec.ofNat 8 v :: leBytes n (v / 256)
/-- The field of `n` bytes at `off` in a byte string; bytes beyond its end read 0 (R333). -/
def fld (bs : List Byte) (off n : Nat) : Nat := leVal ((bs.drop off).take n)
/-- `n` bytes at `off`, padded with zeros. -/
def sub (bs : List Byte) (off n : Nat) : List Byte :=
  let t := (bs.drop off).take n
  t ++ List.replicate (n - t.length) 0
/-- Two's-complement bytes of an integer. -/
def leInt (n : Nat) (v : Int) : List Byte := leBytes n (v % (2 ^ (8 * n) : Int)).toNat
/-- The signed value of an n-bit field. -/
def signed (n : Nat) (v : Nat) : Int := if v < 2 ^ (n - 1) then v else (v : Int) - 2 ^ n
/-- ⌈a / b⌉. -/
def ceilDiv (a b : Nat) : Nat := (a + b - 1) / b
/-- Little-endian bytes of a list of bits, eight to a byte. -/
def bitsToNat : List Bool → Nat
  | [] => 0
  | b :: bs => b.toNat + 2 * bitsToNat bs

end Sys2Proof.Machine
end

