-- ==== Sys2Proof/Machine/Crypto.lean ====
section
/-! DEFINITION. The check functions the spec names: CRC-32C, the signature CRC, SHA-256, HMAC-SHA-256, ECDSA P-256. -/

namespace Sys2Proof.Machine

/-- One bit of the reflected CRC-32C register. -/
def crc32cBit (c : W32) : W32 := if c.getLsbD 0 then (c >>> 1) ^^^ 0x82F63B78 else c >>> 1
/-- One byte of CRC-32C. -/
def crc32cByte (c : W32) (b : Byte) : W32 := Nat.repeat crc32cBit 8 (c ^^^ b.setWidth 32)
/-- CRC-32C as defined for MSR (R238): Castagnoli, reflected, initial and final all ones. -/
def crc32c (bs : List Byte) : W32 := (bs.foldl crc32cByte 0xFFFFFFFF) ^^^ 0xFFFFFFFF

/-- One bit of the signature CRC register. -/
def crc64Bit (c : W64) : W64 := if c.getLsbD 63 then (c <<< 1) ^^^ 0x42F0E1EBA9EA3693 else c <<< 1
/-- One byte of the signature CRC (R391): not reflected, no final XOR. -/
def crc64Byte (c : W64) (b : Byte) : W64 := Nat.repeat crc64Bit 8 (c ^^^ (b.setWidth 64 <<< 56))
/-- The signature CRC of bytes, from register `c` (R391). -/
def crc64 (c : W64) (bs : List Byte) : W64 := bs.foldl crc64Byte c

/-- Round constants of SHA-256. -/
def shaK : List W32 :=
  [0x428a2f98, 0x71374491, 0xb5c0fbcf, 0xe9b5dba5, 0x3956c25b, 0x59f111f1, 0x923f82a4, 0xab1c5ed5,
   0xd807aa98, 0x12835b01, 0x243185be, 0x550c7dc3, 0x72be5d74, 0x80deb1fe, 0x9bdc06a7, 0xc19bf174,
   0xe49b69c1, 0xefbe4786, 0x0fc19dc6, 0x240ca1cc, 0x2de92c6f, 0x4a7484aa, 0x5cb0a9dc, 0x76f988da,
   0x983e5152, 0xa831c66d, 0xb00327c8, 0xbf597fc7, 0xc6e00bf3, 0xd5a79147, 0x06ca6351, 0x14292967,
   0x27b70a85, 0x2e1b2138, 0x4d2c6dfc, 0x53380d13, 0x650a7354, 0x766a0abb, 0x81c2c92e, 0x92722c85,
   0xa2bfe8a1, 0xa81a664b, 0xc24b8b70, 0xc76c51a3, 0xd192e819, 0xd6990624, 0xf40e3585, 0x106aa070,
   0x19a4c116, 0x1e376c08, 0x2748774c, 0x34b0bcb5, 0x391c0cb3, 0x4ed8aa4a, 0x5b9cca4f, 0x682e6ff3,
   0x748f82ee, 0x78a5636f, 0x84c87814, 0x8cc70208, 0x90befffa, 0xa4506ceb, 0xbef9a3f7, 0xc67178f2]

/-- The working variables of SHA-256. -/
structure Sha where
  a : W32
  b : W32
  c : W32
  d : W32
  e : W32
  f : W32
  g : W32
  h : W32
deriving DecidableEq, Repr

/-- One round of SHA-256. -/
def shaRound (v : Sha) (kw : W32) : Sha :=
  let s1 := v.e.rotateRight 6 ^^^ v.e.rotateRight 11 ^^^ v.e.rotateRight 25
  let ch := (v.e &&& v.f) ^^^ (~~~v.e &&& v.g)
  let t1 := v.h + s1 + ch + kw
  let s0 := v.a.rotateRight 2 ^^^ v.a.rotateRight 13 ^^^ v.a.rotateRight 22
  let mj := (v.a &&& v.b) ^^^ (v.a &&& v.c) ^^^ (v.b &&& v.c)
  { a := t1 + s0 + mj, b := v.a, c := v.b, d := v.c, e := v.d + t1, f := v.e, g := v.f, h := v.g }

/-- Extend the message schedule by one word; the list is newest first. -/
def shaExtend (w : List W32) : List W32 :=
  let x := w.getD 1 0
  let y := w.getD 14 0
  let s1 := x.rotateRight 17 ^^^ x.rotateRight 19 ^^^ (x >>> 10)
  let s0 := y.rotateRight 7 ^^^ y.rotateRight 18 ^^^ (y >>> 3)
  (s1 + w.getD 6 0 + s0 + w.getD 15 0) :: w

/-- The big-endian 32-bit words of a block. -/
def beWords : Nat → List Byte → List W32
  | 0, _ => []
  | n + 1, bs => BitVec.ofNat 32 (leVal (bs.take 4).reverse) :: beWords n (bs.drop 4)

/-- One block of SHA-256. -/
def shaBlock (h : Sha) (blk : List Byte) : Sha :=
  let w := (Nat.repeat shaExtend 48 (beWords 16 blk).reverse).reverse
  let r := (List.zipWith (· + ·) shaK w).foldl shaRound h
  { a := h.a + r.a, b := h.b + r.b, c := h.c + r.c, d := h.d + r.d,
    e := h.e + r.e, f := h.f + r.f, g := h.g + r.g, h := h.h + r.h }

/-- Run SHA-256 over `n` blocks. -/
def shaBlocks : Nat → Sha → List Byte → Sha
  | 0, h, _ => h
  | n + 1, h, bs => shaBlocks n (shaBlock h (bs.take 64)) (bs.drop 64)

/-- Big-endian bytes of a word. -/
def be32 (x : W32) : List Byte := (leBytes 4 x.toNat).reverse

/-- SHA-256. -/
def sha256 (bs : List Byte) : List Byte :=
  let n := bs.length
  let pad := (119 - n % 64) % 64
  let msg := bs ++ [0x80] ++ List.replicate pad 0 ++ (leBytes 8 (8 * n)).reverse
  let h := shaBlocks (msg.length / 64)
    ⟨0x6a09e667, 0xbb67ae85, 0x3c6ef372, 0xa54ff53a, 0x510e527f, 0x9b05688c, 0x1f83d9ab, 0x5be0cd19⟩ msg
  be32 h.a ++ be32 h.b ++ be32 h.c ++ be32 h.d ++ be32 h.e ++ be32 h.f ++ be32 h.g ++ be32 h.h

/-- HMAC-SHA-256. -/
def hmacSha256 (key msg : List Byte) : List Byte :=
  let k0 := if key.length ≤ 64 then key else sha256 key
  let k := k0 ++ List.replicate (64 - k0.length) 0
  sha256 (k.map (· ^^^ 0x5C) ++ sha256 (k.map (· ^^^ 0x36) ++ msg))

/-- The field prime, group order and base point of P-256 (PRESUMED: FIPS 186; log entry 10). -/
def p256P : Nat := 0xffffffff00000001000000000000000000000000ffffffffffffffffffffffff
def p256N : Nat := 0xffffffff00000000ffffffffffffffffbce6faada7179e84f3b9cac2fc632551
def p256B : Nat := 0x5ac635d8aa3a93e7b3ebbd55769886bc651d06b0cc53b0f63bce3c3e27d2604b
def p256Gx : Nat := 0x6b17d1f2e12c4247f8bce6e563a440f277037d812deb33a0f4a13945d898c296
def p256Gy : Nat := 0x4fe342e2fe1a7f9b8ee7eb4a7c0f9e162bce33576b315ececbb6406837bf51f5

/-- x^e mod m by squaring over the low `n` bits of e. -/
def powModBits : Nat → Nat → Nat → Nat → Nat → Nat
  | 0, _, _, _, acc => acc
  | n + 1, x, e, m, acc => powModBits n (x * x % m) (e / 2) m (if e % 2 = 1 then acc * x % m else acc)
/-- The inverse modulo a prime of 256 bits. -/
def invMod (x m : Nat) : Nat := powModBits 256 (x % m) (m - 2) m 1

/-- A point of the curve; `none` is the point at infinity. -/
abbrev EcPoint := Option (Nat × Nat)

/-- Point addition on P-256. -/
def ecAdd (p q : EcPoint) : EcPoint :=
  match p, q with
  | none, q => q
  | p, none => p
  | some (x1, y1), some (x2, y2) =>
    if x1 = x2 ∧ (y1 + y2) % p256P = 0 then none
    else
      let l := if x1 = x2 then (3 * x1 * x1 + (p256P - 3)) * invMod (2 * y1) p256P % p256P
        else (y2 + p256P - y1) * invMod (x2 + p256P - x1) p256P % p256P
      let x3 := (l * l + 2 * p256P - x1 - x2) % p256P
      some (x3, (l * (x1 + p256P - x3) + p256P - y1) % p256P)

/-- Scalar multiplication over the low `n` bits. -/
def ecMulBits : Nat → Nat → EcPoint → EcPoint → EcPoint
  | 0, _, _, acc => acc
  | n + 1, k, p, acc => ecMulBits n (k / 2) (ecAdd p p) (if k % 2 = 1 then ecAdd acc p else acc)
/-- Scalar multiplication. -/
def ecMul (k : Nat) (p : EcPoint) : EcPoint := ecMulBits 256 k p none

/-- The big-endian value of bytes. -/
def beVal (bs : List Byte) : Nat := leVal bs.reverse

/-- ECDSA P-256 over a SHA-256 digest: `key` holds the point's coordinates, `sig` holds r and s, 32 bytes each,
big-endian (R356, R377, R476; byte order in log entry 10). -/
def ecdsaOk (key digest sig : List Byte) : Bool :=
  let r := beVal (sig.take 32)
  let s := beVal ((sig.drop 32).take 32)
  let qx := beVal (key.take 32)
  let qy := beVal ((key.drop 32).take 32)
  if r = 0 ∨ p256N ≤ r ∨ s = 0 ∨ p256N ≤ s then false
  else if p256P ≤ qx ∨ p256P ≤ qy ∨ (qy * qy) % p256P ≠ (qx * qx * qx + (p256P - 3) * qx + p256B) % p256P then false
  else
    let w := invMod s p256N
    match ecAdd (ecMul (beVal digest * w % p256N) (some (p256Gx, p256Gy))) (ecMul (r * w % p256N) (some (qx, qy))) with
    | none => false
    | some (x, _) => x % p256N = r

end Sys2Proof.Machine
end

