-- ==== Sys2Proof/Config.lean ====
section
/-! DEFINITION. What the spec leaves open: uninterpreted constants (free values), and the constants of one build. -/

namespace Sys2Proof.Config

/-- A free value (log entry 2): the n-th open value a step needs, as bits. Nothing constrains it. -/
opaque freeBits : Nat → (w : Nat) → BitVec w
/-- Reciprocal of an FP32 value: which of the FP32 values within 1 ulp the unit gives (R68; log entry 3). -/
opaque recipUlp : W32 → Bool
/-- A scalar shift by 32 or more: the spec states no result (log entry 13); operation, operand, amount. -/
opaque shiftOver : Nat → W32 → W32 → W32
/-- The predicate bit of a compare whose lane packs several elements: the spec does not say which decides (log entry 13). -/
opaque packedCmp : Nat → W32 → W32 → Bool
/-- Reciprocal of zero or of an infinity: R68 states no result (log entry 3). -/
opaque recipSpecial : W32 → W32
/-- Reciprocal square root: which of the FP32 values within 1 ulp the unit gives (R68; log entry 3). -/
opaque rsqrtUlp : W32 → Bool
/-- Reciprocal square root of a zero, a negative value or an infinity: R68 states no result (log entry 3). -/
opaque rsqrtSpecial : W32 → W32
/-- exp of an FP32 value where neither overflow, underflow nor NaN applies (R68: within 2 ulp; log entry 3). -/
opaque expValue : W32 → W32
/-- log of a positive FP32 value (R68: within 2 ulp; log entry 3). -/
opaque logValue : W32 → W32
/-- tanh of an FP32 value that is no NaN (R68: absolute error at most 2^-22; log entry 3). -/
opaque tanhValue : W32 → W32
/-- sigmoid of an FP32 value that is no NaN (R68: absolute error at most 2^-22; log entry 3). -/
opaque sigmoidValue : W32 → W32
/-- The plan-signing and manifest-signing public keys: x then y, 32 bytes each (R474: provisioning only). -/
opaque planKey : List Byte
opaque manifestKey : List Byte
/-- The wake CAN identifier (R384, R474: provisioning only). -/
opaque wakeId : BitVec 29
/-- The serial number fused into the part (R566: "Fused"). -/
opaque serial : BitVec 128
/-- The endorsement key in OTP (R465); no interface reads it. -/
opaque endorseKey : List Byte
/-- Installed DRAM bytes of one channel (R189: up to 8 GiB each). -/
opaque dramPerChannel : Nat
/-- The dispatch firmware's planner version (R118, R357). -/
opaque plannerVersion : W32
/-- The random challenge that Lantern's generator draws for the n-th proposal (R484). -/
opaque challenge : Nat → W32
/-- The source kind of an event record other than STATE_CHANGE (R313: each raising chapter defines it, and none gives its
code; log entry 26). -/
opaque evtKind : Nat → W16
/-- The nonzero session value that the n-th session gets (R376: never reused since power-on). -/
opaque session : Nat → W32

/-- The wait in ms that a BUSY_RETRY response suggests, by situation, where no rule states it (R336; log entry 2). -/
opaque suggestedWait : Nat → W16

/-- The fused voltage–frequency table: how far each entry of a gallery lies from the nominal table, less 30 mV (R536: within
±30 mV; log entry 2); only the value modulo 61 counts. -/
opaque vfTrim : Nat → Nat → Nat

/-- The IDCODE that the TAP shifts out (R509 gives no value; log entry 2). -/
opaque idcode : W32

end Sys2Proof.Config
end

