-- ==== Sys2Proof/Machine/State.lean ====
section
/-! DEFINITION. The machine's state: every register, buffer, counter, mode and pin the spec gives the block, as plain data.
Each field names the rule that gives it, its width and its reset value; `dc` marks a reset value the spec does not give
(log entry 1). A structure's defaults are its reset values, and `State.reset` is the structure of defaults. -/

namespace Sys2Proof.Machine

/-- Why the block stops: no rule of the spec stops the block without an effect, so no meaning raises it (log entry 5); safe. -/
inductive Fault
  /-- Raised by no meaning; safe. -/
  | none
deriving DecidableEq, Repr

/-- Why a command has no meaning. -/
inductive Refusal
  /-- Raised by `exec` for a command without a meaning yet; safe. -/
  | notModelled (mnemonic : String)
deriving DecidableEq, Repr

/-- Fault classes (R442). -/
inductive Cls | c0 | c1 | c2 | c3 | c4
deriving DecidableEq, Repr

/-- Device states (R11), with the two that no host sees: AON_ONLY (R13, R384) and the boot halt (R370). -/
inductive DevState
  | booting | ready | attached | running | adapting | degraded | safeHold | locked | realign | aonOnly | bootHalt
deriving DecidableEq, Repr

/-- One entry of the substitution map (R52): a logical site of a gallery served by spare 0 (6,0) or 1 (6,5). -/
structure Subst where
  gallery : BitVec 2
  column : BitVec 3
  row : BitVec 3
  spare : Nat
deriving DecidableEq, Repr

/-- The identity and state block and what belongs to the device as a whole. -/
structure Dev where
  /-- DEVSTATE.STATE (R11, R362; 4 bits; reset BOOTING). -/
  state : DevState := .booting
  /-- DEVSTATE.PRIOR (R12, R362; 4 bits; reset 0, which is `none`). -/
  prior : Option DevState := none
  /-- DEVSTATE.DISPATCH_UP (R362; 1 bit; reset 0). -/
  dispatchUp : Bool := false
  /-- DEVSTATE.MANIFEST (R362; 1 bit; reset 0). -/
  manifestLoaded : Bool := false
  /-- DEVSTATE.BOOTED_ALT (R362, R369; 1 bit; reset 0). -/
  bootedAlt : Bool := false
  /-- DEVSTATE.SITES_LOST (R362, R54; 1 bit; reset 0). -/
  sitesLost : Bool := false
  /-- DEVSTATE.STATE_SEQ (R362, WRAP; 16 bits; reset 0). -/
  stateSeq : W16 := 0
  /-- DSP_FW_VER (R566; 64 bits; reset 0). -/
  dspFwVer : W64 := 0
  /-- LTN_FW_VER (R566; 64 bits; dc 0). -/
  ltnFwVer : W64 := 0
  /-- SCRATCH (R570; 32 bits; reset 0). -/
  scratch : W32 := 0
  /-- AR_SESSION (R376, R576; 32 bits; reset 0: no session). -/
  session : W32 := 0
  /-- Session values issued since power-on, none of which is issued again (R376; 32 bits each; reset empty). -/
  sessions : List W32 := []
  /-- The substitution map as the latest plan load took it (R52; reset empty). -/
  subst : List Subst := []
  /-- Core sites marked unavailable (R54; list of nodes; reset empty). -/
  unavailable : List Node := []
  /-- Words latched by a read of a 64-bit low half or of LTC_LO, by BAR0 offset, until they are read (R7, R282; 32 bits each; reset none). -/
  hiLatch : SMap (Option W32) := []
  /-- Attach-record words latched by AR_SESSION reads, by offset (R578; 32 bits each; `none` before the first read). -/
  arLatch : Option (List W32) := none
  /-- The low half of QUEUE_DB held per requester ID (R564; 32 bits each; reset none). -/
  qdbLow : SMap (Option W32) := []
  /-- The straps as sampled at power-on: FLASH_0, FLASH_1, TEST (R530; 3 bits; dc 0). -/
  straps : BitVec 3 := 0
  /-- The LOCKED latch that only a power cycle clears (R460, R366; 1 bit; reset 0). -/
  lockedLatch : Bool := false
  /-- What a boot halt names: the failed check of Lantern slots A and B (0 none, 1 header, 2 signature, 3 rollback), and the strap
  (0 none, 1 FLASH, 2 TEST) (R370, R530; dc 0). -/
  haltCheck : Nat × Nat × Nat := (0, 0, 0)
  /-- Both images of this boot came from their active slots (R479; 1 bit; reset 0). -/
  bootClean : Bool := false
deriving DecidableEq, Repr

/-- Slot states of a mailbox (R330). -/
inductive SlotPhase | free | busy | done
deriving DecidableEq, Repr

/-- One mailbox slot (R330). -/
structure Slot where
  /-- FREE, BUSY or DONE (R330; reset FREE). -/
  phase : SlotPhase := .free
  /-- TAG of the doorbell (R329; 16 bits; dc 0). -/
  tag : W16 := 0
  /-- LTC at which the doorbell arrived, for the response limits (R334; 64 bits; dc 0). -/
  ltc : W64 := 0
  /-- MB_LATE has been raised for this command (R334; 1 bit; reset 0). -/
  late : Bool := false
deriving DecidableEq, Repr

/-- A waiting command (R334): judged, its response still to come. -/
structure Waiting where
  slot : Nat
  opcode : W16
  /-- Session-independent data of the command: TIME_STEP mode, value and LTC; LOOP_START's context; LOOP_STOP's frame. -/
  args : List Nat
  /-- LTC at which the wait ends (R347). -/
  limit : W64
deriving DecidableEq, Repr

/-- One mailbox (R328–R335). -/
structure Mbx where
  /-- MB_STATUS.SERVICE (R329; 1 bit; reset 0). -/
  service : Bool := false
  /-- The eight slots (R330; reset all FREE; unlisted slots are FREE). -/
  slots : SMap Slot := []
  /-- REQ_s, byte i of slot s at s × 256 + i (R329; 2 KiB; reset 0). -/
  req : Mem := []
  /-- RSP_s, byte i of slot s at s × 256 + i (R329; 2 KiB; reset 0). -/
  rsp : Mem := []
  /-- IRQ_EN (R329; 1 bit; reset 1). -/
  irqEn : Bool := true
  /-- MB_BAD_CNT and MB_BAD_SAT (R329; 16 bits STICK and flag; reset 0). -/
  bad : Stick 16 := {}
  /-- Slots rung and not yet judged, in doorbell order (R334; reset empty). -/
  fifo : List Nat := []
  /-- Waiting commands judged and not answered (R334; reset empty). -/
  waiting : List Waiting := []
deriving DecidableEq, Repr

/-- One urgent report (R338). -/
structure Report where
  source : Source
  cls : Cls
  /-- Byte 7: [0] a counter named in the payload is at maximum, [1] from the partner; FIRST_LTC and LATEST_LTC (R338, R461; 1, 1, 64 and 64 bits). -/
  saturated : Bool := false
  fromPartner : Bool := false
  first : W64
  latest : W64
  /-- OCCUR with OCCUR_SAT, DEVSTATE[7:0] and the frame at the first raise (R338; 16 bits STICK, 8 and 32 bits). -/
  occur : Stick 16 := {}
  devstate : Byte
  frame : W32
  /-- Bytes 32–59: the source payload (R463; 28 bytes). -/
  payload : List Byte
deriving DecidableEq, Repr

/-- The urgent slot and the reports behind it (R338, R339). -/
structure Urg where
  /-- The report shown with its URG_SEQ, or empty (R338; 64 bytes; reset 0). -/
  slot : Option (W32 × Report) := none
  /-- Reports waiting behind the slot, one per source (R339; reset empty). -/
  pending : List Report := []
  /-- The next URG_SEQ (R338; 32 bits WRAP skipping 0; reset 1). -/
  seq : W32 := 1
deriving DecidableEq, Repr

/-- A reaction-table entry (R443; 16 bytes). -/
structure RTEntry where
  source : W16
  clsS : Cls
  clsN : Cls
  reportS : Bool := false
  reportN : Bool := false
  torchOk : Bool := false
  level : Bool := false
  sticky : Bool := false
  quiet : Nat := 0
  scope : Nat := 1
deriving DecidableEq, Repr

/-- An entry of the collector's active table (R462). -/
structure Active where
  source : Source
  inst : Inst
  safety : Bool
  cls : Cls
  /-- The source is raised now (a LEVEL source's condition holds, R457). -/
  raised : Bool
  /-- A recovery episode is open (R457). -/
  episode : Bool := false
  /-- A C3 or C4 cause not yet cleared (R459). -/
  cause : Bool := false
  /-- The episode's quiet period has run out, so the recovery action is due at the next frame start (R457); LTC of the first and of the latest raise (R462; 64 bits each). -/
  expired : Bool := false
  first : W64
  latest : W64
  /-- LTC from which the quiet period runs (R457, R459). -/
  quietFrom : W64
  /-- The episode's quiet period in ms and its scope as they stood when it opened (R444), occurrences (R462; 16 bits STICK), escalated (R458), reported by the partner (R429), frame of the latest raise. -/
  quiet : Nat
  scope : Nat
  cnt : Stick 16 := {}
  escalated : Bool := false
  fromPartner : Bool := false
  frame : W32
deriving DecidableEq, Repr

/-- Why torch is not running (R463 byte 39 [4:2]). -/
inductive TorchReason | none | noTorchOk | inTorch | stream | c4 | startFail
deriving DecidableEq, Repr

/-- One reaction channel (R445). -/
structure ReactChan where
  /-- Highest class registered and in force (R445; reset C0). -/
  highest : Cls := .c0
  /-- The channel asserts the pins (R445, R464 FC_PINS [8], [9]; reset asserting, R364). -/
  asserting : Bool := true
deriving DecidableEq, Repr

/-- Level of FAULT_OUT (R428, R445, R446). -/
inductive FaultOut | low | marked | high
deriving DecidableEq, Repr

/-- The fault collector (R439–R464). -/
structure Fc where
  /-- The active table, at most 256 entries (R462; reset empty). -/
  active : List Active := []
  /-- FC_STATUS.TABLE_FULL (R462, R464; 1 bit; reset 0). -/
  tableFull : Bool := false
  /-- RECOVERY_CNT and its flag (R458; 8 bits STICK; reset 0). -/
  recovery : Stick 8 := {}
  /-- C3 sources raised since the reaction began, for the torch conditions (R454; reset empty). -/
  c3List : List (Source × Inst) := []
  /-- LTC of the detection that began the C3 reaction (R445; 64 bits; dc 0). -/
  c3At : W64 := 0
  /-- A C3 reaction is in force (R464 FC_STATUS [3]; reset 0). -/
  c3 : Bool := false
  /-- A C4 reaction is in force (R464 FC_STATUS [4]; reset 0). -/
  c4 : Bool := false
  /-- The torch plan runs (R455, R464 FC_STATUS [5]; reset 0). -/
  torch : Bool := false
  /-- Torch was refused or failed since the reaction began, and why (R463; reset none). -/
  torchReason : TorchReason := .none
  /-- FC_LAST_LTC (R464; 64 bits; dc 0). -/
  lastLtc : W64 := 0
  /-- FC_LAST_SRC: source code and class (R464; 16 and 3 bits; dc 0). -/
  lastSrc : W16 := 0
  /-- FC_LAST_SRC's class (R464; 3 bits; dc 0). -/
  lastCls : Cls := .c0
  /-- FC_LAST_INST (R464; 32 bits; dc 0). -/
  lastInst : W32 := 0
  /-- The two reaction channels (R445). -/
  chan0 : ReactChan := {}
  chan1 : ReactChan := {}
  /-- SAFE_A level (R364; 1 bit; reset 1: asserted by hardware default, R367). -/
  safeA : Bool := true
  /-- SAFE_B_N level (R364; 1 bit; reset 0: asserted). -/
  safeBN : Bool := false
  /-- LTC of the last change of the level driven on the SAFE pins, on ALIVE and on FAULT_OUT (R522: a pin is not sampled for 5 µs
  after it; 64 bits each; reset none). -/
  safeAt : Option W64 := none
  aliveAt : Option W64 := none
  faultAt : Option W64 := none
  /-- ALIVE level (R364; 1 bit; reset 0). -/
  alive : Bool := false
  /-- ALIVE is allowed to toggle (R364, R447; reset 0: low until the start-up pattern passes). -/
  aliveRun : Bool := false
  /-- FAULT_OUT drive (R428; reset steady high: BOOTING before the pattern). -/
  faultOut : FaultOut := .high
  /-- FAULT_IN as sensed after filtering (R429, R464; 1 bit; reset 0). -/
  faultIn : Bool := false
  /-- LTC at which FAULT_IN was sensed high (R429; 64 bits; dc 0). -/
  faultInAt : W64 := 0
  /-- FAULT_IN returned low since it was sensed (R429; 1 bit; reset 0). -/
  faultInFell : Bool := false
  /-- The sensed FAULT_IN assertion has been classified, with the class (R429; reset none). -/
  partnerClass : Option Cls := none
deriving DecidableEq, Repr

/-- A log record (R469). -/
structure LogRec where
  seq : W32
  ltc : W64
  kind : Byte
  cls : Byte
  code : W16
  /-- Twelve payload bytes (R469). -/
  payload : List Byte
deriving DecidableEq, Repr

/-- The log (R469, R470). -/
structure Log where
  /-- The SRAM ring: the latest 2048 records, oldest first (R470; 64 KiB; reset empty). -/
  ring : List LogRec := []
  /-- Records flushed to flash, oldest first (R470; 4 MiB; reset empty, dc). -/
  flash : List LogRec := []
  /-- Sequence number of the next record (R469; 32 bits WRAP; dc 0). -/
  seq : W32 := 0
  /-- Sequence number of the first record not yet flushed (R470; 32 bits; dc 0). -/
  flushed : W32 := 0
  /-- A record of class C2 or higher waits for its forced flush (R470; 1 bit; reset 0). -/
  urgentFlush : Bool := false
  /-- The range lost by overwriting before a flush, to be named by a LOG_GAP record (R470; reset none). -/
  gap : Option (W32 × W32) := none
deriving DecidableEq, Repr

/-- One pair of a mirror map (R385, R488). Cores are nodes; `lead` and `trail` are logical cores. -/
structure MapPair where
  pair : Nat
  retry : Bool
  skew : BitVec 11
  lead : Node
  trail : Node
  cmp0 : Node
  cmp1 : Node
  suppress : W16
  deadline : Nat
  dRun : Nat
  ckpt : List (Nat × Nat)
  ckptScl : Bool := false
  ckptA1 : Bool := false
deriving DecidableEq, Repr

/-- A mirror map, keyed by plan digest (R385). -/
structure MirrorMap where
  plan : List Byte
  pairs : List MapPair
deriving DecidableEq, Repr

/-- Committed and previous scale-set digests of one plan (R180, R474). -/
structure ScaleRec where
  plan : List Byte
  committed : List Byte
  previous : List Byte
deriving DecidableEq, Repr

/-- A supervised output's mode (R474, R526): pin code, drive, load 0 NONE 1 PULL_UP 2 PULL_DOWN, open detection, R_min and R_max in 100 Ω. -/
structure SioMode where
  pin : Nat
  openDrain : Bool
  load : Nat
  openDetect : Bool
  rMin : Nat
  rMax : Nat
deriving DecidableEq, Repr

/-- The configuration area in force (R474). Provisioned keys and identifiers are constants of Config. -/
structure CfgArea where
  /-- Sequence number of the copy in use (R475; 32 bits; dc 0). -/
  seq : W32 := 0
  /-- Committed manifest digest (R376, R379; 32 bytes; reset none, dc). -/
  manifestDigest : Option (List Byte) := none
  /-- Reaction-table entries (R443; at most 256; reset none: the firmware's default table). -/
  table : List RTEntry := []
  /-- DEFAULT_QUIET in ms (R443, FC_QUIET R464; 16 bits; reset 50). -/
  defaultQuiet : Nat := 50
  /-- RECOVERY_LIMIT (R443, R464; 1–32; reset 8). -/
  recoveryLimit : Nat := 8
  /-- Mirror maps, at most 8 (R385; reset none). -/
  maps : List MirrorMap := []
  /-- Supervised-pin modes (R474; reset none: the defaults of R521). -/
  sioModes : List SioMode := []
  /-- UE_RETIRE (R193, R488; 1–16; reset 4). -/
  ueRetire : Nat := 4
  /-- Committed and previous scale digests per plan (R180; reset none). -/
  scales : List ScaleRec := []
  /-- Ceiling C in mW, CEILING_MW (R215, R217; 32 bits; reset 68000). -/
  ceiling : Nat := 68000
  /-- Substitution map (R52; reset empty). -/
  subst : List Subst := []
  /-- Retirement record: DRAM pairs retired (R193; 2 bits; reset none). -/
  retired : List Nat := []
  /-- The debug lock: bit 0 JTAG, bit 1 data trace, bit 2 UART input locked (R509, R510, TRC_LOCK R506; 3 bits; reset all set). -/
  lock : BitVec 3 := 7
deriving DecidableEq, Repr

/-- Phases of a proposal (R352 GUARD_STATUS). -/
inductive GPhase | none | awaiting | endorsed | applied | vetoed | expired
deriving DecidableEq, Repr

/-- What an endorsed proposal changes (R353). -/
inductive GChange
  | none
  | config (b : List Byte)
  | manifest (digest : List Byte)
  | scaleCommit (plan candidate : List Byte)
  | scaleRevert (plan previous : List Byte)
  | ceiling (mw : Nat)
  | debugUnlock (bits : Nat)
  | spare (e : Subst) (revoke : Bool)
  | retireClear (pair : Nat)
deriving DecidableEq, Repr

/-- The guarded proposal (R484–R487). -/
structure Guard where
  /-- Last proposal ID (R484; 32 bits WRAP; reset 0: none yet). -/
  id : W32 := 0
  /-- Phase (R352; reset NONE). -/
  phase : GPhase := .none
  /-- Kind code (R353; 8 bits; dc 0). -/
  kind : Byte := 0
  /-- Digest (R353; 32 bytes; dc empty). -/
  digest : List Byte := []
  /-- Plan digest (R353; 32 bytes; dc empty). -/
  planDigest : List Byte := []
  /-- Argument bytes 0–15 of the proposal (R472 GUARD_QUERY; 16 bytes; dc empty). -/
  args : List Byte := []
  /-- Challenge (R484; 32 bits; dc 0). -/
  challenge : W32 := 0
  /-- LTC of the deadline, or of application once APPLIED (R352; 64 bits; dc 0). -/
  deadline : W64 := 0
  /-- Challenges drawn (index into the random generator; model's count; reset 0). -/
  drawn : Nat := 0
  /-- The change (R353). -/
  change : GChange := .none
  /-- A configuration write for the change runs (R475; reset 0). -/
  writing : Bool := false
  /-- The write has completed and is verified (R475, R486; reset 0). -/
  written : Bool := false
  /-- GUARD_FAIL_CNT (R485; 16 bits STICK; reset 0). -/
  failCnt : Stick 16 := {}
deriving DecidableEq, Repr

/-- One firmware body's two slots (R476–R479). -/
structure FwSlots where
  /-- Slot B is the active slot (R369; 1 bit; dc slot A). -/
  activeB : Bool := false
  /-- The images in slot A and slot B as last read (R369, R476; dc a well-formed image of version 0). -/
  slotA : SlotCheck := { wellFormed := true, signatureOk := true, rollback := 0, version := 0, digest := [] }
  slotB : SlotCheck := { wellFormed := true, signatureOk := true, rollback := 0, version := 0, digest := [] }
  /-- The non-active slot holds a verified staged image: it reads "done" (R478; reset 0). -/
  staged : Bool := false
  /-- This boot's image came from slot B (R369; dc 0). -/
  bootedB : Bool := false
deriving DecidableEq, Repr

/-- Firmware staging (R354 FW_STATUS). -/
inductive StagePhase | idle | verifying | writing | done | failed
deriving DecidableEq, Repr

/-- Lantern: the safety-MCU port, guarded configuration, firmware, sensors and reconciliation. -/
structure Ltn where
  /-- The configuration area in force (R474). -/
  cfg : CfgArea := {}
  /-- The guarded proposal (R484). -/
  guard : Guard := {}
  /-- SPI_BAD_CNT (R471; 16 bits STICK; reset 0). -/
  spiBad : Stick 16 := {}
  /-- LTC of the last valid SPI request (R353, R473; 64 bits; reset none). -/
  spiLast : Option W64 := none
  /-- LTC at which the last transaction ended (R471; 64 bits; reset none). -/
  spiEnd : Option W64 := none
  /-- The response that the next transaction carries: TYPE, SEQ, RESULT and payload (R471; reset none: a STATUS response). -/
  spiNext : Option (Byte × W16 × Byte × List Byte) := none
  /-- The loss of requests has been logged (R473; reset 0). -/
  spiLost : Bool := false
  /-- LTC of the last PARKED_CHARGING report while it says parked and charging (R381; reset none). -/
  parked : Option W64 := none
  /-- Adaptive voltage is frozen (R467; 1 bit; reset 0). -/
  pmbusFrozen : Bool := false
  /-- The last VOUT_COMMAND per gallery rail in mV (R467; 16 bits each; dc 0). -/
  vout : SMap Nat := []
  /-- LTC of the last voltage step per rail (R467; dc 0). -/
  voutAt : SMap W64 := []
  /-- STATUS_WORD of each regulator (R467; 16 bits each; dc 0). -/
  pmStatus : SMap W16 := []
  /-- Consecutive failed transactions per regulator (R467; reset 0). -/
  pmFail : SMap Nat := []
  /-- I3C board-sensor readings (R468; 16 bits each; dc 0). -/
  i3c : SMap W16 := []
  /-- Firmware slots (R476–R479). -/
  fwLantern : FwSlots := {}
  fwDispatch : FwSlots := {}
  /-- Boot record sequence number (R369, R478; 32 bits; dc 0). -/
  bootSeq : W32 := 0
  /-- OTP anti-rollback steps used (R479; 0–64; dc 0). -/
  otpSteps : Nat := 0
  /-- FW_STATUS phase (R354; reset idle). -/
  stage : StagePhase := .idle
  /-- The image being staged: target, DRAM offset and length (R354; reset none). -/
  stageImg : Option (FwBody × Nat × Nat) := none
  /-- FW_STATUS failure status (R354; 16 bits; reset 0). -/
  stageFail : W16 := 0
  /-- A dispatch restart after FW_ACTIVATE runs since this LTC (R478, R482; reset none). -/
  restart : Option W64 := none
  /-- MEAS_CHAIN (R373; 32 bytes; reset 32 zero bytes). -/
  chain : List Byte := List.replicate 32 0
  /-- Measurement log entries 1 on: code and digest, at most 64 (R373; reset empty). -/
  meas : List (W32 × List Byte) := []
  /-- Dispatch firmware's view as its last round sent it: the units that are not UP (R480; reset none). -/
  viewDsp : List (RUnit × UnitState) := []
  /-- Units whose views differed in the last round (R481; reset none). -/
  differ : List RUnit := []
  /-- Units whose effective state a disagreement made UNAVAILABLE, with the LTC of the last raise, none when the next round raises (R481; reset none). -/
  disagree : List (RUnit × Option W64) := []
  /-- Consecutive rounds dispatch firmware missed (R482; reset 0). -/
  missed : Nat := 0
  /-- Junction temperatures in 0.01 °C by sensor (R466; 40 sensors of which 4 per gallery, 8 on the hub; dc 0). -/
  tj : SMap Int := []
  /-- Junction sensors whose last sample was above 125 °C (R466; reset none). -/
  tjHot : List Nat := []
  /-- Rail currents in mA by rail (R466; dc 0). -/
  railMa : SMap Nat := []
  /-- LTC of the last refresh of the supervised bank's watchdog (R447; dc 0). -/
  wdogAt : W64 := 0
  /-- The manifest's in-use mask of FSYNC and LTRIG outputs (R527; 16 bits; reset 0). -/
  sioMask : W16 := 0
  /-- A copy of the configuration area is valid (R372; dc 1). -/
  cfgValid : Bool := true
  /-- The running Lantern image came from its non-active slot (R362, R369; reset 0). -/
  fallback : Bool := false
  /-- Lantern firmware runs: step 3 of R367 has passed (R472; 1 bit; reset 0). -/
  fw : Bool := false
deriving DecidableEq, Repr

/-- Bodies of CONTROL messages that the block's agents send (R37). -/
inductive Ctl
  | quiesced (discarded poisoned abandoned : Nat)
  | freq (units : Nat)
  | start
  | stop
  | pace (count : W32)
  | sig (m : SigMsg)
  | verdict (pair : Byte) (cmp : Bool) (window : W32) (v : CmpVerdict)
  | fault (s : Source)
  | kvFetch (seq : Nat) (pages : List Nat)
  | kvPlace (body : List Byte)
  | kvSeal (body : List Byte)
deriving DecidableEq, Repr

/-- Fabric messages that the block's agents send (R37). -/
inductive FabMsg
  | data (m : DataMsg)
  | readReq (r : FabReq)
  | writeReq (r : FabReq)
  | reply (dst : Node) (tag : W16) (st : FabStatus) (data : List Byte)
  | credit (dst : Node) (route : Nat)
  | nack (dst : Node) (what : NackOf)
  | control (src dst : Node) (c : Ctl)
deriving DecidableEq, Repr

/-- A posted write to host memory (R293, R304): to an object, or to a host-table field (`obj` empty). -/
structure Posted where
  obj : Option Handle
  addr : W64
  data : List Byte
deriving DecidableEq, Repr

/-- What the block sends out: the model's own record of its outputs, oldest first. -/
inductive Out
  /-- An MSI-X message (R302). -/
  | msix (vec : Nat)
  /-- A posted write that has entered the link (R293, R294). -/
  | hostWrite (w : Posted)
  /-- A non-posted read of host memory: object and offset, or a table address (R296). -/
  | hostRead (tag : Nat) (obj : Option Handle) (addr : W64) (len : Nat)
  /-- An AtomicOp on host memory (R286, R319). -/
  | hostAtomic (tag : Nat) (obj : Option Handle) (addr : W64) (op : AtomicOp) (wide : Bool) (a b : W64)
  /-- A completion of a host read or atomic to a BAR (R289, R290): data, EP, Unsupported Request or Completer Abort. -/
  | completion (data : List Byte) (ep ur ca : Bool)
  /-- A fabric message (R37). -/
  | fab (m : FabMsg)
  /-- A Dvorpo MSG flit: port, SEQ, channel, source, destination, HOPS, MSG_ID, CORR, FIRST, LAST, payload (R411). -/
  | dv (port : Nat) (seq : BitVec 12) (chan src dst hops : Nat) (msgId : W16) (corr : W32) (first last : Bool) (payload : List Byte)
  /-- A Dvorpo IDLE flit with an ACK or NAK of a sequence number (R411, R412). -/
  | dvAck (port : Nat) (nak : Bool) (seq : BitVec 12)
  /-- A response frame on MISO (R471): 128 bytes. -/
  | spi (frame : List Byte)
  /-- A gPTP message: kind, port and sequence number (R267): 0 Pdelay_Req, 1 Pdelay_Resp, 2 Pdelay_Resp_Follow_Up. -/
  | gptp (kind port : Nat) (seq : W16)
  /-- An FSYNC or LTRIG output driven (R278): output and level. -/
  | trig (n : Nat) (level : Bool)
  /-- A PMBus write (R467): gallery rail and mV. -/
  | pmbus (rail mv : Nat)
  /-- Bits shifted out of the TAP or a DAP reply (R509–R512). -/
  | debug (data : List Byte)
  /-- A BAR0 read's value (R4, R563). -/
  | bar0 (off : Nat) (v : W64)
deriving DecidableEq, Repr

/-- One inbound window (R297–R301). -/
structure InbWin where
  /-- INB_CFG[0] bound (R301; 1 bit; reset 0). -/
  bound : Bool := false
  /-- INB_CFG[3:2] + 1, NB (R301; 1–4; dc 1). -/
  nb : Nat := 1
  /-- INB_CFG[31:12] BUFSZ in 4 KiB units (R301; 20 bits; reset 0). -/
  bufsz : Nat := 0
  /-- INB_OBJ (R301; 18 bits; reset 0). -/
  obj : Handle := 0
  /-- Bound event (R297; 16 bits; reset 0). -/
  event : W16 := 0
  /-- Stream ID or 0xFF (R297; 8 bits; dc 0xFF). -/
  stream : Byte := 0xFF
  /-- INB_RID: filter enabled and requester ID (R301; 17 bits; reset 0). -/
  filter : Bool := false
  rid : W16 := 0
  /-- INB_STATUS[3:0] HELD bitmap, and the frame each HELD buffer's unit is assigned to (R300, R301; reset none). -/
  held : List (Nat × Option W32) := []
  /-- Buffers whose next doorbell delivers a CORRUPT unit (R298; reset none). -/
  corrupt : List Nat := []
  /-- INB_STATUS[31:16], last doorbell sequence (R301; 16 bits; reset 0). -/
  seq : W16 := 0
  /-- INB_DB_LTC (R301; 64 bits; reset 0). -/
  dbLtc : W64 := 0
  /-- INB_OOR_CNT, INB_REJ_CNT, INB_HELD_CNT with flags INB_FLAGS[2:0] (R298, R301; 16 bits STICK each; reset 0). -/
  oor : Stick 16 := {}
  rej : Stick 16 := {}
  heldCnt : Stick 16 := {}
  /-- INBOUND_UNBIND accepted; it takes effect at the next frame boundary ("When things collide", chapter 14; reset 0). -/
  unbinding : Bool := false
deriving DecidableEq, Repr

/-- A torn-list entry (R305; 32 bytes). -/
structure TornEnt where
  obj : Handle
  gen : W32
  lost : Nat
  first : W32
  last : W32
  flags : BitVec 4
deriving DecidableEq, Repr

/-- One MSI-X vector's table entry and pending bit (R302, R562). -/
structure MsixVec where
  /-- Message address and data (PCIe MSI-X table entry; 96 bits; dc 0). -/
  addr : W64 := 0
  data : W32 := 0
  /-- Mask bit (PCIe MSI-X table entry; 1 bit; PRESUMED set, the PCIe Base Specification's reset value; log entry 1). -/
  masked : Bool := true
  /-- Pending bit (R302; 1 bit; reset 0). -/
  pend : Bool := false
deriving DecidableEq, Repr

/-- What a device request on host memory is for (R296). -/
inductive ReqFor
  | consumer (ev : Nat) | table (f : SlotFaultOf) | ref (h : Handle) (take : Bool) | undo (h : Handle)
  | sump (seq page : Nat) | coreReq (core : Node) (tag : W16) (obj : Handle) (addr : W64) (len : Nat) | ring (queue : Nat) | other
deriving DecidableEq, Repr

/-- An outstanding non-posted request of the device (R296). -/
structure HReq where
  tag : Nat
  at_ : W64
  what : ReqFor
deriving DecidableEq, Repr

/-- The host link (R284–R307). -/
structure HostLink where
  /-- The link is up (DL_Up) (R303; reset 0). -/
  up : Bool := false
  /-- LTSSM has entered Detect and trains (R368; reset 0). -/
  detect : Bool := false
  /-- The host link is enabled: step 7 of R367 has run (R368; reset 0). -/
  enabled : Bool := false
  /-- PERST_N level (R303; 1 bit; reset asserted). -/
  perst : Bool := true
  /-- LINK_STATUS.WIDTH (R567; 4 bits; reset 0). -/
  width : Nat := 0
  /-- LINK_STATUS.RATE (R567; 4 bits; reset 0). -/
  rate : Nat := 0
  /-- LINK_STATUS.CXL_ACTIVE (R285, R567; 1 bit; reset 0). -/
  cxl : Bool := false
  /-- LINK_STATUS.ATTACHED (R567; 1 bit; reset 0). -/
  attached : Bool := false
  /-- Bus Master Enable, AtomicOp Requester Enable, MSI-X enable (R303, R286, R302; 1 bit each; PRESUMED 0). -/
  bme : Bool := false
  atomicEn : Bool := false
  msixEn : Bool := false
  /-- Function power state D3hot (R303; reset 0). -/
  d3 : Bool := false
  /-- AR_DETACH_GEN (R303, R576, WRAP; 32 bits; reset 0). -/
  gen : W32 := 0
  /-- AR_CAUSE.CAUSE (R577; 4 bits; reset 0). -/
  cause : BitVec 4 := 0
  /-- AR_CAUSE.REPLAYED and RESET_SEEN (R577; 1 bit each; reset 0). -/
  replayed : Bool := false
  resetSeen : Bool := false
  /-- AR_DETACH_LTC (R576; 64 bits; reset 0, dc). -/
  detachLtc : W64 := 0
  /-- AR_ATTACH_LTC (R576; 64 bits; reset 0, dc). -/
  attachLtc : W64 := 0
  /-- Posted writes held during detachment, oldest first; AR_HELD is their byte count (R304, R576; at most 262,144 B; reset empty). -/
  held : List Posted := []
  /-- The buffer was found full in this detachment: further writes are discarded (R304; reset 0). -/
  overflowed : Bool := false
  /-- The hold has ended: every write is discarded on arrival (R304; reset 0). -/
  holdEnded : Bool := true
  /-- A function reset cleared the mapping: only ATTACH re-attaches (R306; reset 0). -/
  needAttach : Bool := true
  /-- The torn list, at most 4096 entries (R305; reset empty). -/
  torn : List TornEnt := []
  /-- AR_TORN_OVF (R305, R576; 1 bit; reset 0). -/
  tornOvf : Bool := false
  /-- MSI-X table and PBA, 64 vectors (R302, R562). -/
  msix : SMap MsixVec := []
  /-- Inbound windows 0–15 (R297). -/
  inb : SMap InbWin := []
  /-- Host line cache: lines held, as object, line number and its 64 bytes (R292; at most 32,768; reset empty). -/
  lines : List (Handle × Nat × List Byte) := []
  /-- BAR2 reads held while BEST_EFFORT is halted, with their LTC (R290; reset none). -/
  bar2Held : List (Nat × Nat × W64) := []
  /-- Outstanding non-posted requests of dispatch firmware: with what each is for (R296; reset none). -/
  reqs : List HReq := []
  /-- Next tag of a device request (model's count; reset 0). -/
  nextTag : Nat := 0
  /-- Window writes and doorbells that wait for their object's descriptor (R298, R316; reset none). -/
  inbWait : List Instr := []
deriving DecidableEq, Repr

/-- A memory-object descriptor as cached (R310). -/
structure ObjDesc where
  location : Nat
  cacheable : Bool
  readOnly : Bool
  page : Nat
  length : Nat
  base : W64
  generation : W32
  releaseEvent : W16
deriving DecidableEq, Repr

/-- One translation entry: object and page number, its base address, the pin (R316, R317). -/
structure TransEnt where
  obj : Handle
  page : Nat
  base : W64
  pinned : Bool := false
deriving DecidableEq, Repr

/-- A resident context descriptor (R311). -/
structure CtxSlot where
  id : Nat
  safety : Bool
  priority : Nat
  plan : Handle
  notify : W16
  delivery : W16
  ring : Option Handle
  ringFrames : Nat
  pinned : Bool := false
  /-- LTC of the last use, for R315's least recently used. -/
  used : W64 := 0
deriving DecidableEq, Repr

/-- A resident queue descriptor (R312). -/
structure QueueSlot where
  id : Nat
  ctx : Nat
  event : W16
  ring : Handle
  entries : Nat
  head : W32
  /-- TAIL accepted by doorbells (R572). -/
  tail : W32
  /-- The skipped-KIND note has been logged for this queue (R312). -/
  noted : Bool := false
  /-- LTC of the last use, for R315's least recently used. -/
  used : W64 := 0
deriving DecidableEq, Repr

/-- A resident event descriptor (R313, R318). -/
structure EvtSlot where
  id : Nat
  msix : Bool
  record : Bool
  vector : Nat
  ring : Handle
  entries : Nat
  producer : W32
  consumer : W32
  drop : Stick 16 := {}
  armed : Bool := true
  /-- The event slot that holds it, 0–63 (R318, EVT_ARMED R575). -/
  slot : Nat := 0
deriving DecidableEq, Repr

/-- An event record waiting for delivery (R313, R318). -/
structure EvtRec where
  event : W16
  kind : W16
  frame : W32
  ltc : W64
  payload : List Byte
deriving DecidableEq, Repr

/-- An accepted INVALIDATE (R325). -/
structure Inval where
  id : W32
  scope : Nat
  handle : Nat
  target : W32
  event : W16
  /-- Its copies have been dropped; the completion event is due (R325). -/
  applied : Bool := false
deriving DecidableEq, Repr

/-- A host table named by ATTACH (R308). -/
structure HTable where
  base : W64 := 0
  count : Nat := 0
deriving DecidableEq, Repr

/-- Objects shared with the host (R308–R327). -/
structure Obj where
  /-- The four tables: contexts, queues, memory objects, events (R308; 64-bit base and count; reset 0). -/
  ctxTab : HTable := {}
  queueTab : HTable := {}
  objTab : HTable := {}
  evtTab : HTable := {}
  /-- Contexts resident in activation slots (R315; 48 slots shared with queues; reset empty). -/
  ctxs : List CtxSlot := []
  /-- Queues resident in activation slots (R315; reset empty). -/
  queues : List QueueSlot := []
  /-- Queue TAIL and HEAD kept for queues doorbelled while not resident (R315, R572; reset empty): the doorbells in service. -/
  dbWait : List (Nat × W32) := []
  /-- The doorbell FIFO, at most 256 (R315, ACT_STATUS.DB_FIFO R575; reset empty). -/
  dbFifo : List (Nat × W32) := []
  /-- Queues whose QUEUE_STARVED note is logged (R315; reset none). -/
  starved : List Nat := []
  /-- Translation cache, at most 4096 (R316; reset empty; least recently used first). -/
  trans : List TransEnt := []
  /-- Gallery copies, at most 256 each (R316; by gallery; reset empty). -/
  gcopy : SMap (List TransEnt) := []
  /-- Memory-object descriptors cached with their translations (R316, R323; reset none). -/
  descs : List (Handle × ObjDesc) := []
  /-- Event slots, at most 64 (R318; EVT_ARMED R575; reset empty; oldest load first). -/
  evts : List EvtSlot := []
  /-- Records waiting for a non-resident event's descriptor (R318; reset empty). -/
  evtWait : List EvtRec := []
  /-- EVT_LOST_CNT with OBJ_FLAGS[0] (R314, R574; 16 bits STICK; reset 0). -/
  evtLost : Stick 16 := {}
  /-- DB_DROP_CNT with OBJ_FLAGS[1] (R315, R574; 16 bits STICK; reset 0). -/
  dbDrop : Stick 16 := {}
  /-- RETIRED_SEQ (R320, WRAP; 64 bits; reset 0). -/
  retired : W64 := 0
  /-- Fetches in progress (R316; reset none). -/
  faults : List SlotFaultOf := []
  /-- Accepted invalidations not yet complete (R325; reset none). -/
  invals : List Inval := []
  /-- Next invalidation ID (R325; 32 bits; dc 1). -/
  nextInval : W32 := 1
  /-- Objects whose count this side has seen permanent (R322; reset none). -/
  permanent : List Handle := []
  /-- References the device holds, one entry per binding (R319; reset none). -/
  refs : List Handle := []
  /-- OBJ_RELEASED (true) and OBJ_PERMANENT notices that wait for the object's descriptor (R319, R322; reset none). -/
  notices : List (Handle × Bool) := []
deriving DecidableEq, Repr

/-- PTC statuses (R265). -/
inductive PtcStatus | unset | slewing | synced | holdover | stepPending
deriving DecidableEq, Repr

/-- The slave port's master as the port knows it (R268). -/
structure PtpPort where
  /-- The MAC is named as a gPTP port, in manifest order (R267; dc 0). -/
  declared : Bool := false
  /-- grandmasterIdentity of the last Announce, and how many consecutive Announces named it (R268; reset 0). -/
  gm : W64 := 0
  announces : Nat := 0
  /-- LTC of the last Announce and of the last Sync (R267, R268; reset none). -/
  annAt : Option W64 := none
  syncAt : Option W64 := none
  /-- Sync interval in ns (R267, R268; dc 125 ms). -/
  syncNs : Nat := 125000000
  /-- Neighbour rate ratio valid (R267, R268; reset 0). -/
  nrrValid : Bool := false
  /-- Neighbour rate ratio deviation in ppb (R267; dc 0). -/
  nrr : Int := 0
  /-- Mean link delay in ns (R267; dc 0). -/
  delay : Nat := 0
  /-- Receive and transmit PHY latency in ns (R275; 16 bits each; dc 0). -/
  rxLat : Nat := 0
  txLat : Nat := 0
  /-- Sync waiting for its Follow_Up: sequence number, receive stamp (R267; reset none). -/
  twoStep : Option (W16 × Int) := none
  /-- sequenceId of the last Pdelay_Req sent and whether its stamp was kept (R277; reset none). -/
  pdelay : Option (W16 × Bool) := none
  /-- Next Pdelay_Req sequence number (R267; 16 bits; dc 0). -/
  pdSeq : W16 := 0
  /-- Pdelay measurements so far: the first gives no ratio (R267; previous t3, t4; reset none). -/
  pdPrev : Option (Int × Int) := none
  /-- The transmit time-stamp queue: sequenceId, messageType, stamp; at most 16 (R277; reset empty). -/
  txts : List (W16 × BitVec 4 × Int) := []
  /-- TXTS_OVF (R277, R282; 1 bit; reset 0). -/
  ovf : Bool := false
  /-- TXTS_DROP_CNT and its SAT flag (R277, R282; 16 bits STICK; reset 0). -/
  drop : Stick 16 := {}
deriving DecidableEq, Repr

/-- A trigger series (R278). -/
structure Series where
  /-- Start S in ns of PTC time (48-bit seconds and nanoseconds). -/
  start : Nat
  /-- Period T in 32.32 ns, pulse width in ns, and active level (R278). -/
  period : Nat
  width : Nat
  activeLow : Bool
  /-- Index k of the next point, and that the series ends (R278, R279). -/
  next : Nat
  stopping : Bool := false
  /-- The survivor drives this camera for its partner (R280). -/
  takeover : Bool := false
deriving DecidableEq, Repr

/-- One trigger output (R278–R280). -/
structure Trig where
  /-- TRIG_n series parameters and running flag (R282; 16 bytes; reset none). -/
  series : Option Series := none
  /-- LTC of the last active edge (R279; 64 bits; reset none). -/
  lastEdge : Option W64 := none
  /-- The output is at its active level (R278; reset inactive). -/
  active : Bool := false
  /-- LTC of the last change of the level driven on the output (R522; 64 bits; reset none). -/
  edgeAt : Option W64 := none
  /-- TRIG_SUPPR_CNT and SAT (R279, R282; 16 bits STICK; reset 0). -/
  suppr : Stick 16 := {}
  /-- The manifest declares this output for this device, and R27 does not hold it inactive (R278; reset 0). -/
  declared : Bool := false
  heldInactive : Bool := false
deriving DecidableEq, Repr

/-- A frame stamp (R276; 32 bytes). -/
structure FrameStamp where
  n : W32 := 0
  ltc : W64 := 0
  sec : BitVec 48 := 0
  ns : W32 := 0
  status : BitVec 3 := 0
  stepped : Bool := false
  masterChanged : Bool := false
  step : Int := 0
deriving DecidableEq, Repr

/-- The time unit (R262–R283). -/
structure TimeU where
  /-- The 64.32 accumulator; LTC is its integer part (R262; 96 bits; reset 0). -/
  acc : BitVec 96 := 0
  /-- LTC_INC in 32.32 ns (R262, R282; 64 bits; nominal 0x0000_0002_0000_0000). -/
  inc : W64 := 0x200000000
  /-- PTC as ns with a 32-bit fraction: seconds × 10^9 + ns (R264; reset 0). -/
  ptc : Int := 0
  /-- PTC rate addend in 32.32 ns (R264, R268; reset nominal). -/
  rate : Int := 0x200000000
  /-- Slew term in 32.32 ns per tick (R264, R269; reset 0). -/
  slew : Int := 0
  /-- PTC_STATUS[2:0] (R265, R282; 3 bits; reset UNSET). -/
  status : PtcStatus := .unset
  /-- PTC_STATUS[5:4], slave MAC, and the master qualified bit [3] (R282; reset none). -/
  slave : Option Nat := none
  /-- Slew limit S in ppm (R269; PTC_STATUS[15:8] in 2 ppm units; reset 200). -/
  slewLimit : Nat := 200
  /-- PTC_OFFSET (R282; signed 64 bits; reset 0, dc). -/
  offset : Int := 0
  /-- PTC_RATE in ppb (R282; signed 32 bits; reset 0). -/
  ppb : Int := 0
  /-- Cumulative rate ratios of the last 8 Syncs in ppb (R268; reset empty). -/
  ratios : List Int := []
  /-- Consecutive Syncs within 100 ns (R265; reset 0). -/
  good : Nat := 0
  /-- GM_ID (R282; 64 bits; reset 0). -/
  gm : W64 := 0
  /-- TIME_EVENT (R282, R283; 6 bits; reset 0). -/
  event : BitVec 6 := 0
  /-- The MACs' gPTP ports (R267). -/
  ports : SMap PtpPort := []
  /-- gPTP ports in the manifest's order of preference (R267; reset empty). -/
  order : List Nat := []
  /-- PTP_DOMAIN_CNT and SAT (R267, R282; 16 bits STICK; reset 0). -/
  domainCnt : Stick 16 := {}
  /-- FRAME_STAMP (R276, R282; 32 bytes; reset 0). -/
  stamp : FrameStamp := {}
  /-- A TIME_STEP took effect since the previous frame start, and its step (R276; reset none). -/
  stepped : Option Int := none
  /-- The grandmaster changed since the previous frame start (R276; reset 0). -/
  masterChanged : Bool := false
  /-- ALIGN: own frame, partner frame, partner LTC offset, deviation (R281, R282; 32, 32, 64, 32 bits; reset 0). -/
  alignOwn : W32 := 0
  alignPartner : W32 := 0
  alignOffset : Int := 0
  alignDev : Int := 0
  /-- FSYNC_0–7 and LTRIG_0–3 (R278, R282). -/
  trig : SMap Trig := []
deriving DecidableEq, Repr

/-- The energy ledger (R202–R218). -/
structure Energy where
  /-- METER_0–METER_15 in µJ (R202, R217; 64 bits EVENT; reset 0). -/
  meters : SMap W64 := []
  /-- Meter values latched at the last frame start (R204; 64 bits each; reset 0). -/
  latched : SMap W64 := []
  /-- Meter thresholds, 0 for none (R218; 64 bits each; reset 0). -/
  thresh : SMap W64 := []
  /-- Meters whose threshold crossing has been raised and that have not fallen below since (R10; reset none). -/
  crossed : List Nat := []
  /-- A grant is in force: W_f and E_w (R205; reset none). -/
  grant : Option (Nat × Nat) := none
  /-- A grant waiting for its window's first frame: W_f, E_w and that frame (R205; reset none). -/
  newGrant : Option (Nat × Nat × W32) := none
  /-- Frames of the window already started (R205; reset 0). -/
  winFrame : Nat := 0
  /-- BALANCE in µJ (R206, R217; signed 64 bits; reset 0). -/
  balance : Int := 0
  /-- LEDGER_LOW has been posted in this window (R218; reset 0). -/
  lowPosted : Bool := false
  /-- DEBT_WRITEOFF_CNT (R206, R217; 16 bits STICK; reset 0). -/
  writeoff : Stick 16 := {}
  /-- OVERDRAFT_CNT (R212, R217; 32 bits STICK; reset 0). -/
  overdraft : Stick 32 := {}
  /-- CEILING_CNT (R215, R217; 16 bits STICK; reset 0). -/
  ceilingCnt : Stick 16 := {}
  /-- RUNG_FRAMES_0–5 (R217; 32 bits STICK each; reset 0). -/
  rungFrames : SMap (Stick 32) := []
  /-- The last eight coolant samples in 0.01 °C (R207; reset empty). -/
  coolant : List Int := []
  /-- COOLANT[15:0]: filtered T (R217; signed 16 bits; dc 0). -/
  coolT : Int := 0
  /-- Filtered readings of the last 100 ms, newest first, for the 10 K check (R209; reset empty). -/
  coolHist : List Int := []
  /-- COOLANT[16]: invalid (R209, R217; 1 bit; dc 0). -/
  coolInvalid : Bool := false
  /-- T_knee and T_top in 0.01 °C (R207; reset 40 °C and 60 °C). -/
  tKnee : Int := 4000
  tTop : Int := 6000
  /-- P_hi in mW: none is the ceiling (R207; reset none). -/
  pHi : Option Nat := none
  /-- P_lo in mW (R207; reset 20 W). -/
  pLo : Nat := 20000
  /-- Hottest junction reading in 0.01 °C (R208; dc 0). -/
  tj : Int := 0
  /-- Loop heat allowance H in mW with its expiry LTC (R208; reset none). -/
  heat : Option (Nat × W64) := none
  /-- Correction factor k as numerator over 2^32 (R213, CORR R217; reset 1.0). -/
  k : Nat := 4294967296
  /-- RUNG[2:0] energy rung, [6:4] bandwidth floor, [10:8] rung in force (R217; 3 bits each; reset 0). -/
  rung : Nat := 0
  floor : Nat := 0
  force : Nat := 0
  /-- Energy rung decided for the next frame, and whether it overdraws (R211; reset none). -/
  nextRung : Option (Nat × Bool) := none
  /-- The partner's rung for a frame (R214; reset none). -/
  partnerRung : Option (W32 × Nat) := none
  /-- Event handles of LEDGER_LOW, LEDGER_OVERDRAFT, RUNG_CHANGE, WINDOW_END, METER_THRESHOLD (R218; 16 bits each; reset 0xFFFF). -/
  events : List W16 := [0xFFFF, 0xFFFF, 0xFFFF, 0xFFFF, 0xFFFF]
  /-- LEDGER_LOW fraction in 1/256 (R218; 8 bits; reset 0, dc). -/
  lowFrac : Nat := 0
  /-- The ceiling reaction is in force, and consecutive intervals below 0.9 × C (R215; reset 0). -/
  capped : Bool := false
  below : Nat := 0
  /-- NO_BUDGET has been logged, or a grant has been given, since attach (R205; reset 0). -/
  noBudget : Bool := false
  /-- Trim of each domain's estimator over 2^16 (R202; reset 1.0, dc). -/
  trim : SMap Nat := []
  /-- Meters that have wrapped since their last METER_THRESHOLD event (R8, R218; reset none). -/
  wrapped : List Nat := []
deriving DecidableEq, Repr

/-- Run states of a core (R70). -/
inductive RunState | off | held | idle | run | wait | done | quiesced | fault
deriving DecidableEq, Repr

/-- What a core in WAIT waits for (R70, R82, R84, R89, R90, R99, R102). -/
inductive WaitOn
  | none | recv (chan : Nat) | credit (route : Nat) | reply (tag : W16) | entries | order | fence | groups | drain
  | agen (ag : Nat) | slotFault (h : Handle) | operands
deriving DecidableEq, Repr

/-- A route-table entry (R87) with the sender's credits (R39). -/
structure Route where
  node : Node
  chan : BitVec 3
  share : Nat
  optional : Bool
  credits : Nat
deriving DecidableEq, Repr

/-- A message held in a receive channel's slot (R90). -/
structure HeldMsg where
  slot : Nat
  src : Node
  len : Nat
  poison : Bool
  received : Bool := false
deriving DecidableEq, Repr

/-- A receive channel (R88, R90): its LOCAL region and the messages in arrival order. -/
structure Chan where
  base : Nat
  slotSize : Nat
  slots : Nat
  msgs : List HeldMsg := []
deriving DecidableEq, Repr

/-- What a pending entry does when its reply arrives (R82, R85, R86). -/
inductive PendKind
  | load (sd : Nat) (size : Nat) (sx : Bool)
  | vload (vd : Nat) (pred : BitVec 64)
  | atomic (sd : Nat) (size : Nat)
  | store
  | put (group : Nat)
  | get (group : Nat) (dst : Nat) (len : Nat)
  | ld (slot : Nat)
  | ag (n : Nat) (lanes : List Bool)
deriving DecidableEq, Repr

/-- One of the sixteen pending entries (R82). -/
structure Pend where
  tag : W16
  kind : PendKind
  win : Nat
  off : Nat
  node : Node
  space : Space
  issued : W64
  /-- PC of the instruction that holds the entry (R94; 13 bits). -/
  pc : BitVec 13 := 0
deriving DecidableEq, Repr

/-- An address generator (R101–R113). -/
structure AddrGen where
  /-- Binding: slot pair, data window and base offset (R102; dc none). -/
  slot : Nat := 0
  win : Nat := 0
  base : Nat := 0
  /-- A run is in progress (R55: reset idle). -/
  running : Bool := false
  /-- The latched descriptor's sixteen words (R102, R103; reset none). -/
  desc : List W32 := []
  /-- T_0 … T_5 of the next visit (R104; reset 0). -/
  pos : List Nat := [0, 0, 0, 0, 0, 0]
  /-- Every visit has been made; the run ends at AG_RUN_END (R104; reset 0). -/
  exhausted : Bool := false
  /-- PC of the START, for the fault record (R113; 13 bits; dc 0). -/
  startPc : BitVec 13 := 0
  /-- Row and column masks of the explicit-mask word in force (R107; 32 bits each; dc 0). -/
  rowMask : W32 := 0
  colMask : W32 := 0
  /-- Mask words read in this run (R107; reset 0). -/
  maskN : Nat := 0
  /-- Operands delivered and not yet used by an array step, as lanes (R113; reset empty). -/
  out : List (List W32) := []
  /-- Operands requested in visit order and not yet delivered: tag, and the lanes once they have arrived (R82, R104; reset empty). -/
  late : List (W16 × Option (List W32)) := []
deriving DecidableEq, Repr

/-- A MATRIX instruction in progress (R73, R111). -/
structure MatOp where
  bank : Bool
  fmtA : Nat
  fmtB : Nat
  feed : Bool
  /-- CLR: the bank starts from zero when the operation begins (R73). -/
  clr : Bool
  /-- Depth steps still to run; `none` runs to the end of AG0's descriptor. -/
  left : Option Nat
  /-- Steps run so far, the A1 row of a state feed (R140), and the instruction's address. -/
  done : Nat := 0
  pc : BitVec 13
deriving DecidableEq, Repr

/-- The signature unit (R391–R396). -/
structure SigUnit where
  /-- Pair number, when the core belongs to a mirror pair; this core is TRAIL; attempt 1 (R391, R400; reset none and 0). -/
  pair : Option Nat := none
  trail : Bool := false
  attempt : Bool := false
  /-- Frame and window numbers of the open window (R391, R394; 32 bits each; dc 0). -/
  frame : W32 := 0
  window : W32 := 0
  /-- The CRC register (R391; 64 bits; dc 0). -/
  reg : W64 := 0
  /-- LTC of the window's first record (R395; reset none: no record). -/
  first : Option W64 := none
  /-- MIR_WINDOW_LONG has been raised for this window (R395; reset 0). -/
  long : Bool := false
deriving DecidableEq, Repr

/-- The fault record in core status (R96, R113). -/
structure FaultRec where
  source : Option Source := none
  pcFault : BitVec 13 := 0
  pcLast : BitVec 13 := 0
  index : Nat := 0
  off : Nat := 0
  node : Node := 0
  ag : Option (Nat × List Nat × W32 × W32) := none
deriving DecidableEq, Repr

/-- A clip counter pair (R177). -/
structure Clip where
  /-- CLIP_n (32 bits; EVENT, then STICK with CLIPSAT). -/
  clip : Stick 32 := {}
  /-- CONV_n and CONVSAT (32 bits STICK). -/
  conv : Stick 32 := {}
  /-- The threshold crossing has been noted for the frame-end event (R178). -/
  crossed : Bool := false
deriving DecidableEq, Repr

/-- A compute core (R55–R113). Keyed by physical node; the default is a core whose domain is gated. -/
structure Core where
  /-- Run state (R70; reset OFF: gallery domains are powered in step 8 of R367). -/
  run : RunState := .off
  /-- What a core in WAIT waits for, and since when (R70, R93; reset none). -/
  wait : WaitOn := .none
  waitAt : W64 := 0
  /-- S0–S31 (R55; 32 bits each; reset 0). -/
  s : SMap W32 := []
  /-- Program counter (R55; 13 bits; reset 0). -/
  pc : BitVec 13 := 0
  /-- Instruction memory words (R55; 8192 × 64 bits; undefined at reset; dc 0). -/
  imem : SMap W64 := []
  /-- Instruction words poisoned by an uncorrectable error (R59; reset none). -/
  imemBad : List Nat := []
  /-- Core memory (R55; 512 KiB; undefined at reset; dc 0, log entry 4). -/
  mem : Mem := []
  /-- Poisoned 8-byte words of core memory (R59, R60; reset none). -/
  memBad : List Nat := []
  /-- A0 and A1, entry 32 × row + lane (R55; 1024 × 32 bits each; reset 0). -/
  a0 : SMap W32 := []
  a1 : SMap W32 := []
  /-- The bank holds FP32 sums, as its last MATRIX left it (R61; model's note of the format; reset INT32). -/
  fp0 : Bool := false
  fp1 : Bool := false
  /-- V0–V31, lane l of register v at 64 × v + l (R55; 32 bits; reset 0). -/
  v : SMap W32 := []
  /-- P0–P7 (R55; 64 bits; reset all ones). -/
  p : SMap (BitVec 64) := []
  /-- SCL (R55; 1024 × FP32; reset 0). -/
  scl : SMap W32 := []
  /-- LD0–LD15, word w of slot d at 8 × d + w (R55; 256 bits each; reset 0). -/
  ld : SMap W32 := []
  /-- AG0–AG2 (R55; reset idle). -/
  ag : SMap AddrGen := []
  /-- Receive channels 0–7 (R55, R88; reset empty). -/
  chans : SMap (Option Chan) := []
  /-- W0–W15 (R76; reset undeclared, dc). -/
  wins : SMap (Option Window) := []
  /-- Routes 0–31 (R87; reset undeclared, dc). -/
  routes : SMap (Option Route) := []
  /-- The status word (R75; 32 bits; reset 0). -/
  status : W32 := 0
  /-- Fault record (R96; reset 0). -/
  frec : FaultRec := {}
  /-- The pending entries (R82; 16; reset empty). -/
  pend : List Pend := []
  /-- Next pending-entry tag (model's count; reset 0). -/
  nextTag : W16 := 0
  /-- The MATRIX instructions in progress, oldest first (R65; reset none). -/
  mat : List MatOp := []
  /-- DEST_ABSENT_CNT of the message port (R46; 16 bits STICK; reset 0). -/
  destAbsent : Stick 16 := {}
  /-- A NACK on a required route waits for the next instruction boundary (R91; reset none). -/
  nacked : Option Nat := none
  /-- Target frequency in 10 MHz units (R69; 40–125; dc 40). -/
  freq : Nat := 40
  /-- A target latched and not yet in effect (R69; reset none). -/
  freqNext : Option Nat := none
  /-- Entry address, start mode and wait limit (R93, R98, R99; dc 0, PER_FRAME, 9 ms). -/
  entry : BitVec 13 := 0
  resident : Bool := false
  waitNs : Nat := 9000000
  /-- The core has been started since plan load (R99; reset 0). -/
  started : Bool := false
  /-- Marked SAFETY by the plan (R440; reset 0). -/
  safety : Bool := false
  /-- A torch core of the plan (R453; reset 0). -/
  torch : Bool := false
  /-- SKEW with its parity bit, this core's own copy (R389; 11 + 1 bits; reset 0). -/
  skew : BitVec 11 := 0
  skewParity : Bool := false
  /-- TRAIL waits out SKEW before its first instruction (R389; reset 0). -/
  skewHold : Bool := false
  /-- Retired instructions since START, and the PACE count received (R390; 32 bits each; reset 0). -/
  retired : W32 := 0
  pace : W32 := 0
  /-- SUPPRESS window mask (R388; 16 bits; reset 0). -/
  suppress : W16 := 0
  /-- The signature unit (R391). -/
  sig : SigUnit := {}
  /-- Clip counters (R177; 512 pairs; reset 0), threshold CLIP_THRESH and the plan's event (R178; dc 0 and 0xFFFF). -/
  clips : SMap Clip := []
  clipThresh : W32 := 0
  clipEvent : W16 := 0xFFFF
  /-- The snapshot CLIP_READ holds (R345; reset empty). -/
  clipSnap : SMap Clip := []
  /-- Checkpoint: the saved bytes of the CKPT ranges, SCL and A1 (R400; reset none). -/
  ckpt : Option (List (Nat × List Byte) × SMap W32 × SMap W32) := none
  /-- Held stopped until the next frame start after a failed retry (R399; reset 0). -/
  heldStop : Bool := false
  /-- The debug halt or step of the DAP (R512; reset 0). -/
  halted : Bool := false
  /-- A single-step of the DAP lets one instruction issue (R512; reset 0). -/
  stepOne : Bool := false
  /-- Trace unit: SEQ of the next record, the FIFO of at most 32 records, and records lost since the last DROP record (R501, R504; reset 0). -/
  traceSeq : W32 := 0
  traceFifo : List (List Byte) := []
  traceLost : Nat := 0
deriving DecidableEq, Repr

/-- A message whose flits are crossing links (R31, R37, R43). -/
structure Transit where
  src : Node
  dst : Node
  kind : MsgKind
  payload : Nat
  flits : Nat := 0
  poison : Bool := false
  discarded : Bool := false
deriving DecidableEq, Repr

/-- An island that is not simply up (R45–R48). The default is an admitted island of a powered domain. -/
structure Island where
  /-- Ingress closed by QUIESCE (R45; reset 0). -/
  closed : Bool := false
  /-- QUIESCED has been sent (R45; reset 0). -/
  drained : Bool := false
  /-- QUIESCED has reached dispatch firmware (R45; reset 0). -/
  known : Bool := false
  /-- The drain limit's LTC (R45; dc 0). -/
  limit : W64 := 0
  /-- Counts that QUIESCED carries (R45; 32 bits each; reset 0). -/
  discarded : Nat := 0
  poisoned : Nat := 0
  abandoned : Nat := 0
  /-- Requests accepted and not yet answered: requester and tag (R45; reset none). -/
  accepted : List (Node × W16) := []
deriving DecidableEq, Repr

/-- The message fabric (R31–R49). -/
structure Fabric where
  /-- Messages in transfer, by identifier (R31, R37; reset none). -/
  transit : SMap (Option Transit) := []
  /-- Islands by node (R45; reset all admitted). -/
  islands : SMap Island := []
  /-- Domains gated, by domain number in the order of R217 (R45, R35; reset: all but PD_AON gated, R367). -/
  gated : List Nat := [1, 2, 3, 4, 5, 6, 7, 8, 9, 10, 11, 12, 13, 14, 15]
deriving DecidableEq, Repr

/-- A compressed region of a gallery's aperture (R133–R137). -/
structure CmpRegion where
  decl : RegionDecl
  /-- Blocks holding a pool entry: block and entry (R134, R135; reset none). -/
  entries : List (Nat × Nat) := []
  /-- Poisoned blocks (R136; reset none). -/
  poisoned : List Nat := []
  /-- CMP_SPILL_CNT (R135; 16 bits STICK; reset 0). -/
  spills : Stick 16 := {}
deriving DecidableEq, Repr

/-- A DRAM channel (R189–R193). -/
structure Channel where
  /-- DRAM_CE_CNT and DRAM_UE_CNT (R192; 16 bits STICK each; reset 0). -/
  ce : Stick 16 := {}
  ue : Stick 16 := {}
  /-- LTCs of the DRAM_UE raises of the last second, newest first (R193; reset none). -/
  ueAt : List W64 := []
  /-- PHY lock lost since this LTC (R193; reset none). -/
  lockLost : Option W64 := none
deriving DecidableEq, Repr

/-- Memory tiers (R186–R201). -/
structure MemT where
  /-- Chamber, gallery g's offset o at g × 2^24 + o (R186; 4 × 16 MiB; dc 0, log entry 4), and poisoned 8-byte words. -/
  chamber : Mem := []
  chamberBad : List Nat := []
  /-- Hub staging (R186; 8 MiB; dc 0), and poisoned 8-byte words. -/
  staging : Mem := []
  stagingBad : List Nat := []
  /-- DRAM, channel c's offset o at c × 2^40 + o (R189; dc 0), and poisoned 64-byte lines. -/
  dram : Mem := []
  dramBad : List Nat := []
  /-- Compressed regions (R133; at most 16 per gallery; reset none). -/
  regions : List CmpRegion := []
  /-- The four channels (R189). -/
  chan : SMap Channel := []
  /-- Pairs retired in this boot (R193; reset none). -/
  retired : List Nat := []
  /-- REMAP in force for the retired pair (R194; reset 0). -/
  remap : Bool := false
  /-- Migration runs (R194; MEM_STATUS byte 9; reset 0). -/
  migrating : Bool := false
  /-- Granules of the retired pair already copied, as physical granule numbers (R194; reset none). -/
  copied : List Nat := []
  /-- U is halved: booted with a retired pair (R194; reset 0). -/
  halved : Bool := false
  /-- CLASS_BYTES and CLASS_OVERRUN, controller k and class j at 4k + j (R199; 64 and 16 bits STICK; reset 0). -/
  bytes : SMap (Stick 64) := []
  overrun : SMap (Stick 16) := []
  /-- Token buckets: tokens in bytes and LTC of the last refill, by declaration and controller (R197; reset full, dc). -/
  buckets : SMap (Option (Nat × W64)) := []
  /-- BEST_EFFORT is halted (R200; reset 0). -/
  halted : Bool := false
  /-- BULK scale f as a fraction of 2^16 (R200; reset 1). -/
  bulk : Nat := 65536
  /-- Bandwidth-floor rung computed (R200; reset 0); the floors of this device and of its partner with the frames they were
  computed in, newest first (R201; reset none). -/
  floor : Nat := 0
  floors : List (W32 × Nat) := []
  partnerFloors : List (W32 × Nat) := []
  /-- Requests that wait at the controllers while BEST_EFFORT is halted, oldest first (R199, R200; reset none): write, request. -/
  stalled : List (Bool × FabReq) := []
deriving DecidableEq, Repr

/-- Where a KV page lies (R149, R160, R161). -/
inductive KvTier | chamber (g f : Nat) | dram (f : Nat) | moving (f sump : Nat) | toSump (f sump : Nat) | sump (f : Nat) | dropped
deriving DecidableEq, Repr

/-- A KV page (R149–R163). -/
structure KvPage where
  seq : Nat
  page : Nat
  tier : KvTier
  closed : Bool := false
  /-- Cores whose fetches pin it (R157). -/
  pins : List Node := []
  /-- Frame of the last selection, and whether it was also selected in the frame before (R159, R160). -/
  sel : W32 := 0
  twice : Bool := false
  /-- The sump frame that keeps a copy (R160 step 3). -/
  copy : Option Nat := none
  /-- A MOVING page's data has arrived and is being written (R160 step 3). -/
  arrived : Bool := false
  /-- The DRAM frame that a page promoted in this frame has left and that still holds its bytes (R158, R160). -/
  left : Option Nat := none
deriving DecidableEq, Repr

/-- A sequence at run time (R150, R153, R162). -/
structure KvSeq where
  /-- Oldest live page and tail page (R153). -/
  first : Nat := 0
  tail : Nat := 0
  /-- The sealed tail's successor is not open yet (R153, "A sealed page is dropped by the wrap"). -/
  due : Bool := false
  /-- Pages opened since the sequence began (R153, WRAP modulo P_max), preempted in this frame and in the last, a page opened in this frame, pages being discarded (R155, R162, R163). -/
  opened : Nat := 0
  preempted : Bool := false
  preemptedLast : Bool := false
  openedNow : Bool := false
  discarding : Bool := false
deriving DecidableEq, Repr

/-- A fetch that the manager has accepted and not yet answered (R156–R158). -/
structure KvReq where
  core : Node
  seq : Nat
  pages : List Nat
  frame : W16
  status : Nat := 0
deriving DecidableEq, Repr

/-- The KV manager (R149–R163). -/
structure Kv where
  pages : List KvPage := []
  seqs : SMap KvSeq := []
  /-- Fetches not yet answered, oldest first (R156; reset none). -/
  reqs : List KvReq := []
  /-- Answers given in this frame, for the partner core of a pair: core, sequence, pages, frame, KV_PLACE body (R158; reset none). -/
  answered : List (Node × Nat × List Nat × W16 × List Byte) := []
  /-- KV_SUMP_UNREACHABLE has been raised in this frame (R163; reset 0). -/
  unreachable : Bool := false
deriving DecidableEq, Repr

/-- A loaded plan (R98, R345). -/
structure Loaded where
  ctx : Nat
  img : PlanImage
  digest : List Byte
  scaleDigest : List Byte
  /-- T_f in 32.32 ns (R276), FLAGS, the planner version and the digest of the plan it recalibrates (R356). -/
  period : W64
  flags : W32
  planner : W32
  recalFor : List Byte
  /-- The mirror map it loaded with (R386), on physical nodes. -/
  map : List MapPair
  /-- Objects referenced for it (R319). -/
  objs : List Handle
deriving DecidableEq, Repr

/-- An output record of the frame in progress (R451). -/
structure OutRec where
  invalid : Bool := false
  degraded : Bool := false
  cls : Cls := .c0
  source : W16 := 0
  obj : Handle := 0
  offset : W64 := 0
  data : List Byte := []
deriving DecidableEq, Repr

/-- A frame that has ended: its records wait for the gate (R449), its retire point (R320) and its verdict (R404). -/
structure Frame where
  n : W32
  torch : Bool := false
  recs : List OutRec := []
  rung : Nat := 0
  stamp : FrameStamp := {}
  unagreed : Bool := false
  realign : Bool := false
  absent : Bool := false
  ended : Bool := false
  endLtc : W64 := 0
  gated : Bool := false
  retired : Bool := false
  /-- Frame signature (R403). -/
  sig : W64 := 0
  /-- Stream flags folded by the frame signature: stream ID, unit flag, Focus field (R403). -/
  flags : List (Nat × Byte × Byte) := []
  /-- Verdict code (R451): 0 PENDING, 1 MATCH, 2 MISMATCH, 3 UNCHECKED, 4 NOT_APPLICABLE. -/
  verdict : Nat := 0
deriving DecidableEq, Repr

/-- The frame loop and result delivery (R276, R449–R455). -/
structure Loop where
  /-- A frame loop runs, on this context's plan (R276, R347; reset none). -/
  ctx : Option Nat := none
  /-- Frame epoch E and T_f in 32.32 ns (R276; 64 bits each; dc 0). -/
  epoch : W64 := 0
  period : W64 := 0
  /-- Number of the next frame to start (R276, WRAP; 32 bits; reset 0). -/
  next : W32 := 0
  /-- Frames started since the epoch, not wrapped, for E + ⌊n × T_f⌋ (R276; reset 0). -/
  started : Nat := 0
  /-- The frame in progress (R449; reset none), and ended frames not yet delivered, retired and judged, oldest first. -/
  cur : Option Frame := none
  past : List Frame := []
  /-- The last frame to run, when LOOP_STOP has been judged (R345; reset none). -/
  stopAt : Option W32 := none
  /-- Torch frames: epoch and number of the next frame (R455; dc 0). -/
  torchEpoch : W64 := 0
  torchNext : W32 := 0
  /-- Frame-start messages whose credit is still held, by core (R100; reset none). -/
  held : List Node := []
  /-- The last FRAME_START message sent per core, for a retry (R100; reset none). -/
  lastMsg : SMap (List Byte) := []
  /-- Context whose torch section a C3 reaction may start (R454; reset none). -/
  torchCtx : Option Nat := none
  /-- RECOVER clears the invalid marks of the next frame (R459; reset 0). -/
  clearNext : Bool := false
  /-- Context whose LOOP_START waits for the partner's checks, with E and the LTC of its limit (R347; reset none). -/
  starting : Option (Nat × W64 × W64) := none
  /-- The next LOOP_START loads every core section again before frame 0 (R365; reset 0). -/
  reload : Bool := false
deriving DecidableEq, Repr

/-- A pending signature at a comparator (R397). -/
structure PendSig where
  pair : Nat
  trail : Bool
  attempt : Bool
  frame : W16
  window : W32
  sig : W64
  at_ : W64
deriving DecidableEq, Repr

/-- A verdict waiting for its counterpart at the fault collector (R398). -/
structure PendVer where
  pair : Nat
  cmp1 : Bool
  window : W32
  verdict : CmpVerdict
  at_ : W64
deriving DecidableEq, Repr

/-- A mirror pair of the running plan (R385–R401). -/
structure Pair where
  map : MapPair
  /-- A retry of the pair has run in this frame (R399; reset 0). -/
  retried : Bool := false
  /-- A retry restore is in progress since this LTC (R400; reset none). -/
  restoring : Option W64 := none
  /-- The pair belongs to the torch section (R453; reset 0). -/
  torch : Bool := false
deriving DecidableEq, Repr

/-- Mirrored execution (R385–R405). -/
structure Mir where
  /-- The running plan's pairs (R386; reset none). -/
  pairs : List Pair := []
  /-- Signatures pending at CMP_0 and at CMP_1, oldest first (R397; 8 per pair; reset none). -/
  cmp0 : List PendSig := []
  cmp1 : List PendSig := []
  /-- Verdicts waiting at the collector (R398; reset none). -/
  verdicts : List PendVer := []
deriving DecidableEq, Repr

/-- Unit flags of a stream (R223). -/
inductive StreamFlag | fresh | repeated | missing | corrupt
deriving DecidableEq, Repr

/-- What a unit holds: CSI-2 lines with their data type, or a decoded picture's planes and depth, or lidar points. -/
inductive UnitBody
  | csi (dt : Nat) (lines : List (List Byte))
  | picture (depth : Nat) (y cb cr : List (List Nat))
  | points (count : Nat) (tensor : List Byte)
  | inbound (buffer : Nat)
  | none
deriving DecidableEq, Repr

/-- A unit (R222). -/
structure SUnit where
  stamp : W64
  corrupt : Bool := false
  /-- Base buffer it was written to (R250; 0–2), and its content. -/
  buffer : Nat := 0
  body : UnitBody := .none
deriving DecidableEq, Repr

/-- A camera frame in reception (R227). -/
structure OpenFrame where
  dt : Nat
  lines : List (List Byte) := []
  corrupt : Bool := false
  /-- Overflow discards the rest of the frame (R227). -/
  dropping : Bool := false
deriving DecidableEq, Repr

/-- A declared stream (R219–R257). -/
structure Stream where
  decl : StreamDecl
  /-- SAFETY of its declaration (R219, R440; 1 bit). -/
  safety : Bool := false
  /-- The unit flag of the frame now running (R223; reset MISSING, dc). -/
  flag : StreamFlag := .missing
  /-- The last FRESH unit, presented again in REPEAT (R223; reset none). -/
  last : Option SUnit := none
  /-- The unit completed since the previous frame start (R222; reset none). -/
  fresh : Option SUnit := none
  /-- The unit before it, while a frame start at the LTC of `fresh` can still take it (R222; reset none). -/
  prior : Option SUnit := none
  /-- The unit of the frame now running (R223; reset none). -/
  used : Option SUnit := none
  /-- The stream has turned MISSING and delivered no FRESH unit since (R224; reset 0). -/
  lost : Bool := false
  /-- Frame and LTC of the last unit (R348 STREAM_STATUS; 32 and 64 bits; dc 0). -/
  lastFrame : W32 := 0
  lastLtc : W64 := 0
  /-- LTC from which LOSS_TIMEOUT runs while no unit has come (R223; dc 0: attach). -/
  since : W64 := 0
  /-- Camera frame in reception (R227; reset none). -/
  open_ : Option OpenFrame := none
  /-- SKIP_CNT (R222; 16 bits STICK, SAT; reset 0). -/
  skip : Stick 16 := {}
  /-- LIDAR_SHORT_CNT (R232; 16 bits), LIDAR_OVF_CNT and LIDAR_GAP_CNT (R233; 32 bits); STICK, SAT; reset 0. -/
  short : Stick 16 := {}
  ovf : Stick 32 := {}
  gap : Stick 32 := {}
  /-- PRE_CLIP_CNT (R249; 32 bits STICK, SAT; reset 0). -/
  preClip : Stick 32 := {}
  /-- FOCUS_DROP_CNT (R256; 16 bits STICK, SAT; reset 0). -/
  focusDrop : Stick 16 := {}
  /-- Lidar points of this interval, channel values per point (R233; reset empty), its overflow and last sequence number. -/
  points : List (List Nat) := []
  overrun : Bool := false
  ptAt : W64 := 0
  /-- Points of the packets completed at LTC `lastPt` (R222; reset empty). -/
  recent : List (List Nat) := []
  lastPt : W64 := 0
  seq : Option Nat := none
  /-- UDP_RAW payloads in the stream's ring, oldest first, each with its 4-byte length (R231; reset empty). -/
  ring : List (List Byte) := []
  /-- RTP reorder buffer: sequence number, arrival LTC, payload (R234; 2 ms; reset empty), next number expected, packets lost. -/
  reorder : List (W16 × W64 × List Byte) := []
  rtpNext : Option W16 := none
  rtpLost : Nat := 0
  /-- NAL unit bytes released to decode and not yet decoded (R234; reset empty). -/
  decode : List (List Byte) := []
  /-- A picture lost data: CORRUPT until the next clean IRAP (R236; reset 0). -/
  episode : Bool := false
  /-- Moved to the host by the load split (R260; reset 0). -/
  moved : Bool := false
  /-- Focus report of the running frame: 0 LIST, 1 DEFAULT, 2 NONE (R251; dc NONE). -/
  focus : Nat := 2
  /-- Seals of copies A and B: target frame and LTC of the latest FOCUS_SEAL (R254, R255; reset none). -/
  sealA : Option (W32 × W64) := none
  sealB : Option (W32 × W64) := none
deriving DecidableEq, Repr

/-- A CSI-2 port (R225–R227). -/
structure CsiPort where
  cfg : Option CsiCfg := none
  /-- CSI_HDR_CE_CNT, CSI_HDR_UE_CNT, CSI_CRC_CNT, CSI_LEN_CNT, CSI_OVF_CNT (R227; 16 bits STICK, SAT; reset 0). -/
  hdrCe : Stick 16 := {}
  hdrUe : Stick 16 := {}
  crc : Stick 16 := {}
  len : Stick 16 := {}
  ovf : Stick 16 := {}
  /-- LTC since which header ECC has failed on every packet (R226; reset none). -/
  failSince : Option W64 := none
deriving DecidableEq, Repr

/-- An Ethernet MAC (R229, R230). -/
structure Mac where
  /-- The manifest-declared unicast address (R229; 48 bits; reset none). -/
  addr : Option (BitVec 48) := none
  /-- ETH_FCS_CNT, ETH_LEN_CNT, ETH_PROTO_CNT, ETH_CSUM_CNT (R229, R230; 32 bits STICK, SAT; reset 0). -/
  fcs : Stick 32 := {}
  len : Stick 32 := {}
  proto : Stick 32 := {}
  csum : Stick 32 := {}
deriving DecidableEq, Repr

/-- One file of a scene set (R237–R241). -/
structure MsrFileState where
  frames : Nat
  indexed : Bool
  /-- Frame number of the scene frame in progress (R238, R239; reset none). -/
  frame : Option Nat := none
  /-- Scene frames marked CORRUPT, the frame in progress is abandoned, and the file's end has been read (R241). -/
  corrupt : List Nat := []
  abandoned : Bool := false
  ended : Bool := false
  /-- Records of other types skipped (R239). -/
  skipped : Nat := 0
deriving DecidableEq, Repr

/-- Sensor intake and Prism (R219–R261). -/
structure Intake where
  /-- Declared streams by ID (R219; reset none). -/
  streams : SMap (Option Stream) := []
  /-- CSI-2 ports 0–7 (R225). -/
  ports : SMap CsiPort := []
  /-- MACs 0–3 (R229). -/
  macs : SMap Mac := []
  /-- Classifier entries in ascending index, at most 64 (R230; reset none). -/
  flows : List Flow := []
  /-- Lidar templates, at most 16 (R232; reset none). -/
  templates : List Template := []
  /-- UNDECL_CNT (R220; 32 bits STICK, SAT; reset 0), and the sources noted since attach: port or MAC, address, number. -/
  undecl : Stick 32 := {}
  noted : List (Nat × Nat × Nat) := []
  /-- Scene sets 0–3, each at most 64 files (R348; reset none). -/
  sets : SMap (List MsrFileState) := []
  /-- PRISM_UTIL (R252; 16 bits; reset 0, dc) and the samples of the last 100 ms, newest first. -/
  util : Nat := 0
  utilHist : List Nat := []
  /-- Consecutive samples above 85% and below 60% (R260, R348; 32 bits; reset 0). -/
  above : Nat := 0
  below : Nat := 0
  /-- Split order (R259; reset none), streams moved in split order, a decided change and its frame, the last change's frame
  and LTC (R260; reset none). -/
  split : List (Nat × Option Handle) := []
  moved : List Nat := []
  splitNext : List (Nat × Bool × W32) := []
  splitFrame : W32 := 0
  splitAt : Option W64 := none
deriving DecidableEq, Repr

/-- A sampled supervised output (R520–R526). -/
structure SioPin where
  /-- Condition seen by the last sample: 0 none, 1 short to ground, 2 short to supply, 3 readback, 4 leg, 5 open (R522). -/
  cond : Nat := 0
  /-- Consecutive samples that show it (R522; reset 0). -/
  count : Nat := 0
deriving DecidableEq, Repr

/-- Trace and debug (R501–R512). -/
structure TraceU where
  /-- TRACE_CONFIG: logical cores enabled, content mask, destination DRAM, offset, size, STOP_WHEN_FULL (R505, R355; reset none). -/
  enabled : List Node := []
  mask : Byte := 0
  dram : Bool := false
  off : Nat := 0
  size : Nat := 262144
  stopFull : Bool := false
  /-- TRC_STATUS [0] running and [2] stopped by a full buffer (R506; reset 0). -/
  running : Bool := false
  full : Bool := false
  /-- TRC_BYTES, TRC_RECORDS, TRC_GAPS, TRC_DROPS with TRC_FLAGS (R506; 64, 32, 32, 32 bits STICK; reset 0). -/
  bytes : Stick 64 := {}
  records : Stick 32 := {}
  gaps : Stick 32 := {}
  drops : Stick 32 := {}
  /-- SEQ of the funnel's own records (R501; 32 bits WRAP; reset 0). -/
  seq : W32 := 0
  /-- Domains gated with enabled cores, and the LTC of gating (R507; reset none). -/
  gated : SMap (Option W64) := []
  /-- The AON_ONLY interval to be spanned by the first record after the next TRACE_START (R508; reset none). -/
  aon : Option (W64 × W64) := none
  /-- JTAG boundary-scan instruction in force (R511; reset BYPASS). -/
  jtag : JtagInstr := .bypass
deriving DecidableEq, Repr

/-- States of a Dvorpo port (R438). -/
inductive PortState | unused | down | training | active | held
deriving DecidableEq, Repr

/-- A MSG flit kept until acknowledged (R413). -/
structure HeldFlit where
  seq : BitVec 12
  /-- Replays so far (R413), LTC at which it was sent, and the flit's channel, source, destination, hops, MSG_ID, correction, first and last marks and payload (R411). -/
  replays : Nat := 0
  at_ : W64
  chan : Nat
  src : Nat
  dst : Nat
  hops : Nat := 0
  msgId : W16
  corr : W32 := 0
  first : Bool := true
  last : Bool := true
  payload : List Byte
deriving DecidableEq, Repr

/-- A Dvorpo port (R406–R418, R438). -/
structure DvPort where
  /-- DV_PORT [2:0] (R438; 3 bits; reset UNUSED). -/
  state : PortState := .unused
  /-- DV_PORT [5:4] width in lanes 0, 1, 2, 4; [11:8] good lanes; [15:12] inverted; [16] reversed; [26:24] far position (R438; reset 0). -/
  width : Nat := 0
  good : BitVec 4 := 0
  inverted : BitVec 4 := 0
  reversed : Bool := false
  far : Nat := 0
  /-- The settings of step 4 are held (R410; reset 0). -/
  adapted : Bool := false
  /-- SEQ of the next MSG flit, and the last SEQ accepted (R411, R412; 12 bits; reset 0 and 0xFFF). -/
  txSeq : BitVec 12 := 0
  rxSeq : BitVec 12 := 0xFFF
  /-- Replay buffer, at most 64 flits, oldest first (R413; reset empty), and flits waiting for room, in order of service (R419). -/
  buf : List HeldFlit := []
  wait : List HeldFlit := []
  /-- DV_CRC_CNT, DV_REPLAY_CNT, DV_RETRAIN_CNT with DV_FLAGS (R416, R438; 16 bits STICK; reset 0). -/
  crc : Stick 16 := {}
  replay : Stick 16 := {}
  retrain : Stick 16 := {}
  /-- LTCs of the CRC errors of the last 1 ms (R410; reset none). -/
  crcAt : List W64 := []
  /-- A NAK has been sent, so the flit expected next comes as a replay (R412, R422; reset 0). -/
  nak : Bool := false
deriving DecidableEq, Repr

/-- The Dvorpo link and the partner (R406–R438). -/
structure Dv where
  /-- N and P of the manifest (R14; reset 0: no manifest), and the pair's mode TWIN (R20). -/
  n : Nat := 0
  p : Nat := 0
  twin : Bool := false
  /-- CONSTELLATION.PREFERRED (R22, R569; 1 bit; reset 0). -/
  preferred : Bool := false
  /-- FSYNC outputs whose takeover the manifest declares (R280; reset none). -/
  takeover : List Nat := []
  /-- The manifest's digest, reported in IDENT (R18; 32 bytes; reset empty). -/
  digest : List Byte := []
  /-- Ports 0 and 1 (R438). -/
  ports : SMap DvPort := []
  /-- Next MSG_ID per channel (R411; 16 bits WRAP; reset 0), and messages accepted: source, channel, MSG_ID (R417; reset none). -/
  ids : SMap W16 := []
  seen : List (Nat × Nat × W16) := []
  /-- DATA messages being reassembled: source, MSG_ID, bytes (R419; reset none). -/
  frags : List (Nat × W16 × List Byte) := []
  /-- LTC of the partner's last message (R426; reset none), and PARTNER_LOST is in force (reset 0). -/
  heard : Option W64 := none
  lost : Bool := false
  /-- The partner's last HEARTBEAT or FAULT_STATE (R425, DV_PARTNER [15:8]; reset none). -/
  partner : Option Beat := none
  /-- The follower's exchanges: LTC of the last, the last 8 Δ with their LTC (R424; reset none). -/
  exch : Option W64 := none
  deltas : List (W64 × Int) := []
  /-- Link delay d (R423; dc 0). -/
  delay : Int := 0
  /-- LTC_INC is held for want of exchanges (R424; reset 0). -/
  holdInc : Bool := false
  /-- t1 of the TIME_REQ in flight (R422; reset none). -/
  t1 : Option W64 := none
  /-- Partner offset O (R431; signed; reset 0), and the two pointers' frame mapping is set. -/
  offset : Int := 0
  mapped : Bool := false
  /-- Consecutive exchanges above and within the guard (R433, R435; reset 0). -/
  beyond : Nat := 0
  within : Nat := 0
  /-- REALIGN's entry frame e, and the own frame at which it is left (R435; reset none). -/
  entry : Option W32 := none
  exitAt : Option W32 := none
  /-- The partner's PLAN_CHECK and LOOP_PROPOSE for the start in progress (R347, R431, R432; reset none). -/
  check : Option PlanCheckMsg := none
  propose : Option (W64 × W32 × Bool) := none
  /-- LTCs at which they arrived: a partner's start waits at most 100 ms (R347; dc 0). -/
  checkAt : W64 := 0
  proposeAt : W64 := 0
  /-- Comparison waits for the frame boundary after PLAN_CHECK (R432; reset 0). -/
  compare : Bool := false
  /-- Partner FRAME_SIGs not yet compared, with their receive LTC (R421; reset none). -/
  sigs : List (W64 × FrameSigMsg) := []
  /-- Own verdicts are UNCHECKED since a partner fault or loss (R426, R429; reset 0). -/
  uncheck : Bool := false
  /-- Frame signatures are compared (R347, R432; reset 0), and the loop started with the partner absent (R347; reset 0). -/
  comparing : Bool := false
  absent : Bool := false
  /-- LTC at which FAULT_IN returned low (R429; reset none). -/
  lowAt : Option W64 := none
  /-- Sideband test phase reached (R430; reset 0: none), and FAULT_IN is expected for it. -/
  test : Nat := 0
deriving DecidableEq, Repr

/-- A recalibration run in progress (R181). -/
structure AdaptRun where
  id : W32
  scene : Nat
  valid : Nat
  event : W16
  seed : W64
  epochs : Nat
  /-- Epoch in progress; equal to `epochs` during the validation replay (R181). -/
  epoch : Nat := 0
  /-- Scene frames of the epoch in the order of their replay (R258; during the validation replay empty: record order). -/
  order : List Nat := []
  /-- A fault of class C2 or above occurred in steps 3 to 6 (R183). -/
  faulted : Bool := false
  /-- Scale exponents j chosen so far per core × 512 + counter (R182). -/
  scales : List (Nat × Int) := []
deriving DecidableEq, Repr

/-- A result record (R183, R345 ADAPT_RESULT). -/
structure AdaptRec where
  id : W32
  /-- Verdict 1 VALID, 2 REJECTED, 3 ABORTED; first failed test; CORRUPT count; the candidate's digest; worst clip, head and Winograd figures (R183, R347). -/
  verdict : Nat
  first : Nat := 0
  corrupt : Nat := 0
  candidate : List Byte := []
  worstClip : W32 := 0
  worstHead : W32 := 0
  worstWino : W32 := 0
  /-- Plan digest of the perception plan the candidate is for (R184). -/
  plan : List Byte := []
deriving DecidableEq, Repr

/-- Charging-time recalibration (R179–R185, R381, R382). -/
structure Adapt where
  /-- Recalibration and perception contexts (R381; reset none). -/
  ctxs : Option (Nat × Nat) := none
  /-- The run in progress (R181; reset none). -/
  run : Option AdaptRun := none
  /-- Result records held until the next run (R184; reset none). -/
  recs : List AdaptRec := []
  /-- Next run ID (R345; 32 bits; dc 1). -/
  nextId : W32 := 1
deriving DecidableEq, Repr

/-- The machine. -/
structure State where
  /-- Commands that wait, first in first out: the model's own queue, asked of a block (log entry 6; reset empty). -/
  pending : List Instr := []
  /-- Free values drawn so far: the model's own counter, which `freshBits` reads and advances (log entry 2; reset 0, dc). -/
  free : Nat := 0
  /-- What the block has sent out, oldest first: the model's own record of its outputs (reset empty). -/
  sent : List Out := []
  /-- Identity, state, session and attach of the device (R11, R304, R566). -/
  dev : Dev := {}
  /-- Dispatch mailbox (R328–R334). -/
  mbD : Mbx := {}
  /-- Lantern mailbox (R328–R334). -/
  mbL : Mbx := {}
  /-- Urgent slot and the pending reports (R339, R340). -/
  urg : Urg := {}
  /-- Fault collection (R441–R464). -/
  fc : Fc := {}
  /-- Lantern's log (R469, R470). -/
  log : Log := {}
  /-- Lantern: configuration area, guard, firmware, sensors, rails (R355, R466–R488). -/
  ltn : Ltn := {}
  /-- Time unit (R263–R283). -/
  time : TimeU := {}
  /-- Energy ledger (R202–R218). -/
  energy : Energy := {}
  /-- Chamber, staging and DRAM (R184–R201). -/
  mem : MemT := {}
  /-- KV manager (R149–R165). -/
  kv : Kv := {}
  /-- Fabric, islands and power domains (R31–R48, R531–R537). -/
  fab : Fabric := {}
  /-- Compute cores by node (R49–R98). -/
  cores : SMap Core := []
  /-- Mirror pairs and comparators (R385–R406). -/
  mir : Mir := {}
  /-- Host link, MSI-X, inbound windows and torn entries (R284–R309). -/
  host : HostLink := {}
  /-- Shared objects (R310–R327). -/
  obj : Obj := {}
  /-- Frame loop (R274, R358–R365, R449–R456). -/
  loop : Loop := {}
  /-- Plans loaded, by context (R356, R357; reset none). -/
  plans : List Loaded := []
  /-- Sensor intake, Prism and Focus (R219–R262). -/
  intake : Intake := {}
  /-- Dvorpo ports, alignment and the partner (R407–R438). -/
  dv : Dv := {}
  /-- Recalibration (R179–R183, R241). -/
  adapt : Adapt := {}
  /-- Trace and debug units (R501–R512). -/
  trace : TraceU := {}
  /-- Supervised pins' sampling, by pin (R520–R527). -/
  sio : SMap SioPin := []
deriving DecidableEq, Repr

/-- The machine right after power-on reset: every field at its reset value, only PD_AON on, nothing pending. -/
def State.reset : State := {}

end Sys2Proof.Machine
end

