-- ==== Sys2Proof/Machine/Ops.lean ====
section
/-! DEFINITION. Operations every family shares: the clock's reading, outputs, the log, posted writes to the host, MSI-X
and event delivery, and a core's place in the state. -/

namespace Sys2Proof.Machine

/-- What a meaning answers. -/
abbrev Res := Host.Outcome State Fault Refusal

/-- The LTC: the integer part of the accumulator (R262). -/
def now (s : State) : W64 := (s.time.acc >>> 32).setWidth 64
/-- Send something out. -/
def emit (o : Out) (s : State) : State := { s with sent := s.sent ++ [o] }
/-- Send a fabric message. -/
def emitFab (m : FabMsg) (s : State) : State := emit (.fab m) s

/-- The core at a node. -/
def getCore (s : State) (n : Node) : Core := getK {} s.cores n.toNat
/-- Put a core at a node. -/
def setCore (n : Node) (c : Core) (s : State) : State := { s with cores := putK {} s.cores n.toNat c }
/-- Change the core at a node. -/
def updCore (n : Node) (f : Core → Core) (s : State) : State := setCore n (f (getCore s n)) s

/-- Codes of R11. A boot halt is a halt of BOOTING; AON_ONLY has no code that a host sees, and reads as all ones (R13, R370). -/
def DevState.code : DevState → BitVec 4
  | .booting => 1 | .ready => 2 | .attached => 3 | .running => 4 | .adapting => 5
  | .degraded => 6 | .safeHold => 7 | .locked => 8 | .realign => 9 | .aonOnly => 15 | .bootHalt => 1
/-- DEVSTATE[7:0] (R11, R12). -/
def devByte (d : Dev) : Byte := (match d.prior with | some p => p.code | none => 0) ++ d.state.code
/-- DEVSTATE (R362). -/
def devstate (d : Dev) : W32 :=
  d.stateSeq ++ (0 : BitVec 4) ++ BitVec.ofBool d.sitesLost ++ BitVec.ofBool d.bootedAlt
    ++ BitVec.ofBool d.manifestLoaded ++ BitVec.ofBool d.dispatchUp ++ devByte d

/-- The class's number (R442). -/
def Cls.num : Cls → Nat
  | .c0 => 0 | .c1 => 1 | .c2 => 2 | .c3 => 3 | .c4 => 4
/-- The higher of two classes. -/
def Cls.max (a b : Cls) : Cls := if a.num < b.num then b else a
/-- At least the class. -/
def Cls.ge (a b : Cls) : Bool := decide (b.num ≤ a.num)

/-- The frame number at this moment, or 0xFFFF_FFFF with no frame loop (R332). -/
def frameNo (s : State) : W32 :=
  match s.loop.ctx, s.loop.cur with
  | none, none => 0xFFFFFFFF
  | _, some f => f.n
  | some _, none => if s.loop.started = 0 then 0 else s.loop.next - 1

/-- The 32 bytes of a log record (R469). -/
def logBytes (r : LogRec) : List Byte :=
  let b := leBytes 4 r.seq.toNat ++ leBytes 8 r.ltc.toNat ++ [r.kind, r.cls] ++ leBytes 2 r.code.toNat ++ r.payload
  b ++ leBytes 4 (crc32c b).toNat

/-- The collector hardware holds Lantern in reset after a lockstep or SRAM error of its own (R465). -/
def ltnHeld (s : State) : Bool := s.fc.active.any (fun e => (e.source = .ltnLockstep || e.source = .ltnSramUe) && e.cause)

/-- Append one record (R469, R470): the ring keeps the latest 2048, and one overwritten before its flush is lost. The hub
staging mirror follows while PD_HUB is on, record n at n modulo 2048. -/
def logPut (kind cls : Byte) (code : W16) (payload : List Byte) (s : State) : State :=
  if ltnHeld s then s else
  let l := s.log
  let r : LogRec := { seq := l.seq, ltc := now s, kind, cls, code, payload := sub payload 0 12 }
  let ring := l.ring ++ [r]
  let s := if s.fab.gated.contains 1 then s
    else { s with mem := { s.mem with staging := wrN s.mem.staging (0xF0000 + l.seq.toNat % 2048 * 32) (logBytes r) } }
  let l' := { l with seq := l.seq + 1, urgentFlush := l.urgentFlush || (kind = 1 && decide (2 ≤ cls.toNat)) }
  if ring.length ≤ 2048 then { s with log := { l' with ring } }
  else
    let old := ring.headD r
    let lost := decide ((old.seq - l.flushed).toNat < 2 ^ 31)
    let gap := if lost then some ((match l.gap with | some g => g.1 | none => old.seq), old.seq) else l.gap
    { s with log := { l' with ring := ring.tail, gap, flushed := if lost then old.seq + 1 else l.flushed } }

/-- Append a log record; when records have been lost, a LOG_GAP record names their range (R470). -/
def logRec (kind cls : Byte) (code : W16) (payload : List Byte) (s : State) : State :=
  let s := logPut kind cls code payload s
  match s.log.gap with
  | some (a, b) => logPut 0x0A 0 0 (leBytes 4 a.toNat ++ leBytes 4 b.toNat) { s with log := { s.log with gap := none } }
  | none => s

/-- A C0 note: a FAULT record of class 0 (R469). -/
def note (code : W16) (payload : List Byte) (s : State) : State := logRec 1 0 code payload s

/-- The default of an MSI-X vector. -/
def getVec (s : State) (v : Nat) : MsixVec := getK {} s.host.msix v
/-- Send a vector, or set its pending bit while it is masked or the link is down (R302). -/
def msix (v : Nat) (s : State) : State :=
  let e := getVec s v
  if s.host.up ∧ s.host.msixEn ∧ ¬e.masked then emit (.msix v) s
  else { s with host := { s.host with msix := putK {} s.host.msix v { e with pend := true } } }

/-- Bytes of posted writes held now: AR_HELD (R304, R576). -/
def heldBytes (h : HostLink) : Nat := (h.held.map (fun w => w.data.length)).sum

/-- Mark an object TORN for the current detach generation (R305): one entry per object and generation, 4096 at most. -/
def tornMark (obj : Handle) (len : Nat) (flag : BitVec 4) (s : State) : State :=
  let h := s.host
  let hit (e : TornEnt) : Bool := e.obj = obj && e.gen = h.gen
  let torn := if h.torn.any hit then
      h.torn.map (fun e => if hit e then
        { e with lost := min (e.lost + len) (2 ^ 64 - 1), last := frameNo s, flags := e.flags ||| flag } else e)
    else if h.torn.length < 4096 then
      h.torn ++ [{ obj, gen := h.gen, lost := len, first := frameNo s, last := frameNo s, flags := flag }]
    else h.torn
  { s with host := { h with torn, tornOvf := h.tornOvf || (!(h.torn.any hit) && decide (4096 ≤ h.torn.length)) } }

/-- Discard a posted write: its object, if any, is TORN (R304, R305). -/
def discardPosted (flag : BitVec 4) (w : Posted) (s : State) : State :=
  match w.obj with
  | some o => tornMark o w.data.length flag s
  | none => s

/-- The object's cached descriptor is an invalid one (R314): it is kept with LENGTH 0, which no valid descriptor has. -/
def objInvalid (s : State) (h : Handle) : Bool := s.obj.descs.any (fun d => d.1 = h && d.2.length = 0)

/-- A posted write to host memory (R293, R304): sent while attached with the link up, held or discarded while detached; to an
object whose descriptor is invalid it is discarded and the object is TORN (R314). It drops the device's own cached copy of
the lines it writes. -/
def postWrite (w : Posted) (s : State) : State :=
  let h := s.host
  let lines := match w.obj with
    | some o => h.lines.filter (fun l => ¬(l.1 = o ∧ w.addr.toNat / 64 ≤ l.2.1 ∧ l.2.1 * 64 < w.addr.toNat + w.data.length))
    | none => h.lines
  let s := { s with host := { h with lines } }
  if (match w.obj with | some o => objInvalid s o | none => false) then discardPosted 0 w s
  else if h.attached ∧ h.up then emit (.hostWrite w) s
  else if h.holdEnded then discardPosted 4 w s
  else if h.overflowed ∨ 262144 < heldBytes h + w.data.length then
    discardPosted 1 w { s with host := { s.host with overflowed := true } }
  else { s with host := { s.host with held := s.host.held ++ [w] } }

/-- A non-posted request of the device to host memory (R296). -/
def hostReq (what : ReqFor) (mk : Nat → Out) (s : State) : State :=
  let h := s.host
  emit (mk h.nextTag)
    { s with host := { h with nextTag := h.nextTag + 1, reqs := h.reqs ++ [{ tag := h.nextTag, at_ := now s, what }] } }

/-- An event handle that names an event: not 0xFFFF and below the table's count (R308). -/
def evtValid (s : State) (h : Nat) : Bool := decide (h ≠ 0xFFFF) && decide (h < s.obj.evtTab.count)

/-- Move the entries that satisfy `p` to the end: they are the most recently used. -/
def touch {α : Type} (p : α → Bool) (l : List α) : List α := l.filter (fun x => !p x) ++ l.filter p
/-- Append an entry to a cache of `cap` entries kept least recently used first: when full, the first unpinned one goes. -/
def lruInsert {α : Type} (cap : Nat) (pinned : α → Bool) (x : α) (l : List α) : List α :=
  if l.length < cap then l ++ [x] else l.takeWhile pinned ++ (l.dropWhile pinned).tail ++ [x]

/-- Replace a resident event descriptor. -/
def setEvt (e : EvtSlot) (s : State) : State :=
  { s with obj := { s.obj with evts := s.obj.evts.map (fun x => if x.id = e.id then e else x) } }

/-- The 32 bytes of an event record (R313). -/
def evtBytes (r : EvtRec) : List Byte :=
  leBytes 2 r.event.toNat ++ leBytes 2 r.kind.toNat ++ leBytes 4 r.frame.toNat ++ leBytes 8 r.ltc.toNat ++ sub r.payload 0 16

/-- Deliver a record through a resident slot (R318 steps 2 and 3): dropped and counted when the ring is full. -/
def deliverTo (e : EvtSlot) (r : EvtRec) (s : State) : State :=
  if e.entries ≤ (e.producer - e.consumer).toNat then
    let e := { e with drop := e.drop.inc }
    setEvt e (postWrite { obj := none, addr := s.obj.evtTab.base + BitVec.ofNat 64 (e.id * 32 + 24),
                          data := leBytes 2 e.drop.val.toNat ++ leBytes 2 (if e.drop.sat then 32768 else 0) } s)
  else
    let s := if e.record then
        postWrite { obj := some e.ring, addr := BitVec.ofNat 64 (e.producer.toNat % e.entries * 32), data := evtBytes r } s
      else s
    let s := postWrite { obj := none, addr := s.obj.evtTab.base + BitVec.ofNat 64 (e.id * 32 + 16),
                         data := leBytes 4 (e.producer + 1).toNat } s
    let s := setEvt { e with producer := e.producer + 1, armed := e.armed && !e.msix } s
    if e.msix && e.armed then msix e.vector s else s

/-- Post an event record (R318): through its slot when resident, else after a slot fault; when the ring looks full the
device re-reads CONSUMER once before it decides. A handle that names no event is counted in EVT_LOST_CNT (R314). -/
def postEvent (event kind : W16) (payload : List Byte) (s : State) : State :=
  let r : EvtRec := { event, kind, frame := frameNo s, ltc := now s, payload }
  if event = 0xFFFF then s
  else if ¬evtValid s event.toNat then { s with obj := { s.obj with evtLost := s.obj.evtLost.inc } }
  else
    match s.obj.evts.find? (fun e => e.id = event.toNat) with
    | some e =>
      if e.entries ≤ (e.producer - e.consumer).toNat then
        hostReq (.consumer e.id)
          (fun t => .hostRead t none (s.obj.evtTab.base + BitVec.ofNat 64 (e.id * 32 + 20)) 4)
          { s with obj := { s.obj with evtWait := s.obj.evtWait ++ [r] } }
      else deliverTo e r s
    | none =>
      let s := { s with obj := { s.obj with evtWait := s.obj.evtWait ++ [r] } }
      if s.obj.faults.contains (.event event.toNat) then s
      else
        hostReq (.table (.event event.toNat))
          (fun t => .hostRead t none (s.obj.evtTab.base + BitVec.ofNat 64 (event.toNat * 32)) 32)
          { s with obj := { s.obj with faults := s.obj.faults ++ [.event event.toNat] } }

/-- Post a record to the NOTIFY_EVENT of every loaded context (R363, R404). -/
def notifyAll (kind : W16) (payload : List Byte) (s : State) : State :=
  (s.obj.ctxs.filter (·.pinned)).foldl (fun s c => postEvent c.notify kind payload s) s

/-- Replace a mailbox. -/
def getMb (m : Mailbox) (s : State) : Mbx := match m with | .dispatch => s.mbD | .lantern => s.mbL
def setMb (m : Mailbox) (b : Mbx) (s : State) : State :=
  match m with | .dispatch => { s with mbD := b } | .lantern => { s with mbL := b }

/-- The FAULT_OUT level a state asks for (R428); `pat` says that the start-up pattern has passed. -/
def faultOutOf (st : DevState) (pat : Bool) : FaultOut :=
  match st with
  | .ready | .attached | .running | .adapting | .realign => .low
  | .booting => if pat then .low else .high
  | .safeHold | .degraded => .marked
  | .locked | .bootHalt | .aonOnly => .high

/-- When a driven level last changed (R522): now, if it changes. -/
def edgeTime (old new : Bool) (at_ : Option W64) (s : State) : Option W64 := if old = new then at_ else some (now s)
/-- Drive FAULT_OUT (R428). -/
def driveFault (f : FaultOut) (s : State) : State :=
  { s with fc := { s.fc with faultOut := f, faultAt := edgeTime (decide (s.fc.faultOut ≠ .low)) (decide (f ≠ .low)) s.fc.faultAt s } }
/-- Drive ALIVE (R364, R447). -/
def driveAlive (b : Bool) (s : State) : State := { s with fc := { s.fc with alive := b, aliveAt := edgeTime s.fc.alive b s.fc.aliveAt s } }

/-- Move to a state (R361, R362, R363): STATE_SEQ counts it, it is logged, and every loaded context gets a STATE_CHANGE
record. `cause` is the fault source code or the opcode. -/
def transition (st : DevState) (prior : Option DevState) (cause : W16) (s : State) : State :=
  let old := devByte s.dev
  let seq := s.dev.stateSeq + 1
  let s := { s with dev := { s.dev with state := st, prior, stateSeq := seq } }
  let new := devByte s.dev
  let s := driveFault (faultOutOf st s.fc.aliveRun) s
  let s := logRec 2 0 cause [old, new] s
  notifyAll 1 ([old, new] ++ leBytes 2 cause.toNat ++ leBytes 2 seq.toNat) s

/-- The next free value, as bits (log entry 2). -/
def freshBits (w : Nat) (s : State) : BitVec w × State := (Config.freeBits s.free w, { s with free := s.free + 1 })

/-- The plan loaded for a context. -/
def planOf (s : State) (ctx : Nat) : Option Loaded := s.plans.find? (fun p => p.ctx = ctx)
/-- The plan whose frames run: the frame loop's, or the torch section's (R276, R455). -/
def curPlan (s : State) : Option Loaded :=
  match s.loop.ctx, s.loop.torchCtx with
  | some c, _ => planOf s c
  | none, some c => if s.fc.torch then planOf s c else none
  | none, none => none
/-- The context descriptor of a loaded context. -/
def ctxOf (s : State) (ctx : Nat) : Option CtxSlot := s.obj.ctxs.find? (fun c => c.id = ctx)

/-- The power domain of a node, by number in the order of R217: the hub's blocks, then PD_G0A … PD_G3B (R33, R35, R51). -/
def domainOf (n : Node) : Nat :=
  let die := n.toNat / 128
  if die < 4 then
    if n.getLsbD 6 then 8 + 2 * die + (if n.toNat % 64 < 3 then 0 else 1)
    else 8 + 2 * die + (if n.toNat / 8 % 8 < 3 then 0 else 1)
  else
    match n.toNat % 64 with
    | 0x08 | 0x09 | 0x0A => 0
    | 0x10 => 3
    | 0x18 | 0x19 | 0x1A | 0x1B => 6
    | 0x20 => 2
    | 0x28 | 0x29 => 7
    | _ => 1
/-- The node's domain is on. -/
def powered (s : State) (n : Node) : Bool := !s.fab.gated.contains (domainOf n)
/-- The island at a node. -/
def getIsland (s : State) (n : Node) : Island := getK {} s.fab.islands n.toNat
def setIsland (n : Node) (i : Island) (s : State) : State :=
  { s with fab := { s.fab with islands := putK {} s.fab.islands n.toNat i } }
/-- The node accepts requests and messages: its domain is on and its ingress open (R46). -/
def accepts (s : State) (n : Node) : Bool := powered s n && !(getIsland s n).closed

/-- The 32-bit instance word of R462. -/
def instWord (i : Inst) (safety : Bool) : W32 :=
  (0 : BitVec 7) ++ BitVec.ofBool safety ++ i.sub ++ (0 : BitVec 6) ++ i.node

/-- The logical core that a physical site serves (R51, R52): itself, or the site that a spare replaces, by the map of the
latest plan load. -/
def logicalOf (s : State) (n : Node) : Node :=
  let g := n.toNat / 128
  match s.dev.subst.find? (fun e => decide (e.gallery.toNat = g) && decide (n.toNat % 128 = 48 + (if e.spare = 0 then 0 else 5))) with
  | some e => BitVec.ofNat 10 (g * 128 + e.column.toNat * 8 + e.row.toNat)
  | none => n

/-- The physical site that serves a logical core at a plan load now (R51, R52). -/
def physOf (s : State) (n : Node) : Node :=
  let g := n.toNat / 128
  match s.ltn.cfg.subst.find? (fun e => decide (e.gallery.toNat = g) && decide (n.toNat % 128 = e.column.toNat * 8 + e.row.toNat)) with
  | some e => BitVec.ofNat 10 (g * 128 + 48 + (if e.spare = 0 then 0 else 5))
  | none => n

/-- Space left in a buffer that stops when full (R505, R506). -/
def traceRoom (t : TraceU) : Bool := !t.stopFull || decide (t.bytes.val.toNat + 32 ≤ t.size)
/-- The destination takes writes now: the hub always, DRAM unless BEST_EFFORT is halted (R505, R200). -/
def traceOpen (s : State) : Bool := !s.trace.dram || !s.mem.halted

/-- Usable bytes of a channel: 7/8 of its installed capacity (R189). -/
def chanUsable : Nat := Config.dramPerChannel / 8 * 7
/-- The usable device DRAM space U (R189), halved after a boot with a retired pair (R194). -/
def dramU (s : State) : Nat := if s.mem.halved then 2 * chanUsable else 4 * chanUsable
/-- Channel and channel offset of a device address (R189). -/
def dramChan (a : Nat) : Nat := a / 256 % 4
def dramOff (a : Nat) : Nat := a / 1024 * 256 + a % 256
/-- The granule of an address, as one number. -/
def granule (a : Nat) : Nat := dramChan a * 2 ^ 40 + dramOff a / 256
/-- REMAP redirects the address: its pair is the one retired (R194). -/
def remapped (m : MemT) (a : Nat) : Bool := m.remap && decide (m.retired.head? = some (dramChan a / 2))
/-- The granule is still served from the retired channel (R194). -/
def uncopied (m : MemT) (a : Nat) : Bool := remapped m a && m.migrating && !m.copied.contains (granule a)
/-- The key of a byte on its own channel and on its shadow (R194): channel × 2^40 + offset. -/
def homeKey (a : Nat) : Nat := dramChan a * 2 ^ 40 + dramOff a
def shadowKey (a : Nat) : Nat := (dramChan a + 2) % 4 * 2 ^ 40 + dramOff a + chanUsable / 2
/-- Where an address's byte lies now (R189, R194). -/
def dramKey (m : MemT) (a : Nat) : Nat := if remapped m a && !uncopied m a then shadowKey a else homeKey a
/-- Copy the granule of an address to its shadow, poison included (R194). -/
def copyGranule (a : Nat) (m : MemT) : MemT :=
  let a := a / 256 * 256
  let bad := (List.range 4).filterMap (fun l =>
    if m.dramBad.contains (homeKey (a + 64 * l) / 64) then some (shadowKey (a + 64 * l) / 64) else none)
  let dst := (List.range 4).map (fun l => shadowKey (a + 64 * l) / 64)
  { m with dram := wrN m.dram (shadowKey a) (rdN m.dram (homeKey a) 256), copied := m.copied ++ [granule a],
           dramBad := m.dramBad.filter (fun l => !dst.contains l) ++ bad }
/-- Write one byte of DRAM; a granule not yet copied is copied first (R194). -/
def dramPut (a : Nat) (b : Byte) (m : MemT) : MemT :=
  let m := if uncopied m a then copyGranule a m else m
  { m with dram := putK 0 m.dram (dramKey m a) b }
/-- Write bytes; an empty enable list enables every byte. -/
def dramPuts : Nat → List Byte → List Bool → MemT → MemT
  | _, [], _, m => m
  | a, b :: bs, [], m => dramPuts (a + 1) bs [] (dramPut a b m)
  | a, b :: bs, e :: es, m => dramPuts (a + 1) bs es (if e then dramPut a b m else m)
/-- Read bytes of DRAM. -/
def dramGets (m : MemT) (a n : Nat) : List Byte := (List.range n).map (fun i => rd m.dram (dramKey m (a + i)))

/-- Where uncopied granules of the retired pair belong when migration ends (R194): every byte and every poisoned line that the
engine has still to copy moves to its shadow. -/
def finishCopy (m : MemT) : MemT :=
  match m.retired.head? with
  | none => m
  | some p =>
    let half := chanUsable / 2
    let left (c off : Nat) : Bool := decide (c / 2 = p) && decide (off < half) && !m.copied.contains (c * 2 ^ 40 + off / 256)
    let stale (c off : Nat) : Bool := decide (half ≤ off) && left ((c + 2) % 4) (off - half)
    let dst (c off : Nat) : Nat := (c + 2) % 4 * 2 ^ 40 + off + half
    let bytes := m.dram.filter (fun e => left (e.1 / 2 ^ 40) (e.1 % 2 ^ 40))
    let lines := m.dramBad.filter (fun l => left (l / 2 ^ 34) (l % 2 ^ 34 * 64))
    { m with
      dram := bytes.foldl (fun d e => putK 0 d (dst (e.1 / 2 ^ 40) (e.1 % 2 ^ 40)) e.2)
        (m.dram.filter (fun e => !stale (e.1 / 2 ^ 40) (e.1 % 2 ^ 40)))
      dramBad := m.dramBad.filter (fun l => !stale (l / 2 ^ 34) (l % 2 ^ 34 * 64)) ++
        lines.map (fun l => dst (l / 2 ^ 34) (l % 2 ^ 34 * 64) / 64) }

/-- The class of a number in the counters of R199. -/
def bwNum : BwClass → Nat
  | .safety => 0 | .sensor => 1 | .bulk => 2 | .bestEffort => 3
/-- The controller that serves an address: its channel, or the surviving one that REMAP names (R189, R194). -/
def controllerOf (m : MemT) (a : Nat) : Nat := dramKey m a / 2 ^ 40
/-- Count traffic in a class, granule by granule, at the controllers that serve it (R199). -/
def countBytes (cls : BwClass) (a n : Nat) (m : MemT) : MemT :=
  { m with bytes := (List.range ((a % 256 + n + 255) / 256)).foldl (fun b i =>
      let g := (a / 256 + i) * 256
      updK {} b (4 * controllerOf m g + bwNum cls) (fun x => x.add (min (a + n) (g + 256) - max a g))) m.bytes }

/-- The funnel writes one record (R505, R506): at TRC_BYTES modulo the size, counted; a full buffer stops the trace. -/
def tracePut (r0 : List Byte) (s : State) : State :=
  let t := s.trace
  if t.full ∨ ¬traceRoom t then
    { s with trace := { t with full := true, drops := t.drops.inc } }
  else
    let at_ := t.bytes.val.toNat % max t.size 32
    let mem := if t.dram then
        countBytes .bestEffort (t.off + at_) 32 (dramPuts (t.off + at_) r0 [] s.mem)
      else { s.mem with staging := wrN s.mem.staging (0xB0000 + at_) r0 }
    { s with mem, trace := { t with bytes := t.bytes.add 32, records := t.records.inc } }

/-- A trace record (R501). -/
def traceBytes (kind dom : Nat) (node : Nat) (seq : W32) (ltc : W64) (payload : List Byte) : List Byte :=
  leBytes 1 kind ++ leBytes 1 dom ++ leBytes 2 node ++ leBytes 4 seq.toNat ++ leBytes 8 ltc.toNat ++ sub payload 0 16

/-- A funnel record (R504, R507): node 0x3FF, with the funnel's own SEQ. -/
def traceFunnel (kind dom : Nat) (payload : List Byte) (s : State) : State :=
  tracePut (traceBytes kind dom 0x3FF s.trace.seq (now s) payload) { s with trace := { s.trace with seq := s.trace.seq + 1 } }

/-- A core's trace unit emits a record when it is enabled for the core and the content (R501–R504): it goes through the
32-record FIFO, which the funnel drains at once while the destination takes writes (log entry 19). -/
def traceRec (n : Node) (kind maskBit : Nat) (payload : List Byte) (s : State) : State :=
  let t := s.trace
  if ¬t.running ∨ ¬t.mask.getLsbD maskBit ∨ ¬t.enabled.contains (logicalOf s n) ∨ ¬powered s n then s
  else
    let c := getCore s n
    let r0 := traceBytes kind 0 n.toNat c.traceSeq (now s) payload
    let c := { c with traceSeq := c.traceSeq + 1 }
    if traceOpen s then
      let s := c.traceFifo.foldl (fun s r => tracePut r s) s
      let s := if c.traceLost = 0 then s
        else traceFunnel 0x11 0 (leBytes 4 c.traceLost ++ leBytes 2 n.toNat) s
      tracePut r0 (setCore n { c with traceFifo := [], traceLost := 0 } s)
    else if c.traceFifo.length < 32 then setCore n { c with traceFifo := c.traceFifo ++ [r0] } s
    else
      { setCore n { c with traceLost := c.traceLost + 1 } s with trace := { t with drops := t.drops.inc } }

/-- Codes of the run states (R70, in its order). -/
def RunState.code : RunState → Nat
  | .off => 0 | .held => 1 | .idle => 2 | .run => 3 | .wait => 4 | .done => 5 | .quiesced => 6 | .fault => 7

/-- STATE records of the cores whose run state differs from what it was (R502). -/
def traceRun (before : SMap Core) (src : W16) (s : State) : State :=
  s.cores.foldl (fun s e =>
    let o := (getK {} before e.1).run
    if o = e.2.run then s
    else traceRec (BitVec.ofNat 10 e.1) 0x05 3
      (leBytes 1 o.code ++ leBytes 1 e.2.run.code ++ leBytes 2 src.toNat ++ leBytes 2 e.2.frec.pcFault.toNat) s) s

/-- Channels of Dvorpo in the order of service (R419): CTRL, SIG, TIME, DATA. -/
def dvRank (chan : Nat) : Nat := match chan with | 2 => 0 | 0 => 1 | 1 => 2 | _ => 3

/-- Put a flit into the waiting list of a port, in the order of R418 and R419: forwarded flits first, then by channel. -/
def dvInsert (f : HeldFlit) : List HeldFlit → List HeldFlit
  | [] => [f]
  | g :: gs =>
    let rank (x : HeldFlit) : Nat := if x.hops = 0 then 1 + dvRank x.chan else 0
    if rank f < rank g then f :: g :: gs else g :: dvInsert f gs

/-- Send what waits at a port while the replay buffer of 64 flits has room (R413). -/
def dvPump : Nat → Nat → State → State
  | 0, _, s => s
  | fuel + 1, k, s =>
    let p := getK {} s.dv.ports k
    match p.wait with
    | [] => s
    | f :: fs =>
      if p.state ≠ .active ∨ 64 ≤ p.buf.length then s
      else
        let f := { f with seq := p.txSeq, at_ := now s }
        let p := { p with wait := fs, buf := p.buf ++ [f], txSeq := p.txSeq + 1 }
        dvPump fuel k (emit (.dv k f.seq f.chan f.src f.dst f.hops f.msgId f.corr f.first f.last f.payload)
          { s with dv := { s.dv with ports := putK {} s.dv.ports k p } })

/-- Queue a flit at a port and send what can be sent. -/
def dvQueue (k : Nat) (f : HeldFlit) (s : State) : State :=
  let p := getK {} s.dv.ports k
  dvPump 65 k { s with dv := { s.dv with ports := putK {} s.dv.ports k { p with wait := dvInsert f p.wait } } }

/-- Send a message of one flit to a position through a port (R411, R419). -/
def dvSend (k chan dst : Nat) (payload : List Byte) (s : State) : State :=
  let id := getK 0 s.dv.ids chan
  dvQueue k { seq := 0, at_ := now s, chan, src := s.dv.p, dst, msgId := id, payload }
    { s with dv := { s.dv with ids := putK 0 s.dv.ids chan (id + 1) } }

end Sys2Proof.Machine
end

