-- ==== Sys2Proof/Machine/Sources.lean ====
section
/-! DEFINITION. The fault sources: codes, default classes and entries, and the reaction table's entry in force (R439–R444). -/

namespace Sys2Proof

/-- The source code of R439: group in [15:8], position in its group in [7:0]. -/
def Source.code : Source → W16
  | .fabLinkTimeout => 0x0101
  | .fabCe => 0x0102
  | .fabHdrUe => 0x0103
  | .fabReplyTimeout => 0x0104
  | .fabQuiesceTimeout => 0x0105
  | .coreRegPe => 0x0201
  | .coreImemUe => 0x0202
  | .coreImemCe => 0x0203
  | .coreMemUe => 0x0204
  | .coreMemCe => 0x0205
  | .coreIllegalOp => 0x0206
  | .coreIllegalFormat => 0x0207
  | .coreAlign => 0x0208
  | .coreRdPoison => 0x0209
  | .coreRouteUndeclared => 0x020A
  | .coreMsgOversize => 0x020B
  | .coreWaitLimit => 0x020C
  | .coreClkRange => 0x020D
  | .resourceOverflow => 0x020E
  | .destAbsent => 0x020F
  | .agBadDescriptor => 0x0210
  | .planShapeMiss => 0x0301
  | .planNoTiling => 0x0302
  | .seqBucketOverflow => 0x0303
  | .kvDrop => 0x0304
  | .kvPreempt => 0x0305
  | .kvSumpUnreachable => 0x0306
  | .kvPoolExhausted => 0x0307
  | .deadlineMiss => 0x0308
  | .chmCe => 0x0401
  | .chmUe => 0x0402
  | .stgCe => 0x0403
  | .stgUe => 0x0404
  | .chmCmpUnmapped => 0x0405
  | .chmCmpPartial => 0x0406
  | .chmCmpPool => 0x0407
  | .dramCe => 0x0408
  | .dramUe => 0x0409
  | .dramPairRetired => 0x040A
  | .dramNoMargin => 0x040B
  | .dramSafetyUnmet => 0x040C
  | .dramDataLost => 0x040D
  | .sensorLoss => 0x0501
  | .csiLaneOrder => 0x0502
  | .csiHdrUe => 0x0503
  | .csiCrc => 0x0504
  | .csiOverflow => 0x0505
  | .vdecStreamErr => 0x0506
  | .msrCorrupt => 0x0507
  | .focusList => 0x0508
  | .intakeUndeclared => 0x0509
  | .hostLinkDown => 0x0601
  | .hostAtomicUr => 0x0602
  | .objInvalid => 0x0603
  | .objRefSat => 0x0604
  | .objRefAnomaly => 0x0605
  | .mbLate => 0x0606
  | .mbInternal => 0x0607
  | .mbStateRefused => 0x0608
  | .mirSkewPe => 0x0701
  | .mirWindowLong => 0x0702
  | .mirMismatch => 0x0703
  | .mirVerdictDiffer => 0x0704
  | .mirRetry => 0x0705
  | .mirRetryFailed => 0x0706
  | .twinMismatch => 0x0707
  | .dvLane => 0x0801
  | .dvWidth => 0x0802
  | .dvRetrain => 0x0803
  | .dvLinkDown => 0x0804
  | .dvMiswire => 0x0805
  | .partnerLost => 0x0806
  | .partnerFault => 0x0807
  | .dvFaultPin => 0x0808
  | .dvDataDrop => 0x0809
  | .dvRealignFail => 0x080A
  | .partnerAbsent => 0x080B
  | .pwrCeiling => 0x0901
  | .coolantSensor => 0x0902
  | .coolantRange => 0x0903
  | .noBudget => 0x0904
  | .tjHigh => 0x0905
  | .railRange => 0x0906
  | .clkRefRange => 0x0907
  | .ltnLockstep => 0x0A01
  | .ltnConfigLost => 0x0A02
  | .ltnSramUe => 0x0A03
  | .ltnWatchdog => 0x0A04
  | .dspLockstep => 0x0A05
  | .dspWatchdog => 0x0A06
  | .ltnReconcile => 0x0A07
  | .bootFallback => 0x0A08
  | .sioHarnessSwap => 0x0B01
  | .sioShort => 0x0B02
  | .sioOpen => 0x0B03
  | .sioReadback => 0x0B04
  | .recoveryLimit => 0x0C01
  | .torchStartFail => 0x0C02
  | .torchRunFail => 0x0C03
  | .colChannelDiffer => 0x0C04
/-- Every source, in the order of R439. -/
def allSources : List Source :=
  [.fabLinkTimeout, .fabCe, .fabHdrUe, .fabReplyTimeout, .fabQuiesceTimeout, .coreRegPe, .coreImemUe, .coreImemCe, .coreMemUe, .coreMemCe, .coreIllegalOp, .coreIllegalFormat, .coreAlign, .coreRdPoison, .coreRouteUndeclared, .coreMsgOversize, .coreWaitLimit, .coreClkRange, .resourceOverflow, .destAbsent, .agBadDescriptor, .planShapeMiss, .planNoTiling, .seqBucketOverflow, .kvDrop, .kvPreempt, .kvSumpUnreachable, .kvPoolExhausted, .deadlineMiss, .chmCe, .chmUe, .stgCe, .stgUe, .chmCmpUnmapped, .chmCmpPartial, .chmCmpPool, .dramCe, .dramUe, .dramPairRetired, .dramNoMargin, .dramSafetyUnmet, .dramDataLost, .sensorLoss, .csiLaneOrder, .csiHdrUe, .csiCrc, .csiOverflow, .vdecStreamErr, .msrCorrupt, .focusList, .intakeUndeclared, .hostLinkDown, .hostAtomicUr, .objInvalid, .objRefSat, .objRefAnomaly, .mbLate, .mbInternal, .mbStateRefused, .mirSkewPe, .mirWindowLong, .mirMismatch, .mirVerdictDiffer, .mirRetry, .mirRetryFailed, .twinMismatch, .dvLane, .dvWidth, .dvRetrain, .dvLinkDown, .dvMiswire, .partnerLost, .partnerFault, .dvFaultPin, .dvDataDrop, .dvRealignFail, .partnerAbsent, .pwrCeiling, .coolantSensor, .coolantRange, .noBudget, .tjHigh, .railRange, .clkRefRange, .ltnLockstep, .ltnConfigLost, .ltnSramUe, .ltnWatchdog, .dspLockstep, .dspWatchdog, .ltnReconcile, .bootFallback, .sioHarnessSwap, .sioShort, .sioOpen, .sioReadback, .recoveryLimit, .torchStartFail, .torchRunFail, .colChannelDiffer]

/-- The group of a source (R439). -/
def Source.group (s : Source) : Nat := s.code.toNat / 256

end Sys2Proof

namespace Sys2Proof.Machine

/-- The default class of a source for an instance of the attribution (R439 and the owning chapters). -/
def defaultCls (safety : Bool) : Source → Cls
  | .fabCe | .coreImemCe | .coreMemCe | .chmCe | .stgCe | .dramCe => .c1
  | .deadlineMiss => if safety then .c3 else .c1
  | .planShapeMiss | .planNoTiling | .seqBucketOverflow | .kvDrop | .kvPreempt | .kvSumpUnreachable
  | .kvPoolExhausted => if safety then .c2 else .c1
  | .chmUe | .stgUe | .dramUe | .chmCmpUnmapped | .chmCmpPartial | .chmCmpPool => if safety then .c2 else .c1
  | .dramPairRetired => .c1
  | .dramNoMargin => .c2
  | .dramSafetyUnmet | .dramDataLost => .c3
  | .sensorLoss => if safety then .c2 else .c1
  | .csiLaneOrder | .csiHdrUe | .csiCrc | .csiOverflow | .vdecStreamErr | .msrCorrupt | .focusList => .c1
  | .intakeUndeclared => .c0
  | .hostLinkDown | .hostAtomicUr | .mbLate | .objRefAnomaly => .c1
  | .objInvalid => if safety then .c2 else .c1
  | .objRefSat | .mbStateRefused => .c0
  | .mbInternal => .c2
  | .mirSkewPe => .c1
  | .mirWindowLong | .mirMismatch | .mirVerdictDiffer | .twinMismatch => .c3
  | .mirRetry | .mirRetryFailed => .c2
  | .dvLane | .dvWidth | .dvRetrain | .dvLinkDown | .partnerFault => .c1
  | .dvMiswire | .partnerLost | .dvFaultPin | .partnerAbsent => .c2
  | .dvDataDrop => .c0
  | .dvRealignFail => .c3
  | .pwrCeiling => .c1
  | .coolantSensor | .coolantRange => .c2
  | .noBudget => .c0
  | .tjHigh => .c3
  | .railRange | .clkRefRange => .c4
  | .ltnLockstep | .ltnConfigLost | .ltnSramUe | .ltnWatchdog => .c4
  | .dspLockstep | .dspWatchdog => .c3
  | .ltnReconcile => .c2
  | .bootFallback => .c1
  | .sioHarnessSwap => .c3
  | .sioShort | .sioOpen | .sioReadback => if safety then .c3 else .c1
  | .recoveryLimit | .torchStartFail | .torchRunFail | .colChannelDiffer => .c3
  | _ => if safety then .c3 else .c2

/-- The sources whose class is fixed (R444). -/
def fixedCls : Source → Option Cls
  | .mirVerdictDiffer | .dvRealignFail | .recoveryLimit | .colChannelDiffer => some .c3
  | .ltnLockstep | .ltnConfigLost | .ltnSramUe | .ltnWatchdog | .railRange | .clkRefRange => some .c4
  | _ => none

/-- The sources the default table sets LEVEL for (R443). -/
def defaultLevel : Source → Bool
  | .sensorLoss | .partnerLost | .coolantSensor | .coolantRange | .tjHigh | .sioShort | .sioOpen | .dramSafetyUnmet
  | .dvFaultPin | .recoveryLimit => true
  | _ => false

/-- The firmware's default entry of a source (R443); a C2 raise asks for a report, as does PARTNER_FAULT (R429, R450; log entry 12). -/
def defaultEntry (s : Source) : RTEntry :=
  { source := s.code, clsS := defaultCls true s, clsN := defaultCls false s,
    reportS := (defaultCls true s).ge .c2 || s = .partnerFault, reportN := (defaultCls false s).ge .c2 || s = .partnerFault,
    torchOk := !(s.group = 0x09 || s.group = 0x0A || s.group = 0x0C),
    level := defaultLevel s, sticky := s = .sioHarnessSwap, quiet := 0, scope := 1 }

/-- The reaction-table entry in force for a source (R443). -/
def entryFor (s : State) (src : Source) : RTEntry :=
  (s.ltn.cfg.table.find? (fun e => e.source = src.code)).getD (defaultEntry src)

end Sys2Proof.Machine
end

