-- ==== Sys2Proof/Machine/Change.lean ====
section
/-! DEFINITION. Guarded changes: what a CONFIG object and a manifest header must hold, the checks of each kind against the present
state, and their application at a frame boundary (R52, R53, R184, R185, R193, R215, R377, R385, R443, R444, R474, R475, R483–R488,
R510, R526). -/

namespace Sys2Proof.Machine

/-- The phase's number (R352). -/
def GPhase.num : GPhase → Nat
  | .none => 0 | .awaiting => 1 | .endorsed => 2 | .applied => 3 | .vetoed => 4 | .expired => 5
/-- A GUARD record of the present phase (R469): proposal ID, kind, step, reason. -/
def guardLog (reason : Nat) (s : State) : State :=
  let g := s.ltn.guard
  logRec 3 0 0 (leBytes 4 g.id.toNat ++ [g.kind] ++ leBytes 1 g.phase.num ++ leBytes 1 reason) s
/-- Change the guarded proposal's record. -/
def updGuard (f : Guard → Guard) (s : State) : State := { s with ltn := { s.ltn with guard := f s.ltn.guard } }
/-- Change the configuration area in force. -/
def updCfg (f : CfgArea → CfgArea) (s : State) : State := { s with ltn := { s.ltn with cfg := f s.ltn.cfg } }
/-- The proposal moves to a phase, and the change is logged (R487). Reasons: 0 none, 1 host VETO, 2 MCU VETO, 3 MISMATCH,
4 AUTH_FAIL, 5 the repeated check failed, 6 the write failed, 7 the deadline, 8 a reset or STANDBY. -/
def guardPhase (p : GPhase) (reason : Nat) (s : State) : State := guardLog reason (updGuard (fun g => { g with phase := p }) s)

/-- A class by its number; the values above 4 are none. -/
def clsAt (n : Nat) : Option Cls := match n with | 0 => some .c0 | 1 => some .c1 | 2 => some .c2 | 3 => some .c3 | 4 => some .c4 | _ => none
/-- A reaction-table entry (R443), or `none` where a field is out of range or R444 refuses it. -/
def rtEntry (e : List Byte) : Option RTEntry :=
  let b2 := fld e 2 1
  let b3 := fld e 3 1
  let q := fld e 4 2
  let code := BitVec.ofNat 16 (fld e 0 2)
  match clsAt (b2 % 8), clsAt (b2 / 16 % 8) with
  | some cs, some cn =>
    let refused (src : Source) : Bool :=
      let one (safety : Bool) (c : Cls) : Bool :=
        match fixedCls src with
        | some k => decide (c ≠ k)
        | none => decide (c = .c4) || (decide (defaultCls safety src = .c3) && !c.ge .c3)
      decide (src.code = code) && (one true cs || one false cn)
    if b2 / 8 % 2 = 1 ∨ 128 ≤ b2 ∨ 32 ≤ b3 ∨ (q ≠ 0 ∧ (q < 10 ∨ 500 < q)) ∨ 2 < fld e 6 1 ∨ leVal ((e.drop 7).take 9) ≠ 0 ∨ allSources.any refused then none
    else some { source := code, clsS := cs, clsN := cn, reportS := b3 % 2 = 1, reportN := b3 / 2 % 2 = 1, torchOk := b3 / 4 % 2 = 1,
                level := b3 / 8 % 2 = 1, sticky := b3 / 16 % 2 = 1, quiet := q, scope := fld e 6 1 }
  | _, _ => none

/-- A pair of a MIRROR_MAP section (R385, R488). -/
def mapEntry (e : List Byte) : Option MapPair :=
  let node (o : Nat) : Node := BitVec.ofNat 10 (fld e o 2)
  let site (o : Nat) : Bool := decide (fld e o 2 < 512) && decide (fld e o 2 % 128 < 56) && decide (fld e o 2 % 8 < 6)
  let ck := (List.range 4).map (fun k => (fld e (22 + 8 * k) 4, fld e (26 + 8 * k) 4))
  if 79 < fld e 0 1 ∨ 1 < fld e 1 1 ∨ fld e 2 2 < 16 ∨ 1024 < fld e 2 2 ∨ ¬[4, 6, 8, 10].all site ∨ ck.any (fun r => decide (2 ^ 19 < r.1 + r.2)) then none
  else some { pair := fld e 0 1, retry := fld e 1 1 = 1, skew := BitVec.ofNat 11 (fld e 2 2), lead := node 4, trail := node 6, cmp0 := node 8,
              cmp1 := node 10, suppress := BitVec.ofNat 16 (fld e 12 2), deadline := fld e 14 4, dRun := fld e 18 4,
              ckpt := ck.filter (fun r => r.2 ≠ 0), ckptScl := fld e 54 1 % 2 = 1, ckptA1 := fld e 54 1 / 2 % 2 = 1 }

/-- The load that an output's default mode declares (R526): 0 NONE, 1 PULL_UP, 2 PULL_DOWN. -/
def sioLoad (pin : Nat) : Nat := match pin with | 0 => 1 | 1 => 2 | 2 => 2 | 3 => 1 | _ => 0
/-- An entry of a SIO_MODES section (R526). -/
def sioEntry (e : List Byte) : Option SioMode :=
  let pin := fld e 0 1
  let od := fld e 1 1
  let load := fld e 2 1
  let det := fld e 3 1
  let lo := fld e 4 2
  let hi := fld e 6 2
  if 15 < pin ∨ 1 < od ∨ 2 < load ∨ 1 < det ∨ (pin ≤ 3 ∧ (od = 1 ∨ load ≠ sioLoad pin ∨ det = 0)) ∨ (od = 1 ∧ load ≠ 1)
      ∨ (det = 1 ∧ load = 0) ∨ hi < lo ∨ (hi = 0 ∧ load ≠ 0) then none
  else some { pin, openDrain := od = 1, load, openDetect := det = 1, rMin := lo, rMax := hi }

/-- Consecutive entries of a size, each parsed; `none` where one fails or bytes are left over. -/
def entries {α : Type} (size : Nat) (f : List Byte → Option α) : Nat → List Byte → Option (List α)
  | 0, bs => if bs.isEmpty then some [] else none
  | n + 1, bs =>
    if bs.length < size then none
    else match f (bs.take size), entries size f n (bs.drop size) with
      | some x, some xs => some (x :: xs)
      | _, _ => none

/-- One section of a CONFIG object replaces its items (R488), or is refused with a status. -/
def putSection (c : CfgArea) (kind : Nat) (b : List Byte) : W16 × CfgArea :=
  match kind with
  | 0x0101 =>
    match entries 16 rtEntry (fld b 3 1) (b.drop 4) with
    | some es =>
      if b.length < 4 ∨ fld b 0 2 < 10 ∨ 500 < fld b 0 2 ∨ fld b 2 1 < 1 ∨ 32 < fld b 2 1 then (3, c)
      else (0, { c with table := es, defaultQuiet := fld b 0 2, recoveryLimit := fld b 2 1 })
    | none => (3, c)
  | 0x0102 =>
    match entries 64 mapEntry (fld b 32 1) (b.drop 36) with
    | some ps =>
      let others := c.maps.filter (fun m => m.plan ≠ b.take 32)
      if b.length < 36 then (3, c)
      else if ps.isEmpty then (0, { c with maps := others })
      else if 8 ≤ others.length then (13, c)
      else (0, { c with maps := others ++ [{ plan := b.take 32, pairs := ps }] })
    | none => (3, c)
  | 0x0103 =>
    match entries 8 sioEntry (fld b 0 1) (b.drop 4) with
    | some ms => if b.length < 4 then (3, c)
        else (0, { c with sioModes := c.sioModes.filter (fun x => !ms.any (fun m => m.pin = x.pin)) ++ ms })
    | none => (3, c)
  | 0x0104 => if b.length ≠ 1 ∨ fld b 0 1 < 1 ∨ 16 < fld b 0 1 then (3, c) else (0, { c with ueRetire := fld b 0 1 })
  | _ => (3, c)
/-- The sections of a CONFIG object, in order (R488). -/
def putSections : Nat → List Byte → CfgArea → W16 × CfgArea
  | 0, _, c => (0, c)
  | n + 1, bs, c =>
    let len := fld bs 4 4
    if bs.length < 8 + len then (3, c)
    else
      let r := putSection c (fld bs 0 2) ((bs.drop 8).take len)
      if r.1 ≠ 0 then r else putSections n (bs.drop (8 + len)) r.2
/-- A CONFIG object (R483, R488): the status it is refused with, or 0, and the area it gives. -/
def putConfig (b : List Byte) (c : CfgArea) : W16 × CfgArea :=
  let len := fld b 8 8
  if b.take 4 ≠ [0x47, 0x43, 0x46, 0x47] ∨ fld b 4 4 ≠ 1 ∨ len < 64 ∨ b.length < len ∨ 262144 < len then (3, c)
  else putSections (fld b 16 4) ((b.take len).drop 64) c

/-- The manifest digest that R377 prescribes. -/
def manifestDigestOf (b : List Byte) : List Byte := sha256 (b.take 32 ++ (b.take (fld b 8 8)).drop 128)
/-- The header and signature checks of a manifest (R377). -/
def manifestOk (b : List Byte) (objLen : Nat) : Bool :=
  let len := fld b 8 8
  decide (b.take 4 = [0x47, 0x4D, 0x41, 0x4E]) && decide (fld b 4 2 = 1) && decide (128 ≤ len) && decide (len ≤ 1048576) && decide (len ≤ objLen)
    && decide (manifestDigestOf b = sub b 32 32) && ecdsaOk Config.manifestKey (sha256 (sub b 0 64)) (sub b 64 64)

/-- The scale record of a plan. -/
def scaleRec (c : CfgArea) (plan : List Byte) : Option ScaleRec := c.scales.find? (fun r => r.plan = plan)
/-- Replace a plan's scale record. -/
def putScale (r : ScaleRec) (c : CfgArea) : CfgArea := { c with scales := c.scales.filter (fun x => x.plan ≠ r.plan) ++ [r] }
/-- A substitution's spare site as a node (R50, R52). -/
def spareNode (e : Subst) : Node := BitVec.ofNat 10 (e.gallery.toNat * 128 + 48 + (if e.spare = 0 then 0 else 5))
/-- The two substitutions are of one spare. -/
def sameSpare (a b : Subst) : Bool := decide (a.gallery = b.gallery) && decide (a.spare = b.spare)
/-- The two substitutions are of one logical site. -/
def sameSite (a b : Subst) : Bool := decide (a.gallery = b.gallery) && decide (a.column = b.column) && decide (a.row = b.row)

/-- The owning kind's checks against the present state (R483, R486): the status and DETAIL of the first that fails. -/
def checkChange (s : State) (g : GChange) : Option (W16 × W16) :=
  let c := s.ltn.cfg
  match g with
  | .none => none
  | .config b => match (putConfig b c).1 with | 0 => none | 3 => some (3, 20) | st => some (st, 0)
  | .manifest _ => none
  | .scaleCommit plan cand =>
    if ¬s.adapt.recs.any (fun r => r.verdict = 1 && r.candidate = cand && r.plan = plan) then some (12, 0)
    else if s.dev.state ≠ .attached then some (9, 0) else none
  | .scaleRevert plan prev =>
    if s.dev.state ≠ .attached then some (9, 0)
    else match scaleRec c plan with
      | some r => if r.previous = prev ∧ prev ≠ [] then none else some (5, 64)
      | none => some (5, 64)
  | .ceiling mw => if mw < 30000 ∨ 68000 < mw then some (3, 24) else none
  | .debugUnlock _ => none
  | .spare e revoke =>
    if 6 < e.column.toNat then some (3, 17)
    else if 5 < e.row.toNat then some (3, 18)
    else if e.column = 6 ∧ (e.row = 0 ∨ e.row = 5) then some (3, 17)
    else if revoke then (if c.subst.any (fun x => sameSpare x e && sameSite x e) then none else some (5, 16))
    else if c.subst.any (fun x => sameSpare x e) ∨ s.dev.unavailable.contains (spareNode e) then some (13, 0) else none
  | .retireClear p => if 1 < p then some (3, 16) else none

/-- What an endorsed change does to the configuration area (R52, R180, R184, R185, R193, R215, R376, R488, R510). -/
def applyCfg (g : GChange) (c : CfgArea) : CfgArea :=
  match g with
  | .none => c
  | .config b => (putConfig b c).2
  | .manifest d => { c with manifestDigest := some d }
  | .scaleCommit plan cand => putScale { plan, committed := cand, previous := match scaleRec c plan with | some r => r.committed | none => [] } c
  | .scaleRevert plan prev => putScale { plan, committed := prev, previous := [] } c
  | .ceiling mw => { c with ceiling := mw }
  | .debugUnlock bits => { c with lock := BitVec.ofNat 3 (7 - bits % 8) }
  | .spare e revoke =>
    if revoke then { c with subst := c.subst.filter (fun x => !(sameSpare x e && sameSite x e)) }
    else { c with subst := c.subst.filter (fun x => !sameSite x e) ++ [e] }
  | .retireClear p => { c with retired := c.retired.erase p }

/-- The written copy is restored by a second write (R486, R487). -/
def restoreCopy (s : State) : State := updGuard (fun g => { g with written := false }) (updCfg (fun c => { c with seq := c.seq + 1 }) s)

/-- Sampling of a supervised output restarts when its mode changes (chapter 24, "A SIO_MODES change is applied while an FSYNC
series runs"): a count that had not confirmed its condition is dropped. -/
def restartSamples (old : CfgArea) (s : State) : State :=
  let mode (c : CfgArea) (k : Nat) : Option SioMode := c.sioModes.find? (fun m => m.pin = k)
  { s with sio := s.sio.map (fun e => if e.2.count < 5 ∧ mode old e.1 ≠ mode s.ltn.cfg e.1 then (e.1, {}) else e) }
/-- Apply an endorsed change whose write is verified, at a frame boundary or with no frame loop (R486, R510): the owning checks
are repeated first. -/
def applyDue (s : State) : State :=
  let g := s.ltn.guard
  if g.phase ≠ .endorsed ∨ ¬g.written then s
  else match checkChange s g.change with
    | some _ => restoreCopy (guardPhase .vetoed 5 s)
    | none =>
      let s := restartSamples s.ltn.cfg (updCfg (applyCfg g.change) s)
      let s := if s.ltn.cfg.lock.getLsbD 1 then { s with trace := { s.trace with mask := s.trace.mask &&& 0xBF } } else s
      guardPhase .applied 0 (updGuard (fun g => { g with written := false, deadline := now s }) s)

/-- A frame loop runs: the plan's frames or the torch section's (R276, R455). -/
def loopRuns (s : State) : Bool := s.loop.ctx.isSome || s.fc.torch

/-- CONFIG_WRITE_DONE (R475, R486): a verified write lets the change apply, at once with no frame loop; a write that failed twice
ends it; one whose proposal was vetoed meanwhile is restored. -/
def configWriteDone (ok : Bool) (s : State) : State :=
  let g := s.ltn.guard
  if ¬g.writing ∨ ltnHeld s then s
  else
    let s := updGuard (fun g => { g with writing := false }) s
    if ¬ok then (if g.phase = .endorsed then guardPhase .vetoed 6 s else s)
    else
      let s := updCfg (fun c => { c with seq := c.seq + 1 }) s
      if g.phase ≠ .endorsed then restoreCopy s
      else
        let s := updGuard (fun g => { g with written := true }) s
        if loopRuns s then s else applyDue s
/-- CONFIG_WRITE_DONE. -/
def execConfigWriteDone (ok : Bool) (s : State) : Res := .next (configWriteDone ok s)

/-- PROPOSAL_EXPIRY (R487). -/
def execProposalExpiry (s : State) : Res := .next (if s.ltn.guard.phase = .awaiting ∧ ¬ltnHeld s then guardPhase .expired 7 s else s)

/-- A VETO of a proposal (R487), by its ID: whether it was accepted, and the state. -/
def vetoProposal (id : W32) (reason : Nat) (s : State) : Bool × State :=
  let g := s.ltn.guard
  if g.id ≠ id ∨ id = 0 then (false, s)
  else match g.phase with
    | .awaiting => (true, guardPhase .vetoed reason s)
    | .endorsed => (true, let s := guardPhase .vetoed reason s; if g.written then restoreCopy s else s)
    | _ => (false, s)

/-- A reset or an accepted STANDBY and a proposal (R487): AWAITING becomes EXPIRED; an endorsed change whose write had completed
takes effect at the boot; one whose write had not is lost with it. -/
def endProposal (s : State) : State :=
  let g := s.ltn.guard
  match g.phase with
  | .awaiting => guardPhase .expired 8 s
  | .endorsed =>
    if g.written then
      guardPhase .applied 0 (updGuard (fun g => { g with written := false, deadline := now s }) (updCfg (applyCfg g.change) s))
    else guardPhase .vetoed 6 (updGuard (fun g => { g with writing := false }) s)
  | _ => updGuard (fun g => { g with writing := false }) s

end Sys2Proof.Machine
end

