-- ==== Sys2Proof/Machine/Boundary.lean ====
section
/-! DEFINITION. Answers of the mailboxes, and the two commands that take effect at a frame boundary: CLIP_READ and
ENERGY_STATUS (R178, R217, R330, R332, R345, R351). -/

namespace Sys2Proof.Machine

/-- Answer of a mailbox slot (R332, R330): the response header and results, DONE, and the interrupt. A waiting command whose
slot an ATTACH with RECLAIM has taken back (R306) has none. -/
def respond (m : Mailbox) (slot : Nat) (status detail : W16) (results : List Byte) (s : State) : State :=
  if 8 ≤ slot then s else
  let b := getMb m s
  let hd := rdN b.req (slot * 256) 4 ++ leBytes 2 status.toNat ++ leBytes 2 results.length ++ [devByte s.dev, 0]
    ++ leBytes 2 detail.toNat ++ leBytes 4 (frameNo s).toNat
  let rsp := wrN b.rsp (slot * 256) (sub (hd ++ results) 0 256)
  let s := setMb m { b with rsp, slots := updK {} b.slots slot (fun x => { x with phase := .done }) } s
  if b.irqEn then msix (match m with | .dispatch => 1 | .lantern => 2) s else s

/-- A_c in mW (R207, R208). -/
def allowance (s : State) : Nat :=
  let e := s.energy
  let hi : Int := min (e.pHi.getD s.ltn.cfg.ceiling) s.ltn.cfg.ceiling
  let lo : Int := e.pLo
  let t := e.coolT
  let a : Int := if t ≤ e.tKnee then hi
    else if e.tTop ≤ t then lo
    else hi - (hi - lo) * (t - e.tKnee) / (e.tTop - e.tKnee)
  let a : Int := if 10500 < e.tj then a * max 0 (12500 - e.tj) / 2000 else a
  match e.heat with
  | some (h, _) => min a.toNat h
  | none => a.toNat

/-- A STICK counter's flag at a bit. -/
def satBit (sat : Bool) (k : Nat) : Nat := if sat then 2 ^ k else 0
/-- LEDGER_FLAGS (R217). -/
def ledgerFlagsWord (e : Energy) : Nat :=
  ((List.range 6).map (fun n => satBit (getK {} e.rungFrames n).sat (23 + n))).sum
    + satBit e.writeoff.sat 29 + satBit e.ceilingCnt.sat 30 + satBit e.overdraft.sat 31
/-- The energy ledger view, 0x0000–0x00C7 (R217). -/
def ledgerBytes (s : State) : List Byte :=
  let e := s.energy
  (List.range 16).flatMap (fun k => leBytes 8 (getK 0 e.meters k).toNat)
    ++ leInt 8 e.balance ++ leBytes 4 (allowance s) ++ leInt 2 e.coolT ++ leBytes 2 (if e.coolInvalid then 1 else 0)
    ++ leBytes 4 (e.rung + 16 * e.floor + 256 * e.force) ++ leBytes 4 s.ltn.cfg.ceiling ++ leBytes 4 (e.k / 2 ^ 24)
    ++ leBytes 4 0 ++ leBytes 4 e.overdraft.val.toNat ++ leBytes 4 e.ceilingCnt.val.toNat ++ leBytes 4 (ledgerFlagsWord e)
    ++ leBytes 4 e.writeoff.val.toNat ++ (List.range 6).flatMap (fun n => leBytes 4 (getK {} e.rungFrames n).val.toNat)
/-- Clear the ledger's STICK counters and their flags (R217). -/
def clearLedger (s : State) : State :=
  { s with energy := { s.energy with overdraft := {}, ceilingCnt := {}, writeoff := {}, rungFrames := [] } }

/-- Take a core's clip snapshot; with CLEAR, its pairs return to 0 (R178, R345). -/
def snapClips (n : Node) (clear : Bool) (s : State) : State :=
  updCore n (fun c => { c with clipSnap := c.clips, clips := if clear then [] else c.clips }) s
/-- CLIP_READ's results, from the snapshot held (R345). -/
def clipResults (n : Node) (first count : Nat) (s : State) : List Byte :=
  let at_ (i : Nat) : Clip := getK {} (getCore s n).clipSnap (first + i)
  let bits := ((List.range count).map (fun i => satBit (at_ i).clip.sat (2 * i) + satBit (at_ i).conv.sat (2 * i + 1))).sum
  leBytes 1 count ++ List.replicate 7 0 ++ leBytes 8 bits
    ++ (List.range count).flatMap (fun i => leBytes 4 (at_ i).clip.val.toNat ++ leBytes 4 (at_ i).conv.val.toNat)

/-- One waiting command that a frame boundary answers. -/
def answerOne (w : Waiting) (s : State) : State :=
  match w.opcode, w.args with
  | 0x0309, [n, first, count, clear] =>
    let n := BitVec.ofNat 10 n
    let s := snapClips n (decide (clear = 1)) s
    respond .dispatch w.slot 0 0 (clipResults n first count s) s
  | 0x0603, [clear] =>
    let b := ledgerBytes s
    respond .dispatch w.slot 0 0 b (if clear = 1 then clearLedger s else s)
  | _, _ => s
/-- A frame boundary answers the CLIP_READ and ENERGY_STATUS commands that wait for it (R217, R345), and a guarded change that is
due is applied (R486). -/
def answerBoundary (s : State) : State :=
  let s := applyDue s
  let mine (w : Waiting) : Bool := decide (w.opcode = 0x0309) || decide (w.opcode = 0x0603)
  (s.mbD.waiting.filter mine).foldl (fun (s : State) (w : Waiting) => answerOne w s)
    { s with mbD := { s.mbD with waiting := s.mbD.waiting.filter (fun w => !mine w) } }

end Sys2Proof.Machine
end

