-- ==== Sys2Proof/Machine/Fault.lean ====
section
/-! DEFINITION. The fault collector: registration, the reactions of each class, the
urgent slot, recovery episodes, and a mirror pair's mismatch (R338, R339, R399, R400, R439–R463). -/

namespace Sys2Proof.Machine

/-- The stream's record. -/
def getStream (s : State) (id : Nat) : Option Stream := getK none s.intake.streams id

/-- Is the instance attributed to safety-related work (R440)? Pins 0 to 3 are SAFE_A, SAFE_B_N, ALIVE and FAULT_OUT. -/
def isSafety (s : State) (src : Source) (i : Inst) : Bool :=
  if src.group = 0x0B then decide (i.sub.toNat ≤ 3)
  else if src = .csiLaneOrder ∨ src = .csiHdrUe ∨ src = .csiCrc ∨ src = .csiOverflow then
    s.intake.streams.any (fun e => match e.2 with
      | some t => t.safety && decide (t.decl.kind = .csi) && decide (t.decl.port = i.sub.toNat)
      | none => false)
  else if src = .sensorLoss ∨ src = .vdecStreamErr ∨ src = .focusList then
    match getStream s i.sub.toNat with | some t => t.safety | none => false
  else if src = .chmCe ∨ src = .chmUe ∨ src = .chmCmpUnmapped ∨ src = .chmCmpPartial ∨ src = .chmCmpPool then
    s.plans.any (fun p => p.img.safeBanks.contains (i.node.toNat / 128 * 32 + i.sub.toNat))
  else if src = .dramCe ∨ src = .dramUe then s.plans.any (fun p => p.img.safeAgents.contains i.sub.toNat)
  else (getCore s i.node).safety

/-- The pair a core belongs to. -/
def pairOf (s : State) (n : Node) : Option Pair := s.mir.pairs.find? (fun p => p.map.lead = n ∨ p.map.trail = n)

/-- Drive the SAFE pins (R364, R524: a raised SIO_HARNESS_SWAP holds both high). -/
def driveSafe (asserted : Bool) (s : State) : State :=
  let swap := s.fc.active.any (fun e => e.source = .sioHarnessSwap && e.raised)
  { s with fc := { s.fc with
      safeA := asserted || swap, safeBN := !asserted || swap,
      safeAt := edgeTime s.fc.safeBN (!asserted || swap) (edgeTime s.fc.safeA (asserted || swap) s.fc.safeAt s) s,
      chan0 := { s.fc.chan0 with asserting := asserted }, chan1 := { s.fc.chan1 with asserting := asserted } } }

/-- A core stopped by the dispatch firmware or a reaction: its clock stops (R70); a gated, held or faulted core stays. -/
def stopCore (c : Core) : Core :=
  match c.run with
  | .run | .wait | .done => { c with run := .idle, wait := .none, skewHold := false }
  | _ => c

/-- Stop every core for which `p` holds. -/
def stopCores (p : Core → Bool) (s : State) : State :=
  traceRun s.cores 0 { s with cores := s.cores.map (fun e => if p e.2 then (e.1, stopCore e.2) else e) }

/-- The result of marking an output record INVALID (R449, R451): the first raise that marks it is named. -/
def OutRec.mark (cls : Cls) (src : Source) (r : OutRec) : OutRec :=
  if r.invalid then r else { r with invalid := true, cls, source := src.code }

/-- Mark the records of a frame for which `p` holds on the output's index. -/
def Frame.mark (p : Nat → Bool) (cls : Cls) (src : Source) (f : Frame) : Frame :=
  { f with recs := f.recs.mapIdx (fun i r => if p i then r.mark cls src else r) }

/-- Mark output records of the frame in progress, and of ended frames whose gate has not opened (R449). -/
def markOutputs (p : Nat → Bool) (cls : Cls) (src : Source) (s : State) : State :=
  { s with loop := { s.loop with
      cur := s.loop.cur.map (Frame.mark p cls src),
      past := s.loop.past.map (fun f => if f.gated then f else f.mark p cls src) } }

/-- The outputs that the running plan attributes to an instance (R449): by core node, by either core of a pair, or by stream. -/
def attributed (s : State) (i : Inst) (k : Nat) : Bool :=
  match curPlan s with
  | none => false
  | some p =>
    match p.img.outputs[k]? with
    | none => false
    | some o => o.cores.contains i.node || (decide (i.node = 0x210) && o.streams.contains i.sub.toNat)
        || (match pairOf s i.node with | some q => o.cores.contains q.map.lead || o.cores.contains q.map.trail | none => false)

/-- The highest class among the instances raised or held as a cause (R464). -/
def highest (s : State) : Cls :=
  s.fc.active.foldl (fun c e => if e.raised || e.cause then c.max e.cls else c) .c0

/-- The port that reaches the partner (R16, R417): the direct link unless it is DOWN or HELD, else the other; a retraining port
keeps its route. None for a lone device. -/
def partnerPort (s : State) : Option Nat :=
  if s.dv.n < 2 then none
  else
    let direct := if s.dv.p % 2 = 0 then 1 else 0
    let up (k : Nat) : Bool :=
      let p := getK {} s.dv.ports k
      p.state = .active || (p.state = .training && p.adapted)
    if up direct then some direct else if up (1 - direct) then some (1 - direct) else none

/-- The partner's position (R15). -/
def partnerPos (s : State) : Nat := if s.dv.p % 2 = 0 then s.dv.p + 1 else s.dv.p - 1
/-- Send a message to the partner, when a route exists (R417). -/
def toPartner (chan : Nat) (payload : List Byte) (s : State) : State :=
  match partnerPort s with | some k => dvSend k chan (partnerPos s) payload s | none => s

/-- HEARTBEAT's body now (R425). -/
def beat (s : State) : Beat :=
  { devstate := devByte s.dev, cls := BitVec.ofNat 8 (highest s).num, rung := BitVec.ofNat 8 s.energy.force, frame := frameNo s }

/-- The body of HEARTBEAT and FAULT_STATE, by type (R425). -/
def beatBytes (ty : Nat) (b : Beat) : List Byte := leBytes 1 ty ++ [b.devstate, b.cls, b.rung] ++ leBytes 4 b.frame.toNat
/-- The source code of the latest C2 or higher fault in the active table (R425), or 0. -/
def latestC2 (s : State) : W16 :=
  match (s.fc.active.filter (fun e => e.cls.ge .c2)).foldl (fun (b : Option Active) e =>
    match b with
    | some x => if x.latest.toNat ≤ e.latest.toNat then some e else b
    | none => some e) none with
  | some e => e.source.code
  | none => 0
/-- FAULT_STATE to the partner and to both ring neighbours (R425). -/
def announce (s : State) : State :=
  if s.dv.n < 2 then s
  else
    let m := beatBytes 0x22 (beat s) ++ leBytes 2 (latestC2 s).toNat
    if s.dv.n = 2 then toPartner 2 m s
    else
      let send (k pos : Nat) (s : State) : State :=
        if pos = partnerPos s then s
        else if (getK {} s.dv.ports k).state = .active then dvSend k 2 pos m s else s
      toPartner 2 m (send 1 ((s.dv.p + 1) % s.dv.n) (send 0 ((s.dv.p + s.dv.n - 1) % s.dv.n) s))

/-- Move to a state and announce it (R361, R425). -/
def enter (st : DevState) (prior : Option DevState) (cause : W16) (s : State) : State := announce (transition st prior cause s)

/-- The plan whose torch section a C3 reaction may start: the running loop's, else the one the reaction ended, else the
first loaded plan that has one (log entry 14). -/
def torchPlan (s : State) : Option Loaded :=
  match s.loop.ctx, s.loop.torchCtx with
  | some c, _ => planOf s c
  | none, some c => planOf s c
  | none, none => s.plans.find? (fun p => p.img.torch.isSome)

/-- Why torch may not start now (R454): `.none` when every condition holds. -/
def torchCheck (s : State) : TorchReason :=
  match (torchPlan s).bind (·.img.torch) with
  | none => .noTorchOk
  | some t =>
    let pairs := s.mir.pairs.filter (fun p => t.pairs.contains p.map.pair)
    if s.fc.c4 then .c4
    else if s.fc.c3List.any (fun e => !(entryFor s e.1).torchOk) then .noTorchOk
    else if s.fc.c3List.any (fun e => t.cores.contains e.2.node || pairs.any (fun p => p.map.cmp0 = e.2.node || p.map.cmp1 = e.2.node)
        || (e.1.group = 0x04 && t.banks.contains (e.2.node.toNat / 128 * 32 + e.2.sub.toNat))) then .inTorch
    else if t.streams.any (fun k => match getStream s k with | some r => !r.safety || r.flag = .missing | none => true) then .stream
    else .none

/-- The number of a torch reason (R463). -/
def TorchReason.num : TorchReason → Nat
  | .none => 0 | .noTorchOk => 1 | .inTorch => 2 | .stream => 3 | .c4 => 4 | .startFail => 5

/-- The sources whose reports carry a detail (R463): CORE and MIRROR sources, and PARTNER_FAULT. -/
def detailed (src : Source) : Bool := src.group = 0x02 || src.group = 0x07 || src = .partnerFault
/-- The source payload of an urgent report, bytes 32–59 (R463). -/
def reportPayload (i : Inst) (safety : Bool) (cnt : Stick 16) (detail : List Byte) (s : State) : List Byte :=
  leBytes 4 (instWord i safety).toNat ++ leBytes 2 cnt.val.toNat ++ leBytes 1 s.fc.recovery.val.toNat
    ++ leBytes 1 ((if s.fc.torch then 1 else 0) + (if s.fc.torchReason ≠ .none then 2 else 0) + 4 * s.fc.torchReason.num)
    ++ sub detail 0 20

/-- The pending report the slot shows next: the highest class, then the earliest first raise (R339). -/
def bestReport : List Report → Option Report
  | [] => none
  | r :: rs =>
    match bestReport rs with
    | none => some r
    | some b => if r.cls.num < b.cls.num ∨ (r.cls = b.cls ∧ b.first < r.first) then some b else some r

/-- URG_SEQ after this one: WRAP, skipping 0 (R338). -/
def nextUrgSeq (q : W32) : W32 := if q + 1 = 0 then 1 else q + 1

/-- Load the urgent slot when it is empty and a report is pending; each load raises vector 0 once (R339). -/
def loadUrgent (s : State) : State :=
  match s.urg.slot, bestReport s.urg.pending with
  | none, some r =>
    msix 0 { s with urg := { slot := some (s.urg.seq, r), pending := s.urg.pending.filter (fun x => x.source ≠ r.source),
                             seq := nextUrgSeq s.urg.seq } }
  | _, _ => s

/-- Make a report pending, or fold the raise into the one pending for its source (R339, R461). -/
def report (r : Report) (s : State) : State :=
  if s.urg.pending.any (fun x => x.source = r.source) then
    { s with urg := { s.urg with pending := s.urg.pending.map (fun x =>
        if x.source = r.source then
          { x with occur := x.occur.inc, latest := r.latest, saturated := x.saturated || r.saturated || x.occur.sat } else x) } }
  else loadUrgent { s with urg := { s.urg with pending := s.urg.pending ++ [r] } }

/-- The entry's instance is active (R462). -/
def Active.live (e : Active) : Bool := e.raised || e.episode || e.cause

/-- Does an instance match? -/
def Active.is (e : Active) (src : Source) (i : Inst) : Bool := e.source = src && e.inst = i

/-- The lowest-class entry whose instance is no longer raised (R462). -/
def victim : List Active → Option Active
  | [] => none
  | e :: es =>
    let v := victim es
    if e.raised then v
    else match v with
      | none => some e
      | some w => if w.cls.num < e.cls.num then some w else some e

/-- Put an instance into the active table (R462): a full table evicts, or sets TABLE_FULL. -/
def insertActive (e : Active) (s : State) : State :=
  if s.fc.active.any (fun x => x.is e.source e.inst) then
    { s with fc := { s.fc with active := s.fc.active.map (fun x => if x.is e.source e.inst then e else x) } }
  else if s.fc.active.length < 256 then { s with fc := { s.fc with active := s.fc.active ++ [e] } }
  else
    match victim s.fc.active with
    | some v => { s with fc := { s.fc with active := s.fc.active.erase v ++ [e] } }
    | none => { s with fc := { s.fc with tableFull := true } }

/-- Register a raise (R441, R461, R462, R469): the log record, the active table, RAISE_CNT, and the urgent report where
the class or the entry asks for one. -/
def register (src : Source) (i : Inst) (cls : Cls) (partner : Bool) (detail : List Byte) (force : Bool) (s : State) : State :=
  let safety := isSafety s src i
  let en := entryFor s src
  let old := s.fc.active.find? (fun e => e.is src i)
  let cnt := (match old with | some e => e.cnt | none => {}).inc
  let quiet := if en.quiet = 0 then s.ltn.cfg.defaultQuiet else en.quiet
  let e : Active := {
    source := src, inst := i, safety, cls
    raised := en.level || en.sticky
    episode := match old with | some o => o.episode | none => false
    cause := (cls = .c3 && (en.level || en.sticky)) || cls = .c4
    first := match old with | some o => (if o.live then o.first else now s) | none => now s
    latest := now s, quietFrom := now s
    quiet := match old with | some o => (if o.episode then o.quiet else quiet) | none => quiet
    scope := match old with | some o => (if o.episode then o.scope else en.scope) | none => en.scope
    cnt, fromPartner := partner
    frame := match old with | some o => (if o.live then o.frame else frameNo s) | none => frameNo s }
  let s := logRec 1 (BitVec.ofNat 8 cls.num) src.code
    (leBytes 4 (instWord i safety).toNat ++ leBytes 2 cnt.val.toNat ++ leBytes 4 (frameNo s).toNat
      ++ (if src = .mbStateRefused then sub detail 0 2 else [])) s
  let s := insertActive e s
  if cls.ge .c3 || force || (if safety then en.reportS else en.reportN) then
    report { source := src, cls, saturated := decide (cnt.val = BitVec.allOnes 16), fromPartner := partner, first := now s,
             latest := now s, devstate := devByte s.dev, frame := frameNo s,
             payload := reportPayload i safety cnt (if detailed src then detail else []) s } s
  else s

/-- Answer the waiting commands of a mailbox whose opcode is in the list with STATE_REFUSED (chapter 16, "When things collide"). -/
def abandon (m : Mailbox) (ops : List W16) (s : State) : State :=
  let b := getMb m s
  let hit := b.waiting.filter (fun w => ops.contains w.opcode)
  let s := setMb m { b with waiting := b.waiting.filter (fun w => !ops.contains w.opcode) } s
  hit.foldl (fun s w => respond m w.slot 9 0 [] s) s

/-- End the main frame loop: the frame in progress waits for its delivery, a waiting start or stop is answered, and commands
that wait for a frame boundary have it here. -/
def endLoop (s : State) : State :=
  let past := match s.loop.cur with | some f => s.loop.past ++ [{ f with ended := true, endLtc := now s }] | none => s.loop.past
  answerBoundary <| abandon .dispatch [0x0303, 0x0304]
    { s with loop := { s.loop with ctx := none, cur := none, past, stopAt := none, starting := none,
                                   torchCtx := match s.loop.ctx with | some c => some c | none => s.loop.torchCtx } }

/-- Abort a recalibration run: no record is kept of it (R382, chapter 17). -/
def dropRun (s : State) : State := { s with adapt := { s.adapt with run := none } }

/-- The C3 reaction's steps 2 to 5 (R445): pins, FAULT_OUT, records, SAFE_HOLD, main cores stopped, the main loop ended. -/
def c3Reaction (src : Source) (i : Inst) (s : State) : State :=
  let s := { s with fc := { s.fc with
               c3 := true, c3At := if s.fc.c3 then s.fc.c3At else now s,
               lastLtc := now s, lastSrc := src.code, lastCls := .c3, lastInst := instWord i (isSafety s src i),
               chan0 := { s.fc.chan0 with highest := s.fc.chan0.highest.max .c3 },
               chan1 := { s.fc.chan1 with highest := s.fc.chan1.highest.max .c3 } } }
  let s := driveSafe true s
  let s := markOutputs (fun _ => true) .c3 src s
  match s.dev.state with
  | .ready | .attached | .running | .adapting =>
    let s := stopCores (fun c => !c.torch) s
    let s := dropRun (endLoop s)
    let s := { s with fc := { s.fc with torchReason := torchCheck s } }
    transition .safeHold none src.code s
  | .realign =>
    if s.dev.prior = some .degraded ∧ torchCheck s = .none then s
    else
      let s := stopCores (fun c => !c.torch || s.dev.prior = some .degraded) s
      let s := endLoop s
      let s := { s with fc := { s.fc with torch := false, torchReason := torchCheck s } }
      transition .safeHold none src.code s
  | .booting => driveFault .high s
  | .safeHold => { s with fc := { s.fc with torchReason := torchCheck s } }
  | .degraded | .locked | .aonOnly | .bootHalt => s

/-- Stop the torch plan and return to SAFE_HOLD (R456). -/
def stopTorch (reason : TorchReason) (cause : W16) (s : State) : State :=
  let s := stopCores (fun c => c.torch) s
  let past := match s.loop.cur with | some f => s.loop.past ++ [{ f with ended := true, endLtc := now s }] | none => s.loop.past
  let s := { s with fc := { s.fc with torch := false, torchReason := reason }, loop := { s.loop with cur := none, past } }
  enter .safeHold none cause (answerBoundary s)

/-- The C4 reaction (R446, R447): pins, FAULT_OUT steady high, ALIVE low, records, LOCKED, every agent but PD_AON stopped. -/
def c4Reaction (src : Source) (i : Inst) (s : State) : State :=
  let s := { s with fc := { s.fc with
               c4 := true, lastLtc := now s, lastSrc := src.code, lastCls := .c4,
               lastInst := instWord i (isSafety s src i), torch := false, torchReason := .c4,
               aliveRun := false, alive := false, aliveAt := edgeTime s.fc.alive false s.fc.aliveAt s,
               chan0 := { s.fc.chan0 with highest := .c4 }, chan1 := { s.fc.chan1 with highest := .c4 } } }
  let s := driveSafe true s
  let s := markOutputs (fun _ => true) .c4 src s
  if s.dev.state = .locked then s
  else
    let s := stopCores (fun _ => true) s
    let s := dropRun (endLoop s)
    let s := { s with dev := { s.dev with lockedLatch := true, dispatchUp := false, dspFwVer := 0 },
                      mbD := { s.mbD with service := false }, mbL := { s.mbL with service := false },
                      time := { s.time with trig := s.time.trig.map (fun e => (e.1, { e.2 with active := false, edgeAt := edgeTime e.2.active false e.2.edgeAt s })) } }
    transition .locked none src.code s

/-- A C2 raise (R449, R457, R458): the scope's records are marked, an episode opens or its quiet period restarts, and each
opening increments RECOVERY_CNT. Answers whether the count went above RECOVERY_LIMIT. -/
def c2Reaction (src : Source) (i : Inst) (s : State) : State × Bool :=
  match s.fc.active.find? (fun e => e.is src i) with
  | none => (markOutputs (attributed s i) .c2 src { s with fc := { s.fc with recovery := s.fc.recovery.inc } },
      decide (s.ltn.cfg.recoveryLimit < s.fc.recovery.inc.val.toNat))
  | some e =>
    let s1 := match e.scope with
      | 0 => s
      | 1 => markOutputs (attributed s i) .c2 src s
      | _ => markOutputs (fun _ => true) .c2 src s
    let fresh := !e.episode
    let rc := if fresh then s1.fc.recovery.inc else s1.fc.recovery
    let past := fresh && decide (s.ltn.cfg.recoveryLimit < rc.val.toNat)
    let e' := { e with episode := true, expired := false, escalated := e.escalated || past }
    ({ s1 with fc := { s1.fc with recovery := rc, active := s1.fc.active.map (fun x => if x.is src i then e' else x) },
               adapt := { s1.adapt with run := s1.adapt.run.map (fun r => { r with faulted := true }) } }, past)

/-- Register a raise and apply its class (R442), before what follows from it. -/
def raise1 (src : Source) (i : Inst) (cls : Cls) (partner : Bool) (detail : List Byte) (force : Bool) (s : State) : State × Bool :=
  let hi := highest s
  let s := if cls = .c3 then { s with fc := { s.fc with c3List := s.fc.c3List ++ [(src, i)] } } else s
  let s := if cls = .c3 ∧ s.dev.state ≠ .degraded then { s with fc := { s.fc with torchReason := torchCheck s } } else s
  let s := register src i cls partner detail force s
  let r := match cls with
    | .c0 | .c1 => (s, false)
    | .c2 => c2Reaction src i s
    | .c3 => (c3Reaction src i s, false)
    | .c4 => (c4Reaction src i s, false)
  (if (highest r.1) ≠ hi ∨ cls.ge .c3 then announce r.1 else r.1, r.2)

/-- The class that the table gives a raise (R442, R440). -/
def clsOf (s : State) (src : Source) (i : Inst) : Cls :=
  match fixedCls src with
  | some c => c
  | none => if isSafety s src i then (entryFor s src).clsS else (entryFor s src).clsN

/-- A raise with all that follows: RECOVERY_LIMIT when the count goes above the limit (R458), and the end of the torch plan
when a new C3 raise fails a torch condition (R456). -/
def raiseAs (src : Source) (i : Inst) (cls : Cls) (partner : Bool) (detail : List Byte) (s : State) : State :=
  let r := raise1 src i cls partner detail false s
  let s := if r.2 ∧ ¬r.1.fc.active.any (fun e => e.source = .recoveryLimit && e.raised) then
      (raise1 .recoveryLimit {} .c3 false [] false r.1).1 else r.1
  let torchOn := s.dev.state = .degraded ∨ (s.dev.state = .realign ∧ s.dev.prior = some .degraded)
  if (cls = .c3 ∨ r.2) ∧ torchOn ∧ torchCheck s ≠ .none then
    let why := torchCheck s
    stopTorch why Source.torchRunFail.code (raise1 .torchRunFail {} .c3 false [] false s).1
  else s

/-- Reset of a core for a retry (R400 step 2): the register state, channels and pending entries; its memories, tables and
configuration stay. -/
def retryReset (c : Core) : Core :=
  { c with s := [], pc := 0, a0 := [], a1 := [], v := [], p := [], ld := [], ag := [],
           chans := c.chans.map (fun e => (e.1, e.2.map (fun h => { h with msgs := [] }))),
           pend := [], mat := [], status := 0, frec := {}, wait := .none, nacked := none, run := .idle }

/-- Discard a pair's pending signatures at both comparators and its waiting verdicts (R397, R400). -/
def discardPairSigs (pair : Nat) (s : State) : State :=
  { s with mir := { s.mir with cmp0 := s.mir.cmp0.filter (fun x => x.pair ≠ pair), cmp1 := s.mir.cmp1.filter (fun x => x.pair ≠ pair),
                               verdicts := s.mir.verdicts.filter (fun x => x.pair ≠ pair) } }

/-- Restore time of a pair's checkpoint in ns: CKPT bytes at 64 bytes per cycle of the target frequency (R399). -/
def restoreNs (s : State) (m : MapPair) : Nat :=
  let bytes := (m.ckpt.map (·.2)).sum + (if m.ckptScl then 4096 else 0) + (if m.ckptA1 then 4096 else 0)
  ceilDiv bytes 64 * 100 / (max (getCore s m.lead).freq 1)

/-- Change a pair. -/
def updPair (pair : Nat) (f : Pair → Pair) (s : State) : State :=
  { s with mir := { s.mir with pairs := s.mir.pairs.map (fun p => if p.map.pair = pair then f p else p) } }

/-- A mismatch of a pair (R399, R455): HALT_SAFE, or any torch pair, raises MIR_MISMATCH; RETRY_CHECKPOINT retries once in
the frame if it can end by its DEADLINE, else raises MIR_RETRY_FAILED, holds both cores and marks the pair's outputs. -/
def mismatch (p : Pair) (detail : List Byte) (s : State) : State :=
  let m := p.map
  let i : Inst := { node := m.lead, sub := BitVec.ofNat 8 m.pair }
  if ¬m.retry ∨ p.torch then raiseAs .mirMismatch i .c3 false detail s
  else
    let start := (match s.loop.cur with | some f => f.stamp.ltc | none => now s)
    let t := (now s - start).toNat
    if ¬p.retried ∧ p.restoring = none ∧ t + restoreNs s m + m.dRun * 1000 ≤ m.deadline * 1000 then
      let s := raiseAs .mirRetry i (clsOf s .mirRetry i) false detail s
      let s := discardPairSigs m.pair s
      let s := emitFab (.control 0x200 m.lead .stop) (emitFab (.control 0x200 m.trail .stop) s)
      let s := traceRun s.cores 0 (updCore m.lead retryReset (updCore m.trail retryReset s))
      updPair m.pair (fun q => { q with retried := true, restoring := some (now s) }) s
    else
      let s := raiseAs .mirRetryFailed i (clsOf s .mirRetryFailed i) false detail s
      let hold (c : Core) : Core := { stopCore c with heldStop := true }
      let s := traceRun s.cores 0 (updCore m.lead hold (updCore m.trail hold s))
      markOutputs (attributed s i) .c2 .mirRetryFailed (updPair m.pair (fun q => { q with retried := true, restoring := none }) s)

/-- Raise a source at an instance (R439–R442). A CORE source on a core of a mirror pair takes no class of its own: its
urgent report names it, and the pair mismatches (R440). -/
def raise (src : Source) (i : Inst) (detail : List Byte) (s : State) : State :=
  match (if src.group = 0x02 ∧ src ≠ .destAbsent then pairOf s i.node else none) with
  | some p => mismatch p detail (register src i .c1 false detail true s)
  | none => raiseAs src i (clsOf s src i) false detail s

/-- The condition of a LEVEL source has cleared (R457, R459): the quiet period runs from now. -/
def clearLevel (src : Source) (i : Inst) (s : State) : State :=
  { s with fc := { s.fc with active := s.fc.active.map (fun e =>
      if e.is src i && e.raised && !(entryFor s src).sticky then { e with raised := false, quietFrom := now s } else e) } }

/-- A C3 or C4 cause is still raised (R459). -/
def causeHeld (s : State) (e : Active) : Bool :=
  e.cause && (e.raised || e.cls = .c4 || decide ((now s - e.quietFrom).toNat < e.quiet * 1000000))

/-- The first cause still raised (R459). -/
def heldCause (s : State) : Option Active := s.fc.active.find? (causeHeld s)

/-- The instance of a device-wide source. -/
def dev : Inst := {}
/-- The instance of a node. -/
def at_ (n : Node) : Inst := { node := n }
/-- The instance of a sub-index of a node. -/
def sub_ (n : Node) (k : Nat) : Inst := { node := n, sub := BitVec.ofNat 8 k }

end Sys2Proof.Machine
end

