-- ==== Sys2Proof/Machine/Fp.lean ====
section
/-! DEFINITION. Number formats and their arithmetic (R63, R67, R68, R166–R169): exact values, one rounding at the end. -/

namespace Sys2Proof.Machine

/-- A floating-point format (R167): exponent bits, mantissa bits, bias, and whether the top exponent holds infinities. -/
structure FpFmt where
  eb : Nat
  mb : Nat
  bias : Nat
  ieee : Bool := true
deriving DecidableEq, Repr

def fp32 : FpFmt := { eb := 8, mb := 23, bias := 127 }
def fp16 : FpFmt := { eb := 5, mb := 10, bias := 15 }
def bf16 : FpFmt := { eb := 8, mb := 7, bias := 127 }
def e4m3 : FpFmt := { eb := 4, mb := 3, bias := 7, ieee := false }
def e5m2 : FpFmt := { eb := 5, mb := 2, bias := 15 }

/-- A floating-point value: (−1)^neg × m × 2^e when finite. -/
inductive Num
  | nan
  | inf (neg : Bool)
  | fin (neg : Bool) (m : Nat) (e : Int)
deriving DecidableEq, Repr

/-- The value of a pattern; a subnormal is zero with its sign (R63, R168). -/
def decodeFp (f : FpFmt) (w : Nat) : Num :=
  let neg := w / 2 ^ (f.eb + f.mb) % 2 = 1
  let ex := w / 2 ^ f.mb % 2 ^ f.eb
  let man := w % 2 ^ f.mb
  if ex = 0 then .fin neg 0 0
  else if f.ieee ∧ ex = 2 ^ f.eb - 1 then (if man = 0 then .inf neg else .nan)
  else if ¬f.ieee ∧ ex = 2 ^ f.eb - 1 ∧ man = 2 ^ f.mb - 1 then .nan
  else .fin neg (man + 2 ^ f.mb) ((ex : Int) - f.bias - f.mb)

/-- Canonical NaN (R167). -/
def canonNan (f : FpFmt) : Nat :=
  if f.ieee then (2 ^ f.eb - 1) * 2 ^ f.mb + 2 ^ (f.mb - 1) else 2 ^ (f.eb + f.mb) - 1
/-- The largest finite pattern without its sign (R167). -/
def maxFinite (f : FpFmt) : Nat :=
  if f.ieee then (2 ^ f.eb - 2) * 2 ^ f.mb + (2 ^ f.mb - 1) else 2 ^ (f.eb + f.mb) - 2
/-- Infinity's pattern without its sign. -/
def infPat (f : FpFmt) : Nat := (2 ^ f.eb - 1) * 2 ^ f.mb
/-- The sign bit. -/
def signPat (f : FpFmt) (neg : Bool) : Nat := if neg then 2 ^ (f.eb + f.mb) else 0

/-- A mantissa shifted right by `k` with round half to even. -/
def rneShift (m k : Nat) : Nat :=
  let q := m / 2 ^ k
  let r := m % 2 ^ k
  if k = 0 then m
  else if r > 2 ^ (k - 1) ∨ (r = 2 ^ (k - 1) ∧ q % 2 = 1) then q + 1 else q

/-- Round m × 2^e half to even to the format's precision: the biased exponent and the significand with its hidden bit;
`m` must not be 0. -/
def roundSig (f : FpFmt) (m : Nat) (e : Int) : Int × Nat :=
  let l := m.log2
  let q := if l ≤ f.mb then m * 2 ^ (f.mb - l) else rneShift m (l - f.mb)
  let e' : Int := e + l - f.mb
  if q = 2 ^ (f.mb + 1) then (e' + 1 + f.mb + f.bias, 2 ^ f.mb) else (e' + f.mb + f.bias, q)

/-- The pattern of a rounded significand, and whether it lies above the largest finite value. -/
def packSig (f : FpFmt) (neg : Bool) (m : Nat) (e : Int) : Nat × Bool :=
  if m = 0 then (signPat f neg, false)
  else
    let r := roundSig f m e
    if r.1 ≤ 0 then (signPat f neg, false)
    else
      let w := r.1.toNat * 2 ^ f.mb + (r.2 - 2 ^ f.mb)
      if w > maxFinite f then (signPat f neg, true) else (signPat f neg + w, false)

/-- The result of an arithmetic operation in a format: half to even, subnormals to signed zero, overflow to infinity,
NaN canonical (R63, R67). -/
def encodeFp (f : FpFmt) : Num → Nat
  | .nan => canonNan f
  | .inf neg => signPat f neg + infPat f
  | .fin neg m e =>
    let r := packSig f neg m e
    if r.2 then signPat f neg + infPat f else r.1

/-- Conversion to a narrower floating-point format, and whether it saturated (R169, R176). -/
def convFp (f : FpFmt) : Num → Nat × Bool
  | .nan => (canonNan f, false)
  | .inf neg => (signPat f neg + maxFinite f, true)
  | .fin neg m e =>
    let r := packSig f neg m e
    if r.2 then (signPat f neg + maxFinite f, true) else r

/-- The integer nearest to a finite value, half to even. -/
def toIntRne (neg : Bool) (m : Nat) (e : Int) : Int :=
  let a : Nat := if 0 ≤ e then m * 2 ^ e.toNat else rneShift m (-e).toNat
  if neg then -(a : Int) else a

/-- Clamp to n-bit two's complement, and whether that changed the value. -/
def satInt (n : Nat) (v : Int) : Int × Bool :=
  if v < -(2 ^ (n - 1) : Int) then (-(2 ^ (n - 1) : Int), true)
  else if v > (2 ^ (n - 1) : Int) - 1 then ((2 ^ (n - 1) : Int) - 1, true) else (v, false)

/-- Conversion to an n-bit integer, and whether it is a clip (R169, R176: a saturation, or a NaN that became 0). -/
def convInt (n : Nat) : Num → Int × Bool
  | .nan => (0, true)
  | .inf neg => (if neg then -(2 ^ (n - 1) : Int) else (2 ^ (n - 1) : Int) - 1, true)
  | .fin neg m e => satInt n (toIntRne neg m e)

/-- An integer's pattern in n bits. -/
def intPat (n : Nat) (v : Int) : Nat := (v % (2 ^ n : Int)).toNat
/-- An integer's value. -/
def ofInt (v : Int) : Num := .fin (decide (v < 0)) v.natAbs 0

/-- The signed mantissa at exponent `e0 ≤ e`. -/
def mantAt (neg : Bool) (m : Nat) (e e0 : Int) : Int :=
  let a : Int := (m * 2 ^ (e - e0).toNat : Nat)
  if neg then -a else a

/-- Exact sum; an exact zero of unlike signs is +0. -/
def addNum : Num → Num → Num
  | .nan, _ => .nan
  | _, .nan => .nan
  | .inf a, .inf b => if a = b then .inf a else .nan
  | .inf a, .fin _ _ _ => .inf a
  | .fin _ _ _, .inf b => .inf b
  | .fin n1 m1 e1, .fin n2 m2 e2 =>
    if m1 = 0 ∧ m2 = 0 then .fin (n1 && n2) 0 0
    else
      let e0 := if m1 = 0 then e2 else if m2 = 0 then e1 else min e1 e2
      let v := (if m1 = 0 then 0 else mantAt n1 m1 e1 e0) + (if m2 = 0 then 0 else mantAt n2 m2 e2 e0)
      .fin (decide (v < 0)) v.natAbs e0

/-- Exact product. -/
def mulNum : Num → Num → Num
  | .nan, _ => .nan
  | _, .nan => .nan
  | .inf a, .inf b => .inf (a ^^ b)
  | .inf a, .fin b m _ => if m = 0 then .nan else .inf (a ^^ b)
  | .fin a m _, .inf b => if m = 0 then .nan else .inf (a ^^ b)
  | .fin a m e, .fin b n g => .fin (a ^^ b) (m * n) (e + g)

/-- The value with its sign changed. -/
def negNum : Num → Num
  | .nan => .nan
  | .inf a => .inf (!a)
  | .fin a m e => .fin (!a) m e

/-- Strictly below; false with a NaN. Zeros are equal. -/
def ltNum (x y : Num) : Bool :=
  match addNum y (negNum x) with
  | .nan => match x, y with
    | .inf true, .inf false => true
    | _, _ => false
  | .inf neg => !neg
  | .fin neg m _ => !neg && decide (m ≠ 0)
/-- Equal values; false with a NaN. -/
def eqNum (x y : Num) : Bool :=
  match x, y with
  | .nan, _ => false
  | _, .nan => false
  | .inf a, .inf b => a = b
  | .inf _, .fin _ _ _ => false
  | .fin _ _ _, .inf _ => false
  | .fin a m e, .fin b n g => !(ltNum (.fin a m e) (.fin b n g)) && !(ltNum (.fin b n g) (.fin a m e))

/-- Add, multiply and fused multiply-add in one format: one rounding (R67). -/
def fpAdd (f : FpFmt) (a b : Nat) : Nat := encodeFp f (addNum (decodeFp f a) (decodeFp f b))
def fpSub (f : FpFmt) (a b : Nat) : Nat := encodeFp f (addNum (decodeFp f a) (negNum (decodeFp f b)))
def fpMul (f : FpFmt) (a b : Nat) : Nat := encodeFp f (mulNum (decodeFp f a) (decodeFp f b))
def fpFma (f : FpFmt) (a b c : Nat) : Nat :=
  encodeFp f (addNum (mulNum (decodeFp f a) (decodeFp f b)) (decodeFp f c))
/-- Minimum and maximum; a NaN operand gives the canonical NaN (log entry 11). -/
def fpMin (f : FpFmt) (a b : Nat) : Nat :=
  match decodeFp f a, decodeFp f b with
  | .nan, _ => canonNan f
  | _, .nan => canonNan f
  | x, y => encodeFp f (if ltNum y x then y else x)
def fpMax (f : FpFmt) (a b : Nat) : Nat :=
  match decodeFp f a, decodeFp f b with
  | .nan, _ => canonNan f
  | _, .nan => canonNan f
  | x, y => encodeFp f (if ltNum x y then y else x)

/-- The exact reciprocal's mantissa truncated to FP32 precision, then one ulp up where the free choice says so (R68: ≤ 1 ulp). -/
def recipFinite (w : W32) (neg : Bool) (m : Nat) (e : Int) : Nat :=
  let q := 2 ^ (m.log2 + 24) / m
  let q' := if Config.recipUlp w then q + 1 else q
  encodeFp fp32 (.fin neg q' (-(e + m.log2 + 24)))

/-- The integer square root of x, found bit by bit from 2^(n−1) down. -/
def isqrt : Nat → Nat → Nat → Nat
  | 0, _, r => r
  | n + 1, x, r => isqrt n x (if (r + 2 ^ n) * (r + 2 ^ n) ≤ x then r + 2 ^ n else r)
/-- The exact reciprocal square root of m × 2^e truncated to FP32 precision, then one ulp up where the free choice says so
(R68: ≤ 1 ulp). -/
def rsqrtFinite (w : W32) (m : Nat) (e : Int) : Nat :=
  let m2 := if e % 2 = 0 then m else 2 * m
  let e2 := if e % 2 = 0 then e else e - 1
  let k := m2.log2 / 2 + 24
  let q := isqrt 26 (2 ^ (2 * k) / m2) 0
  let q' := if Config.rsqrtUlp w then q + 1 else q
  encodeFp fp32 (.fin false q' (-(e2 / 2 + k)))

/-- The transcendental unit on one FP32 operand (R68; what R68 leaves open is a free value, log entry 3). -/
def transFn (fn : TransFn) (w : W32) : W32 :=
  let x := decodeFp fp32 w.toNat
  match fn, x with
  | _, .nan => 0x7FC00000
  | .recip, .fin neg m e => if m = 0 then Config.recipSpecial w else BitVec.ofNat 32 (recipFinite w neg m e)
  | .recip, .inf _ => Config.recipSpecial w
  | .rsqrt, .fin neg m e => if m = 0 ∨ neg then Config.rsqrtSpecial w else BitVec.ofNat 32 (rsqrtFinite w m e)
  | .rsqrt, .inf _ => Config.rsqrtSpecial w
  | .exp, .inf neg => if neg then 0 else 0x7F800000
  | .exp, y => if ltNum (ofInt 89) y then 0x7F800000 else if ltNum y (ofInt (-88)) then 0 else Config.expValue w
  | .log, .fin neg m _ => if m = 0 then 0xFF800000 else if neg then 0x7FC00000 else Config.logValue w
  | .log, .inf neg => if neg then 0x7FC00000 else Config.logValue w
  | .tanh, _ => Config.tanhValue w
  | .sigmoid, _ => Config.sigmoidValue w

end Sys2Proof.Machine
end

