-- ==== Sys2Proof/Machine/Operands.lean ====
section
/-! DEFINITION. A core's operands: fields of the instruction word, registers, windows and addresses, the signature unit,
issue, retirement and faults (R73–R79, R82, R94–R96, R388–R395). -/

namespace Sys2Proof.Machine

/-- The 54 operand bits of an instruction word (R73). -/
abbrev Field := BitVec 54
/-- Bits [hi:lo] of the operand field. -/
def bits (f : Field) (hi lo : Nat) : Nat := f.toNat / 2 ^ lo % 2 ^ (hi + 1 - lo)

/-- Scalar register r. -/
def getS (c : Core) (r : Nat) : W32 := getK 0 c.s (r % 32)
def setS (r : Nat) (v : W32) (c : Core) : Core := { c with s := putK 0 c.s (r % 32) v }
/-- The pair starting at an even register, low word first (R74). -/
def getS2 (c : Core) (r : Nat) : W64 := getS c (r + 1) ++ getS c r
def setS2 (r : Nat) (v : W64) (c : Core) : Core := setS (r + 1) (v.extractLsb' 32 32) (setS r (v.extractLsb' 0 32) c)
/-- Vector register lane. -/
def getV (c : Core) (r l : Nat) : W32 := getK 0 c.v (64 * (r % 32) + l)
/-- Write a whole vector register. -/
def setV (r : Nat) (f : Nat → W32) (c : Core) : Core := { c with v := putsK 0 c.v (64 * (r % 32)) ((List.range 64).map f) }
/-- Predicate register; all ones at reset (R55). -/
def getP (c : Core) (r : Nat) : BitVec 64 := getK (BitVec.allOnes 64) c.p (r % 8)
def setP (r : Nat) (v : BitVec 64) (c : Core) : Core := { c with p := putK (BitVec.allOnes 64) c.p (r % 8) v }
/-- Scale entry. -/
def getScl (c : Core) (k : Nat) : W32 := getK 0 c.scl (k % 1024)
/-- Accumulator entry. -/
def getA (c : Core) (bank : Bool) (r l : Nat) : W32 := getK 0 (if bank then c.a1 else c.a0) (32 * r + l)
/-- Write every entry of a bank. -/
def setBank (bank : Bool) (f : Nat → W32) (c : Core) : Core :=
  let t := tabulateK 0 1024 f
  if bank then { c with a1 := t } else { c with a0 := t }
/-- Change a generator. -/
def getAg (c : Core) (n : Nat) : AddrGen := getK {} c.ag n
def setAg (n : Nat) (g : AddrGen) (c : Core) : Core := { c with ag := putK {} c.ag n g }
/-- Window, route and channel. -/
def getWin (c : Core) (w : Nat) : Option Window := getK none c.wins w
def getRoute (c : Core) (r : Nat) : Option Route := getK none c.routes r
def setRoute (r : Nat) (x : Route) (c : Core) : Core := { c with routes := putK none c.routes r (some x) }
def getChan (c : Core) (k : Nat) : Option Chan := getK none c.chans k
def setChan (k : Nat) (x : Chan) (c : Core) : Core := { c with chans := putK none c.chans k (some x) }

/-- The lanes that PRED enables (R74): 0 all, 0b1ppp P_ppp; any other code is illegal. -/
def predOf (c : Core) (code : Nat) : Option (BitVec 64) :=
  if code = 0 then some (BitVec.allOnes 64) else if 8 ≤ code then some (getP c (code - 8)) else none

/-- Status bits (R75). -/
def setStatus (k : Nat) (c : Core) : Core := { c with status := c.status ||| (1 <<< k) }

/-- The signature unit's seed (R391). -/
def sigSeed (c : Core) : W64 :=
  crc64 0 (leBytes 1 (c.sig.pair.getD 0) ++ leBytes 1 (if c.sig.attempt then 1 else 0) ++ leBytes 2 c.skew.toNat
    ++ leBytes 4 c.sig.frame.toNat ++ leBytes 4 c.sig.window.toNat ++ leBytes 4 0)
/-- Open window 0 of a run (R394). -/
def sigStart (frame : W32) (attempt : Bool) (c : Core) : Core :=
  let c := { c with sig := { c.sig with frame, attempt, window := 0, first := none, long := false } }
  { c with sig := { c.sig with reg := sigSeed c } }
/-- Fold one record (R392): the 24-byte descriptor, then the data with disabled bytes as 0. -/
def sigFold (t : W64) (kind idx : Nat) (off : Nat) (mask : W64) (data : List Byte) (c : Core) : Core :=
  if c.sig.pair = none then c
  else
    let d := leBytes 1 kind ++ leBytes 1 idx ++ leBytes 2 data.length ++ leBytes 4 0 ++ leBytes 8 off ++ leBytes 8 mask.toNat
    { c with sig := { c.sig with reg := crc64 (crc64 c.sig.reg d) data, first := some (c.sig.first.getD t) } }
/-- The byte-enable mask of a record (R392): bit i for byte i up to 64 bytes, all ones for longer data. -/
def enMask (len : Nat) (en : List Bool) : W64 :=
  if 64 < len then BitVec.allOnes 64
  else BitVec.ofNat 64 (if en.isEmpty then 2 ^ len - 1 else bitsToNat en)
/-- Data with disabled bytes as 0 (R392). -/
def foldData (data : List Byte) (en : List Bool) : List Byte :=
  if en.isEmpty then data else List.zipWith (fun b e => if e then b else 0) data en

/-- Change a core, and trace the change of its run state (R502). -/
def changeCore (n : Node) (f : Core → Core) (s : State) : State :=
  let s' := updCore n f s
  let o := (getCore s n).run
  let c := getCore s' n
  if o = c.run then s'
  else traceRec n 0x05 3 (leBytes 1 o.code ++ leBytes 1 c.run.code
    ++ leBytes 2 (match c.run, c.frec.source with | .fault, some x => x.code.toNat | _, _ => 0)
    ++ leBytes 2 (if c.run = .fault then c.frec.pcFault.toNat else 0)) s'

/-- A DATA trace record of a store, AG2 access or PUT (R502): window, bytes 1–8, offset, the first written bytes. -/
def traceData (n : Node) (win off : Nat) (data : List Byte) (s : State) : State :=
  traceRec n 0x08 6 (leBytes 1 win ++ leBytes 1 (min data.length 8) ++ [0, 0] ++ leBytes 4 off ++ sub data 0 8) s

/-- Close the core's signature window (R394): a window with a record sends its signature to both comparators. -/
def sigClose (n : Node) (s : State) : State :=
  let c := getCore s n
  match c.sig.pair with
  | none => s
  | some p =>
    let s := traceRec n 0x07 5 (leBytes 4 c.sig.window.toNat ++ leBytes 4 c.sig.frame.toNat) s
    let s := match c.sig.first, pairOf s n with
      | some _, some q =>
        let m : SigMsg := { pair := BitVec.ofNat 8 p, trail := c.sig.trail, attempt := c.sig.attempt,
                            frame := c.sig.frame.setWidth 16, window := c.sig.window, sig := c.sig.reg }
        emitFab (.control n q.map.cmp1 (.sig m)) (emitFab (.control n q.map.cmp0 (.sig m)) s)
      | _, _ => s
    updCore n (fun c =>
      let c := { c with sig := { c.sig with window := c.sig.window + 1, first := none, long := false } }
      { c with sig := { c.sig with reg := sigSeed c } }) s

/-- May the core issue an instruction now: it runs, TRAIL's skew has passed, and its PACE count allows it (R389, R390). -/
def canIssue (c : Core) : Bool :=
  c.run = .run && !c.skewHold && (!c.halted || c.stepOne) &&
    (!(c.sig.pair.isSome && c.sig.trail) || decide (c.retired.toNat + 1 ≤ c.pace.toNat))

/-- The fault record's detail as an urgent report carries it (R463; widths in log entry 15). -/
def coreDetail (r : FaultRec) : List Byte :=
  leBytes 2 r.pcFault.toNat ++ leBytes 2 r.pcLast.toNat ++ leBytes 4 r.index ++ leBytes 8 r.off

/-- The core faults (R94–R96): the window closes (R394), the record is kept, the core enters FAULT, the source is raised. -/
def coreFaultRec (n : Node) (src : Source) (r : FaultRec) (s : State) : State :=
  let s := changeCore n (fun c => { c with
                                        run := .fault, wait := .none, frec := { r with source := some src }, mat := [],
                                        ag := c.ag.map (fun e => (e.1, { e.2 with running := false, desc := [], out := [], late := [] })) }) s
  raise src (at_ n) (coreDetail r) (sigClose n s)
/-- A precise fault at the core's pc (R94). -/
def coreFault (n : Node) (src : Source) (index off : Nat) (s : State) : State :=
  let pc := (getCore s n).pc
  coreFaultRec n src { pcFault := pc, pcLast := pc, index, off, node := n } s

/-- Issue an instruction of a core that may issue; any other core does nothing with it. A word at pc that the scrubber has found
uncorrectable faults now (R57, R59). A single-step is used up (R512). -/
def issue (n : Node) (body : Core → State → State) (s : State) : State :=
  let c := getCore s n
  if ¬canIssue c then s
  else if c.imemBad.contains c.pc.toNat then coreFault n .coreImemUe 0 0 s
  else if c.stepOne then
    let c := { c with stepOne := false }
    body c (setCore n c s)
  else body c s

/-- The core waits (R70); the instruction is issued again when it restarts. -/
def coreWait (n : Node) (w : WaitOn) (s : State) : State :=
  changeCore n (fun c => { c with run := .wait, wait := w, waitAt := now s }) s

/-- LEAD's PACE message (R390): every 64 retired instructions, and at the end of the program (log entry 16). -/
def sendPace (n : Node) (final : Bool) (s : State) : State :=
  let c := getCore s n
  if c.sig.pair.isSome ∧ ¬c.sig.trail ∧ (final ∨ c.retired.toNat % 64 = 0) then
    match pairOf s n with
    | some p => emitFab (.control n p.map.trail (.pace c.retired)) s
    | none => s
  else s

/-- Retire an instruction: the core goes on at `pc`, or stops for a NACK on a required route (R390, R91). -/
def retireTo (n : Node) (pc : BitVec 13) (s : State) : State :=
  let s := updCore n (fun c => { c with pc, retired := c.retired + 1 }) s
  let s := sendPace n false s
  let c := getCore s n
  match c.nacked with
  | some r => coreFaultRec n .destAbsent { pcFault := pc - 1, pcLast := pc - 1, index := r, off := 0, node := n } s
  | none => s
/-- Retire to the next word. -/
def retire (n : Node) (s : State) : State := retireTo n ((getCore s n).pc + 1) s
/-- Write the core's registers and retire. -/
def retireWith (n : Node) (c : Core) (s : State) : State := retire n (setCore n c s)

/-- The effective offset (R78): the 33-bit sum of the zero-extended register and IMM. -/
def effOff (a imm : Nat) : Nat := (a + imm) % 2 ^ 33
/-- The window is declared, allows the access, and holds `len` bytes at `off` (R78). -/
def winOk (w : Option Window) (acc : Window → Bool) (off len : Nat) : Option Window :=
  match w with
  | some x => if acc x ∧ off + len ≤ x.length then some x else none
  | none => none
/-- The address of an access (R77). -/
def winAddr (w : Window) (off : Nat) : W64 := w.base + BitVec.ofNat 64 off
/-- The offset in core memory of a LOCAL or PEER address (R77). -/
def localAddr (a : W64) : Nat := a.toNat % 2 ^ 19
/-- The endpoint that serves an address (R33, R77, R187, R189). -/
def endpointOf (n : Node) (sp : Space) (a : W64) : Node :=
  match sp with
  | .lcl => n
  | .chamber => BitVec.ofNat 10 (a.toNat / 2 ^ 24 % 4 * 128 + 64 + a.toNat / 2 ^ 19 % 32 % 6)
  | .staging => 0x230
  | .dram => BitVec.ofNat 10 (0x218 + a.toNat / 256 % 4)
  | .host => 0x220
  | .peer => BitVec.ofNat 10 (a.toNat / 2 ^ 48 % 1024)

/-- A core-memory range holds no poisoned word (R60). -/
def memClean (c : Core) (a len : Nat) : Bool := !c.memBad.any (fun w => a < w * 8 + 8 && w * 8 < a + len)
/-- The enabled bytes of an access hold no poisoned word (R60, R109). -/
def memCleanEn (c : Core) (a : Nat) (en : List Bool) : Bool :=
  !c.memBad.any (fun w => (List.range en.length).any (fun b => en.getD b false && decide ((a + b) / 8 = w)))
/-- Write core memory: whole words written lose their poison (R59, DEDUCED from R188's rule for the other tiers; log entry 17). -/
def coreWrite (a : Nat) (data : List Byte) (en : List Bool) (c : Core) : Core :=
  { c with mem := wrEn c.mem a data en,
           memBad := if en.isEmpty then c.memBad.filter (fun w => ¬(a ≤ w * 8 ∧ w * 8 + 8 ≤ a + data.length)) else c.memBad }

/-- A pending entry's write or atomic is still unacknowledged (R83, R84). -/
def Pend.isWrite (p : Pend) : Bool := match p.kind with | .store | .put _ | .atomic _ _ => true | _ => false
/-- Earlier writes of the core to an endpoint are unacknowledged (R83). -/
def writesTo (c : Core) (e : Node) : Bool := c.pend.any (fun p => p.isWrite && p.node = e)

/-- The page of an object that an address lies in (R310). -/
def pageOf (s : State) (h : Handle) (a : W64) : Nat :=
  match s.obj.descs.find? (fun d => d.1 = h) with
  | some (_, d) => (match d.page with | 1 => a.toNat / 4096 | 2 => a.toNat / 65536 | 3 => a.toNat / 2097152 | _ => 0)
  | none => 0
/-- The object is resident in the gallery copy of a node (R80, R316). -/
def residentAt (s : State) (n : Node) (h : Handle) (a : W64) : Bool :=
  let hit (t : TransEnt) : Bool := t.obj = h && t.page = pageOf s h a
  (getK [] s.obj.gcopy (n.toNat / 128)).any hit || s.obj.trans.any hit
/-- Use a translation entry from a node's gallery (R316): the gallery copy is refilled from the translation cache. -/
def useTrans (n : Node) (h : Handle) (a : W64) (s : State) : State :=
  let hit (t : TransEnt) : Bool := t.obj = h && t.page = pageOf s h a
  let g := n.toNat / 128
  let copy := getK [] s.obj.gcopy g
  let copy' := if copy.any hit then touch hit copy
    else match s.obj.trans.find? hit with
      | some t => lruInsert 256 (·.pinned) { t with pinned := false } copy
      | none => copy
  { s with obj := { s.obj with trans := touch hit s.obj.trans, gcopy := putK [] s.obj.gcopy g copy' } }
/-- Take a slot fault (R80, R316): dispatch firmware fetches the descriptor. -/
def slotFault (f : SlotFaultOf) (s : State) : State :=
  if s.obj.faults.contains f then s
  else
    let tab (t : HTable) (id size : Nat) : W64 := t.base + BitVec.ofNat 64 (id * size)
    let addr := match f with
      | .context id => tab s.obj.ctxTab id 64
      | .queue id => tab s.obj.queueTab id 64
      | .object h _ _ => tab s.obj.objTab h.toNat 64
      | .event id => tab s.obj.evtTab id 32
    hostReq (.table f) (fun t => .hostRead t none addr 64) { s with obj := { s.obj with faults := s.obj.faults ++ [f] } }

/-- Issue a request of a core: allocate a pending entry and send the message (R40, R82). -/
def sendReq (n : Node) (kind : PendKind) (win off : Nat) (w : Window) (len : Nat) (data : List Byte) (en : List Bool)
    (atomic : Option AtomicOp) (read : Bool) (s : State) : State :=
  let c := getCore s n
  let a := winAddr w off
  let e := endpointOf n w.space a
  let p : Pend := { tag := c.nextTag, kind, win, off, node := e, space := w.space, issued := now s, pc := c.pc }
  let r : FabReq := { src := n, dst := e, tag := c.nextTag, space := w.space, addr := a, len, data, en, atomic, obj := w.obj }
  let s := setCore n { c with nextTag := c.nextTag + 1, pend := c.pend ++ [p] } s
  emitFab (if read then .readReq r else .writeReq r) (if w.space = .host then useTrans n w.obj a s else s)

/-- What stops a non-local access before it is issued (R80, R82, R83): no free entry, unacknowledged writes, or a slot fault. -/
def accessWait (c : Core) (n : Node) (w : Window) (off : Nat) (isLoad : Bool) (s : State) : Option WaitOn :=
  let a := winAddr w off
  if 16 ≤ c.pend.length then some .entries
  else if isLoad ∧ writesTo c (endpointOf n w.space a) then some .order
  else if w.space = .host ∧ ¬residentAt s n w.obj a then some (.slotFault w.obj)
  else none

/-- Wait for what stops a non-local access, taking the slot fault where that is what it is. -/
def waitFor (n : Node) (w : Window) (off : Nat) (why : WaitOn) (s : State) : State :=
  match why with
  | .slotFault h => slotFault (.object h (pageOf s h (winAddr w off)) (some (n.toNat / 128))) (coreWait n why s)
  | _ => coreWait n why s

/-- The trailing core's writes through a SUPPRESS window are signed and discarded (R388). -/
def suppressed (c : Core) (win : Nat) : Bool := c.sig.trail && c.suppress.getLsbD win

end Sys2Proof.Machine
end

