-- ==== Sys2Proof/Machine/Flags.lean ====
section
/-! DEFINITION. Flags and conversions of the core's units: ACCSAT, clip events and counters, the converting step, and
element-wise arithmetic in each vector format (R62, R67, R166–R178). -/

namespace Sys2Proof.Machine

/-- A clip counter's event (R177): CLIP_n counts, notes its threshold crossing, and holds with CLIPSAT at its maximum. -/
def countClip (thresh : W32) (clipped : Bool) (k : Clip) : Clip :=
  if clipped then
    let v := k.clip.val
    { k with conv := k.conv.inc,
             clip := if v = BitVec.allOnes 32 then k.clip
               else { val := v + 1, sat := k.clip.sat || decide (v + 1 = BitVec.allOnes 32) },
             crossed := k.crossed || (decide (thresh ≠ 0) && decide (v.toNat < thresh.toNat) && decide (thresh.toNat ≤ v.toNat + 1))
               || decide (v + 1 = BitVec.allOnes 32) && decide (v ≠ BitVec.allOnes 32) }
  else { k with conv := k.conv.inc }

/-- Count one conversion on a counter (R174, R176, R178): a clip sets CLIPEV, naming the first counter. -/
def countConv (n : Nat) (clipped : Bool) (c : Core) : Core :=
  let c := { c with clips := updK {} c.clips (n % 512) (countClip c.clipThresh clipped) }
  if clipped ∧ ¬c.status.getLsbD 4 then
    { c with status := (c.status &&& ~~~(0x1FF00 : W32)) ||| 0x10 ||| (BitVec.ofNat 32 (n % 512) <<< 8) }
  else c

/-- Count the conversions of a list of (counter, clipped) pairs in order. -/
def countConvs : List (Nat × Bool) → Core → Core
  | [], c => c
  | x :: xs, c => countConvs xs (countConv x.1 x.2 c)

/-- Codes of the vector formats (R74): element bits. -/
def fmtBits (fmt : Nat) : Nat := match fmt with | 0 | 3 => 32 | 1 | 2 | 4 => 16 | _ => 8
/-- The floating-point format of a code, if it is one (R74). -/
def fmtFp (fmt : Nat) : Option FpFmt :=
  match fmt with | 0 => some fp32 | 1 => some fp16 | 2 => some bf16 | 6 => some e4m3 | 7 => some e5m2 | _ => none

/-- The value of an element pattern in a format (R166–R168). -/
def elemNum (fmt w : Nat) : Num :=
  match fmtFp fmt with
  | some f => decodeFp f w
  | none => ofInt (signed (fmtBits fmt) (w % 2 ^ fmtBits fmt))

/-- A value converted to a format, and whether that is a clip (R169, R176). Conversion to FP32 is exact but for rounding an
INT32 half to even (R168, R173). -/
def convTo (fmt : Nat) (x : Num) : Nat × Bool :=
  match fmt with
  | 0 => (encodeFp fp32 x, false)
  | 1 => convFp fp16 x
  | 2 => convFp bf16 x
  | 6 => convFp e4m3 x
  | 7 => convFp e5m2 x
  | _ => let r := convInt (fmtBits fmt) x; (intPat (fmtBits fmt) r.1, r.2)

/-- FP32 of a value: the first rounding of a conversion between two narrow formats. -/
def viaFp32 (x : Num) : Num := decodeFp fp32 (encodeFp fp32 x)

/-- Integer results: wrapping, or clamped in the saturating variants (R67). -/
def intRes (n : Nat) (sat : Bool) (v : Int) : Nat := if sat then intPat n (satInt n v).1 else intPat n v

/-- One element of a vector arithmetic operation in a format (R67). -/
def elemOp (op : VecOp) (fmt a b c : Nat) : Nat :=
  let n := fmtBits fmt
  match fmtFp fmt with
  | some f =>
    match op with
    | .add | .addSat => fpAdd f a b
    | .sub | .subSat => fpSub f a b
    | .mul => fpMul f a b
    | .fma => fpFma f a b c
    | .min => fpMin f a b
    | .max => fpMax f a b
    | _ => a
  | none =>
    let x := signed n a
    let y := signed n b
    match op with
    | .add => intRes n false (x + y)
    | .sub => intRes n false (x - y)
    | .addSat => intRes n true (x + y)
    | .subSat => intRes n true (x - y)
    | .mul => intRes n false (x * y)
    | .fma => intRes n false (x * y + signed n c)
    | .min => if y < x then b else a
    | .max => if x < y then b else a
    | _ => a

/-- The elements packed in one lane, lowest first (R67). -/
def unpack (fmt : Nat) (w : W32) : List Nat :=
  match fmtBits fmt with
  | 32 => [w.toNat]
  | 16 => [w.toNat % 65536, w.toNat / 65536]
  | _ => leBytes 4 w.toNat |>.map (·.toNat)
/-- Pack elements into a lane. -/
def pack (fmt : Nat) (es : List Nat) : W32 :=
  BitVec.ofNat 32 (es.foldr (fun e acc => e + 2 ^ fmtBits fmt * acc) 0)

/-- A lane-wise operation on packed elements. -/
def laneOp (op : VecOp) (fmt : Nat) (a b c : W32) : W32 :=
  pack fmt (List.zipWith (fun x (yz : Nat × Nat) => elemOp op fmt x yz.1 yz.2) (unpack fmt a)
    (List.zip (unpack fmt b) (unpack fmt c)))

/-- A compare relation on two elements (R67); a NaN compares unequal and not below. -/
def relHolds (r : VRel) (fmt a b : Nat) : Bool :=
  let x := elemNum fmt a
  let y := elemNum fmt b
  match r with
  | .eq => eqNum x y
  | .ne => !(eqNum x y)
  | .lt => ltNum x y
  | .ge => ltNum y x || eqNum x y

/-- A compare's predicate bit of one lane: what the spec does not say of packed elements is a free value (log entry 13). -/
def laneCmp (r : VRel) (fmt : Nat) (a b : W32) : Bool :=
  if fmtBits fmt = 32 then relHolds r fmt a.toNat b.toNat else Config.packedCmp fmt a b

end Sys2Proof.Machine
end

