-- ==== Sys2Proof/Machine/Scalar.lean ====
section
/-! DEFINITION. SCALAR, BRANCH and SYSTEM instructions (R62, R66, R72–R75, R84, R99, R394). -/

namespace Sys2Proof.Machine

/-- The result of a SCALAR operation (R72); a shift by 32 or more has a free result (log entry 13). -/
def scalarResult (op : ScalarOp) (a b : W32) : W32 :=
  match op with
  | .add => a + b
  | .sub => a - b
  | .and => a &&& b
  | .or => a ||| b
  | .xor => a ^^^ b
  | .shl => if b.toNat < 32 then a <<< b.toNat else Config.shiftOver 0 a b
  | .shr => if b.toNat < 32 then a >>> b.toNat else Config.shiftOver 1 a b
  | .sar => if b.toNat < 32 then a.sshiftRight b.toNat else Config.shiftOver 2 a b
  | .mulLo => a * b
  | .mulHi => BitVec.ofInt 32 (a.toInt * b.toInt / 2 ^ 32)
  | .mulHiU => BitVec.ofNat 32 (a.toNat * b.toNat / 2 ^ 32)
  | .min => if a.slt b then a else b
  | .max => if a.slt b then b else a
  | .minU => if a.ult b then a else b
  | .maxU => if a.ult b then b else a
  | .setEq => if a = b then 1 else 0
  | .setNe => if a = b then 0 else 1
  | .setLt => if a.slt b then 1 else 0
  | .setGe => if a.slt b then 0 else 1
  | .setLtU => if a.ult b then 1 else 0
  | .setGeU => if a.ult b then 0 else 1
  | .movImm => b
  | .undefinedOp => 0

/-- SCALAR (R72, R73): SD gets the result; a reserved bit or an undefined OP raises CORE_ILLEGAL_OP. -/
def scalarStep (n : Node) (op : ScalarOp) (f : Field) (c : Core) (s : State) : State :=
  let sa := bits f 48 44
  let sb := bits f 43 39
  let imm := bits f 38 38 = 1 ∨ op = .movImm
  if op = .undefinedOp ∨ bits f 37 32 ≠ 0 then coreFault n .coreIllegalOp 0 0 s
  else
    let b := if imm then BitVec.ofNat 32 (bits f 31 0) else getS c sb
    retireWith n (setS (bits f 53 49) (scalarResult op (getS c sa) b) c) s
/-- SCALAR. -/
def execScalar (n : Node) (op : ScalarOp) (f : Field) (s : State) : Res := .next (issue n (scalarStep n op f) s)

/-- A BRANCH condition (R73 COND). -/
def condHolds (k : Nat) (a b : W32) : Option Bool :=
  match k with
  | 0 => some (decide (a = b))
  | 1 => some (decide (a ≠ b))
  | 2 => some (a.slt b)
  | 3 => some (!a.slt b)
  | 4 => some (a.ult b)
  | 5 => some (!a.ult b)
  | 6 => some true
  | _ => none
/-- BRANCH (R72, R73): to the absolute word address TARGET, or to SA[12:0]. -/
def branchStep (n : Node) (op : BranchOp) (f : Field) (c : Core) (s : State) : State :=
  let a := getS c (bits f 53 49)
  let b := getS c (bits f 48 44)
  if op = .undefinedOp ∨ bits f 39 13 ≠ 0 then coreFault n .coreIllegalOp 0 0 s
  else
    let target := BitVec.ofNat 13 (bits f 12 0)
    let taken (t : BitVec 13) : State :=
      retireTo n t (traceRec n 0x01 0 (leBytes 2 c.pc.toNat ++ leBytes 2 t.toNat) s)
    match op, condHolds (bits f 43 40) a b with
    | .jump, _ => taken target
    | .jumpReg, _ => taken (a.setWidth 13)
    | _, some true => taken target
    | _, some false => retireTo n (c.pc + 1) s
    | _, none => coreFault n .coreIllegalOp 0 0 s
/-- BRANCH. -/
def execBranch (n : Node) (op : BranchOp) (f : Field) (s : State) : Res := .next (issue n (branchStep n op f) s)

/-- Every reserved bit of a SYSTEM instruction must be 0 (R73). -/
def sysReserved (f : Field) (used : BitVec 54) : Bool := decide (f &&& ~~~used ≠ 0)

/-- Operations still outstanding on the core (R99). -/
def outstanding (c : Core) : Bool := !c.pend.isEmpty || !c.mat.isEmpty || c.ag.any (fun e => e.2.running)

/-- END (R99, R394): waits for every outstanding operation, then closes the window; the core is DONE. -/
def endStep (n : Node) (f : Field) (c : Core) (s : State) : State :=
  if f ≠ 0 then coreFault n .coreIllegalOp 0 0 s
  else if outstanding c then coreWait n .drain s
  else
    let s := sendPace n true (sigClose n s)
    changeCore n (fun c => { c with run := .done, retired := c.retired + 1 }) s
def execEnd (n : Node) (f : Field) (s : State) : Res := .next (issue n (endStep n f) s)

/-- NOP (R72, R73). -/
def nopStep (n : Node) (f : Field) (_ : Core) (s : State) : State :=
  if f ≠ 0 then coreFault n .coreIllegalOp 0 0 s else retire n s
def execNop (n : Node) (f : Field) (s : State) : Res := .next (issue n (nopStep n f) s)

/-- Space codes (R77). -/
def spaceCode : Space → Nat
  | .lcl => 0 | .chamber => 1 | .staging => 2 | .dram => 3 | .host => 4 | .peer => 5

/-- FENCE (R84): waits until every earlier store, PUT and atomic to the spaces of MASK has been acknowledged. -/
def fenceStep (n : Node) (f : Field) (c : Core) (s : State) : State :=
  if sysReserved f 0x3F then coreFault n .coreIllegalOp 0 0 s
  else if c.pend.any (fun p => p.isWrite && f.getLsbD (spaceCode p.space)) then coreWait n .fence s
  else retire n s
def execFence (n : Node) (f : Field) (s : State) : Res := .next (issue n (fenceStep n f) s)

/-- A1MODE (R66, R75): waits for every outstanding operation on A1, changes no entry; A1STATE and AFMT follow. -/
def a1modeStep (n : Node) (f : Field) (c : Core) (s : State) : State :=
  if sysReserved f 0x38000000000000 then coreFault n .coreIllegalOp 0 0 s
  else if c.mat.any (fun m => m.bank || m.feed) then coreWait n .operands s
  else
    let base := c.status &&& ~~~(0xE0000 : W32)
    let st := if bits f 53 53 = 1 then base ||| 0x20000 ||| (BitVec.ofNat 32 (bits f 52 51) <<< 18) else base
    retireWith n { c with status := st } s
def execA1mode (n : Node) (f : Field) (s : State) : Res := .next (issue n (a1modeStep n f) s)

/-- SIGMARK (R392, R394): folds IMM[15:0], then closes the window. -/
def sigmarkStep (n : Node) (f : Field) (c : Core) (s : State) : State :=
  if sysReserved f 0xFFFF then coreFault n .coreIllegalOp 0 0 s
  else
    let d := leBytes 2 (bits f 15 0)
    retire n (sigClose n (setCore n (sigFold (now s) 8 0 0 (enMask 2 []) d c) s))
def execSigmark (n : Node) (f : Field) (s : State) : Res := .next (issue n (sigmarkStep n f) s)

/-- CLRFLAG (R75): clears the status bits named by MASK, once earlier operations that may set one have completed. -/
def clrflagStep (n : Node) (f : Field) (c : Core) (s : State) : State :=
  if sysReserved f 0x1F then coreFault n .coreIllegalOp 0 0 s
  else if ¬c.mat.isEmpty ∨ c.pend.any (fun p => !p.isWrite) then coreWait n .operands s
  else
    let m : W32 := BitVec.ofNat 32 (bits f 4 0)
    let clr := if m.getLsbD 4 then m ||| (0x1FF00 : W32) else m
    retireWith n { c with status := c.status &&& ~~~clr } s
def execClrflag (n : Node) (f : Field) (s : State) : Res := .next (issue n (clrflagStep n f) s)

/-- STATUS (R75): the status word goes into SD. -/
def statusStep (n : Node) (f : Field) (c : Core) (s : State) : State :=
  if sysReserved f 0x3E000000000000 then coreFault n .coreIllegalOp 0 0 s
  else if ¬c.mat.isEmpty ∨ c.pend.any (fun p => !p.isWrite) then coreWait n .operands s
  else retireWith n (setS (bits f 53 49) c.status c) s
def execStatus (n : Node) (f : Field) (s : State) : Res := .next (issue n (statusStep n f) s)

end Sys2Proof.Machine
end

