-- ==== Sys2Proof/Machine/Access.lean ====
section
/-! DEFINITION. SMEM, VMEM and TRANSFER instructions: loads, stores, atomics, GET, PUT, WAITT and LDLOAD (R78–R86, R101, R102). -/

namespace Sys2Proof.Machine

/-- Fields of SMEM (R73). -/
def smemFields (f : Field) : Nat × Nat × Nat × Nat × Bool × Nat :=
  (bits f 53 49, bits f 48 44, bits f 43 40, bits f 39 38, bits f 37 37 = 1, bits f 31 0)

/-- A loaded scalar, extended to a register (R73 SIZE, SX). -/
def loadValue (size : Nat) (sx : Bool) (bs : List Byte) : W32 :=
  let v := leVal bs
  match size with
  | 0 => if sx then BitVec.ofInt 32 (signed 8 v) else BitVec.ofNat 32 v
  | 1 => if sx then BitVec.ofInt 32 (signed 16 v) else BitVec.ofNat 32 v
  | _ => BitVec.ofNat 32 v
/-- Write a load's destination: a register, or for a doubleword the pair. -/
def loadDest (sd size : Nat) (sx : Bool) (bs : List Byte) (c : Core) : Core :=
  if size = 3 then setS2 sd (BitVec.ofNat 64 (leVal bs)) c else setS sd (loadValue size sx bs) c

/-- SMEM load (R78–R83): LOCAL at once; elsewhere an entry is held and the core waits for the reply. -/
def scalarLoadStep (n : Node) (f : Field) (c : Core) (s : State) : State :=
  let (sd, sa, w, size, sx, imm) := smemFields f
  let off := effOff (getS c sa).toNat imm
  let len := 2 ^ size
  if bits f 36 32 ≠ 0 ∨ (size = 3 ∧ sd % 2 = 1) then coreFault n .coreIllegalOp w off s
  else match winOk (getWin c w) (·.r) off len with
    | none => coreFault n .resourceOverflow w off s
    | some win =>
      let a := winAddr win off
      if a.toNat % len ≠ 0 then coreFault n .coreAlign w off s
      else if win.space = .lcl then
        if ¬memClean c (localAddr a) len then coreFault n .coreMemUe w off s
        else retireWith n (loadDest sd size sx (rdN c.mem (localAddr a) len) c) s
      else match accessWait c n win off true s with
        | some why => waitFor n win off why s
        | none => coreWait n (.reply c.nextTag) (sendReq n (.load sd size sx) w off win len [] [] none true s)
def execScalarLoad (n : Node) (f : Field) (s : State) : Res := .next (issue n (scalarLoadStep n f) s)

/-- A store of the core's own, signed in program order (R83, R388, R392, R393): LOCAL at once, elsewhere posted. -/
def storeBytes (n : Node) (kind w off : Nat) (win : Window) (data : List Byte) (en : List Bool) (s : State) : State :=
  let c := getCore s n
  if win.space = .lcl then
    let s := traceData n w off (foldData data en) s
    let c := sigFold (now s) kind w off (enMask data.length en) (foldData data en) (getCore s n)
    retireWith n (if suppressed c w then c else coreWrite (localAddr (winAddr win off)) data en c) s
  else if suppressed c w then
    let s := traceData n w off (foldData data en) s
    retireWith n (sigFold (now s) kind w off (enMask data.length en) (foldData data en) (getCore s n)) s
  else match accessWait c n win off false s with
    | some why => waitFor n win off why s
    | none =>
      let s := traceData n w off (foldData data en) s
      let s := setCore n (sigFold (now s) kind w off (enMask data.length en) (foldData data en) (getCore s n)) s
      retire n (sendReq n .store w off win data.length data en none false s)

/-- SMEM store (R78, R79, R82). -/
def scalarStoreStep (n : Node) (f : Field) (c : Core) (s : State) : State :=
  let (sd, sa, w, size, _, imm) := smemFields f
  let off := effOff (getS c sa).toNat imm
  let len := 2 ^ size
  if bits f 36 32 ≠ 0 ∨ (size = 3 ∧ sd % 2 = 1) then coreFault n .coreIllegalOp w off s
  else match winOk (getWin c w) (·.w) off len with
    | none => coreFault n .resourceOverflow w off s
    | some win =>
      if (winAddr win off).toNat % len ≠ 0 then coreFault n .coreAlign w off s
      else
        let v := if size = 3 then (getS2 c sd).toNat else (getS c sd).toNat
        storeBytes n 1 w off win (leBytes len v) [] s
def execScalarStore (n : Node) (f : Field) (s : State) : Res := .next (issue n (scalarStoreStep n f) s)

/-- An atomic is defined on CHAMBER, STAGING, DRAM and HOST windows (R85). -/
def atomicSpace (sp : Space) : Bool := match sp with | .chamber | .staging | .dram | .host => true | _ => false

/-- The shared course of both atomics (R85, R388): operand registers as bytes, folded; a SUPPRESS window returns 0. -/
def atomicStep (n : Node) (op : AtomicOp) (f : Field) (regs : Nat → List Byte) (align4 : Bool) (c : Core) (s : State) : State :=
  let (sd, sa, w, size, _, imm) := smemFields f
  let off := effOff (getS c sa).toNat imm
  let len := 2 ^ size
  let badReg := size = 3 ∧ (if align4 then sd % 4 ≠ 0 else sd % 2 = 1)
  if bits f 36 32 ≠ 0 ∨ size < 2 ∨ badReg then coreFault n .coreIllegalOp w off s
  else if (match getWin c w with | some x => !atomicSpace x.space | none => false) then coreFault n .coreIllegalOp w off s
  else match winOk (getWin c w) (·.a) off len with
    | none => coreFault n .resourceOverflow w off s
    | some win =>
      if (winAddr win off).toNat % len ≠ 0 then coreFault n .coreAlign w off s
      else
        let data := regs sd
        let fold (c : Core) : Core := sigFold (now s) 5 w off (enMask data.length []) data c
        if suppressed c w then retireWith n (loadDest sd size false (List.replicate len 0) (fold c)) s
        else match accessWait c n win off true s with
          | some why => waitFor n win off why s
          | none =>
            coreWait n (.reply c.nextTag) (sendReq n (.atomic sd size) w off win len data [] (some op) false (setCore n (fold c) s))

/-- Fetch-add (R85): adds SD, or the pair at SD. -/
def execFetchAdd (n : Node) (f : Field) (s : State) : Res :=
  .next (issue n (fun c => atomicStep n .fetchAdd f (fun sd =>
    if bits f 39 38 = 3 then leBytes 8 (getS2 c sd).toNat else leBytes 4 (getS c sd).toNat) false c) s)
/-- Compare-and-swap (R85): compare operand, then the new value. -/
def execCompareAndSwap (n : Node) (f : Field) (s : State) : Res :=
  .next (issue n (fun c => atomicStep n .cas f (fun sd =>
    if bits f 39 38 = 3 then leBytes 8 (getS2 c sd).toNat ++ leBytes 8 (getS2 c (sd + 2)).toNat
    else leBytes 4 (getS c sd).toNat ++ leBytes 4 (getS c (sd + 1)).toNat) true c) s)

/-- The bytes of a vector register, lane by lane. -/
def vecBytes (c : Core) (vd : Nat) : List Byte := (List.range 64).flatMap (fun l => leBytes 4 (getV c vd l).toNat)
/-- Lane l of 256 bytes. -/
def laneOf (bs : List Byte) (l : Nat) : W32 := BitVec.ofNat 32 (fld bs (4 * l) 4)
/-- Write the enabled lanes of a vector register from bytes. -/
def vloadDest (vd : Nat) (pred : BitVec 64) (bs : List Byte) (c : Core) : Core :=
  setV vd (fun l => if pred.getLsbD l then laneOf bs l else getV c vd l) c
/-- Byte enables of the enabled lanes (R78). -/
def laneEn (pred : BitVec 64) : List Bool := (List.range 256).map (fun b => pred.getLsbD (b / 4))
/-- One past the last enabled lane's last byte (R78). -/
def enSpan (pred : BitVec 64) : Nat := (List.range 64).foldl (fun m l => if pred.getLsbD l then 4 * l + 4 else m) 0

/-- VMEM load (R79, R82): 256 bytes, aligned to 64. -/
def vectorLoadStep (n : Node) (f : Field) (c : Core) (s : State) : State :=
  let w := bits f 43 40
  let off := effOff (getS c (bits f 48 44)).toNat (bits f 31 0)
  match (if bits f 35 32 ≠ 0 then none else predOf c (bits f 39 36)) with
  | none => coreFault n .coreIllegalOp w off s
  | some pred =>
    match winOk (getWin c w) (·.r) off 256 with
    | none => coreFault n .resourceOverflow w off s
    | some win =>
      let a := winAddr win off
      if a.toNat % 64 ≠ 0 then coreFault n .coreAlign w off s
      else if win.space = .lcl then
        if ¬memClean c (localAddr a) 256 then coreFault n .coreMemUe w off s
        else retireWith n (vloadDest (bits f 53 49) pred (rdN c.mem (localAddr a) 256) c) s
      else match accessWait c n win off true s with
        | some why => waitFor n win off why s
        | none => coreWait n (.reply c.nextTag) (sendReq n (.vload (bits f 53 49) pred) w off win 256 [] [] none true s)
def execVectorLoad (n : Node) (f : Field) (s : State) : Res := .next (issue n (vectorLoadStep n f) s)

/-- VMEM store (R78, R79): only the enabled lanes' bytes are checked and written. -/
def vectorStoreStep (n : Node) (f : Field) (c : Core) (s : State) : State :=
  let w := bits f 43 40
  let off := effOff (getS c (bits f 48 44)).toNat (bits f 31 0)
  match (if bits f 35 32 ≠ 0 then none else predOf c (bits f 39 36)) with
  | none => coreFault n .coreIllegalOp w off s
  | some pred =>
    match winOk (getWin c w) (·.w) off (enSpan pred) with
    | none => coreFault n .resourceOverflow w off s
    | some win =>
      if (winAddr win off).toNat % 64 ≠ 0 then coreFault n .coreAlign w off s
      else storeBytes n 2 w off win (vecBytes c (bits f 53 49)) (if pred = BitVec.allOnes 64 then [] else laneEn pred) s
def execVectorStore (n : Node) (f : Field) (s : State) : Res := .next (issue n (vectorStoreStep n f) s)

/-- What GET and PUT do not allow (R73, R82): a nonzero reserved field, a length outside 1 to 4096, a local window that is not
LOCAL or a remote one that is. MASK is WAITT's alone. -/
def xferBad (c : Core) (f : Field) : Bool :=
  let len := bits f 31 19
  decide (bits f 18 16 ≠ 0) || decide (len = 0) || decide (4096 < len)
    || (match getWin c (bits f 39 36) with | some x => decide (x.space ≠ .lcl) | none => false)
    || (match getWin c (bits f 43 40) with | some x => decide (x.space = .lcl) | none => false)

/-- GET (R82): one request under the tag group; the data lands in the LOCAL window. -/
def getStep (n : Node) (f : Field) (c : Core) (s : State) : State :=
  let rw := bits f 43 40
  let lw := bits f 39 36
  let ro := (getS c (bits f 53 49)).toNat
  let lo := (getS c (bits f 48 44)).toNat
  let len := bits f 31 19
  if xferBad c f then coreFault n .coreIllegalOp rw ro s
  else match winOk (getWin c rw) (·.r) ro len, winOk (getWin c lw) (·.w) lo len with
    | some win, some l =>
      match accessWait c n win ro true s with
      | some why => waitFor n win ro why s
      | none => retire n (sendReq n (.get (bits f 35 32) (localAddr (winAddr l lo)) len) rw ro win len [] [] none true s)
    | none, _ => coreFault n .resourceOverflow rw ro s
    | _, none => coreFault n .resourceOverflow lw lo s
def execGet (n : Node) (f : Field) (s : State) : Res := .next (issue n (getStep n f) s)

/-- PUT (R82): posted under the tag group, signed as kind 4. -/
def putStep (n : Node) (f : Field) (c : Core) (s : State) : State :=
  let rw := bits f 43 40
  let lw := bits f 39 36
  let ro := (getS c (bits f 53 49)).toNat
  let lo := (getS c (bits f 48 44)).toNat
  let len := bits f 31 19
  if xferBad c f then coreFault n .coreIllegalOp rw ro s
  else match winOk (getWin c rw) (·.w) ro len, winOk (getWin c lw) (·.r) lo len with
    | some win, some l =>
      let la := localAddr (winAddr l lo)
      if ¬memClean c la len then coreFault n .coreMemUe lw lo s
      else
        let data := rdN c.mem la len
        let fold (s : State) : State :=
          let s := traceData n rw ro data s
          setCore n (sigFold (now s) 4 rw ro (enMask len []) data (getCore s n)) s
        if suppressed c rw then retire n (fold s)
        else match accessWait c n win ro false s with
          | some why => waitFor n win ro why s
          | none => retire n (sendReq n (.put (bits f 35 32)) rw ro win len data [] none false (fold s))
    | none, _ => coreFault n .resourceOverflow rw ro s
    | _, none => coreFault n .resourceOverflow lw lo s
def execPut (n : Node) (f : Field) (s : State) : Res := .next (issue n (putStep n f) s)

/-- The tag group of a transfer (R82). -/
def Pend.group (p : Pend) : Option Nat := match p.kind with | .put g => some g | .get g _ _ => some g | _ => none
/-- WAITT (R82): waits until every transfer of the groups in MASK has completed. -/
def waittStep (n : Node) (f : Field) (c : Core) (s : State) : State :=
  if bits f 18 16 ≠ 0 then coreFault n .coreIllegalOp 0 0 s
  else if c.pend.any (fun p => match p.group with | some g => f.getLsbD g | none => false) then coreWait n .groups s
  else retire n s
def execWaitt (n : Node) (f : Field) (s : State) : Res := .next (issue n (waittStep n f) s)

/-- LDLOAD (R101, R102): 64 bytes from a window into a slot pair. -/
def ldloadStep (n : Node) (f : Field) (c : Core) (s : State) : State :=
  let slot := bits f 51 48
  let w := bits f 47 44
  let off := effOff (getS c (bits f 43 39)).toNat (bits f 31 0)
  if bits f 38 32 ≠ 0 ∨ slot % 2 = 1 ∨ bits f 53 52 = 3 then coreFault n .coreIllegalOp w off s
  else match winOk (getWin c w) (·.r) off 64 with
    | none => coreFault n .resourceOverflow w off s
    | some win =>
      let a := winAddr win off
      if off % 64 ≠ 0 then coreFault n .coreAlign w off s
      else if win.space = .lcl then
        if ¬memClean c (localAddr a) 64 then coreFault n .coreMemUe w off s
        else
          let bs := rdN c.mem (localAddr a) 64
          retireWith n { c with ld := putsK 0 c.ld (8 * slot) ((List.range 16).map (fun i => BitVec.ofNat 32 (fld bs (4 * i) 4))) } s
      else match accessWait c n win off true s with
        | some why => waitFor n win off why s
        | none => coreWait n (.reply c.nextTag) (sendReq n (.ld slot) w off win 64 [] [] none true s)
def execLdload (n : Node) (f : Field) (s : State) : Res := .next (issue n (ldloadStep n f) s)

end Sys2Proof.Machine
end

