-- ==== Sys2Proof/Machine/Array.lean ====
section
/-! DEFINITION. The matrix array and the address generators (R61–R66, R101–R114, R140–R142). -/

namespace Sys2Proof.Machine

/-- An operand pairing the array supports (R61, codes of R74). -/
def pairingOk (a b : Nat) : Bool :=
  match a, b with
  | 0, 0 | 0, 1 | 1, 1 | 4, 4 => true
  | 2, 2 | 2, 3 | 3, 2 | 3, 3 => true
  | _, _ => false
/-- The accumulators of the pairing are FP32 (R61). -/
def pairingFp (a : Nat) : Bool := decide (2 ≤ a)
/-- The latched ACC and LSZ codes a format needs (R111). -/
def fmtAcc (fmt : Nat) : Nat × Nat := match fmt with | 1 => (0, 0) | 4 => (2, 2) | _ => (1, 1)
/-- A matrix operand's value (R74 FMTA, FMTB). -/
def matNum (fmt w : Nat) : Num :=
  match fmt with
  | 0 => ofInt (signed 8 (w % 256))
  | 1 => ofInt (signed 4 (w % 16))
  | 2 => decodeFp e4m3 (w % 256)
  | 3 => decodeFp e5m2 (w % 256)
  | _ => decodeFp bf16 (w % 65536)
/-- A matrix operand's integer. -/
def matInt (fmt w : Nat) : Int := if fmt = 1 then signed 4 (w % 16) else signed 8 (w % 256)

/-- One accumulation (R62, R63): saturating INT32, or FP32 product then sum; and whether it saturated. -/
def accum (fa fb : Nat) (acc a b : W32) : W32 × Bool :=
  if pairingFp fa then
    (BitVec.ofNat 32 (fpAdd fp32 acc.toNat (encodeFp fp32 (mulNum (matNum fa a.toNat) (matNum fb b.toNat)))), false)
  else
    let r := satInt 32 (acc.toInt + matInt fa a.toNat * matInt fb b.toNat)
    (BitVec.ofInt 32 r.1, r.2)

/-- One depth step into a bank (R61–R63): a 32-element column of A by a 32-element row of B. -/
def depthStep (m : MatOp) (a b : List W32) (c : Core) : Core :=
  let old (k : Nat) : W32 := if m.clr then 0 else getK 0 (if m.bank then c.a1 else c.a0) k
  let res (k : Nat) : W32 × Bool := accum m.fmtA m.fmtB (old k) (a.getD (k / 32) 0) (b.getD (k % 32) 0)
  let c := if (List.range 1024).any (fun k => (res k).2) then setStatus (if m.bank then 1 else 0) c else c
  let c := setBank m.bank (fun k => (res k).1) c
  if m.bank then { c with fp1 := pairingFp m.fmtA } else { c with fp0 := pairingFp m.fmtA }

/-- AG0 delivers no further operand. -/
def agDry (g : AddrGen) : Bool := g.out.isEmpty && g.late.isEmpty && (g.exhausted || !g.running)

/-- Run one step of the oldest MATRIX operation, or end it; `none` when it must wait for an operand (R65). -/
def matAdvance (c : Core) : Option Core :=
  match c.mat with
  | [] => none
  | m :: ms =>
    let g0 := getAg c 0
    let g1 := getAg c 1
    let fin (c : Core) : Core := { (if m.clr then setBank m.bank (fun _ => 0) c else c) with mat := ms }
    if m.left = some 0 ∨ (m.left = none ∧ agDry g0) then some (fin c)
    else
      match g0.out, (if m.feed then some ((List.range 32).map (fun l => getA c true m.done l)) else g1.out.head?) with
      | a :: as, some b =>
        let c := setAg 0 { g0 with out := as } c
        let c := if m.feed then c else setAg 1 { g1 with out := g1.out.tail } c
        let m' := { m with left := m.left.map (· - 1), done := m.done + 1, clr := false }
        some { depthStep m a b c with mat := m' :: ms }
      | _, _ => none

/-- Run the array while operands are there: at most `fuel` advances. -/
def matDrain : Nat → Core → Core
  | 0, c => c
  | k + 1, c => match matAdvance c with | some c' => matDrain k c' | none => c
/-- Advances that can be made: one per operand held and one per operation. -/
def drainMat (c : Core) : Core := matDrain ((getAg c 0).out.length + c.mat.length + 1) c

/-- MATRIX (R61, R66, R73, R111, R140, R141): checked at issue, then handed to the array. -/
def matrixStep (n : Node) (f : Field) (c : Core) (s : State) : State :=
  let bank := f.getLsbD 53
  let fa := bits f 51 49
  let fb := bits f 48 46
  let feed := f.getLsbD 45
  let count := bits f 15 0
  let st := c.status.getLsbD 17
  let af := c.status.toNat / 2 ^ 18 % 4
  let geom (k fmt : Nat) : Bool :=
    let w9 := ((getAg c k).desc.getD 9 0).toNat
    !(getAg c k).desc.isEmpty && decide ((w9 / 2 ^ 22 % 4, w9 / 2 ^ 24 % 4) = fmtAcc fmt)
  if bits f 44 16 ≠ 0 ∨ (feed ∧ (count = 0 ∨ 32 < count)) then coreFault n .coreIllegalOp 0 0 s
  else if ¬pairingOk fa fb ∨ (st ∧ bank) ∨ (feed ∧ ¬(st ∧ ((af = 3 ∧ fa = 0 ∧ fb = 0) ∨ (af = 1 ∧ fa = 4 ∧ fb = 4))))
      ∨ ¬geom 0 fa ∨ (¬feed ∧ ¬geom 1 fb) then coreFault n .coreIllegalFormat 0 0 s
  else
    let m : MatOp := { bank, fmtA := fa, fmtB := fb, feed, clr := f.getLsbD 52,
                       left := if count = 0 then none else some count, pc := c.pc }
    retireWith n (drainMat { c with mat := c.mat ++ [m] }) s
def execMatrix (n : Node) (f : Field) (s : State) : Res := .next (issue n (matrixStep n f) s)

/-- BIND (R102). -/
def bindStep (n : Node) (f : Field) (c : Core) (s : State) : State :=
  let k := bits f 53 52
  let slot := bits f 51 48
  if bits f 38 32 ≠ 0 ∨ slot % 2 = 1 ∨ k = 3 then coreFault n .coreIllegalOp (bits f 47 44) 0 s
  else
    let g := getAg c k
    retireWith n (setAg k { g with slot, win := bits f 47 44, base := effOff (getS c (bits f 43 39)).toNat (bits f 31 0) } c) s
def execBind (n : Node) (f : Field) (s : State) : Res := .next (issue n (bindStep n f) s)

/-- Word w of a latched descriptor (R103). -/
def dw (d : List W32) (w : Nat) : Nat := (d.getD w 0).toNat
/-- Bits [hi:lo] of a descriptor word. -/
def db (d : List W32) (w hi lo : Nat) : Nat := dw d w / 2 ^ lo % 2 ^ (hi + 1 - lo)
/-- BOUND_l + 1 (R103). -/
def dBound (d : List W32) (l : Nat) : Nat := dw d (l / 2) / 2 ^ (16 * (l % 2)) % 65536 + 1
/-- STRIDE_l (R103). -/
def dStride (d : List W32) (l : Nat) : Int := signed 32 (dw d (3 + l))
/-- The level at nesting position p (R103 ORDER). -/
def dOrder (d : List W32) (p : Nat) : Nat := db d 9 (3 * p + 2) (3 * p)
/-- Bytes per access and bits per lane (R103 ACC, LSZ). -/
def dAcc (d : List W32) : Nat := 16 * 2 ^ db d 9 23 22
def dLane (d : List W32) : Nat := 4 * 2 ^ db d 9 25 24
/-- Lanes of an access (R104). -/
def dLanes (d : List W32) : Nat := dAcc d * 8 / dLane d

/-- The checks of START (R110). -/
def descBad (k : Nat) (d : List W32) : Bool :=
  let win := db d 9 19 18 = 1
  let lv := [db d 12 2 0, db d 12 5 3, db d 12 8 6, db d 12 11 9]
  let order := (List.range 6).map (dOrder d)
  let mm := db d 9 21 20
  decide (db d 9 31 30 ≠ 0) || decide (db d 12 31 18 ≠ 0) || decide (dw d 15 ≠ 0)
    || decide (2 ≤ db d 9 19 18) || decide (mm = 3) || decide (db d 9 23 22 = 3)
    || decide (db d 12 14 12 = 6) || decide (db d 12 17 15 = 6)
    || !((List.range 6).all (fun l => order.contains l))
    || (win && (decide (k = 2) || !lv.Nodup || lv.any (fun l => decide (6 ≤ l))
        || decide (db d 11 19 16 = 0) || decide (db d 11 23 20 = 0) || decide (db d 11 27 24 = 0) || decide (db d 11 31 28 = 0)
        || decide (dStride d (lv.getD 2 0) ≠ 0) || decide (dStride d (lv.getD 3 0) ≠ 0)))
    || (decide (mm ≠ 0) && decide (32 < dLanes d))
    || (decide (k = 2) && decide (mm ≠ 0) && decide (32 < dBound d 0))

/-- START (R102, R110): held while the previous run has not ended; latches, checks, starts. -/
def agenStartStep (n : Node) (f : Field) (c : Core) (s : State) : State :=
  let k := bits f 53 52
  if bits f 38 32 ≠ 0 ∨ bits f 51 48 % 2 = 1 ∨ k = 3 then coreFault n .coreIllegalOp 0 0 s
  else
    let g := getAg c k
    if g.running then coreWait n (.agen k) s
    else
      let d := (List.range 16).map (fun i => getK 0 c.ld (8 * g.slot + i))
      if descBad k d then coreFault n .agBadDescriptor g.win g.base s
      else
        let s := traceRec n 0x06 4 (leBytes 1 k ++ leBytes 1 g.slot ++ [0, 0] ++ leBytes 2 c.pc.toNat) s
        retireWith n (setAg k { g with running := true, desc := d, pos := [0, 0, 0, 0, 0, 0], exhausted := false,
                                       startPc := c.pc, maskN := 0, rowMask := 0, colMask := 0, out := [], late := [] } (getCore s n)) s
def execAgenStart (n : Node) (f : Field) (s : State) : Res := .next (issue n (agenStartStep n f) s)

/-- AGEN WAIT (R102): waits until the generator's run has ended. -/
def agenWaitStep (n : Node) (f : Field) (c : Core) (s : State) : State :=
  let k := bits f 53 52
  if bits f 38 32 ≠ 0 ∨ bits f 51 48 % 2 = 1 ∨ k = 3 then coreFault n .coreIllegalOp 0 0 s
  else if (getAg c k).running then coreWait n (.agen k) s else retire n s
def execAgenWait (n : Node) (f : Field) (s : State) : Res := .next (issue n (agenWaitStep n f) s)

/-- The iteration indices after a visit (R104): position 0 changes fastest; `true` when every combination is visited. -/
def nextPos (d : List W32) (pos : List Nat) : Nat → List Nat × Bool
  | 0 => (pos, true)
  | k + 1 =>
    let p := 5 - k
    let l := dOrder d p
    let t := pos.getD l 0
    if t + 1 < dBound d l then (pos.set l (t + 1), false) else nextPos d (pos.set l 0) k

/-- The visit's signed offset and whether the whole access is padding (R104, R105). -/
def visitOff (g : AddrGen) : Int × Bool :=
  let d := g.desc
  let t (l : Nat) : Int := g.pos.getD l 0
  let sum (skip : List Nat) : Int := (List.range 6).foldl (fun a l => if skip.contains l then a else a + t l * dStride d l) 0
  if db d 9 19 18 = 1 then
    let oy := db d 12 2 0
    let ox := db d 12 5 3
    let ky := db d 12 8 6
    let kx := db d 12 11 9
    let y := t oy * db d 11 19 16 + t ky * db d 11 27 24 - db d 11 7 0
    let x := t ox * db d 11 23 20 + t kx * db d 11 31 28 - db d 11 15 8
    let pad := decide (y < 0) || decide ((db d 10 15 0 : Int) ≤ y) || decide (x < 0) || decide ((db d 10 31 16 : Int) ≤ x)
    ((g.base : Int) + y * dStride d oy + x * dStride d ox + sum [oy, ox, ky, kx], pad)
  else ((g.base : Int) + sum [], false)

/-- An automatic mask (R106): bit i is 1 when T × 32 + i lies below the extent; all ones for level 7. -/
def autoMask (level ext : Nat) (pos : List Nat) : W32 :=
  if level = 7 then BitVec.allOnes 32
  else BitVec.ofNat 32 (bitsToNat ((List.range 32).map (fun i => decide (pos.getD level 0 * 32 + i < ext))))

/-- The index of the explicit mask word of a visit (R107): one per iteration of MROW_LV, in run order. -/
def maskDue (g : AddrGen) : Bool :=
  let lv := db g.desc 12 14 12
  if lv = 7 then decide (g.maskN = 0)
  else
    let posOf := ((List.range 6).find? (fun p => dOrder g.desc p = lv)).getD 0
    (List.range 6).all (fun p => decide (posOf ≤ p) || decide (g.pos.getD (dOrder g.desc p) 0 = 0))

/-- The row and column masks of the visit (R106, R107), reading the explicit word where one is due. -/
def visitMasks (c : Core) (g : AddrGen) : Option (AddrGen × W32 × W32) :=
  let d := g.desc
  match db d 9 21 20 with
  | 0 => some (g, BitVec.allOnes 32, BitVec.allOnes 32)
  | 1 => some (g, autoMask (db d 12 14 12) (db d 13 15 0) g.pos, autoMask (db d 12 17 15) (db d 13 31 16) g.pos)
  | _ =>
    if maskDue g then
      let off := dw d 14 + 8 * g.maskN
      match winOk (getWin c (db d 9 29 26)) (fun w => w.r && decide (w.space = .lcl)) off 8 with
      | none => none
      | some w =>
        let bs := rdN c.mem (localAddr (winAddr w off)) 8
        let r := BitVec.ofNat 32 (fld bs 0 4)
        let q := BitVec.ofNat 32 (fld bs 4 4)
        some ({ g with rowMask := r, colMask := q, maskN := g.maskN + 1 }, r, q)
    else some (g, g.rowMask, g.colMask)

/-- The explicit mask word that a visit reads lies in a poisoned word of core memory (R60, R107). -/
def maskPoisoned (c : Core) (g : AddrGen) : Bool :=
  decide (db g.desc 9 21 20 = 2) && maskDue g &&
    (match getWin c (db g.desc 9 29 26) with
     | some w => !memClean c (localAddr (winAddr w (dw g.desc 14 + 8 * g.maskN))) 8
     | none => false)

/-- The lanes a visit touches (R108, R109). -/
def visitLanes (k : Nat) (g : AddrGen) (row col : W32) (pad : Bool) : List Bool :=
  let masked := decide (db g.desc 9 21 20 ≠ 0)
  (List.range (dLanes g.desc)).map (fun i =>
    !pad && (!masked || (match k with
      | 0 => row.getLsbD i
      | 1 => col.getLsbD i
      | _ => row.getLsbD (g.pos.getD 0 0) && col.getLsbD i)))

/-- Bytes of an access that its enabled lanes touch. -/
def laneBytes (laneBits : Nat) (lanes : List Bool) (acc : Nat) : List Bool :=
  (List.range acc).map (fun b =>
    if laneBits = 4 then lanes.getD (2 * b) false || lanes.getD (2 * b + 1) false
    else lanes.getD (b * 8 / laneBits) false)

/-- Every enabled byte lies inside the window (R112). -/
def bytesOk (off : Int) (en : List Bool) (len : Nat) : Bool :=
  (List.range en.length).all (fun b => !(en.getD b false) || (decide (0 ≤ off) && decide (off + b < len)))

/-- The lanes of an access's bytes, masked lanes 0 (R109). -/
def lanesOf (laneBits : Nat) (bs : List Byte) (lanes : List Bool) : List W32 :=
  (List.range lanes.length).map (fun i =>
    if lanes.getD i false then
      if laneBits = 4 then BitVec.ofNat 32 ((bs.getD (i / 2) 0).toNat / 16 ^ (i % 2) % 16)
      else BitVec.ofNat 32 (fld bs (i * laneBits / 8) (laneBits / 8))
    else 0)

/-- A generator fault (R113): the access does nothing, the core stops, and the record names the visit. -/
def agFault (n k : Nat) (src : Source) (g : AddrGen) (off : Int) (row col : W32) (s : State) : State :=
  let node := BitVec.ofNat 10 n
  let c := getCore s node
  coreFaultRec node src { pcFault := g.startPc, pcLast := c.pc - 1, index := g.win, off := off.toNat, node := node,
                          ag := some (k, g.pos, row, col) } s

/-- Deliver the operands that have arrived, in visit order (R104). -/
def agFlush (g : AddrGen) : AddrGen :=
  let ready := g.late.takeWhile (fun e => e.2.isSome)
  { g with out := g.out ++ ready.filterMap (·.2), late := g.late.drop ready.length }

/-- A generator's access that cannot be issued yet (R80, R82, R83): the visit stays to be made, and a slot fault is taken. -/
def agStall (n : Node) (w : Window) (off : Nat) (why : WaitOn) (s : State) : State :=
  match why with
  | .slotFault h => slotFault (.object h (pageOf s h (winAddr w off)) (some (n.toNat / 128))) s
  | _ => s

/-- A generator visit (R104–R109, R112): `data` is what AG2's lanes write (the command carries it; log entry 18). -/
def agVisit (n : Node) (k : Nat) (data : List Byte) (s : State) : State :=
  let s0 := s
  let c := getCore s n
  let g0 := getAg c k
  if ¬g0.running ∨ g0.exhausted then s
  else
    let v := visitOff g0
    match visitMasks c g0 with
    | none => agFault n.toNat k .resourceOverflow g0 v.1 0 0 s
    | some (g, row, col) =>
      if maskPoisoned c g0 then agFault n.toNat k .coreMemUe g0 v.1 0 0 s else
      let lanes := visitLanes k g row col v.2
      let acc := dAcc g.desc
      let en := laneBytes (dLane g.desc) lanes acc
      let p := nextPos g.desc g.pos 6
      let g' := { g with pos := p.1, exhausted := p.2 }
      if lanes.all (!·) then
        let g' := if k < 2 then agFlush { g' with late := g'.late ++ [(0, some (lanes.map (fun _ => 0)))] } else g'
        setCore n (drainMat (setAg k g' c)) s
      else
        match getWin c g.win with
        | none => agFault n.toNat k .resourceOverflow g v.1 row col s
        | some w =>
          if ¬(if k < 2 then w.r else w.w) ∨ ¬bytesOk v.1 en w.length then agFault n.toNat k .resourceOverflow g v.1 row col s
          else
            let off := v.1.toNat
            let a := winAddr w off
            if 8 ≤ dLane g.desc ∧ a.toNat % (dLane g.desc / 8) ≠ 0 then agFault n.toNat k .coreAlign g v.1 row col s
            else if k < 2 then
              if w.space = .lcl then
                if ¬memCleanEn c (localAddr a) en then agFault n.toNat k .coreMemUe g v.1 row col s
                else
                  let d := lanesOf (dLane g.desc) (rdN c.mem (localAddr a) acc) lanes
                  setCore n (drainMat (setAg k (agFlush { g' with late := g'.late ++ [(0, some d)] }) c)) s
              else match accessWait c n w off true s with
              | some why => agStall n w off why s0
              | none =>
                let g' := { g' with late := g'.late ++ [(c.nextTag, none)] }
                sendReq n (.ag k lanes) g.win off w acc [] [] none true (setCore n (setAg k g' c) s)
            else
              let bs := sub data 0 acc
              let s := traceData n g.win off (foldData bs en) s
              let c' := sigFold (now s) 3 g.win off (enMask acc en) (foldData bs en) (setAg k g' (getCore s n))
              if suppressed c g.win then setCore n c' s
              else if w.space = .lcl then setCore n (coreWrite (localAddr a) bs en c') s
              else match accessWait c n w off false s with
              | some why => agStall n w off why s0
              | none => sendReq n .store g.win off w acc bs en none false (setCore n c' s)
/-- AG_ACCESS. -/
def execAgAccess (n : Node) (k : Nat) (data : List Byte) (s : State) : Res := .next (agVisit n k data s)

/-- AG_RUN_END (R104): the run ends after its last visit; a MATRIX that runs to the end of AG0's descriptor may end too. -/
def agRunEnd (n : Node) (k : Nat) (s : State) : State :=
  let c := getCore s n
  let g := getAg c k
  if g.running ∧ g.exhausted ∧ g.late.isEmpty then
    let s := traceRec n 0x06 4 (leBytes 1 k ++ leBytes 1 g.slot ++ [1, 0] ++ leBytes 2 g.startPc.toNat) s
    setCore n (drainMat (setAg k { g with running := false } (getCore s n))) s
  else s
def execAgRunEnd (n : Node) (k : Nat) (s : State) : Res := .next (agRunEnd n k s)

end Sys2Proof.Machine
end

