-- ==== Sys2Proof/Machine/Message.lean ====
section
/-! DEFINITION. MESSAGE instructions and TRACEMARK: SEND, SENDS, RECV, RELEASE, POLL (R39, R89–R91, R97, R392, R502). -/

namespace Sys2Proof.Machine

/-- The route by which a sender reaches a channel (R87: at most one). -/
def routeTo (s : State) (src dst : Node) (chan : Nat) : Nat :=
  ((List.range 32).find? (fun r => match getRoute (getCore s src) r with
    | some x => decide (x.node = dst) && decide (x.chan.toNat = chan)
    | none => false)).getD 0

/-- Return a message's credit to its source (R39): dispatch firmware holds the credits of frame-start channels (R100). -/
def returnCredit (src dst : Node) (chan : Nat) (s : State) : State :=
  if src = 0x200 then { s with loop := { s.loop with held := s.loop.held.erase dst } }
  else emitFab (.credit src (routeTo s src dst chan)) s

/-- Send a DATA message on a route that holds a credit (R39, R89), traced (R502). -/
def sendData (n : Node) (r : Nat) (x : Route) (data : List Byte) (poison : Bool) (s : State) : State :=
  let s := updCore n (setRoute r { x with credits := x.credits - 1 }) s
  let s := traceRec n 0x02 1 (leBytes 1 r ++ leBytes 1 x.chan.toNat ++ leBytes 2 data.length ++ leBytes 2 x.node.toNat) s
  emitFab (.data { src := n, dst := x.node, chan := x.chan, poison, data }) s

/-- The route index of a SEND (R89). -/
def sendRoute (c : Core) (f : Field) : Nat := if f.getLsbD 48 then (getS c (bits f 42 38)).toNat % 32 else bits f 53 49

/-- SEND (R89, R97). -/
def sendStep (n : Node) (f : Field) (c : Core) (s : State) : State :=
  let r := sendRoute c f
  let w := bits f 37 34
  let len := bits f 25 13
  let off := effOff (getS c (bits f 47 43)).toNat (bits f 12 0)
  let bad := decide (len = 0) || decide (4096 < len)
    || (match getWin c w with | some x => decide (x.space ≠ .lcl) | none => false)
  if bad then coreFault n .coreIllegalOp w off s
  else match getRoute c r with
    | none => coreFault n .coreRouteUndeclared r 0 s
    | some x =>
      match winOk (getWin c w) (·.r) off len with
      | none => coreFault n .resourceOverflow w off s
      | some win =>
        if x.credits = 0 then coreWait n (.credit r) s
        else
          let a := localAddr (winAddr win off)
          let data := rdN c.mem a len
          let s1 := setCore n (sigFold (now s) 6 r 0 (enMask len []) data c) s
          if memClean c a len then retire n (sendData n r x data false s1)
          else coreFault n .coreMemUe w off (sendData n r x data true s1)
/-- SEND. -/
def execSend (n : Node) (f : Field) (s : State) : Res := .next (issue n (sendStep n f) s)

/-- SENDS (R89): LEN bytes from the registers at SA, lowest register first. -/
def sendsStep (n : Node) (f : Field) (c : Core) (s : State) : State :=
  let r := sendRoute c f
  let len := bits f 25 13
  let sa := bits f 47 43
  if len < 4 ∨ 32 < len ∨ len % 4 ≠ 0 then coreFault n .coreIllegalOp r 0 s
  else match getRoute c r with
    | none => coreFault n .coreRouteUndeclared r 0 s
    | some x =>
      if x.credits = 0 then coreWait n (.credit r) s
      else
        let data := (List.range (len / 4)).flatMap (fun k => leBytes 4 (getS c (sa + k)).toNat)
        retire n (sendData n r x data false (setCore n (sigFold (now s) 7 r 0 (enMask len []) data c) s))
/-- SENDS. -/
def execSends (n : Node) (f : Field) (s : State) : Res := .next (issue n (sendsStep n f) s)

/-- The first unreceived message of a channel marked received (R90). -/
def markReceived : List HeldMsg → List HeldMsg
  | [] => []
  | m :: ms => if m.received then m :: markReceived ms else { m with received := true } :: ms

/-- RECV (R90, R97): the slot's offset into SD, source and length into SD+1. -/
def recvStep (n : Node) (f : Field) (c : Core) (s : State) : State :=
  let k := bits f 33 31
  let sd := bits f 30 26
  if sd % 2 = 1 then coreFault n .coreIllegalOp 0 0 s
  else match getChan c k with
    | none => coreWait n (.recv k) s
    | some ch =>
      match ch.msgs.find? (fun m => !m.received) with
      | none => coreWait n (.recv k) s
      | some m =>
        let v1 : W32 := BitVec.ofNat 32 (m.src.toNat * 65536 + m.len)
        let c1 := setS (sd + 1) v1 (setS sd (BitVec.ofNat 32 (ch.base + m.slot * ch.slotSize)) c)
        let c2 := setChan k { ch with msgs := markReceived ch.msgs } (if m.poison then setStatus 2 c1 else c1)
        let s := setCore n c2 s
        retire n (traceRec n 0x03 1 (leBytes 1 k ++ [0] ++ leBytes 2 m.len ++ leBytes 2 m.src.toNat) s)
/-- RECV. -/
def execRecv (n : Node) (f : Field) (s : State) : Res := .next (issue n (recvStep n f) s)

/-- RELEASE (R90): frees the oldest received slot and returns its credit. -/
def releaseStep (n : Node) (f : Field) (c : Core) (s : State) : State :=
  let k := bits f 33 31
  match getChan c k with
  | none => coreFault n .coreIllegalOp 0 0 s
  | some ch =>
    match ch.msgs.find? (·.received) with
    | none => coreFault n .coreIllegalOp 0 0 s
    | some m =>
      retire n (returnCredit m.src n k (setCore n (setChan k { ch with msgs := ch.msgs.erase m } c) s))
/-- RELEASE. -/
def execRelease (n : Node) (f : Field) (s : State) : Res := .next (issue n (releaseStep n f) s)

/-- POLL (R90): the count of unreceived messages. -/
def pollStep (n : Node) (f : Field) (c : Core) (s : State) : State :=
  let cnt := match getChan c (bits f 33 31) with
    | some ch => (ch.msgs.filter (fun m => !m.received)).length
    | none => 0
  retireWith n (setS (bits f 30 26) (BitVec.ofNat 32 cnt) c) s
/-- POLL. -/
def execPoll (n : Node) (f : Field) (s : State) : Res := .next (issue n (pollStep n f) s)

/-- TRACEMARK (R73, R502). -/
def tracemarkStep (n : Node) (f : Field) (c : Core) (s : State) : State :=
  if sysReserved f 0xFFFF then coreFault n .coreIllegalOp 0 0 s
  else retire n (traceRec n 0x04 2 (leBytes 2 (bits f 15 0) ++ leBytes 2 c.pc.toNat) s)
/-- TRACEMARK. -/
def execTracemark (n : Node) (f : Field) (s : State) : Res := .next (issue n (tracemarkStep n f) s)

end Sys2Proof.Machine
end

