-- ==== Sys2Proof/Machine/Voltage.lean ====
section
/-! DEFINITION. Adaptive voltage: gallery set points, the frequency targets that a frozen rail still serves, voltage steps and
the regulators (R69, R467, R536). -/

namespace Sys2Proof.Machine

/-- The entry of the voltage–frequency table that serves a target in 10 MHz units (R536). -/
def vfEntry (units : Nat) : Nat := if units ≤ 40 then 0 else if units ≤ 60 then 1 else if units ≤ 80 then 2 else if units ≤ 100 then 3 else 4
/-- The nominal set point of an entry in mV (R536). -/
def vfNominal (e : Nat) : Nat := match e with | 0 => 600 | 1 => 650 | 2 => 700 | 3 => 770 | _ => 850
/-- A gallery's fused set point for a target in mV (R536): within 30 mV of nominal, never outside 600 to 900. -/
def setPoint (g units : Nat) : Nat := max 600 (min 900 (vfNominal (vfEntry units) + Config.vfTrim g (vfEntry units) % 61 - 30))
/-- The gallery's hottest junction sensor reads above 95 °C (R466, R536): sensors 4g to 4g + 3. -/
def galleryHot (s : State) (g : Nat) : Bool := (List.range 4).any (fun k => decide (9500 < getK (0 : Int) s.ltn.tj (4 * g + k)))
/-- The highest target in force or pending in a gallery (R536). -/
def galleryTarget (s : State) (g : Nat) : Nat :=
  (s.cores.filter (fun (e : Nat × Core) => decide (e.1 / 128 = g))).foldl
    (fun (m : Nat) (e : Nat × Core) => max m (max e.2.freq (e.2.freqNext.getD 0))) 40
/-- The voltage that a gallery's rail is to have now (R536): the temperature term adds 15 mV at the table's highest entry. -/
def railTarget (s : State) (g : Nat) : Nat :=
  let u := galleryTarget s g
  min 900 (setPoint g u + (if vfEntry u = 4 ∧ galleryHot s g then 15 else 0))
/-- The rail serves a target: while frozen, only one that needs no higher voltage than it has (R467). -/
def freqAllowed (s : State) (n : Node) (units : Nat) : Bool :=
  !s.ltn.pmbusFrozen || decide (setPoint (n.toNat / 128) units ≤ getK 0 s.ltn.vout (n.toNat / 128))
/-- The highest target that the rail serves, up to the one asked (chapter 21, "PMBus freezes"). -/
def freqCap (s : State) (n : Node) (units : Nat) : Nat :=
  if freqAllowed s n units then units
  else (([100, 80, 60].filter (fun u => decide (u < units))).find? (fun u => freqAllowed s n u)).getD 40

/-- Lantern sets a gallery rail (R467): the value and its time are kept, and the write goes out. -/
def setRail (g mv : Nat) (s : State) : State :=
  emit (.pmbus g mv) { s with ltn := { s.ltn with vout := putK 0 s.ltn.vout g mv, voutAt := putK 0 s.ltn.voutAt g (now s) } }
/-- One adaptive step (R467): at most 10 mV towards the target, at least 200 µs after the one before, never while frozen. -/
def voltageStep (g : Nat) (s : State) : State :=
  let v := getK 0 s.ltn.vout g
  let t := railTarget s g
  let v' := if v < t then min t (v + 10) else max t (v - 10)
  if 4 ≤ g ∨ ltnHeld s ∨ v = 0 ∨ s.ltn.pmbusFrozen ∨ (now s - getK 0 s.ltn.voutAt g).toNat < 200000 ∨ v' = v then s
  else setRail g v' s
/-- VOLTAGE_STEP. -/
def execVoltageStep (g : Nat) (s : State) : Res := .next (voltageStep g s)

/-- PMBUS_POLL (R467): a reported fault is logged; the third failed transaction freezes adaptive voltage. -/
def pmbusPoll (reg : Nat) (w : Option W16) (s : State) : State :=
  if 8 ≤ reg ∨ ltnHeld s then s
  else match w with
    | some x =>
      let s := { s with ltn := { s.ltn with pmFail := putK 0 s.ltn.pmFail reg 0, pmStatus := putK 0 s.ltn.pmStatus reg x } }
      if x = 0 then s else logRec 7 0 1 (leBytes 1 reg ++ [0, 0, 0] ++ leBytes 2 x.toNat) s
    | none =>
      let n := getK 0 s.ltn.pmFail reg + 1
      if n < 3 then { s with ltn := { s.ltn with pmFail := putK 0 s.ltn.pmFail reg n } }
      else logRec 7 0 2 (leBytes 1 reg) { s with ltn := { s.ltn with pmFail := putK 0 s.ltn.pmFail reg 0, pmbusFrozen := true } }
/-- PMBUS_POLL. -/
def execPmbusPoll (reg : Nat) (w : Option W16) (s : State) : Res := .next (pmbusPoll reg w s)

/-- I3C_READ (R468): the reading is kept for the SPI status, and logged. -/
def i3cRead (k : Nat) (v : W16) (s : State) : State :=
  if 8 ≤ k ∨ ltnHeld s then s else logRec 9 0 1 (leBytes 1 k ++ leBytes 2 v.toNat) { s with ltn := { s.ltn with i3c := putK 0 s.ltn.i3c k v } }
/-- I3C_READ. -/
def execI3cRead (k : Nat) (v : W16) (s : State) : Res := .next (i3cRead k v s)

end Sys2Proof.Machine
end

