-- ==== Sys2Proof/Machine/CoreCtl.lean ====
section
/-! DEFINITION. What reaches a core from outside its program: messages, replies, credits, start, pacing, clock, scrubbing
(R39, R44, R46, R59, R69, R70, R82, R86, R88–R91, R93, R97, R99, R389, R390). -/

namespace Sys2Proof.Machine

/-- A node is a core site (R33). -/
def isCore (n : Node) : Bool := decide (n.toNat / 128 < 4) && !n.getLsbD 6 && decide (n.toNat / 8 % 8 < 7) && decide (n.toNat % 8 < 6)

/-- The lowest free slot of a channel (R88, R90). -/
def freeSlot (ch : Chan) : Option Nat := (List.range ch.slots).find? (fun k => !ch.msgs.any (fun m => m.slot = k))

/-- A DATA message reaches its node (R39, R46, R88). -/
def dataArrival (m : DataMsg) (s : State) : State :=
  if ¬accepts s m.dst then
    emitFab (.nack m.src (.route (BitVec.ofNat 5 (routeTo s m.src m.dst m.chan.toNat)))) s
  else if ¬isCore m.dst then s
  else
    let c := getCore s m.dst
    let k := m.chan.toNat
    match getChan c k with
    | none => raise .coreMsgOversize (at_ m.dst) [] (returnCredit m.src m.dst k s)
    | some ch =>
      if ch.slotSize < m.data.length then raise .coreMsgOversize (at_ m.dst) [] (returnCredit m.src m.dst k s)
      else match freeSlot ch with
        | none => returnCredit m.src m.dst k s
        | some slot =>
          let c := coreWrite (ch.base + slot * ch.slotSize) m.data [] c
          let h : HeldMsg := { slot, src := m.src, len := m.data.length, poison := m.poison }
          setCore m.dst (setChan k { ch with msgs := ch.msgs ++ [h] } c) s
/-- DATA_ARRIVAL. -/
def execDataArrival (m : DataMsg) (s : State) : Res := .next (dataArrival m s)

/-- CREDIT (R39): one send credit returns to the route, never above its share. -/
def creditBack (n : Node) (r : Nat) (s : State) : State :=
  match getRoute (getCore s n) r with
  | some x => updCore n (setRoute r { x with credits := min (x.credits + 1) x.share }) s
  | none => s
/-- CREDIT. -/
def execCredit (n : Node) (r : Nat) (s : State) : Res := .next (creditBack n r s)

/-- Remove a pending entry. -/
def dropPend (tag : W16) (c : Core) : Core := { c with pend := c.pend.filter (fun p => p.tag ≠ tag) }

/-- Hand an operand to its generator (R104). -/
def agDeliver (k : Nat) (tag : W16) (d : List W32) (c : Core) : Core :=
  let g := getAg c k
  let late := g.late.map (fun e => if e.1 = tag ∧ e.2 = none then (e.1, some d) else e)
  drainMat (setAg k (agFlush { g with late }) c)

/-- What the arriving bytes do for an entry (R82, R85, R102). -/
def landData (p : Pend) (bs : List Byte) (c : Core) : Core :=
  match p.kind with
  | .load sd size sx => loadDest sd size sx bs c
  | .vload vd pred => vloadDest vd pred bs c
  | .atomic sd size => loadDest sd size false bs c
  | .store => c
  | .put _ => c
  | .get _ dst len => coreWrite dst (sub bs 0 len) [] c
  | .ld slot => { c with ld := putsK 0 c.ld (8 * slot) ((List.range 16).map (fun i => BitVec.ofNat 32 (fld bs (4 * i) 4))) }
  | .ag k lanes => agDeliver k p.tag (lanesOf (dLane (getAg c k).desc) bs lanes) c

/-- The entry returns data, so that POISON falls under R86. -/
def Pend.returnsData (p : Pend) : Bool := match p.kind with | .store | .put _ => false | _ => true

/-- A pending entry completes (R82, R86, R47): with data, or with POISON through its window's TOLERANT rule. -/
def complete (n : Node) (p : Pend) (poison : Bool) (data : List Byte) (s : State) : State :=
  let c := dropPend p.tag (getCore s n)
  if ¬p.returnsData then setCore n c s
  else if ¬poison then setCore n (landData p data c) s
  else if (match getWin c p.win with | some w => w.tolerant | none => false) then
    setCore n (setStatus 2 (landData p [] c)) s
  else
    let last := match p.kind with | .get _ _ _ | .ag _ _ => c.pc - 1 | _ => p.pc
    let ag := match p.kind with
      | .ag k _ => let g := getAg c k; some (k, g.pos, g.rowMask, g.colMask)
      | _ => none
    coreFaultRec n .coreRdPoison { pcFault := p.pc, pcLast := last, index := p.win, off := p.off, node := p.node, ag } (setCore n c s)

/-- REPLY (R82): completes its entry; a reply for an expired or abandoned entry is discarded (R44). An ISLAND_DOWN status is
no data, and completes as POISON (R47). -/
def replyArrives (n : Node) (tag : W16) (st : FabStatus) (data : List Byte) (s : State) : State :=
  match (getCore s n).pend.find? (fun p => p.tag = tag) with
  | none => s
  | some p => complete n p (st ≠ .ok) data s
/-- REPLY. -/
def execReply (n : Node) (tag : W16) (st : FabStatus) (data : List Byte) (s : State) : Res := .next (replyArrives n tag st data s)

/-- FAB_REPLY_TIMEOUT (R44): the entry completes with POISON and the source is raised. -/
def replyTimeout (n : Node) (tag : W16) (s : State) : State :=
  match (getCore s n).pend.find? (fun p => p.tag = tag) with
  | none => s
  | some p => complete n p true [] (raise .fabReplyTimeout (at_ n) [] s)
/-- FAB_REPLY_TIMEOUT. -/
def execFabReplyTimeout (n : Node) (tag : W16) (s : State) : Res := .next (replyTimeout n tag s)

/-- The core waits for a reply, so its instruction is in progress: its next boundary comes after it (R70, R82). -/
def midInstruction (c : Core) : Bool := c.run = .wait && (match c.wait with | .reply _ => true | _ => false)

/-- NACK_ISLAND_DOWN (R46, R91): on a route the credit returns; OPTIONAL sets NACKED and counts, else DEST_ABSENT stops the
core at its next boundary. On a request's entry it completes with POISON and raises DEST_ABSENT. -/
def nackArrives (n : Node) (what : NackOf) (s : State) : State :=
  let c := getCore s n
  match what with
  | .route r =>
    match getRoute c r.toNat with
    | none => s
    | some x =>
      let s := creditBack n r.toNat s
      let c := getCore s n
      if x.optional then setCore n (setStatus 3 { c with destAbsent := c.destAbsent.inc }) s
      else if midInstruction c then setCore n { c with nacked := some r.toNat } s
      else if c.run = .run ∨ c.run = .wait then
        coreFaultRec n .destAbsent { pcFault := c.pc - 1, pcLast := c.pc - 1, index := r.toNat, off := 0, node := x.node } s
      else raise .destAbsent (at_ n) [] s
  | .entry tag =>
    match c.pend.find? (fun p => p.tag = tag) with
    | none => s
    | some p => complete n p true [] (raise .destAbsent (at_ n) [] s)
/-- NACK_ISLAND_DOWN. -/
def execNackIslandDown (n : Node) (what : NackOf) (s : State) : Res := .next (nackArrives n what s)

/-- SCRUB_SLOT (R59): a corrected word raises CE; an uncorrectable one raises UE and is poisoned. -/
def scrubSlot (n : Node) (m : CoreMem) (word : Nat) (ecc : Ecc) (s : State) : State :=
  if (getCore s n).run = .off then s
  else match m, ecc with
    | _, .clean => s
    | .cmem, .corrected => raise .coreMemCe (at_ n) (leBytes 4 word) s
    | .imem, .corrected => raise .coreImemCe (at_ n) (leBytes 4 word) s
    | .cmem, .uncorrectable =>
      raise .coreMemUe (at_ n) (leBytes 4 word) (updCore n (fun c => { c with memBad := c.memBad.erase word ++ [word] }) s)
    | .imem, .uncorrectable =>
      raise .coreImemUe (at_ n) (leBytes 4 word) (updCore n (fun c => { c with imemBad := c.imemBad.erase word ++ [word] }) s)
/-- SCRUB_SLOT. -/
def execScrubSlot (n : Node) (m : CoreMem) (word : Nat) (ecc : Ecc) (s : State) : Res := .next (scrubSlot n m word ecc s)

/-- FREQUENCY_TARGET (R69): 400 to 1250 MHz in 10 MHz steps; a target outside is not one, and one that would need a higher
voltage than a frozen rail has is refused (R467). -/
def frequencyTarget (n : Node) (units : Nat) (s : State) : State :=
  if 40 ≤ units ∧ units ≤ 125 ∧ freqAllowed s n units then updCore n (fun c => { c with freqNext := some units }) s else s
/-- FREQUENCY_TARGET. -/
def execFrequencyTarget (n : Node) (units : Nat) (s : State) : Res := .next (frequencyTarget n units s)
/-- FREQUENCY_CHANGE (R69): the latched target takes effect, unless the core is in WAIT, whose clock must first restart. -/
def frequencyChange (n : Node) (s : State) : State :=
  let c := getCore s n
  match c.freqNext with
  | none => s
  | some u => if c.run = .wait then s else setCore n { c with freq := u, freqNext := none } s
/-- FREQUENCY_CHANGE. -/
def execFrequencyChange (n : Node) (s : State) : Res := .next (frequencyChange n s)
/-- CORE_CLK_RANGE (R69): outside 380–1300 MHz the source is raised. -/
def coreClkRange (n : Node) (mhz : Nat) (s : State) : State :=
  if mhz < 380 ∨ 1300 < mhz then raise .coreClkRange (at_ n) (leBytes 4 mhz) s else s
/-- CORE_CLK_RANGE. -/
def execCoreClkRange (n : Node) (mhz : Nat) (s : State) : Res := .next (coreClkRange n mhz s)

/-- The parity bit that an 11-bit SKEW carries (R389). -/
def skewPar (k : BitVec 11) : Bool := (List.range 11).foldl (fun p i => p ^^ k.getLsbD i) false

/-- Put a core into RUN at its entry address (R99, R389, R390, R394). -/
def startCore (n : Node) (attempt : Bool) (s : State) : State :=
  let c := getCore s n
  let fr := match s.loop.cur with | some f => f.n | none => 0
  let s := changeCore n (fun c => sigStart fr attempt { c with
    run := .run, wait := .none, pc := c.entry, started := true, retired := 0, pace := 0, nacked := none,
    skewHold := c.sig.pair.isSome && c.sig.trail && decide (c.skew ≠ 0) }) s
  if c.sig.pair.isSome ∧ skewPar c.skew ≠ c.skewParity then
    match pairOf s n with
    | some p => mismatch p [] (raise .mirSkewPe (at_ n) [] s)
    | none => s
  else s

/-- CONTROL START (R99): from IDLE, or again from DONE for a PER_FRAME core; a RESIDENT core starts once, and a core held
stopped after a failed retry does not start (R399). -/
def controlStart (n : Node) (s : State) : State :=
  let c := getCore s n
  if c.heldStop ∨ (c.resident ∧ c.started) then s
  else match c.run with
    | .idle => startCore n false s
    | .done => startCore n false s
    | _ => s
/-- CONTROL_START. -/
def execControlStart (n : Node) (s : State) : Res := .next (controlStart n s)
/-- TRAIL_START (R389). -/
def execTrailStart (n : Node) (s : State) : Res := .next (updCore n (fun c => { c with skewHold := false }) s)
/-- PACE (R390). -/
def execPace (n : Node) (count : W32) (s : State) : Res := .next (updCore n (fun c => { c with pace := count }) s)

/-- What a waiting core waits for has arrived (R70, R82–R84, R89, R90, R99, R102). -/
def waitOver (s : State) (n : Node) (c : Core) : Bool :=
  match c.wait with
  | .none => true
  | .recv k => (match getChan c k with | some ch => ch.msgs.any (fun m => !m.received) | none => false)
  | .credit r => (match getRoute c r with | some x => decide (0 < x.credits) | none => true)
  | .reply tag => !c.pend.any (fun p => p.tag = tag)
  | .entries => decide (c.pend.length < 16)
  | .order => !c.pend.any Pend.isWrite
  | .fence => !c.pend.any Pend.isWrite
  | .groups => !c.pend.any (fun p => match p.kind with | .put _ | .get _ _ _ => true | _ => false)
  | .drain => !outstanding c
  | .agen k => !(getAg c k).running
  | .slotFault h => (getK [] s.obj.gcopy (n.toNat / 128)).any (fun t => t.obj = h) || s.obj.trans.any (fun t => t.obj = h)
  | .operands => true

/-- The core issues again (R70). -/
def resumeRun (n : Node) (s : State) : State := changeCore n (fun c => { c with run := .run, wait := .none }) s
/-- The core's wait ends now (R70): an ordering wait, a fence and a group wait end with the command; the others when what they wait for is there. -/
def waitReady (s : State) (n : Node) (c : Core) : Bool :=
  match c.wait with
  | .order | .fence | .groups => true
  | _ => waitOver s n c
/-- WAIT_RESTART (R70): the clock restarts. An instruction that waited for its reply is complete; any other is issued again. -/
def waitRestart (n : Node) (s : State) : State :=
  let c := getCore s n
  if c.run ≠ .wait ∨ ¬waitReady s n c then s
  else if (match c.wait with | .reply _ => true | _ => false) then retire n (resumeRun n s)
  else resumeRun n s
/-- WAIT_RESTART. -/
def execWaitRestart (n : Node) (s : State) : Res := .next (waitRestart n s)

/-- CORE_WAIT_LIMIT (R93): a core still in WAIT at its limit faults at the waiting instruction. -/
def coreWaitLimit (n : Node) (s : State) : State :=
  if (getCore s n).run = .wait then coreFault n .coreWaitLimit 0 0 s else s
/-- CORE_WAIT_LIMIT. -/
def execCoreWaitLimit (n : Node) (s : State) : Res := .next (coreWaitLimit n s)

end Sys2Proof.Machine
end

