-- ==== Sys2Proof/Machine/MemTier.lean ====
section
/-! DEFINITION. Chamber, staging and DRAM: poison, the compressed aperture, scrubbing, retirement, REMAP and migration, the
bandwidth classes and demotion at run time (R133–R137, R186–R201). -/

namespace Sys2Proof.Machine

/-- What a read gives: the bytes, and whether it completes with POISON. -/
abbrev Got := List Byte × Bool

/-- A range of a tier with 8-byte check words holds no poisoned word (R188). -/
def wordsClean (bad : List Nat) (a len : Nat) : Bool := !bad.any (fun w => a < w * 8 + 8 && w * 8 < a + len)
/-- Poisoned words after a write: words written whole are rewritten (R188). -/
def wordsAfter (bad : List Nat) (a len : Nat) (en : List Bool) : List Nat :=
  if en.isEmpty || en.all id then bad.filter (fun w => ¬(a ≤ w * 8 ∧ w * 8 + 8 ≤ a + len)) else bad

/-- The chamber port and bank of a physical chamber key (R33, R187). -/
def chamberInst (a : Nat) : Inst :=
  let bank := a / 2 ^ 19 % 32
  { node := BitVec.ofNat 10 (a / 2 ^ 24 % 4 * 128 + 64 + bank % 6), sub := BitVec.ofNat 8 bank }

/-- Read and write chamber memory at a physical key: gallery × 2^24 + offset (R186, R188). -/
def chamberGet (m : MemT) (a n : Nat) : Got := (rdN m.chamber a n, !wordsClean m.chamberBad a n)
def chamberPut (a : Nat) (bs : List Byte) (en : List Bool) (m : MemT) : MemT :=
  { m with chamber := wrEn m.chamber a bs en, chamberBad := wordsAfter m.chamberBad a bs.length en }
/-- Read and write hub staging memory (R186, R188). -/
def stagingGet (m : MemT) (a n : Nat) : Got := (rdN m.staging a n, !wordsClean m.stagingBad a n)
def stagingPut (a : Nat) (bs : List Byte) (en : List Bool) (m : MemT) : MemT :=
  { m with staging := wrEn m.staging a bs en, stagingBad := wordsAfter m.stagingBad a bs.length en }

/-- The compressed region that holds a logical offset of a gallery's aperture (R133). -/
def regionAt (m : MemT) (g off : Nat) : Option CmpRegion :=
  m.regions.find? (fun r => decide (r.decl.gallery = g) && decide (r.decl.base ≤ off) && decide (off < r.decl.base + r.decl.length))
/-- Physical keys of a block's slot and of a pool entry (R133). -/
def slotKey (d : RegionDecl) (blk : Nat) : Nat := d.gallery * 2 ^ 24 + d.storage + blk * d.slot
def poolKey (d : RegionDecl) (e : Nat) : Nat := d.gallery * 2 ^ 24 + d.storage + d.length / 64 * d.slot + e * 64

/-- The bytes that a bitmap and its nonzero bytes encode (R134). -/
def expandBlock : Nat → W64 → Nat → List Byte → List Byte
  | 0, _, _, _ => []
  | k + 1, bm, i, bs =>
    if bm.getLsbD i then bs.headD 0 :: expandBlock k bm (i + 1) bs.tail else 0 :: expandBlock k bm (i + 1) bs

/-- One logical block of a region (R134, R136). -/
def blockGet (m : MemT) (r : CmpRegion) (blk : Nat) : Got :=
  let k := slotKey r.decl blk
  let bm := BitVec.ofNat 64 (leVal (rdN m.chamber k 8))
  if r.poisoned.contains blk then ([], true)
  else if bm = BitVec.allOnes 64 then
    let e := leVal (rdN m.chamber (k + 8) 4)
    (rdN m.chamber (poolKey r.decl e) 64, !(wordsClean m.chamberBad k 12 && wordsClean m.chamberBad (poolKey r.decl e) 64))
  else (expandBlock 64 bm 0 (rdN m.chamber (k + 8) (r.decl.slot - 8)), !wordsClean m.chamberBad k r.decl.slot)

/-- Replace a region. -/
def setRegion (r : CmpRegion) (m : MemT) : MemT :=
  { m with regions := m.regions.map (fun x => if x.decl = r.decl then r else x) }

/-- Write one whole block (R135, R136); `false` when the region has no free pool entry. -/
def blockPut (r : CmpRegion) (blk : Nat) (bs : List Byte) (m : MemT) : MemT × Bool :=
  let nz := bs.filter (· ≠ 0)
  let k := slotKey r.decl blk
  let held := r.entries.find? (fun e => e.1 = blk)
  if nz.length + 8 ≤ r.decl.slot then
    let bm := leBytes 8 (bitsToNat (bs.map (fun b => decide (b ≠ 0))))
    let r := { r with entries := r.entries.filter (fun e => e.1 ≠ blk), poisoned := r.poisoned.erase blk }
    (setRegion r (chamberPut k (bm ++ nz) [] m), true)
  else
    match (match held with
      | some e => some e.2
      | none => (List.range r.decl.pool).find? (fun i => !r.entries.any (fun e => e.2 = i))) with
    | none => (setRegion { r with poisoned := r.poisoned.erase blk ++ [blk] } m, false)
    | some e =>
      let r := { r with entries := r.entries.filter (fun x => x.1 ≠ blk) ++ [(blk, e)], poisoned := r.poisoned.erase blk,
                        spills := r.spills.inc }
      (setRegion r (chamberPut (poolKey r.decl e) bs [] (chamberPut k (leBytes 8 (2 ^ 64 - 1) ++ leBytes 4 e) [] m)), true)

/-- The instance of an aperture access (R133). -/
def apertureInst (g off : Nat) : Inst := chamberInst (g * 2 ^ 24 + off)

/-- Read the compressed aperture (R133, R137). -/
def apertureGet (g off n : Nat) (s : State) : Got × State :=
  let blks := (List.range ((off % 64 + n + 63) / 64)).map (fun i => off / 64 + i)
  if n = 0 then (([], false), s)
  else if blks.any (fun b => (regionAt s.mem g (b * 64)).isNone) then
    ((List.replicate n 0, true), raise .chmCmpUnmapped (apertureInst g off) (leBytes 4 off) s)
  else
    let got := blks.map (fun b => match regionAt s.mem g (b * 64) with
      | some r => blockGet s.mem r (b - r.decl.base / 64)
      | none => ([], true))
    ((sub ((got.flatMap (fun x => sub x.1 0 64)).drop (off % 64)) 0 n, got.any (·.2)), s)

/-- Write whole blocks of the aperture, one by one (R135, R136). -/
def aperturePut (g : Nat) : Nat → Nat → List Byte → State → State
  | 0, _, _, s => s
  | k + 1, off, bs, s =>
    match regionAt s.mem g off with
    | none => aperturePut g k (off + 64) (bs.drop 64) (raise .chmCmpUnmapped (apertureInst g off) (leBytes 4 off) s)
    | some r =>
      let w := blockPut r ((off - r.decl.base) / 64) (sub bs 0 64) s.mem
      let s := { s with mem := w.1 }
      aperturePut g k (off + 64) (bs.drop 64) (if w.2 then s else raise .chmCmpPool (apertureInst g off) (leBytes 4 off) s)

/-- A write to the aperture (R135): whole aligned blocks with every byte enabled, else discarded. -/
def apertureWrite (src : Node) (g off : Nat) (bs : List Byte) (en : List Bool) (s : State) : State :=
  if off % 64 ≠ 0 ∨ bs.length % 64 ≠ 0 ∨ bs.isEmpty ∨ ¬(en.isEmpty || en.all id) then
    raise .chmCmpPartial (apertureInst g off) (leBytes 4 off ++ leBytes 2 src.toNat) s
  else aperturePut g (bs.length / 64) off bs s

/-- The lines of a DRAM access (R190, R191), as physical line numbers, each with the address of its first byte touched. -/
def dramLines (m : MemT) (a n : Nat) : List (Nat × Nat) :=
  (List.range ((a % 64 + n + 63) / 64)).map (fun i => let b := a / 64 * 64 + 64 * i; (dramKey m b / 64, b))
/-- DRAM is there: below U, and not every pair is retired (R189, "The second pair is retired"). -/
def dramBacked (s : State) (a n : Nat) : Bool := decide (a + n ≤ dramU s) && decide (s.mem.retired.length < 2)
/-- Read DRAM (R191). -/
def dramGet (s : State) (a n : Nat) : Got :=
  (dramGets s.mem a n, !dramBacked s a n || (dramLines s.mem a n).any (fun l => s.mem.dramBad.contains l.1))

/-- The instance of a DRAM source (R193): the controller, its channel. -/
def dramInst (chan : Nat) : Inst := { node := BitVec.ofNat 10 (0x218 + chan % 4), sub := BitVec.ofNat 8 chan }

/-- Plannable bandwidth in MB/s (R195). -/
def plannable (s : State) : Nat := if s.mem.retired.isEmpty then 96000 else if s.mem.retired.length = 1 then 48000 else 0
/-- The sums of a rung: SAFETY, SENSOR and BULK in MB/s (R198). -/
def rungSums (r : Rung) : Nat × Nat × Nat :=
  let sum (c : BwClass) : Nat := ((r.bw.filter (fun d => decide (d.cls = c))).map (·.rate)).sum
  (sum .safety, sum .sensor, sum .bulk)
/-- Deliverable bandwidth D (R195, R200): P less the migration rate, where migration can run at all inside BULK. -/
def deliverable (s : State) (r : Rung) : Nat :=
  let p := plannable s
  let x := rungSums r
  if s.mem.migrating ∧ x.1 + x.2.1 < p - 8000 then p - 8000 else p
/-- BULK's scale f as a fraction of 2^16 (R200 step 2). -/
def bulkScale (d : Nat) (x : Nat × Nat × Nat) : Nat :=
  if x.2.2 = 0 then 65536 else min 65536 (65536 * (d - x.1 - x.2.1) / x.2.2)
/-- Step 3 of R200: the lowest-numbered rung from r on with S + N ≤ 0.90 × D. -/
def floorRung (s : State) (rungs : List Rung) (r : Nat) : Option Nat :=
  (List.range rungs.length).find? (fun k => decide (r ≤ k) && (match rungs[k]? with
    | some x => decide ((rungSums x).1 + (rungSums x).2.1 ≤ deliverable s x * 9 / 10)
    | none => false))

/-- RUNG_FLOOR to the TWIN partner (R201, R425). -/
def sendFloor (f : W32) (s : State) : State :=
  if s.dv.twin then
    toPartner 2 (leBytes 1 0x26 ++ leBytes 1 s.mem.floor ++ [0, 0] ++ leBytes 4 f.toNat) s
  else s

/-- Demotion (R200): BEST_EFFORT halted, BULK scaled, the floor computed, and the sources raised that are due. -/
def demote (s : State) : State :=
  let s := { s with mem := { s.mem with halted := true } }
  match curPlan s with
  | none => s
  | some p =>
    let rungs := p.img.rungs
    let r := s.energy.force
    match rungs[r]? with
    | none => s
    | some x =>
      let d := deliverable s x
      let sums := rungSums x
      if sums.1 + sums.2.1 + sums.2.2 ≤ d ∧ sums.1 + sums.2.1 ≤ d * 9 / 10 then { s with mem := { s.mem with bulk := 65536 } }
      else
        let last := (rungs[5]?).getD x
        let fl := floorRung s rungs r
        let k := fl.getD 5
        let s1 := { s with mem := { s.mem with bulk := bulkScale d sums, floor := k, floors := (frameNo s, k) :: s.mem.floors } }
        let s1 := { s1 with energy := { s1.energy with floor := k } }
        let s1 := sendFloor (frameNo s) s1
        if fl.isSome then s1
        else if (rungSums last).1 + (rungSums last).2.1 ≤ deliverable s last then raise .dramNoMargin dev [] s1
        else raise .dramSafetyUnmet dev [] s1

/-- A plan is retirement-tolerant (R194). -/
def tolerant (p : Loaded) : Bool :=
  p.img.cores.all (fun c => c.wins.all (fun w =>
    decide (w.2.space ≠ .dram) || decide (w.2.base.toNat + w.2.length ≤ 2 * chanUsable)))

/-- Retire the pair of a channel (R193, R194, R200): recorded, raised, REMAP and migration begin, classes are demoted. -/
def retirePair (pair : Nat) (s : State) : State :=
  if s.mem.retired.contains pair then s
  else
    let second := !s.mem.retired.isEmpty
    let s := { s with
      mem := { s.mem with retired := s.mem.retired ++ [pair], remap := true, migrating := !second, copied := [] }
      ltn := { s.ltn with cfg := { s.ltn.cfg with retired := s.ltn.cfg.retired ++ [pair] } }
      adapt := match s.adapt.run with
        | some r => { s.adapt with run := none, recs := s.adapt.recs ++ [{ id := r.id, verdict := 3 }] }
        | none => s.adapt }
    let s := raise .dramPairRetired (dramInst (2 * pair)) (leBytes 1 pair) s
    let s := if second ∨ s.plans.any (fun p => !tolerant p) then raise .dramDataLost (dramInst (2 * pair)) (leBytes 1 pair) s else s
    demote s

/-- The channel is out of service: its pair is retired and nothing is left to migrate (R194). -/
def outOfService (s : State) (chan : Nat) : Bool := s.mem.retired.contains (chan / 2) && !s.mem.migrating

/-- DRAM_UE on a channel (R191–R193): counted, raised with the address, and the UE_RETIRE-th within 1 s retires the pair. -/
def dramUe (chan : Nat) (addr : Nat) (s : State) : State :=
  if outOfService s chan then s
  else
    let c := getK {} s.mem.chan chan
    let recent := (now s :: c.ueAt).filter (fun t => decide ((now s - t).toNat < 1000000000))
    let s := { s with mem := { s.mem with chan := putK {} s.mem.chan chan { c with ue := c.ue.inc, ueAt := recent } } }
    let s := raise .dramUe (dramInst chan) (leBytes 8 addr) s
    if s.ltn.cfg.ueRetire ≤ recent.length then retirePair (chan / 2) s else s
/-- DRAM_CE on a channel (R191, R192). -/
def dramCe (chan addr : Nat) (s : State) : State :=
  if outOfService s chan then s
  else
    let c := getK {} s.mem.chan chan
    raise .dramCe (dramInst chan) (leBytes 8 addr)
      { s with mem := { s.mem with chan := putK {} s.mem.chan chan { c with ce := c.ce.inc } } }

/-- Write DRAM (R190, R191): a whole line heals its poison; a partial write of a poisoned line writes the bytes, keeps the
line poisoned and raises DRAM_UE. -/
def dramWrite (a : Nat) (bs : List Byte) (en : List Bool) (s : State) : State :=
  if ¬dramBacked s a bs.length then s
  else
    let full := en.isEmpty || en.all id
    let m := dramPuts a bs en s.mem
    let ls := dramLines m a bs.length
    let whole (b : Nat) : Bool := full && decide (a ≤ b) && decide (b + 64 ≤ a + bs.length)
    let healed := (ls.filter (fun l => whole l.2)).map (·.1)
    let hurt := ls.filter (fun l => m.dramBad.contains l.1 && !whole l.2)
    let s := { s with mem := { m with dramBad := m.dramBad.filter (fun l => !healed.contains l) } }
    hurt.foldl (fun s l => dramUe (l.1 / 2 ^ 34) l.2 s) s

/-- CHAMBER_SCRUB (R188): corrected raises CE; uncorrectable raises UE and poisons the word. -/
def chamberScrub (staging : Bool) (addr : Nat) (ecc : Ecc) (s : State) : State :=
  let i : Inst := if staging then at_ 0x230 else chamberInst addr
  match ecc with
  | .clean => s
  | .corrected => raise (if staging then .stgCe else .chmCe) i (leBytes 4 addr) s
  | .uncorrectable =>
    let m := s.mem
    let m := if staging then { m with stagingBad := m.stagingBad.erase (addr / 8) ++ [addr / 8] }
      else { m with chamberBad := m.chamberBad.erase (addr / 8) ++ [addr / 8] }
    raise (if staging then .stgUe else .chmUe) i (leBytes 4 addr) { s with mem := m }
/-- CHAMBER_SCRUB. -/
def execChamberScrub (staging : Bool) (addr : Nat) (ecc : Ecc) (s : State) : Res := .next (chamberScrub staging addr ecc s)

/-- The device address of a byte of a channel (R189): the inverse of the interleave, and under REMAP the address whose data
lies there (R194). -/
def dramAddr (m : MemT) (chan off : Nat) : Nat :=
  let at_ (c o : Nat) : Nat := o / 256 * 1024 + c * 256 + o % 256
  let half := chanUsable / 2
  let home := at_ ((chan + 2) % 4) (off - half)
  if half ≤ off ∧ remapped m home = true ∧ uncopied m home = false then home else at_ chan off

/-- PATROL_SCRUB (R191): one 64-byte line of a channel, by its number in the channel. -/
def patrolScrub (chan line : Nat) (ecc : Ecc) (s : State) : State :=
  if outOfService s chan then s
  else
    let k := chan * 2 ^ 34 + line
    match ecc with
    | .clean => s
    | .corrected => dramCe chan (dramAddr s.mem chan (line * 64)) s
    | .uncorrectable =>
      dramUe chan (dramAddr s.mem chan (line * 64)) { s with mem := { s.mem with dramBad := s.mem.dramBad.erase k ++ [k] } }
/-- PATROL_SCRUB. -/
def execPatrolScrub (chan line : Nat) (ecc : Ecc) (s : State) : Res := .next (patrolScrub chan line ecc s)

/-- Change a channel's lock. -/
def setLock (chan : Nat) (l : Option W64) (s : State) : State :=
  { s with mem := { s.mem with chan := updK {} s.mem.chan chan (fun c => { c with lockLost := l }) } }
/-- PHY_LOCK_LOSS (R193): retraining begins. -/
def execPhyLockLoss (chan : Nat) (s : State) : Res := .next (if outOfService s chan then s else setLock chan (some (now s)) s)
/-- PHY_LOCK_REGAIN (R193): the channel goes on without retirement. -/
def execPhyLockRegain (chan : Nat) (s : State) : Res := .next (setLock chan none s)
/-- PHY_RETRAIN_TIMEOUT (R193): a channel still without lock retires its pair. -/
def phyRetrainTimeout (chan : Nat) (s : State) : State :=
  match (getK {} s.mem.chan chan).lockLost with
  | some _ => retirePair (chan / 2) (setLock chan none s)
  | none => s
/-- PHY_RETRAIN_TIMEOUT. -/
def execPhyRetrainTimeout (chan : Nat) (s : State) : Res := .next (phyRetrainTimeout chan s)

/-- The declaration of the running plan's rung that names a requester's DRAM window (R196), with its index. -/
def bwDecl (s : State) (r : FabReq) : Option (Nat × BwDecl) :=
  match curPlan s with
  | none => none
  | some p =>
    match p.img.rungs[s.energy.force]? with
    | none => none
    | some g =>
      let c := getCore s r.src
      let covers (w : Nat) : Bool := match getWin c w with
        | some x => decide (x.space = .dram) && decide (x.base.toNat ≤ r.addr.toNat) && decide (r.addr.toNat < x.base.toNat + x.length)
        | none => false
      let idx := (List.range g.bw.length).find? (fun k => match g.bw[k]? with
        | some d => decide (d.agent = r.src.toNat) && covers d.win
        | none => false)
      match idx with
      | some k => (g.bw[k]?).map (fun d => (k, d))
      | none => none

/-- The tokens of a declaration's bucket at a controller (R197): refilled at its rate, 100 µs of it deep. -/
def tokens (s : State) (i k : Nat) (d : BwDecl) : Nat :=
  let rate := if d.cls = .bulk then d.rate * s.mem.bulk / 65536 else d.rate
  match getK none s.mem.buckets (4 * i + k) with
  | none => rate * 100
  | some (t, at_) => min (rate * 100) (t + rate * (now s - at_).toNat / 1000)

/-- Charge an access to its declaration's class at its controller (R197, R199): the class served in, and the state with
counters and tokens. -/
def chargeTo (decl : Option (Nat × BwDecl)) (a bytes : Nat) (s : State) : BwClass × State :=
  let k := controllerOf s.mem a
  match decl with
  | none => (.bestEffort, { s with mem := countBytes .bestEffort a bytes s.mem })
  | some (i, d) =>
    let have_ := tokens s i k d
    if bytes ≤ have_ then
      (d.cls, { s with mem := { countBytes d.cls a bytes s.mem with buckets := putK none s.mem.buckets (4 * i + k) (some (have_ - bytes, now s)) } })
    else
      (.bestEffort, { s with mem := { countBytes .bestEffort a bytes s.mem with
        buckets := putK none s.mem.buckets (4 * i + k) (some (have_, now s))
        overrun := updK {} s.mem.overrun (4 * k + bwNum d.cls) (fun x => x.inc) } })
/-- Charge a core's request (R196, R197). -/
def charge (r : FabReq) (bytes : Nat) (s : State) : BwClass × State := chargeTo (bwDecl s r) r.addr.toNat bytes s
/-- The declaration of the inbound-window group in the running plan's rung, with its index (R196, R298). -/
def inbDecl (s : State) : Option (Nat × BwDecl) :=
  match curPlan s with
  | none => none
  | some p =>
    match p.img.rungs[s.energy.force]? with
    | none => none
    | some g => ((List.range g.bw.length).find? (fun k => match g.bw[k]? with | some d => decide (d.agent = 0x500) | none => false)).bind
        (fun k => (g.bw[k]?).map (fun d => (k, d)))

/-- Take the tokens of a waiting SAFETY request once its bucket has refilled ("A SAFETY agent exceeds its reservation while
BEST_EFFORT is halted"). -/
def refilled (r : FabReq) (bytes : Nat) (s : State) : Option State :=
  match bwDecl s r with
  | none => none
  | some (i, d) =>
    let k := controllerOf s.mem r.addr.toNat
    let have_ := tokens s i k d
    if d.cls = .safety ∧ bytes ≤ have_ then
      some { s with mem := { s.mem with buckets := putK none s.mem.buckets (4 * i + k) (some (have_ - bytes, now s)) } }
    else none

end Sys2Proof.Machine
end

