-- ==== Sys2Proof/Machine/Fabric.lean ====
section
/-! DEFINITION. The message fabric: flits on links, requests served at their endpoints, the quiesce protocol and readmission
(R31, R32, R37, R40, R43–R48, R83–R85, R194, R200). -/

namespace Sys2Proof.Machine

/-- Runs of enabled bytes of a write: offset and bytes. -/
def enRuns : Nat → List Byte → List Bool → List (Nat × List Byte)
  | o, bs, [] => if bs.isEmpty then [] else [(o, bs)]
  | _, [], _ => []
  | o, b :: bs, e :: es =>
    let t := enRuns (o + 1) bs es
    if e then (match t with
      | (p, cs) :: rest => if p = o + 1 then (o, b :: cs) :: rest else (o, [b]) :: t
      | [] => [(o, [b])])
    else t

/-- What an atomic writes over an old value, if it writes (R85). -/
def atomicNew (op : AtomicOp) (len : Nat) (old data : List Byte) : Option (List Byte) :=
  match op with
  | .fetchAdd => some (leBytes len (leVal old + leVal (sub data 0 len)))
  | .cas => if leVal old = leVal (sub data 0 len) then some (sub data len len) else none

/-- The answer to a request (R37). -/
def answer (r : FabReq) (got : Got) (s : State) : State :=
  emitFab (.reply r.src r.tag (if got.2 then .poison else .ok) (if got.2 then [] else got.1)) s

/-- A cached line's bytes (R292). -/
def cachedLine (s : State) (h : Handle) (line : Nat) : Option (List Byte) :=
  (s.host.lines.find? (fun l => l.1 = h ∧ l.2.1 = line)).map (·.2.2)
/-- A range of an object that is held whole in the host line cache (R292). -/
def cachedRange (s : State) (h : Handle) (a n : Nat) : Option (List Byte) :=
  let lines := (List.range ((a % 64 + n + 63) / 64)).map (fun i => cachedLine s h (a / 64 + i))
  if lines.all (·.isSome) then some (sub ((lines.flatMap (fun l => l.getD [])).drop (a % 64)) 0 n) else none

/-- A request of a core on host memory (R80, R85, R293, R296): reads and atomics go to the host, or nowhere while detached. -/
def serveHost (write : Bool) (r : FabReq) (s : State) : State :=
  let what := ReqFor.coreReq r.src r.tag r.obj r.addr (if r.atomic.isSome then 0 else r.len)
  if objInvalid s r.obj ∧ (¬write ∨ r.atomic.isSome) then answer r ([], true) s
  else match r.atomic with
  | some op =>
    if s.host.attached ∧ s.host.up then
      hostReq what (fun t => .hostAtomic t (some r.obj) r.addr op (decide (r.len = 8)) (BitVec.ofNat 64 (fld r.data 0 r.len))
        (BitVec.ofNat 64 (fld r.data r.len r.len))) s
    else s
  | none =>
    if write then
      let s := (enRuns 0 r.data r.en).foldl (fun s x =>
        postWrite { obj := some r.obj, addr := r.addr + BitVec.ofNat 64 x.1, data := x.2 } s) s
      answer r ([], false) s
    else match cachedRange s r.obj r.addr.toNat r.len with
      | some bs => answer r (bs, false) s
      | none =>
        if s.host.attached ∧ s.host.up then hostReq what (fun t => .hostRead t (some r.obj) r.addr r.len) s else s

/-- Read at an endpoint's memory. -/
def endGet (r : FabReq) (s : State) : Got × State :=
  let a := r.addr.toNat
  match r.space with
  | .chamber =>
    if r.addr.getLsbD 26 then apertureGet (a / 2 ^ 24 % 4) (a % 2 ^ 24) r.len s
    else (chamberGet s.mem (a % 2 ^ 26) r.len, s)
  | .staging => (stagingGet s.mem (a % 2 ^ 23) r.len, s)
  | .dram => (dramGet s a r.len, s)
  | _ => let c := getCore s r.dst; ((rdN c.mem (localAddr r.addr) r.len, !memClean c (localAddr r.addr) r.len), s)

/-- Write at an endpoint's memory. -/
def endPut (r : FabReq) (bs : List Byte) (en : List Bool) (s : State) : State :=
  let a := r.addr.toNat
  match r.space with
  | .chamber =>
    if r.addr.getLsbD 26 then apertureWrite r.src (a / 2 ^ 24 % 4) (a % 2 ^ 24) bs en s
    else { s with mem := chamberPut (a % 2 ^ 26) bs en s.mem }
  | .staging => { s with mem := stagingPut (a % 2 ^ 23) bs en s.mem }
  | .dram => dramWrite a bs en s
  | _ => updCore r.dst (coreWrite (localAddr r.addr) bs en) s

/-- Serve a request at its endpoint and answer it (R40, R83, R85). An atomic on the aperture is discarded (R135). -/
def serveAt (write : Bool) (r : FabReq) (s : State) : State :=
  match r.atomic with
  | some op =>
    if r.space = .chamber ∧ r.addr.getLsbD 26 then
      answer r (List.replicate r.len 0, false)
        (raise .chmCmpPartial (apertureInst (r.addr.toNat / 2 ^ 24 % 4) (r.addr.toNat % 2 ^ 24)) (leBytes 4 (r.addr.toNat % 2 ^ 24) ++ leBytes 2 r.src.toNat) s)
    else
      let g := endGet r s
      if g.1.2 then answer r g.1 g.2
      else match atomicNew op r.len g.1.1 r.data with
        | some bs => answer r g.1 (endPut r bs [] g.2)
        | none => answer r g.1 g.2
  | none =>
    if write then answer r ([], false) (endPut r r.data r.en s)
    else
      let g := endGet r s
      answer r g.1 g.2

/-- Serve a request that has waited in a DRAM controller, unless its answer was given meanwhile (R45 step 4). -/
def serveWaiting (w : Bool × FabReq) (s : State) : State :=
  let i := getIsland s w.2.dst
  if i.accepted.contains (w.2.src, w.2.tag) then
    serveAt w.1 w.2 (setIsland w.2.dst { i with accepted := i.accepted.erase (w.2.src, w.2.tag) } s)
  else s
/-- A request waits no longer. -/
def unstall (w : Bool × FabReq) (s : State) : State := { s with mem := { s.mem with stalled := s.mem.stalled.erase w } }
/-- Waiting SAFETY requests whose buckets have refilled are served, in order (R197, R200; when this is looked at is log
entry 77). -/
def pumpStalled (s : State) : State :=
  s.mem.stalled.foldl (fun s w =>
    match refilled w.2 (max w.2.len w.2.data.length) s with
    | some t => serveWaiting w (unstall w t)
    | none => s) s

/-- A request reaches its endpoint (R40, R46, R197): a closed or gated island answers NACK; a DRAM request is charged to its
class, and one in BEST_EFFORT waits while that class is halted (R200). -/
def serve (write : Bool) (r : FabReq) (s : State) : State :=
  if ¬accepts s r.dst then emitFab (.nack r.src (.entry r.tag)) s
  else match r.space with
    | .host => serveHost write r s
    | .dram =>
      let c := charge r (max r.len r.data.length) (pumpStalled s)
      if c.1 = .bestEffort ∧ s.mem.halted then
        let s := c.2
        { s with mem := { s.mem with stalled := s.mem.stalled ++ [(write, r)] }
                 fab := { s.fab with islands := updK {} s.fab.islands r.dst.toNat (fun i => { i with accepted := i.accepted ++ [(r.src, r.tag)] }) } }
      else serveAt write r c.2
    | _ => serveAt write r s
/-- READ_REQ. -/
def execReadReq (r : FabReq) (s : State) : Res := .next (serve false r s)
/-- WRITE_REQ. -/
def execWriteReq (r : FabReq) (s : State) : Res := .next (serve true r s)

/-- A host read of BAR2 completes (R289). -/
def bar2Reply (g : Got) (s : State) : State := emit (.completion g.1 g.2 false false) s

/-- BEST_EFFORT resumes and BULK caps return (R200): waiting requests and host reads are served. -/
def resumeBestEffort (s : State) : State :=
  let waiting := s.mem.stalled
  let held := s.host.bar2Held
  let s := { s with mem := { s.mem with halted := false, bulk := 65536, stalled := [] }, host := { s.host with bar2Held := [] } }
  let s := waiting.foldl (fun s w => serveWaiting w s) s
  held.foldl (fun s h => bar2Reply (dramGet s h.1 h.2.1) s) s

/-- MIGRATION_COMPLETE (R194): every granule has been copied, the pair goes out of service, and D rises (R200). -/
def migrationComplete (s : State) : State :=
  if s.mem.migrating then resumeBestEffort { s with mem := { finishCopy s.mem with migrating := false, copied := [] } } else s
/-- MIGRATION_COMPLETE. -/
def execMigrationComplete (s : State) : Res := .next (migrationComplete s)

/-- Flits of a message (R37). -/
def flitCount (payload : Nat) : Nat := 1 + ceilDiv payload 32

/-- FLIT_TRANSFER (R31, R37, R43): one flit crosses; errors mark, poison or discard its message. -/
def flitTransfer (f : Flit) (s : State) : State :=
  let t := (getK none s.fab.transit f.id).getD { src := f.src, dst := f.dst, kind := f.kind, payload := f.payload }
  let t' := match f.ecc with
    | .uncorrectable => if f.head then { t with discarded := true } else { t with poison := true }
    | _ => t
  let t' := { t' with flits := t'.flits + 1 }
  let left := if flitCount f.payload ≤ t'.flits then none else some t'
  let s := { s with fab := { s.fab with transit := putK none s.fab.transit f.id left } }
  match f.ecc with
  | .clean => s
  | .corrected => raise .fabCe (at_ f.dst) (leBytes 2 f.src.toNat) s
  | .uncorrectable => if f.head then raise .fabHdrUe (at_ f.dst) (leBytes 2 f.src.toNat) s else s
/-- FLIT_TRANSFER. -/
def execFlitTransfer (f : Flit) (s : State) : Res := .next (flitTransfer f s)

/-- FAB_LINK_TIMEOUT (R32): the source names the link; the flit is not presented again and its message is handled as R43
handles an uncorrectable flit: a header's is discarded, a payload flit's is POISON. -/
def fabLinkTimeout (near far : Node) (f : Flit) (s : State) : State :=
  flitTransfer { f with ecc := .uncorrectable } (raise .fabLinkTimeout (at_ near) (leBytes 2 far.toNat) s)
/-- FAB_LINK_TIMEOUT. -/
def execFabLinkTimeout (near far : Node) (f : Flit) (s : State) : Res := .next (fabLinkTimeout near far f s)

/-- Discard a core's unconsumed messages and return their credits (R45 step 3); answers their number too. -/
def dropMessages (n : Node) (s : State) : Nat × State :=
  let c := getCore s n
  let all := c.chans.flatMap (fun e => match e.2 with | some ch => ch.msgs.map (fun m => (e.1, m)) | none => [])
  let s := all.foldl (fun s m => returnCredit m.2.src n m.1 s) s
  (all.length, updCore n (fun c => { c with chans := c.chans.map (fun e => (e.1, e.2.map (fun h => { h with msgs := [] }))) }) s)

/-- QUIESCE (R45 steps 2 and 3): ingress closes, the sequencer stops at the boundary, the drain begins. The drain limit is
held to 2 to 200 µs. -/
def quiesce (n : Node) (limitNs : Nat) (s : State) : State :=
  if (getIsland s n).closed ∨ ¬powered s n then s
  else
    let s := if isCore n then
        changeCore n (fun c => match c.run with
          | .run | .wait | .done | .idle => { c with run := .quiesced, wait := .none, skewHold := false }
          | _ => c) s
      else s
    let d := dropMessages n s
    let i := getIsland d.2 n
    setIsland n { i with closed := true, drained := false, known := false, discarded := d.1, poisoned := 0, abandoned := 0,
                         limit := now s + BitVec.ofNat 64 (max 2000 (min limitNs 200000)) } d.2
/-- QUIESCE. -/
def execQuiesce (n : Node) (limitNs : Nat) (s : State) : Res := .next (quiesce n limitNs s)

/-- QUIESCED (R45 step 5): once nothing is owed or pending, the island reports its three counts. -/
def quiesced (n : Node) (s : State) : State :=
  let i := getIsland s n
  if ¬i.closed ∨ i.drained ∨ ¬i.accepted.isEmpty ∨ ¬(getCore s n).pend.isEmpty then s
  else emitFab (.control n 0x200 (.quiesced i.discarded i.poisoned i.abandoned)) (setIsland n { i with drained := true } s)
/-- QUIESCED. -/
def execQuiesced (n : Node) (s : State) : Res := .next (quiesced n s)

/-- FAB_QUIESCE_TIMEOUT (R45 step 4): what is unanswered is answered POISON, own entries are abandoned, the source is raised. -/
def fabQuiesceTimeout (n : Node) (s : State) : State :=
  let i := getIsland s n
  let own := (getCore s n).pend.length
  if ¬i.closed ∨ i.drained ∨ (i.accepted.isEmpty ∧ own = 0) then s
  else
    let s := i.accepted.foldl (fun s a => emitFab (.reply a.1 a.2 .poison []) s) s
    let s := if own = 0 then s else updCore n (fun c => { c with pend := [] }) s
    let s := setIsland n { i with accepted := [], poisoned := i.poisoned + i.accepted.length, abandoned := i.abandoned + own } s
    raise .fabQuiesceTimeout (at_ n) [] s
/-- FAB_QUIESCE_TIMEOUT. -/
def execFabQuiesceTimeout (n : Node) (s : State) : Res := .next (fabQuiesceTimeout n s)

/-- A core reset (R55): register state, channels and generators at their reset values, the core HELD. Memories, whose reset
contents the spec calls undefined, stay as they are (log entry 4). -/
def coreReset (c : Core) : Core :=
  if c.run = .off then c else { retryReset c with scl := [], run := .held, memBad := c.memBad, started := false }

/-- QUIESCED_RECEIVED (R45 step 6): dispatch firmware knows the island quiesced, and may reset it. An update of dispatch
firmware and the gating of a domain are commands of their own (R49, R539). -/
def quiescedReceived (n : Node) (act : QAction) (s : State) : State :=
  let i := getIsland s n
  if ¬i.drained then s
  else
    let s := setIsland n { i with known := true } s
    match act with
    | .reset => if isCore n then changeCore n coreReset s else s
    | .hold | .update | .gate => s
/-- QUIESCED_RECEIVED. -/
def execQuiescedReceived (n : Node) (act : QAction) (s : State) : Res := .next (quiescedReceived n act s)

/-- Readmission (R48): empty receive buffers, closed pending tables; a quiesced core is ready to be started again at its entry. -/
def readmit (n : Node) (s : State) : State :=
  let i := getIsland s n
  if ¬i.closed ∨ ¬powered s n then s
  else
    let s := setIsland n {} s
    if isCore n then
      changeCore n (fun c => { c with
        run := if c.run = .quiesced then .idle else c.run, pend := [], nacked := none, started := false,
        chans := c.chans.map (fun e => (e.1, e.2.map (fun h => { h with msgs := [] }))) }) s
    else s
/-- ADMIT. -/
def execReadmit (n : Node) (s : State) : Res := .next (readmit n s)

end Sys2Proof.Machine
end

