-- ==== Sys2Proof/Machine/Prism.lean ====
section
/-! DEFINITION. Prism's pixel pipeline (R244–R249): unpacking, demosaic, colour, crop and resize, normalisation, conversion.
A plane is its rows of FP32 patterns; what the spec leaves open in the order of roundings is log entry 24, the packings of
CSI-2 lines are log entry 25. -/

namespace Sys2Proof.Machine

/-- A plane of samples, row by row. -/
abbrev Plane := List (List Nat)

/-- The sample at (x, y). -/
def pix (p : Plane) (x y : Nat) : Nat := (p.getD y []).getD x 0
/-- A plane from a function. -/
def mkPlane (w h : Nat) (f : Nat → Nat → Nat) : Plane := (List.range h).map (fun y => (List.range w).map (fun x => f x y))
/-- The FP32 pattern of an integer. -/
def fpInt (v : Int) : Nat := encodeFp fp32 (ofInt v)
/-- The FP32 pattern of a quotient of two integers, correctly rounded. -/
def fpRatio (a : Int) (b : Nat) : Nat :=
  if a = 0 ∨ b = 0 then 0
  else
    let q := a.natAbs * 2 ^ 60 / b
    let sticky := if a.natAbs * 2 ^ 60 % b = 0 then 0 else 1
    encodeFp fp32 (.fin (decide (a < 0)) (2 * q + sticky) (-61))
/-- FP32 division by a positive integer, correctly rounded. -/
def fpDivNat (x b : Nat) : Nat :=
  match decodeFp fp32 x with
  | .fin neg m e =>
    if m = 0 then x
    else
      let q := m * 2 ^ 60 / b
      let sticky := if m * 2 ^ 60 % b = 0 then 0 else 1
      encodeFp fp32 (.fin neg (2 * q + sticky) (e - 61))
  | y => encodeFp fp32 y

/-- Bits per sample of a RAW data type (R225). -/
def rawBits (dt : Nat) : Nat := match dt with | 0x2B => 10 | 0x2C => 12 | 0x2D => 14 | 0x2E => 16 | 0x2F => 20 | _ => 8
/-- Bits per pixel of a data type (R228); 0 for an unsupported one. -/
def dtBits (dt : Nat) : Nat :=
  match dt with
  | 0x2B => 10 | 0x2C => 12 | 0x2D => 14 | 0x2E => 16 | 0x2F => 20 | 0x1E => 16 | 0x24 => 24 | _ => 0

/-- The code of sample x of a packed RAW line (log entry 25). -/
def rawCode (dt : Nat) (line : List Byte) (x : Nat) : Nat :=
  let b (i : Nat) : Nat := (line.getD i 0).toNat
  match dt with
  | 0x2B => let g := 5 * (x / 4); b (g + x % 4) * 4 + b (g + 4) / 4 ^ (x % 4) % 4
  | 0x2C => let g := 3 * (x / 2); b (g + x % 2) * 16 + b (g + 2) / 16 ^ (x % 2) % 16
  | 0x2D => let g := 7 * (x / 4); b (g + x % 4) * 64 + (b (g + 4) + 256 * b (g + 5) + 65536 * b (g + 6)) / 64 ^ (x % 4) % 64
  | 0x2E => b (2 * x) * 256 + b (2 * x + 1)
  | 0x2F =>
    let g := 5 * (x / 2)
    let half (k : Nat) : Nat := b (g + k) * 4 + b (g + 4) / 4 ^ k % 4
    half (2 * (x % 2)) * 1024 + half (2 * (x % 2) + 1)
  | _ => b x

/-- One RAW sample with black level and gain (R245): p is the CFA phase 2 × (y mod 2) + x mod 2. -/
def rawSample (pr : Profile) (dt : Nat) (line : List Byte) (x y : Nat) : Nat :=
  let p := 2 * (y % 2) + x % 2
  let v := rawCode dt line x - pr.bl.getD p 0
  fpDivNat (fpMul fp32 (fpInt v) (pr.gain.getD p 0x3F800000).toNat) (2 ^ rawBits dt - 1)

/-- The colour at a CFA position (R244): 0 R, 1 G in a red row, 2 G in a blue row, 3 B. -/
def cfaAt (cfa x y : Nat) : Nat :=
  let p := 2 * (y % 2) + x % 2
  match cfa with
  | 0 => p
  | 1 => [1, 0, 3, 2].getD p 0
  | 2 => [2, 3, 0, 1].getD p 0
  | _ => 3 - p
/-- A coordinate mirrored at the border without repeating the edge sample (R245). -/
def mirrorAt (n : Nat) (v : Int) : Nat := if v < 0 then (-v).toNat else if (n : Int) ≤ v then (2 * ((n : Int) - 1) - v).toNat else v.toNat
/-- The mean of samples: their sum in order, times 1/2 or 1/4. -/
def fpMean (l : List Nat) : Nat :=
  let t := l.tail.foldl (fpAdd fp32) (l.headD 0)
  fpMul fp32 t (if l.length = 4 then 0x3E800000 else if l.length = 2 then 0x3F000000 else 0x3F800000)

/-- One colour of a demosaiced pixel (R245): 0 R, 1 G, 2 B. -/
def demosaicAt (cfa w h : Nat) (p : Plane) (col x y : Nat) : Nat :=
  let s (dx dy : Int) : Nat := pix p (mirrorAt w ((x : Int) + dx)) (mirrorAt h ((y : Int) + dy))
  let here := cfaAt cfa x y
  let cross := fpMean [s 0 (-1), s (-1) 0, s 1 0, s 0 1]
  let diag := fpMean [s (-1) (-1), s 1 (-1), s (-1) 1, s 1 1]
  let row := fpMean [s (-1) 0, s 1 0]
  let column := fpMean [s 0 (-1), s 0 1]
  match col, here with
  | 0, 0 => s 0 0
  | 0, 1 => row
  | 0, 2 => column
  | 0, _ => diag
  | 1, 1 => s 0 0
  | 1, 2 => s 0 0
  | 1, _ => cross
  | _, 3 => s 0 0
  | _, 2 => row
  | _, 1 => column
  | _, _ => diag

/-- Normalised luma and chroma codes (R246). -/
def normY (limited : Bool) (n code : Nat) : Nat :=
  if limited then fpRatio ((code : Int) - 16 * 2 ^ (n - 8)) (219 * 2 ^ (n - 8)) else fpRatio code (2 ^ n - 1)
def normC (limited : Bool) (n code : Nat) : Nat :=
  if limited then fpRatio ((code : Int) - 128 * 2 ^ (n - 8)) (224 * 2 ^ (n - 8)) else fpRatio ((code : Int) - 2 ^ (n - 1)) (2 ^ n - 1)

/-- a, b, c, d of the named matrices (R246), as the nearest FP32 values. -/
def matrixCoef (m : Nat) : Nat × Nat × Nat × Nat :=
  match m with
  | 1 => (0x3FB374BC, 0x3EB03298, 0x3F36D19E, 0x3FE2D0E5)
  | 2 => (0x3FC9930C, 0x3E3FD1DD, 0x3EEFADF3, 0x3FED844D)
  | _ => (0x3FBCBFB1, 0x3E288095, 0x3F124431, 0x3FF0D1B7)
/-- The FP32 value with its sign changed. -/
def fpNeg (x : Nat) : Nat := (x + 2 ^ 31) % 2 ^ 32

/-- The channels of one pixel after the colour matrix (R246, R247). -/
def colour (pr : Profile) (ycc : Bool) (ch : List Nat) : List Nat :=
  let y := ch.getD 0 0
  let cb := ch.getD 1 0
  let cr := ch.getD 2 0
  let rgb := if ch.length ≠ 3 then ch
    else if pr.matrix = 4 then
      let k (i : Nat) : Nat := (pr.custom.getD i 0).toNat
      (List.range 3).map (fun i => fpFma fp32 (k (3 * i + 2)) cr (fpFma fp32 (k (3 * i + 1)) cb (fpFma fp32 (k (3 * i)) y (k (9 + i)))))
    else if ¬ycc ∨ pr.matrix = 0 then ch
    else
      let m := matrixCoef pr.matrix
      [fpFma fp32 m.1 cr y, fpFma fp32 (fpNeg m.2.2.1) cr (fpFma fp32 (fpNeg m.2.1) cb y), fpFma fp32 m.2.2.2 cb y]
  if pr.bgr && ch.length == 3 then rgb.reverse else rgb

/-- Split planes of per-pixel channel lists. -/
def planesOf (n w h : Nat) (f : Nat → Nat → List Nat) : List Plane :=
  let px := (List.range h).map (fun y => (List.range w).map (fun x => f x y))
  (List.range n).map (fun c => px.map (fun row => row.map (fun l => l.getD c 0)))

/-- Steps 1 to 3 of R244 on a unit of `w` × `h` pixels: its planes. -/
def toPlanes (pr : Profile) (w h : Nat) (u : UnitBody) : List Plane :=
  match u with
  | .csi dt lines =>
    let line (y : Nat) : List Byte := lines.getD y []
    if dt = 0x1E then
      planesOf 3 w h (fun x y =>
        let b (i : Nat) : Nat := ((line y).getD (4 * (x / 2) + i) 0).toNat
        colour pr true [normY pr.limited 8 (b (1 + 2 * (x % 2))), normC pr.limited 8 (b 0), normC pr.limited 8 (b 2)])
    else if dt = 0x24 then
      planesOf 3 w h (fun x y =>
        let b (i : Nat) : Nat := fpRatio ((line y).getD (3 * x + i) 0).toNat 255
        colour pr false [b 2, b 1, b 0])
    else
      let raw := mkPlane w h (fun x y => rawSample pr dt (line y) x y)
      match pr.raw with
      | .mono => [raw]
      | .phases =>
        [0, 1, 2, 3].map (fun c =>
          let p := ((List.range 4).find? (fun k => cfaAt pr.cfa (k % 2) (k / 2) = c)).getD 0
          mkPlane (w / 2) (h / 2) (fun x y => pix raw (2 * x + p % 2) (2 * y + p / 2)))
      | .demosaic =>
        planesOf 3 w h (fun x y => colour pr false ((List.range 3).map (fun c => demosaicAt pr.cfa w h raw c x y)))
  | .picture n yp cb cr =>
    planesOf 3 w h (fun x y => colour pr true [normY pr.limited n (pix yp x y), normC pr.limited n (pix cb (x / 2) (y / 2)),
      normC pr.limited n (pix cr (x / 2) (y / 2))])
  | .points _ _ => []
  | .inbound _ => []
  | .none => []

/-- A source rectangle of a plane (R248). -/
def cropPlane (x0 y0 w h : Nat) (p : Plane) : Plane := ((p.drop y0).take h).map (fun r => (r.drop x0).take w)
/-- Average over 2 × 2 blocks; an odd last row or column is averaged with itself (R248). -/
def halve (w h : Nat) (p : Plane) : Plane :=
  mkPlane ((w + 1) / 2) ((h + 1) / 2) (fun x y =>
    let x1 := min (2 * x + 1) (w - 1)
    let y1 := min (2 * y + 1) (h - 1)
    fpMean [pix p (2 * x) (2 * y), pix p x1 (2 * y), pix p (2 * x) y1, pix p x1 y1])
/-- Halve while a ratio is below 1/2 (R248): at most three times, since ratios are at least 1/8. -/
def shrink : Nat → Nat → Nat → Nat → Nat → Plane → Nat × Nat × Plane
  | 0, w, h, _, _, p => (w, h, p)
  | k + 1, w, h, wo, ho, p =>
    if 2 * wo < w ∨ 2 * ho < h then shrink k ((w + 1) / 2) ((h + 1) / 2) wo ho (halve w h p) else (w, h, p)
/-- A sampling position (R248): its lower index and its fractional part, clamped to the plane. -/
def samplePos (i n no : Nat) : Nat × Nat :=
  let u := fpSub fp32 (fpDivNat (fpMul fp32 (fpRatio (2 * i + 1) 2) (fpInt n)) no) 0x3F000000
  match decodeFp fp32 u with
  | .fin neg m e =>
    if neg ∨ m = 0 then (0, 0)
    else
      let k := if 0 ≤ e then m * 2 ^ e.toNat else m / 2 ^ (-e).toNat
      if n ≤ k + 1 then (n - 1, 0) else (k, fpSub fp32 u (fpInt k))
  | _ => (0, 0)
/-- a + t × (b − a). -/
def lerp (t a b : Nat) : Nat := if t = 0 then a else fpFma fp32 t (fpSub fp32 b a) a
/-- Crop and resize one plane (R248). -/
def resample (x0 y0 w h wo ho : Nat) (p : Plane) : Plane :=
  let q := shrink 3 w h wo ho (cropPlane x0 y0 w h p)
  mkPlane wo ho (fun i j =>
    let u := samplePos i q.1 wo
    let v := samplePos j q.2.1 ho
    let x1 := min (u.1 + 1) (q.1 - 1)
    let y1 := min (v.1 + 1) (q.2.1 - 1)
    lerp v.2 (lerp u.2 (pix q.2.2 u.1 v.1) (pix q.2.2 x1 v.1)) (lerp u.2 (pix q.2.2 u.1 y1) (pix q.2.2 x1 y1)))

/-- One normalised and converted sample (R249): its pattern, its width in bytes, and whether it saturated. -/
def outSample (pr : Profile) (c x : Nat) : Nat × Nat × Bool :=
  let z := decodeFp fp32 (fpFma fp32 x (pr.a.getD c 0).toNat (pr.b.getD c 0).toNat)
  match pr.ofmt with
  | 0 => let r := convInt 8 z; (intPat 8 r.1, 1, r.2)
  | 1 => let r := convFp e4m3 z; (r.1, 1, r.2)
  | 2 => let r := convFp e5m2 z; (r.1, 1, r.2)
  | 3 => let r := convFp bf16 z; (r.1, 2, r.2)
  | _ => let r := convFp fp16 z; (r.1, 2, r.2)

/-- Bytes of an output element. -/
def outBytes (ofmt : Nat) : Nat := if ofmt ≤ 2 then 1 else 2
/-- Row pitch of an output image: the next multiple of 64 bytes (R249). -/
def rowPitch (ofmt w : Nat) : Nat := ceilDiv (w * outBytes ofmt) 64 * 64
/-- An output image, planar, rows padded with zeros (R249), and its number of saturations. -/
def outImage (pr : Profile) (x0 y0 w h wo ho : Nat) (ps : List Plane) : List Byte × Nat :=
  let rows := (List.range ps.length).flatMap (fun c => (resample x0 y0 w h wo ho (ps.getD c [])).map (fun r => r.map (outSample pr c)))
  (rows.flatMap (fun r => sub (r.flatMap (fun e => leBytes e.2.1 e.1)) 0 (rowPitch pr.ofmt wo)),
   (rows.map (fun r => (r.filter (fun e => e.2.2)).length)).sum)

/-- A rectangle and an output size that R248 and R256 allow on a unit of W × H. -/
def rectOk (uw uh : Nat) (r : Roi) : Bool :=
  decide (0 < r.w) && decide (0 < r.h) && decide (0 < r.wo) && decide (0 < r.ho) && decide (r.x0 + r.w ≤ uw) && decide (r.y0 + r.h ≤ uh)
    && decide (r.w ≤ 8 * r.wo) && decide (r.h ≤ 8 * r.ho) && decide (r.wo ≤ 4 * r.w) && decide (r.ho ≤ 4 * r.h)

end Sys2Proof.Machine
end

