-- ==== Sys2Proof/Machine/Kv.lean ====
section
/-! DEFINITION. The KV manager: pages, tiers, fetches, movement and preemption (R149–R163). -/

namespace Sys2Proof.Machine

/-- Bytes of a page (R149). -/
def kvBytes : Nat := 32768

/-- The running plan's pools and sequences. -/
def kvPools (s : State) : KvPools := match curPlan s with | some p => p.img.pools | none => {}
def kvDecl (s : State) (q : Nat) : Option SeqDecl := match curPlan s with | some p => p.img.seqs.find? (fun d => d.id = q) | none => none
/-- Priority of a sequence (R150). -/
def kvPrio (s : State) (q : Nat) : Nat := match kvDecl s q with | some d => d.priority | none => 0
/-- GUARANTEED (R150). -/
def kvGuaranteed (s : State) (q : Nat) : Bool := match kvDecl s q with | some d => d.guaranteed | none => false

/-- A page of a sequence. -/
def kvPage (s : State) (q p : Nat) : Option KvPage := s.kv.pages.find? (fun x => x.seq = q ∧ x.page = p)
/-- Replace a page. -/
def setPage (x : KvPage) (s : State) : State :=
  { s with kv := { s.kv with pages := s.kv.pages.map (fun y => if y.seq = x.seq ∧ y.page = x.page then x else y) } }

/-- Frames in use. -/
def chamberUsed (s : State) (g f : Nat) : Bool := s.kv.pages.any (fun x => x.tier = .chamber g f)
def dramUsed (s : State) (f : Nat) : Bool :=
  s.kv.pages.any (fun x => x.left = some f || (match x.tier with | .dram k => k = f | .moving k _ => k = f | .toSump k _ => k = f | _ => false))
def sumpUsed (s : State) (f : Nat) : Bool :=
  s.kv.pages.any (fun x => x.copy = some f || (match x.tier with | .sump k => k = f | .moving _ k => k = f | .toSump _ k => k = f | _ => false))
/-- The lowest free frame of the chamber pool, by gallery, of the DRAM pool and of the sump pool (R151). -/
def freeChamber (s : State) : Option (Nat × Nat) :=
  (List.range 4).findSome? (fun g =>
    (((List.range ((kvPools s).chamber.getD g (0, 0)).1).find? (fun f => !chamberUsed s g f)).map (fun f => (g, f))))
def freeDram (s : State) : Option Nat := (List.range (kvPools s).dram.1).find? (fun f => !dramUsed s f)
def freeSump (s : State) : Option Nat := (List.range (kvPools s).sump).find? (fun f => !sumpUsed s f)

/-- Where frames lie: a chamber key, a DRAM address, an offset in the sump object (R151). -/
def chamberFrame (s : State) (g f : Nat) : Nat := g * 2 ^ 24 + ((kvPools s).chamber.getD g (0, 0)).2 + f * kvBytes
def dramFrame (s : State) (f : Nat) : Nat := (kvPools s).dram.2 + f * kvBytes

/-- The page is its sequence's tail (R153). -/
def isTail (s : State) (x : KvPage) : Bool := decide ((getK {} s.kv.seqs x.seq).tail = x.page) && !x.closed

/-- x goes before y as a victim (R159): lower priority, then selected less recently, then the lower page number. -/
def victimBefore (s : State) (x y : KvPage) : Bool :=
  let a := (kvPrio s x.seq, x.sel.toNat, x.page)
  let b := (kvPrio s y.seq, y.sel.toNat, y.page)
  decide (a.1 < b.1) || (decide (a.1 = b.1) && (decide (a.2.1 < b.2.1) || (decide (a.2.1 = b.2.1) && decide (a.2.2 < b.2.2))))
/-- The victim among pages (R159). -/
def pickVictim (s : State) : List KvPage → Option KvPage
  | [] => none
  | x :: xs => match pickVictim s xs with
    | none => some x
    | some y => if victimBefore s x y then some x else some y
/-- Victims of the chamber and of DRAM: unpinned, no tail, in DRAM no GUARANTEED sequence (R153, R159). -/
def chamberVictims (s : State) : List KvPage :=
  s.kv.pages.filter (fun x => x.pins.isEmpty && !isTail s x && (match x.tier with | .chamber _ _ => true | _ => false))
def dramVictims (s : State) : List KvPage :=
  s.kv.pages.filter (fun x => x.pins.isEmpty && !kvGuaranteed s x.seq && (match x.tier with | .dram _ => true | _ => false))

/-- The instance of a sequence: the core that the plan names as its writer, and the sequence number (R153, R440). -/
def kvInst (s : State) (q : Nat) : Inst :=
  match curPlan s with
  | some p => sub_ (match p.img.cores.find? (fun c => c.writes.contains q) with | some c => c.site | none => 0x200) q
  | none => sub_ 0x200 q

/-- The class that a KV move is carried in (R195). -/
def kvClass (s : State) (q : Nat) : BwClass := if kvGuaranteed s q then .safety else .bulk
/-- Write a page frame of DRAM: whole lines, so their poison goes (R191). -/
def dramStore (a : Nat) (bs : List Byte) (m : MemT) : MemT :=
  let m := dramPuts a bs [] m
  let whole := ((dramLines m a bs.length).filter (fun l => decide (a ≤ l.2) && decide (l.2 + 64 ≤ a + bs.length))).map (·.1)
  { m with dramBad := m.dramBad.filter (fun l => !whole.contains l) }
/-- Copy a page from the chamber to DRAM and back; poison goes with it (log entry 77). -/
def pageToDram (cls : BwClass) (a k : Nat) (m : MemT) : MemT :=
  let m := countBytes cls a kvBytes (dramStore a (rdN m.chamber k kvBytes) m)
  let bad := (List.range (kvBytes / 64)).filterMap (fun i =>
    if wordsClean m.chamberBad (k + 64 * i) 64 then none else some (dramKey m (a + 64 * i) / 64))
  { m with dramBad := m.dramBad ++ bad }
def pageToChamber (cls : BwClass) (a k : Nat) (m : MemT) : MemT :=
  let bad := (List.range (kvBytes / 8)).filterMap (fun i =>
    if m.dramBad.contains (dramKey m (a + 8 * i) / 64) then some (k / 8 + i) else none)
  let m := chamberPut k (dramGets m a kvBytes) [] (countBytes cls a kvBytes m)
  { m with chamberBad := m.chamberBad ++ bad }

/-- Move a DRAM page down (R159, R161, R163): posted writes to its sump frame, or dropped while the link is down or the
sump is full. -/
def demoteDram (x : KvPage) (s : State) : State :=
  match x.tier with
  | .dram f =>
    let up := s.host.up && s.host.attached
    match (if up then (match x.copy with | some c => some c | none => freeSump s) else none), (kvPools s).sumpObj with
    | some c, some o =>
      let bs := dramGets s.mem (dramFrame s f) kvBytes
      postWrite { obj := some o, addr := BitVec.ofNat 64 (c * kvBytes), data := bs } (setPage { x with tier := .toSump f c, copy := none }
        { s with mem := countBytes (kvClass s x.seq) (dramFrame s f) kvBytes s.mem })
    | _, _ => raise .kvDrop (kvInst s x.seq) (leBytes 2 x.seq ++ leBytes 2 x.page) (setPage { x with tier := .dropped, copy := none } s)
  | _ => s

/-- Move a chamber page to a free DRAM frame (R159). -/
def demoteChamber (x : KvPage) (f : Nat) (s : State) : State :=
  match x.tier with
  | .chamber g k =>
    setPage { x with tier := .dram f } { s with mem := pageToDram (kvClass s x.seq) (dramFrame s f) (chamberFrame s g k) s.mem }
  | _ => s

/-- A chamber frame for a page of a priority (R159, R160): a free one, or a victim moved to a free DRAM frame. `below` asks
for a victim of a lower priority. -/
def takeChamber (below : Option Nat) (s : State) : Option (Nat × Nat) × State :=
  match freeChamber s with
  | some gf => (some gf, s)
  | none =>
    let vs := match below with
      | some p => (chamberVictims s).filter (fun x => kvPrio s x.seq < p)
      | none => chamberVictims s
    match pickVictim s vs with
    | none => (none, s)
    | some v =>
      match freeDram s with
      | some f => let s := demoteChamber v f s; (freeChamber s, s)
      | none =>
        match pickVictim s (dramVictims s) with
        | some d => (none, demoteDram d s)
        | none => (none, s)

/-- Demote every unpinned DRAM page of a sequence (R162 step 2). -/
def demoteAll (q : Nat) (s : State) : State :=
  (s.kv.pages.filter (fun x => decide (x.seq = q) && x.pins.isEmpty)).foldl (fun s x => demoteDram x s) s

/-- The sequence to preempt (R162 step 1): below the requester's priority, holding unpinned DRAM frames, lowest priority,
among equals the highest number. -/
def preemptee (s : State) (prio : Nat) : Option Nat :=
  let held := ((dramVictims s).map (·.seq)).filter (fun q => kvPrio s q < prio)
  held.foldl (fun b q => match b with
    | none => some q
    | some r => if kvPrio s q < kvPrio s r ∨ (kvPrio s q = kvPrio s r ∧ r < q) then some q else some r) none

/-- A frame in DRAM for a fetched sump page (R160 step 1, R162): taken, awaited, or refused (`none` second). -/
def takeDram (prio : Nat) : Nat → State → Option Nat × Bool × State
  | 0, s => (none, true, s)
  | fuel + 1, s =>
    match freeDram s with
    | some f => (some f, true, s)
    | none =>
      if s.kv.pages.any (fun x => match x.tier with | .toSump _ _ => true | _ => false) then (none, true, s)
      else match pickVictim s (dramVictims s) with
        | some v => takeDram prio fuel (demoteDram v s)
        | none =>
          match preemptee s prio with
          | some q =>
            let s := { s with kv := { s.kv with seqs := updK {} s.kv.seqs q (fun x => { x with preempted := true }) } }
            takeDram prio fuel (raise .kvPreempt (kvInst s q) (leBytes 2 q) (demoteAll q s))
          | none => (none, false, s)

/-- Issue the read of a sump page into a DRAM frame (R160 step 2). -/
def startMove (x : KvPage) (f c : Nat) (s : State) : State :=
  let s := setPage { x with tier := .moving f c, arrived := false } s
  hostReq (.sump x.seq x.page)
    (fun t => .hostRead t (kvPools s).sumpObj (BitVec.ofNat 64 (c * kvBytes)) kvBytes) s

/-- Progress one listed page of a fetch (R157, R160, R162, R163): the request's status, and the state. -/
def fetchPage (r : KvReq) (p : Nat) (s : State) : Nat × State :=
  match kvPage s r.seq p with
  | none => (max r.status 1, s)
  | some x =>
    match x.tier with
    | .sump c =>
      if ¬(s.host.up ∧ s.host.attached) then
        let first := !s.kv.unreachable
        let s := { s with kv := { s.kv with unreachable := true } }
        (max r.status 1, if first then raise .kvSumpUnreachable (kvInst s r.seq) (leBytes 2 r.seq) s else s)
      else
        let t := takeDram (kvPrio s r.seq) 64 s
        match t.1 with
        | some f => (r.status, match kvPage t.2.2 r.seq p with | some y => startMove y f c t.2.2 | none => t.2.2)
        | none => (if t.2.1 then r.status else 2, t.2.2)
    | _ => (r.status, s)

/-- Progress the pages of a fetch. -/
def fetchPages (r : KvReq) : List Nat → State → KvReq × State
  | [], s => (r, s)
  | p :: ps, s => let t := fetchPage r p s; fetchPages { r with status := t.1 } ps t.2

/-- Progress every fetch not answered, oldest first. -/
def kvAdvance (s : State) : State :=
  s.kv.reqs.foldl (fun s r =>
    if r.status = 2 then s
    else
      let t := fetchPages r r.pages s
      { t.2 with kv := { t.2.kv with reqs := t.2.kv.reqs.map (fun x => if x = r then t.1 else x) } }) s

/-- Pin or release pages for a core (R157). -/
def pinPages (n : Node) (q : Nat) (ps : List Nat) (s : State) : State :=
  { s with kv := { s.kv with pages := s.kv.pages.map (fun x =>
      if x.seq = q ∧ ps.contains x.page then { x with pins := if x.pins.contains n then x.pins else x.pins ++ [n] } else x) } }
def unpin (n : Node) (s : State) : State :=
  { s with kv := { s.kv with pages := s.kv.pages.map (fun x => { x with pins := x.pins.erase n }) } }
/-- Note the selection of pages in a frame (R159, R160). -/
def selectPages (q : Nat) (ps : List Nat) (fr : W32) (s : State) : State :=
  { s with kv := { s.kv with pages := s.kv.pages.map (fun x =>
      if x.seq = q ∧ ps.contains x.page then
        { x with twice := decide (x.sel + 1 = fr) || (decide (x.sel = fr) && x.twice), sel := fr }
      else x) } }

/-- The answer given in this frame to an identical request of the partner core of a mirror pair (R158). -/
def answeredFor (s : State) (r : KvReq) : Option (List Byte) :=
  (s.kv.answered.find? (fun a => decide (a.2.1 = r.seq ∧ a.2.2.1 = r.pages ∧ a.2.2.2.1 = r.frame ∧ a.1 ≠ r.core)
    && (match pairOf s r.core with | some p => a.1 = p.map.lead || a.1 = p.map.trail | none => false))).map (·.2.2.2.2)

/-- KV_FETCH (R156–R158). -/
def kvFetch (n : Node) (body : List Byte) (s : State) : State :=
  let q := fld body 0 2
  let cnt := fld body 2 1
  let ps := (List.range cnt).map (fun i => fld body (6 + 2 * i) 2)
  let fr := BitVec.ofNat 16 (fld body 4 2)
  let s := if fld body 3 1 % 2 = 1 then unpin n s else s
  let sq := getK ({} : KvSeq) s.kv.seqs q
  let r0 : KvReq := { core := n, seq := q, pages := ps, frame := fr }
  let status := match answeredFor s r0 with
    | some b => fld b 3 1
    | none => if sq.preempted then 2 else 0
  let r : KvReq := { r0 with status }
  let s := { s with kv := { s.kv with reqs := s.kv.reqs ++ [r] } }
  if status = 2 then s else kvAdvance (selectPages q ps (frameNo s) (pinPages n q ps s))
/-- KV_FETCH. -/
def execKvFetch (n : Node) (body : List Byte) (s : State) : Res := .next (kvFetch n body s)

/-- The placement word of a page (R156). -/
def placeWord (s : State) (q p : Nat) : Nat :=
  match kvPage s q p with
  | some x => (match x.tier with
    | .chamber g f => 2 ^ 30 + g * 2 ^ 28 + f
    | .dram f => 2 ^ 31 + f
    | _ => 0)
  | none => 0
/-- Every listed page is placed, or stays unavailable (R157, R163). -/
def fetchReady (s : State) (r : KvReq) : Bool :=
  (answeredFor s r).isSome || decide (r.status = 2) || r.pages.all (fun p => match kvPage s r.seq p with
    | some x => (match x.tier with
      | .moving _ _ => false
      | .toSump _ _ => false
      | .sump _ => decide (r.status = 1) && !(s.host.up && s.host.attached)
      | _ => true)
    | none => true)

/-- Promote DRAM pages selected in two consecutive frames (R160), after their KV_PLACE. The DRAM frame that the answer named is
kept until the frame ends, so that the partner's identical request gets the same tiers (R158). -/
def promote (q : Nat) : List Nat → State → State
  | [], s => s
  | p :: ps, s =>
    match kvPage s q p with
    | some x =>
      (match x.tier with
      | .dram f =>
        if x.twice then
          let t := takeChamber (some (kvPrio s q)) s
          match t.1 with
          | some (g, k) =>
            promote q ps (setPage { x with tier := .chamber g k, copy := none, left := some f }
              { t.2 with mem := pageToChamber (kvClass s q) (dramFrame s f) (chamberFrame s g k) t.2.mem })
          | none => promote q ps t.2
        else promote q ps s
      | _ => promote q ps s)
    | none => promote q ps s

/-- KV_PLACE (R156–R158, R160): answers a core's oldest fetch once it is ready; the partner's identical request gets the same
answer. -/
def kvPlace (n : Node) (s : State) : State :=
  match s.kv.reqs.find? (fun r => r.core = n) with
  | none => s
  | some r =>
    if ¬fetchReady s r then s
    else match answeredFor s r with
    | some body => emitFab (.control 0x200 n (.kvPlace body)) { s with kv := { s.kv with reqs := s.kv.reqs.erase r } }
    | none =>
      let hdr := leBytes 2 r.seq ++ leBytes 1 (if r.status = 2 then 0 else r.pages.length) ++ leBytes 1 r.status
      let body := hdr ++ (if r.status = 2 then [] else r.pages.flatMap (fun p => leBytes 4 (placeWord s r.seq p)))
      let s := { s with kv := { s.kv with reqs := s.kv.reqs.erase r, answered := s.kv.answered ++ [(n, r.seq, r.pages, r.frame, body)] } }
      let s := emitFab (.control 0x200 n (.kvPlace body)) s
      if r.status = 2 then s else promote r.seq r.pages s
/-- KV_PLACE. -/
def execKvPlace (n : Node) (s : State) : Res := .next (kvPlace n s)

/-- Open the next page of a sequence as its tail (R153): its number wraps at P_max, the oldest page gives its number up when
it is not pinned, and the frame lies in chamber. `false` when a number or a frame is missing. -/
def openTail (q : Nat) (s : State) : Bool × State :=
  match kvDecl s q with
  | none => (false, s)
  | some d =>
    let sq := getK ({} : KvSeq) s.kv.seqs q
    let num := if sq.opened = 0 then 0 else (sq.tail + 1) % max d.pMax 1
    let wraps := decide (d.pMax ≤ (s.kv.pages.filter (fun x => x.seq = q)).length)
    let pinned := wraps && s.kv.pages.any (fun x => decide (x.seq = q) && decide (x.page = sq.first) && !x.pins.isEmpty)
    if pinned then (false, s)
    else
      let s := if wraps then
          { s with kv := { s.kv with pages := s.kv.pages.filter (fun x => ¬(x.seq = q ∧ x.page = sq.first)),
                                     seqs := putK {} s.kv.seqs q { sq with first := (sq.first + 1) % max d.pMax 1 } } }
        else s
      let t := takeChamber none s
      match t.1 with
      | none => (false, t.2)
      | some (g, f) =>
        let sq := getK {} t.2.kv.seqs q
        (true, { t.2 with kv := { t.2.kv with
          pages := t.2.kv.pages ++ [{ seq := q, page := num, tier := .chamber g f, sel := frameNo s }]
          seqs := putK {} t.2.kv.seqs q { sq with tail := num, opened := sq.opened + 1, openedNow := true, due := false, discarding := false } } })

/-- KV_SEAL (R153): the tail is sealed and the next page opens. -/
def kvSeal (body : List Byte) (s : State) : State :=
  let q := fld body 0 2
  let p := fld body 2 2
  match kvPage s q p with
  | none => s
  | some x =>
    if isTail s x then
      let t := openTail q (setPage { x with closed := true } s)
      if t.1 then t.2 else { t.2 with kv := { t.2.kv with seqs := updK {} t.2.kv.seqs q (fun y => { y with due := true }) } }
    else s
/-- KV_SEAL. -/
def execKvSeal (_n : Node) (body : List Byte) (s : State) : Res := .next (kvSeal body s)

/-- SUMP_PAGE_ARRIVAL (R160 step 3). -/
def sumpArrival (q p : Nat) (data : List Byte) (s : State) : State :=
  match kvPage s q p with
  | none => s
  | some x =>
    match x.tier with
    | .moving f _ =>
      setPage { x with arrived := true } { s with mem := countBytes (kvClass s q) (dramFrame s f) kvBytes (dramStore (dramFrame s f) (sub data 0 kvBytes) s.mem) }
    | _ => s
/-- SUMP_PAGE_ARRIVAL. -/
def execSumpPageArrival (q p : Nat) (data : List Byte) (s : State) : Res := .next (sumpArrival q p data s)

/-- PAGE_WRITE_COMPLETE (R160 steps 3 and 4): the sump frame stays the page's copy. -/
def pageWritten (q p : Nat) (s : State) : State :=
  match kvPage s q p with
  | none => s
  | some x =>
    match x.tier with
    | .moving f c => if x.arrived then kvAdvance (setPage { x with tier := .dram f, copy := some c, arrived := false } s) else s
    | _ => s
/-- PAGE_WRITE_COMPLETE. -/
def execPageWriteComplete (q p : Nat) (s : State) : Res := .next (pageWritten q p s)

/-- DEMOTION_WRITES_ACCEPTED (R161): the page is SUMP, its DRAM frame is free. -/
def demotionAccepted (q p : Nat) (s : State) : State :=
  match kvPage s q p with
  | none => s
  | some x =>
    match x.tier with
    | .toSump _ c => kvAdvance (setPage { x with tier := .sump c } s)
    | _ => s
/-- DEMOTION_WRITES_ACCEPTED. -/
def execDemotionWritesAccepted (q p : Nat) (s : State) : Res := .next (demotionAccepted q p s)

/-- Pages whose sump copy was being written when the sump object became TORN are dropped (R161). -/
def kvTorn (s : State) : State :=
  match (kvPools s).sumpObj with
  | none => s
  | some o =>
    if s.host.torn.any (fun t => t.obj = o && t.gen = s.host.gen) then
      (s.kv.pages.filter (fun x => match x.tier with | .toSump _ _ => true | _ => false)).foldl (fun s x =>
        raise .kvDrop (kvInst s x.seq) (leBytes 2 x.seq ++ leBytes 2 x.page) (setPage { x with tier := .dropped } s)) s
    else s

/-- A sump read completed with POISON or was lost (R163, R296): the page stays in the sump, its frame is freed. -/
def sumpFailed (q p : Nat) (s : State) : State :=
  match kvPage s q p with
  | none => s
  | some x =>
    match x.tier with
    | .moving _ c =>
      let s := setPage { x with tier := .sump c, arrived := false } s
      let first := !s.kv.unreachable
      let s := { s with kv := { s.kv with unreachable := true, reqs := s.kv.reqs.map (fun r =>
        if r.seq = q ∧ r.pages.contains p ∧ r.status = 0 then { r with status := 1 } else r) } }
      if first then raise .kvSumpUnreachable (kvInst s q) (leBytes 2 q) s else s
    | _ => s

/-- The manager's part of a frame start (R153, R162): sequences without a tail open one, or raise KV_POOL_EXHAUSTED. -/
def kvFrameStart (s : State) : State :=
  let ids := match curPlan s with | some p => p.img.seqs.map (fun d : SeqDecl => d.id) | none => []
  ids.foldl (fun (s : State) (q : Nat) =>
    let sq := getK ({} : KvSeq) s.kv.seqs q
    if sq.due ∨ sq.opened = 0 then
      let t := openTail q s
      if t.1 then t.2
      else raise .kvPoolExhausted (kvInst s q) (leBytes 2 q)
        { t.2 with kv := { t.2.kv with seqs := updK {} t.2.kv.seqs q (fun y => { y with discarding := true }) } }
    else s) s
/-- The manager's part of a frame end (R157, R158, R162). -/
def kvFrameEnd (s : State) : State :=
  { s with kv := { s.kv with
      pages := s.kv.pages.map (fun x => { x with pins := [], left := none })
      seqs := s.kv.seqs.map (fun e => (e.1, { e.2 with preemptedLast := e.2.preempted, preempted := false, openedNow := false, discarding := false }))
      answered := [], unreachable := false, reqs := [] } }

/-- A KV entry of a FRAME_START message (R100); the tail's token count is a free value unless the page has just opened
(log entry 22). -/
def kvEntry (q : Nat) (s : State) : List Byte × State :=
  let sq := getK ({} : KvSeq) s.kv.seqs q
  let loc := match kvPage s q sq.tail with
    | some x => (match x.tier with | .chamber g f => (g, f) | _ => (0, 0))
    | none => (0, 0)
  let flags := (if sq.openedNow then 1 else 0) + (if sq.discarding then 2 else 0) + (if sq.preemptedLast then 4 else 0)
  let c := if sq.openedNow then ((0 : BitVec 4), s) else freshBits 4 s
  (leBytes 2 q ++ leBytes 1 loc.1 ++ leBytes 1 flags ++ leBytes 2 sq.tail ++ leBytes 2 loc.2 ++ leBytes 1 c.1.toNat
    ++ List.replicate 7 0, c.2)

end Sys2Proof.Machine
end

