-- ==== Sys2Proof/Machine/Mirror.lean ====
section
/-! DEFINITION. Mirrored execution: comparators, verdicts at the collector, long windows and the restart of a retry
(R394–R400). -/

namespace Sys2Proof.Machine

/-- A pair of the running plan by its number. -/
def getPair (s : State) (pair : Nat) : Option Pair := s.mir.pairs.find? (fun p => p.map.pair = pair)

/-- A comparator's verdict flit to the fault collector (R397). -/
def sendVerdict (m : MapPair) (cmp1 : Bool) (window : W32) (v : CmpVerdict) (s : State) : State :=
  emitFab (.control (if cmp1 then m.cmp1 else m.cmp0) 0x209 (.verdict (BitVec.ofNat 8 m.pair) cmp1 window v)) s

/-- The signatures pending at a comparator. -/
def pendSigs (cmp1 : Bool) (s : State) : List PendSig := if cmp1 then s.mir.cmp1 else s.mir.cmp0
def setPendSigs (cmp1 : Bool) (l : List PendSig) (s : State) : State :=
  if cmp1 then { s with mir := { s.mir with cmp1 := l } } else { s with mir := { s.mir with cmp0 := l } }

/-- SIGNATURE (R397): matched by frame, attempt and window, or held; a ninth pending signature judges the oldest. -/
def signature (cmp1 : Bool) (m : SigMsg) (s : State) : State :=
  match getPair s m.pair.toNat with
  | none => s
  | some p =>
    let pend := pendSigs cmp1 s
    let pair := m.pair.toNat
    let hit := pend.find? (fun x => x.pair = pair && x.trail != m.trail && x.attempt == m.attempt
      && decide (x.frame = m.frame) && decide (x.window = m.window))
    match hit with
    | some x =>
      sendVerdict p.map cmp1 m.window (if x.sig = m.sig then .equal else .unequal) (setPendSigs cmp1 (pend.erase x) s)
    | none =>
      let e : PendSig := { pair, trail := m.trail, attempt := m.attempt, frame := m.frame, window := m.window, sig := m.sig, at_ := now s }
      let mine := pend.filter (fun x => x.pair = pair)
      match (if 8 ≤ mine.length then mine.head? else none) with
      | some o => sendVerdict p.map cmp1 o.window .overrun (setPendSigs cmp1 (pend.erase o ++ [e]) s)
      | none => setPendSigs cmp1 (pend ++ [e]) s
/-- SIGNATURE. -/
def execSignature (cmp1 : Bool) (m : SigMsg) (s : State) : Res := .next (signature cmp1 m s)

/-- COMPARATOR_TIMEOUT (R397): a signature that has waited 1 ms without its counterpart is judged TIMEOUT. -/
def comparatorTimeout (cmp1 : Bool) (pair : Nat) (trail : Bool) (window : W32) (s : State) : State :=
  let pend := pendSigs cmp1 s
  match getPair s pair, pend.find? (fun x => x.pair = pair && x.trail == trail && decide (x.window = window)) with
  | some p, some x => sendVerdict p.map cmp1 window .timeout (setPendSigs cmp1 (pend.erase x) s)
  | _, _ => s
/-- COMPARATOR_TIMEOUT. -/
def execComparatorTimeout (cmp1 : Bool) (pair : Nat) (trail : Bool) (window : W32) (s : State) : Res :=
  .next (comparatorTimeout cmp1 pair trail window s)

/-- Codes of a verdict in a report (R463), in the order of R397; 4 stands for none. -/
def verdictNum : Option CmpVerdict → Nat
  | some .equal => 0 | some .unequal => 1 | some .timeout => 2 | some .overrun => 3 | none => 4
/-- MIRROR detail of an urgent report (R463): pair, window and the two verdicts. -/
def mirDetail (pair : Nat) (window : W32) (v0 v1 : Option CmpVerdict) : List Byte :=
  leBytes 1 pair ++ leBytes 4 window.toNat ++ leBytes 1 (verdictNum v0) ++ leBytes 1 (verdictNum v1)
/-- The instance of a pair: LEAD's node and the pair number. -/
def pairInst (m : MapPair) : Inst := sub_ m.lead m.pair

/-- MIR_VERDICT_DIFFER (R398). -/
def verdictDiffer (p : Pair) (window : W32) (v0 v1 : Option CmpVerdict) (s : State) : State :=
  raiseAs .mirVerdictDiffer (pairInst p.map) .c3 false (mirDetail p.map.pair window v0 v1) s

/-- VERDICT (R398): the collector combines the two verdicts of a window. -/
def verdict (pair : Nat) (cmp1 : Bool) (window : W32) (v : CmpVerdict) (s : State) : State :=
  match getPair s pair with
  | none => s
  | some p =>
    match s.mir.verdicts.find? (fun x => x.pair = pair && x.cmp1 != cmp1 && decide (x.window = window)) with
    | none =>
      { s with mir := { s.mir with verdicts := s.mir.verdicts ++ [{ pair, cmp1, window, verdict := v, at_ := now s }] } }
    | some x =>
      let s := { s with mir := { s.mir with verdicts := s.mir.verdicts.erase x } }
      let v0 := if cmp1 then x.verdict else v
      let v1 := if cmp1 then v else x.verdict
      if v0 = .equal ∧ v1 = .equal then s
      else if v0 ≠ .equal ∧ v1 ≠ .equal then mismatch p (mirDetail pair window (some v0) (some v1)) s
      else verdictDiffer p window (some v0) (some v1) s
/-- VERDICT. -/
def execVerdict (pair : Nat) (cmp1 : Bool) (window : W32) (v : CmpVerdict) (s : State) : Res := .next (verdict pair cmp1 window v s)

/-- VERDICT_TIMEOUT (R398): 1.5 µs after one verdict without the other. -/
def verdictTimeout (pair : Nat) (window : W32) (s : State) : State :=
  match getPair s pair, s.mir.verdicts.find? (fun x => x.pair = pair && decide (x.window = window)) with
  | some p, some x =>
    verdictDiffer p window (if x.cmp1 then none else some x.verdict) (if x.cmp1 then some x.verdict else none)
      { s with mir := { s.mir with verdicts := s.mir.verdicts.erase x } }
  | _, _ => s
/-- VERDICT_TIMEOUT. -/
def execVerdictTimeout (pair : Nat) (window : W32) (s : State) : Res := .next (verdictTimeout pair window s)

/-- MIR_WINDOW_LONG (R395): an open window with a record, 1 ms after its first record. -/
def mirWindowLong (n : Node) (s : State) : State :=
  let c := getCore s n
  match c.sig.pair, c.sig.first with
  | some p, some _ =>
    if c.sig.long then s
    else raise .mirWindowLong (sub_ n p) (leBytes 1 p ++ leBytes 4 c.sig.window.toNat)
      (setCore n { c with sig := { c.sig with long := true } } s)
  | _, _ => s
/-- MIR_WINDOW_LONG. -/
def execMirWindowLong (n : Node) (s : State) : Res := .next (mirWindowLong n s)

/-- Take a core's checkpoint (R400): its CKPT ranges, and SCL and A1 where flagged. -/
def takeCkpt (m : MapPair) (c : Core) : Core :=
  { c with ckpt := some (m.ckpt.map (fun r => (r.1, rdN c.mem r.1 r.2)), if m.ckptScl then c.scl else [], if m.ckptA1 then c.a1 else []) }
/-- Copy a core's checkpoint back (R400 step 3). -/
def putCkpt (m : MapPair) (c : Core) : Core :=
  match c.ckpt with
  | none => c
  | some (rs, scl, a1) =>
    let c := rs.foldl (fun c r => coreWrite r.1 r.2 [] c) c
    { c with scl := if m.ckptScl then scl else c.scl, a1 := if m.ckptA1 then a1 else c.a1 }

/-- The running plan's section of a physical core. -/
def coreSect (s : State) (n : Node) : Option CoreSect :=
  (s.plans.flatMap (fun p => p.img.cores)).find? (fun c => c.site = n)

/-- Send a FRAME_START message to a core's declared channel (R100): the credit is held until its release. -/
def sendFrameMsg (n : Node) (chan : Nat) (data : List Byte) (s : State) : State :=
  emitFab (.data { src := 0x200, dst := n, chan := BitVec.ofNat 3 chan, data })
    { s with loop := { s.loop with held := s.loop.held.erase n ++ [n], lastMsg := putK [] s.loop.lastMsg n.toNat data } }

/-- One core of a retry starts again (R100, R400 steps 3 and 4): checkpoint back, its frame-start message once more, every
message of the first run discarded with its credit returned, START with attempt 1. -/
def restartCore (m : MapPair) (n : Node) (s : State) : State :=
  let s := updCore n (fun c => putCkpt m { c with routes := c.routes.map (fun e => (e.1, e.2.map (fun r => { r with credits := r.share }))) }) s
  let msg := getK [] s.loop.lastMsg n.toNat
  let s := match (coreSect s n).bind (·.frameChan) with
    | some k => if msg.isEmpty then s else sendFrameMsg n k msg s
    | none => s
  startCore n true s

/-- RETRY_RESTART (R400). -/
def retryRestart (pair : Nat) (s : State) : State :=
  match getPair s pair with
  | none => s
  | some p =>
    match p.restoring with
    | none => s
    | some _ => restartCore p.map p.map.trail (restartCore p.map p.map.lead (updPair pair (fun q => { q with restoring := none }) s))
/-- RETRY_RESTART. -/
def execRetryRestart (pair : Nat) (s : State) : Res := .next (retryRestart pair s)

end Sys2Proof.Machine
end

