-- ==== Sys2Proof/Machine/Tick.lean ====
section
/-! DEFINITION. One tick of the 500 MHz clock (R262, R264). -/

namespace Sys2Proof.Machine

/-- The PTC's modulus: 48 bits of seconds, as nanoseconds with a 32-bit fraction (R264). -/
def ptcMod : Int := 2 ^ 48 * 1000000000 * 2 ^ 32
/-- The PTC advances by its rate addend and slew term (R264). -/
def ptcTick (t : TimeU) : TimeU := { t with ptc := (t.ptc + t.rate + t.slew) % ptcMod }
/-- One tick: the LTC accumulator and the PTC advance (R262, R264). -/
def tick (s : State) : State :=
  { s with time := ptcTick { s.time with acc := s.time.acc + s.time.inc.setWidth 96 } }

end Sys2Proof.Machine
end

