-- ==== Sys2Proof/Machine/TimeUnit.lean ====
section
/-! DEFINITION. The time unit: gPTP messages, the servo's statuses, steps, transmit stamps and trigger outputs (R262–R283). -/

namespace Sys2Proof.Machine

/-- A time event (R283): causes become set in TIME_EVENT, and vector 3 is raised when it was zero. -/
def timeEventSet (m : BitVec 6) (s : State) : State :=
  let e := s.time.event
  let s' := { s with time := { s.time with event := e ||| m } }
  if e = 0 ∧ m ≠ 0 then msix 3 s' else s'

/-- Set the PTC status; a change is a TIME_EVENT cause (R282 bit 0). -/
def setStatusPtc (st : PtcStatus) (s : State) : State :=
  if s.time.status = st then s else timeEventSet 1 { s with time := { s.time with status := st } }

/-- Codes of R265. -/
def ptcCode (st : PtcStatus) : Nat :=
  match st with | .unset => 0 | .slewing => 1 | .synced => 2 | .holdover => 3 | .stepPending => 4
/-- The PTC in whole ns (R264). -/
def ptcNs (t : TimeU) : Int := t.ptc / 4294967296
/-- A port. -/
def getPtp (s : State) (k : Nat) : PtpPort := getK {} s.time.ports k
def setPtp (k : Nat) (p : PtpPort) (s : State) : State := { s with time := { s.time with ports := putK {} s.time.ports k p } }

/-- The port may stay slave: two Announces, a valid rate ratio and a link delay of at most 800 ns (R267, R268). -/
def ptpFit (p : PtpPort) : Bool := p.declared && decide (2 ≤ p.announces) && p.nrrValid && decide (p.delay ≤ 800)
/-- The port qualifies its master (R268): fit, and at most one Sync interval since its last Sync. -/
def ptpQualified (s : State) (k : Nat) : Bool :=
  let p := getPtp s k
  ptpFit p && (match p.syncAt with | some t => decide ((now s - t).toNat ≤ p.syncNs) | none => false)
/-- The first qualified port in the manifest's order (R268). -/
def bestPort (s : State) : Option Nat := s.time.order.find? (ptpQualified s)

/-- A TIME_STEP that waits for a Sync is answered NOT_FOUND when the master is disqualified first (R350). -/
def failStep (s : State) : State :=
  match s.mbL.waiting.find? (fun w => decide (w.opcode = 0x0502) && decide (w.args.headD 2 = 0)) with
  | some w => respond .lantern w.slot 5 16 [] { s with mbL := { s.mbL with waiting := s.mbL.waiting.erase w } }
  | none => s
/-- HOLDOVER (R270): slew zero, rate held, no slave; a device without time stays UNSET. -/
def holdover (change : Bool) (s : State) : State :=
  let s := { s with time := { s.time with slew := 0, good := 0, slave := none, gm := 0, masterChanged := s.time.masterChanged || change } }
  let s := failStep (if change then timeEventSet 2 s else s)
  if s.time.status = .unset then s else setStatusPtc .holdover s

/-- A switch of the slave port counts as a grandmaster change: the new port's master must qualify once more (R270). -/
def switchPort (k : Nat) (s : State) : State :=
  holdover true (setPtp k { getPtp s k with announces := 0 } s)

/-- Index of the first point of a series strictly after a PTC value in ns (R278, R279). -/
def trigNext (start period : Nat) (ptc : Int) : Nat :=
  if ptc < (start : Int) then 0
  else
    let d := (ptc - start).toNat
    let k := d * 4294967296 / max period 1
    if d < k * period / 4294967296 then k
    else if d < (k + 1) * period / 4294967296 then k + 1 else k + 2
/-- Every series goes on at its first point after the PTC as it now stands (R279). -/
def retrig (t : TimeU) : TimeU :=
  { t with trig := t.trig.map (fun e => (e.1, { e.2 with
      series := e.2.series.map (fun q => { q with next := trigNext q.start q.period (ptcNs t) }) })) }

/-- Move the PTC by a step (R273, R276, R279): slew cleared, the status as a qualified master decides, the time event. -/
def stepPtc (v : Int) (s : State) : State :=
  let step := v / 4294967296 - ptcNs s.time
  let t := { s.time with ptc := v % ptcMod, slew := 0, good := 0, stepped := some step }
  let s := timeEventSet 8 { s with time := retrig t }
  setStatusPtc (if (bestPort s).isSome then .slewing else .holdover) s

/-- Answer the waiting TIME_STEP of a mode (R273, R350): the step in signed ns, the LTC of application, the new status. -/
def answerStep (mode : Nat) (step : Int) (s : State) : State :=
  match s.mbL.waiting.find? (fun w => decide (w.opcode = 0x0502) && decide (w.args.headD 2 = mode)) with
  | some w => respond .lantern w.slot 0 0 (leInt 8 step ++ leBytes 8 (now s).toNat ++ leBytes 1 (ptcCode s.time.status)) { s with mbL := { s.mbL with waiting := s.mbL.waiting.erase w } }
  | none => s

/-- The rate addend for a deviation in ppb (R268). -/
def rateOf (ppb : Int) : Int := 8589934592 + (8589934592 * ppb + 500000000) / 1000000000
/-- LTC_INC within ±200 ppm of nominal (R263). -/
def trimInc (r : Int) : W64 := BitVec.ofNat 64 (max (8589934592 - 1717986) (min (8589934592 + 1717986) r)).toNat

/-- Mean of the last 8 ratios (R268; the filter is log entry 23). -/
def meanPpb (l : List Int) : Int := l.sum / max (l.length : Int) 1

/-- The slew term (R269): toward zero offset, no faster than S; its size within S is a free value (log entry 2). -/
def slewFor (off : Int) (s : State) : State :=
  let lim := s.time.slewLimit * 8589934592 / 1000000
  let f := freshBits 32 s
  let mag := f.1.toNat % (lim + 1)
  let v : Int := if off = 0 then 0 else if 0 < off then mag else -mag
  let s := f.2
  { s with time := { s.time with slew := v } }

/-- One measured Sync of the slave port (R263, R265, R266, R268–R273). -/
def measured (master rx cum : Int) (k : Nat) (s : State) : State :=
  let off := master - rx
  let s := { s with time := { s.time with offset := off } }
  let waiting := s.mbL.waiting.any (fun w => decide (w.opcode = 0x0502) && decide (w.args.headD 2 = 0))
  if waiting then answerStep 0 off (stepPtc (s.time.ptc + off * 4294967296) s)
  else if s.time.status = .unset then
    setStatusPtc .slewing { s with time := retrig { s.time with ptc := (s.time.ptc + off * 4294967296) % ptcMod } }
  else if 1000000000 < off.natAbs then
    let was := s.time.status
    let s := setStatusPtc .stepPending { s with time := { s.time with slew := 0, good := 0 } }
    if was = .stepPending then s else timeEventSet 4 s
  else
    let ratios := ((cum + (getPtp s k).nrr) :: s.time.ratios).take 8
    let ppb := meanPpb ratios
    let good := if off.natAbs ≤ 100 then s.time.good + 1 else 0
    let st : PtcStatus := match s.time.status with
      | .synced => if 1000 < off.natAbs then .slewing else .synced
      | .slewing => if 4 ≤ good then .synced else .slewing
      | _ => .slewing
    let s := slewFor off { s with time := { s.time with ratios, ppb, rate := rateOf ppb, good } }
    let s := setStatusPtc st s
    if st = .synced ∧ (s.dv.n < 2 ∨ s.dv.p % 2 = 0) then { s with time := { s.time with inc := trimInc s.time.rate } } else s

/-- Choose the slave after a Sync of a port, and measure if that port is the slave (R268, R270). -/
def syncAt (k : Nat) (origin rx cum : Int) (s : State) : State :=
  let p := getPtp s k
  let run (s : State) : State := measured (origin + p.delay) (rx - p.rxLat) cum k s
  match bestPort s, s.time.slave with
  | none, _ => s
  | some j, none =>
    if j = k then run { s with time := { s.time with slave := some j, gm := (getPtp s j).gm } } else s
  | some j, some i => if j = i then (if j = k then run s else s) else switchPort j s

/-- A message of another domain is counted; one on a MAC that is no gPTP port is discarded (R267). -/
def ptpTake (k : Nat) (domain : Byte) (f : State → State) (s : State) : State :=
  if domain ≠ 0 then { s with time := { s.time with domainCnt := s.time.domainCnt.inc } }
  else if (getPtp s k).declared then f s else s

/-- SYNC (R267, R268). -/
def syncMsg (k : Nat) (m : SyncMsg) (s : State) : State :=
  let p := getPtp s k
  let gap := match p.syncAt with | some t => max 31250000 (min 1000000000 (now s - t).toNat) | none => p.syncNs
  let p := { p with syncAt := some (now s), syncNs := gap, twoStep := if m.twoStep then some (m.seqId, m.rxNs) else none }
  let s := setPtp k p s
  if m.twoStep then s else syncAt k m.originNs m.rxNs m.cumRatePpb s
/-- SYNC. -/
def execSync (k : Nat) (m : SyncMsg) (s : State) : Res := .next (ptpTake k m.domain (syncMsg k m) s)

/-- FOLLOW_UP (R267): the precise origin of the Sync that waits for it. -/
def followUp (k : Nat) (seqId : W16) (origin cum : Int) (s : State) : State :=
  match (getPtp s k).twoStep with
  | none => s
  | some (q, rx) => if q = seqId then syncAt k origin rx cum (setPtp k { getPtp s k with twoStep := none } s) else s
/-- FOLLOW_UP. -/
def execFollowUp (k : Nat) (domain : Byte) (seqId : W16) (origin cum : Int) (s : State) : Res :=
  .next (ptpTake k domain (followUp k seqId origin cum) s)

/-- ANNOUNCE (R268, R270): a changed grandmasterIdentity means HOLDOVER. -/
def announceMsg (k : Nat) (gm : W64) (s : State) : State :=
  let p := getPtp s k
  let p' := { p with annAt := some (now s), gm, announces := if p.announces ≠ 0 ∧ p.gm = gm then min (p.announces + 1) 2 else 1 }
  let changed := p.gm ≠ 0 ∧ p.gm ≠ gm
  let s := setPtp k p' s
  if changed then holdover true s else s
/-- ANNOUNCE. -/
def execAnnounce (k : Nat) (domain : Byte) (gm : W64) (s : State) : Res := .next (ptpTake k domain (announceMsg k gm) s)

/-- A transmitted gPTP message's stamp enters the port's queue of 16, or is dropped and counted (R277); whether it was kept. -/
def txStamp (k : Nat) (seqId : W16) (ty : BitVec 4) (tx : Int) (s : State) : Bool × State :=
  let p := getPtp s k
  if p.txts.length < 16 then (true, setPtp k { p with txts := p.txts ++ [(seqId, ty, tx + p.txLat)] } s)
  else (false, timeEventSet 16 (setPtp k { p with ovf := true, drop := p.drop.inc } s))

/-- PDELAY_REQ (R267, R277): the answer, and its follow-up unless the answer's stamp was dropped. -/
def pdelayAnswer (k : Nat) (seqId : W16) (tx : Int) (s : State) : State :=
  let r := txStamp k seqId 3 tx (emit (.gptp 1 k seqId) s)
  if r.1 then
    let s := r.2
    (txStamp k seqId 0xA (ptcNs s.time) (emit (.gptp 2 k seqId) s)).2
  else r.2
/-- PDELAY_REQ. -/
def execPdelayReq (k : Nat) (domain : Byte) (seqId : W16) (_rx tx : Int) (s : State) : Res :=
  .next (ptpTake k domain (pdelayAnswer k seqId tx) s)

/-- PDELAY_REQ_SEND (R267, R277). -/
def pdelaySend (k : Nat) (tx : Int) (s : State) : State :=
  let p := getPtp s k
  if ¬p.declared then s
  else
    let r := txStamp k p.pdSeq 2 tx (emit (.gptp 0 k p.pdSeq) s)
    setPtp k { getPtp r.2 k with pdelay := some (p.pdSeq, r.1), pdSeq := p.pdSeq + 1 } r.2
/-- PDELAY_REQ_SEND. -/
def execPdelayReqSend (k : Nat) (tx : Int) (s : State) : Res := .next (pdelaySend k tx s)

/-- PDELAY_RESP (R267, R275, R277): link delay and neighbour rate ratio, unless the request's stamp was dropped. -/
def pdelayResp (k : Nat) (seqId : W16) (t1 t2 t3 t4 : Int) (s : State) : State :=
  let p := getPtp s k
  match p.pdelay with
  | none => s
  | some (q, kept) =>
    if q ≠ seqId then s
    else if ¬kept then setPtp k { p with pdelay := none } s
    else
      let a1 := t1 + p.txLat
      let a4 := t4 - p.rxLat
      let n := match p.pdPrev with
        | some (b3, b4) => if a4 = b4 then none else some (((t3 - b3) - (a4 - b4)) * 1000000000 / (a4 - b4))
        | none => none
      let nrr := n.getD p.nrr
      let turn := (a4 - a1) + (a4 - a1) * nrr / 1000000000
      setPtp k { p with pdelay := none, pdPrev := some (t3, a4), nrr, nrrValid := p.nrrValid || n.isSome,
                        delay := ((turn - (t3 - t2)) / 2).toNat } s
/-- PDELAY_RESP. -/
def execPdelayResp (k : Nat) (seqId : W16) (t1 t2 t3 t4 : Int) (s : State) : Res := .next (pdelayResp k seqId t1 t2 t3 t4 s)

/-- The port's master is lost (R270): a slave port goes to HOLDOVER, and a switch to another qualified port counts as a
grandmaster change. -/
def masterLost (k : Nat) (s : State) : State :=
  let s := setPtp k { getPtp s k with announces := 0, syncAt := none } s
  if s.time.slave ≠ some k then s
  else match bestPort s with
    | some j => switchPort j s
    | none => holdover false s
/-- SYNC_RECEIPT_TIMEOUT. -/
def execSyncReceiptTimeout (k : Nat) (s : State) : Res := .next (masterLost k s)
/-- ANNOUNCE_RECEIPT_TIMEOUT. -/
def execAnnounceReceiptTimeout (k : Nat) (s : State) : Res := .next (masterLost k s)

/-- TIME_STEP_APPLY (R273): the waiting SET_VALUE step takes effect. -/
def timeStepApply (s : State) : State :=
  match s.mbL.waiting.find? (fun w => decide (w.opcode = 0x0502) && decide (w.args.headD 2 = 1)) with
  | none => s
  | some w =>
    let v : Int := ((w.args.getD 1 0 : Int) * 1000000000 + (w.args.getD 2 0 : Int)) * 4294967296
    answerStep 1 (v / 4294967296 - ptcNs s.time) (stepPtc v s)
/-- TIME_STEP_APPLY. -/
def execTimeStepApply (s : State) : Res := .next (timeStepApply s)

/-- A trigger output. -/
def getTrig (s : State) (n : Nat) : Trig := getK {} s.time.trig n
/-- The level that a trigger output drives (R278, R527): low without a series. -/
def trigLevel (x : Trig) : Bool := match x.series with | some q => (if x.active then !q.activeLow else q.activeLow) | none => false
/-- Change a trigger output; a change of its level is dated (R522). -/
def setTrig (n : Nat) (x : Trig) (s : State) : State :=
  { s with time := { s.time with trig := putK {} s.time.trig n { x with
      edgeAt := edgeTime (trigLevel (getTrig s n)) (trigLevel x) (getTrig s n).edgeAt s } } }
/-- Trigger outputs run in this state (R280). -/
def trigRuns (s : State) : Bool := match s.dev.state with | .locked | .aonOnly | .bootHalt => false | _ => true

/-- TRIG_EDGE (R278, R279): the active edge is driven, or suppressed less than T/2 after the previous one; a series being
stopped ends at its next edge, and an FSYNC that R27 holds inactive is not driven. -/
def trigEdge (n : Nat) (s : State) : State :=
  let x := getTrig s n
  match x.series with
  | none => s
  | some q =>
    if ¬trigRuns s ∨ s.time.status = .unset then s
    else if q.stopping then setTrig n { x with series := none } s
    else if x.heldInactive then setTrig n { x with series := some { q with next := q.next + 1 } } s
    else
      let x := { x with series := some { q with next := q.next + 1 } }
      let near := match x.lastEdge with
        | some t => decide ((now s - t).toNat * 8589934592 < q.period)
        | none => false
      if near then timeEventSet 32 (setTrig n { x with suppr := x.suppr.inc } s)
      else emit (.trig n (!q.activeLow)) (setTrig n { x with lastEdge := some (now s), active := true } s)
/-- TRIG_EDGE. -/
def execTrigEdge (n : Nat) (s : State) : Res := .next (trigEdge n s)

/-- TRIG_PULSE_END (R278): the output returns to its inactive level. -/
def trigPulseEnd (n : Nat) (s : State) : State :=
  let x := getTrig s n
  if x.active then
    emit (.trig n (match x.series with | some q => q.activeLow | none => false)) (setTrig n { x with active := false } s)
  else s
/-- TRIG_PULSE_END. -/
def execTrigPulseEnd (n : Nat) (s : State) : Res := .next (trigPulseEnd n s)

/-- TXTS_CONSUME (R277). -/
def execTxtsConsume (k : Nat) (s : State) : Res :=
  .next (let p := getPtp s k; setPtp k { p with txts := p.txts.tail } s)

end Sys2Proof.Machine
end

