-- ==== Sys2Proof/Machine/Intake.lean ====
section
/-! DEFINITION. Sensor intake and Prism: CSI-2, Ethernet, lidar, RTP and decoded pictures, recorded scenes, unit flags,
Focus, and the load split (R219–R261). -/

namespace Sys2Proof.Machine

/-- Prism's node (R251). -/
def prismNode : Node := 0x210
/-- The stream as a fault names it. -/
def streamInst (k : Nat) : Inst := sub_ prismNode k
/-- The declared streams. -/
def streamsOf (s : State) : List Stream := s.intake.streams.filterMap (·.2)
/-- Replace a stream. -/
def setStream (t : Stream) (s : State) : State :=
  { s with intake := { s.intake with streams := putK none s.intake.streams t.decl.id (some t) } }
/-- Change a stream, if declared. -/
def updStream (k : Nat) (f : Stream → Stream) (s : State) : State :=
  match getStream s k with | some t => setStream (f t) s | none => s
/-- The profile that the running plan declares under an ID (R243). -/
def getProfile (s : State) (k : Nat) : Option Profile := match curPlan s with | some p => p.img.profiles.find? (fun x => x.id = k) | none => none
/-- What the running plan declares for a stream it consumes. -/
def getCam (s : State) (k : Nat) : Option CamDecl := match curPlan s with | some p => p.img.cams.find? (fun x => x.stream = k) | none => none
/-- LOSS_TIMEOUT in ns (R219): 0 means three nominal periods. -/
def lossNs (d : StreamDecl) : Nat := if d.timeout = 0 then 3000000000000 / max d.rate 1 else d.timeout * 1000000
/-- Live sensor input is taken: not in ADAPTING (R242). -/
def liveInput (s : State) : Bool := s.dev.state ≠ .adapting

/-- An input of no declared stream (R220): counted, and noted once per source and attach. -/
def undeclared (key : Nat × Nat × Nat) (s : State) : State :=
  let seen := s.intake.noted.contains key
  let s := { s with intake := { s.intake with undecl := s.intake.undecl.inc, noted := if seen then s.intake.noted else s.intake.noted ++ [key] } }
  if seen then s else raise .intakeUndeclared (sub_ prismNode key.1) [] s

/-- The buffer a new unit is received into (R250): neither the newest complete unit's nor the running frame's. -/
def freeBuffer (t : Stream) : Nat :=
  let busy (o : Option SUnit) (k : Nat) : Bool := match o with | some u => decide (u.buffer = k) | none => false
  let newest := match t.fresh with | some u => some u | none => t.last
  ((List.range 3).find? (fun k => !busy newest k && !busy t.used k)).getD 0

/-- The unit's samples are complete, so its image is determined. -/
def unitWhole (t : Stream) (u : SUnit) : Bool :=
  match u.body with
  | .csi dt lines => decide (lines.length = t.decl.height) && lines.all (fun l => decide (l.length * 8 = t.decl.width * dtBits dt))
  | .picture _ y _ _ => decide (y.length = t.decl.height) && y.all (fun r => decide (r.length = t.decl.width))
  | _ => false

/-- Channels of a stream's output images (R245–R247). -/
def unitChans (pr : Profile) (d : StreamDecl) : Nat :=
  if d.kind ≠ .csi ∨ d.dt = 0x1E ∨ d.dt = 0x24 then 3
  else match pr.raw with | .mono => 1 | .phases => 4 | .demosaic => 3
/-- Write a unit's base image (R244–R250). The image of a unit with missing lines is a free value (log entry 2). -/
def writeBase (t : Stream) (u : SUnit) (s : State) : State :=
  match getProfile s t.decl.profile with
  | none => s
  | some pr =>
    if t.moved then s
    else
      let ps := toPlanes pr t.decl.width t.decl.height u.body
      let chans := unitChans pr t.decl
      let size := chans * pr.height * rowPitch pr.ofmt pr.width
      let at_ := pr.base + u.buffer * size
      if unitWhole t u then
        let w := if chans = 4 then t.decl.width / 2 else t.decl.width
        let h := if chans = 4 then t.decl.height / 2 else t.decl.height
        let o := outImage pr 0 0 w h pr.width pr.height ps
        updStream t.decl.id (fun x => { x with preClip := x.preClip.add o.2 }) { s with mem := chamberPut at_ o.1 [] s.mem }
      else
        let f := freshBits (8 * size) s
        let s := f.2
        { s with mem := chamberPut at_ (leBytes size f.1.toNat) [] s.mem }

/-- What a new unit makes of the unit before it (R222): one of the same instant is skipped at once; another waits, since a frame
start at this very LTC would still take it. -/
def supersede (t0 : W64) (t : Stream) : Stream :=
  match t.fresh with
  | none => t
  | some f =>
    if f.stamp = t0 then { t with skip := t.skip.inc }
    else { t with prior := some f, skip := if t.prior.isSome then t.skip.inc else t.skip }
/-- A unit's bytes as Prism posts them to the host (R259; their layout and place are log entry 25). -/
def unitBytes (b : UnitBody) : List Byte :=
  match b with
  | .csi _ lines => lines.flatten
  | .picture d y cb cr => (y ++ cb ++ cr).flatMap (fun r => r.flatMap (leBytes (if d ≤ 8 then 1 else 2)))
  | .points _ tensor => tensor
  | .inbound _ => []
  | .none => []
/-- A received unit of a stream moved to the host (R259, R261): DEVICE_FORWARD posts it; the doorbell alone completes a unit. -/
def forwardUnit (t : Stream) (body : UnitBody) (s : State) : State :=
  match s.intake.split.find? (fun e => e.1 = t.decl.id) with
  | some (_, some o) => postWrite { obj := some o, addr := 0, data := unitBytes body } s
  | _ => s
/-- A unit the host has written through its inbound window (R261). -/
def fromHost (b : UnitBody) : Bool := match b with | .inbound _ => true | _ => false
/-- A unit completes (R222): an earlier one of the same interval is skipped. -/
def completeUnit (k : Nat) (corrupt : Bool) (body : UnitBody) (s : State) : State :=
  match getStream s k with
  | none => s
  | some t =>
    if t.moved ∧ ¬fromHost body then forwardUnit t body s
    else
    let u : SUnit := { stamp := now s, corrupt, buffer := freeBuffer t, body }
    let t := supersede (now s) t
    let t := { t with fresh := some u, lastLtc := now s, lastFrame := s.loop.next }
    writeBase t u (setStream t s)

/-- The CSI streams of a port's virtual channel. -/
def vcStreams (s : State) (port : Nat) (vc : BitVec 4) : List Stream :=
  (streamsOf s).filter (fun t => decide (t.decl.kind = .csi) && decide (t.decl.port = port) && decide (t.decl.vc = vc))

/-- A camera frame ends (R227): CORRUPT unless exactly HEIGHT good lines arrived. -/
def closeFrame (k : Nat) (s : State) : State :=
  match getStream s k with
  | none => s
  | some t =>
    match t.open_ with
    | none => s
    | some o => completeUnit k (o.corrupt || decide (o.lines.length ≠ t.decl.height)) (.csi o.dt o.lines) (setStream { t with open_ := none } s)

/-- A port's record. -/
def getPort (s : State) (port : Nat) : CsiPort := getK {} s.intake.ports port
def updPort (port : Nat) (f : CsiPort → CsiPort) (s : State) : State :=
  { s with intake := { s.intake with ports := updK {} s.intake.ports port f } }
/-- Every frame in progress on a port becomes CORRUPT (R227). -/
def spoilPort (port : Nat) (s : State) : State :=
  { s with intake := { s.intake with streams := s.intake.streams.map (fun e => (e.1, e.2.map (fun t =>
      if t.decl.kind = .csi ∧ t.decl.port = port then { t with open_ := t.open_.map (fun o => { o with corrupt := true }) } else t))) } }

/-- A long packet of a stream's frame (R227). -/
def csiLine (port : Nat) (p : CsiPkt) (t : Stream) (o : OpenFrame) (s : State) : State :=
  let put (o : OpenFrame) (s : State) : State := setStream { t with open_ := some o } s
  if o.dropping then s
  else if p.overflow then
    raise .csiOverflow (sub_ prismNode port) [] (put { o with corrupt := true, dropping := true } (updPort port (fun c => { c with ovf := c.ovf.inc }) s))
  else
    let short := decide (p.data.length * 8 ≠ t.decl.width * dtBits p.dt.toNat)
    let o := { o with lines := if short then o.lines else o.lines ++ [p.data], corrupt := o.corrupt || short || !p.crcOk }
    let s := put o (updPort port (fun c => { c with len := if short then c.len.inc else c.len, crc := if p.crcOk then c.crc else c.crc.inc }) s)
    if p.crcOk then s else raise .csiCrc (sub_ prismNode port) [] s

/-- CSI_PACKET (R225, R227). -/
def csiPacket (port : Nat) (p : CsiPkt) (s : State) : State :=
  if ¬liveInput s then s
  else match p.hdr with
    | .uncorrectable =>
      raise .csiHdrUe (sub_ prismNode port) [] (spoilPort port (updPort port (fun c =>
        { c with hdrUe := c.hdrUe.inc, failSince := some (c.failSince.getD (now s)) }) s))
    | e =>
      let s := updPort port (fun c => { c with hdrCe := if e = .corrected then c.hdrCe.inc else c.hdrCe, failSince := none }) s
      let vs := vcStreams s port p.vc
      if vs.isEmpty then undeclared (port, p.vc.toNat, p.dt.toNat) s
      else match p.dt.toNat with
        | 0 => vs.foldl (fun s t => updStream t.decl.id (fun t => { t with open_ := some { dt := t.decl.dt.toNat } }) (closeFrame t.decl.id s)) s
        | 1 => vs.foldl (fun s t => closeFrame t.decl.id s) s
        | 2 => s
        | 3 => s
        | _ =>
          match vs.find? (fun t => t.decl.dt = p.dt) with
          | none => undeclared (port, p.vc.toNat, p.dt.toNat) s
          | some t => match t.open_ with | some o => csiLine port p t o s | none => s
/-- CSI_PACKET. -/
def execCsiPacket (port : Nat) (p : CsiPkt) (s : State) : Res := .next (csiPacket port p s)

/-- CSI_LANE_ORDER (R226): raised when headers have failed on every packet; the permutation found is named in the log. -/
def csiLaneOrder (port : Nat) (perm : Option (List Nat)) (s : State) : State :=
  match (getPort s port).failSince with
  | none => s
  | some _ =>
    note Source.csiLaneOrder.code (leBytes 1 port ++ (match perm with | some l => l.map (BitVec.ofNat 8) | none => [0xFF]))
      (raise .csiLaneOrder (sub_ prismNode port) [] s)
/-- CSI_LANE_ORDER. -/
def execCsiLaneOrder (port : Nat) (perm : Option (List Nat)) (s : State) : Res := .next (csiLaneOrder port perm s)

/-- A field of a point record (R232): type code 0 to 6, bit 3 for big-endian. -/
def fieldNum (bs : List Byte) (off code : Nat) : Num :=
  let n := match code % 8 with | 0 => 1 | 1 => 1 | 2 => 2 | 3 => 2 | _ => 4
  let raw := sub bs off n
  let v := leVal (if 8 ≤ code then raw.reverse else raw)
  match code % 8 with
  | 1 => ofInt (signed 8 v)
  | 3 => ofInt (signed 16 v)
  | 5 => ofInt (signed 32 v)
  | 6 => decodeFp fp32 v
  | _ => ofInt v
/-- An unsigned field of a packet header (R232). -/
def headNum (bs : List Byte) (off code : Nat) : Nat :=
  let n := match code % 8 with | 0 => 1 | 1 => 1 | 2 => 2 | 3 => 2 | _ => 4
  leVal (if 8 ≤ code then (sub bs off n).reverse else sub bs off n)
/-- One channel value of a point (R232): one fused multiply-add, then the output format. -/
def pointValue (fp : Bool) (rec0 : List Byte) (f : PField) : Nat :=
  let x := encodeFp fp32 (addNum (mulNum (fieldNum rec0 f.off f.code) (decodeFp fp32 f.scale.toNat)) (decodeFp fp32 f.offset.toNat))
  if fp then x else (convFp fp16 (decodeFp fp32 x)).1
/-- Missing numbers between consecutive sequence numbers of `w` bits (R233). -/
def seqGap (w prev cur : Nat) : Nat :=
  let d := (cur + 2 ^ w - prev) % 2 ^ w
  if 0 < d ∧ d ≤ 2 ^ (w - 1) then d - 1 else 0

/-- The points of an instant that is past join the interval's, up to P_max (R222, R233). -/
def mergePts (t : Stream) : Stream :=
  let room := t.decl.width * t.decl.height - t.points.length
  if t.recent.isEmpty then t
  else { t with points := t.points ++ t.recent.take room, overrun := t.overrun || decide (room < t.recent.length),
                ovf := t.ovf.add (t.recent.length - room), ptAt := t.lastPt, recent := [] }
/-- A lidar packet (R222, R232, R233). -/
def lidarPacket (k : Nat) (x : Template) (bs : List Byte) (s : State) : State :=
  match getStream s k with
  | none => s
  | some t =>
    let count := match x.fixed with | some n => n | none => headNum bs x.countOff x.countCode
    if bs.length < x.hdrLen + count * x.recLen then setStream { t with short := t.short.inc } s
    else
      let num := x.seq.map (fun q => (8 * q.2, leVal (sub bs q.1 q.2)))
      let gap := match num, t.seq with | some (w, c), some p => seqGap w p c | _, _ => 0
      let pts := (List.range count).map (fun i => x.fields.map (pointValue x.fp32 (sub bs (x.hdrLen + i * x.recLen) x.recLen)))
      let t := if t.lastPt = now s then t else mergePts t
      setStream { t with recent := t.recent ++ pts, gap := t.gap.add gap, seq := match num with | some (_, c) => some c | none => t.seq, lastPt := now s } s

/-- The point tensor (R233): channel c of point i at (c × P_max + i) × element size, zeros beyond the count. -/
def pointTensor (fp : Bool) (chans pmax : Nat) (pts : List (List Nat)) : List Byte :=
  (List.range chans).flatMap (fun c => (List.range pmax).flatMap (fun i => leBytes (if fp then 4 else 2) ((pts.getD i []).getD c 0)))

/-- A big-endian 16-bit field of an RTP packet. -/
def be16 (bs : List Byte) (off : Nat) : Nat := beVal (sub bs off 2)
/-- Offset of an RTP payload (RFC 3550): fixed header, CSRCs, extension. -/
def rtpPayload (bs : List Byte) : List Byte :=
  let b0 := fld bs 0 1
  let n := 12 + 4 * (b0 % 16)
  let n := if b0 / 16 % 2 = 1 then n + 4 + 4 * be16 bs (n + 2) else n
  let body := bs.drop n
  if b0 / 32 % 2 = 1 then body.take (body.length - (body.getLastD 0).toNat) else body
/-- The NAL units of an aggregation packet (R234, RFC 7798). -/
def apUnits : Nat → List Byte → List (List Byte)
  | 0, _ => []
  | k + 1, bs => if bs.length < 2 then [] else sub bs 2 (be16 bs 0) :: apUnits k (bs.drop (2 + be16 bs 0))
/-- A packet released to decode (R234): single NAL unit, aggregation packet or fragmentation unit; PACI packets are discarded. -/
def depacket (bs : List Byte) (nals : List (List Byte)) : List (List Byte) :=
  let ty := fld bs 0 1 / 2 % 64
  if ty = 50 then nals
  else if ty = 48 then nals ++ apUnits bs.length (bs.drop 2)
  else if ty = 49 then
    let fu := fld bs 2 1
    if 128 ≤ fu then nals ++ [BitVec.ofNat 8 (fld bs 0 1 / 128 * 128 + fu % 64 * 2 + fld bs 0 1 % 2) :: bs.getD 1 0 :: bs.drop 3]
    else match nals.getLast? with
      | some l => nals.dropLast ++ [l ++ bs.drop 3]
      | none => nals
  else nals ++ [bs]

/-- A loss in a coded stream (R236): CORRUPT until the next clean IRAP picture, raised once per episode. -/
def spoilVideo (k : Nat) (s : State) : State :=
  match getStream s k with
  | none => s
  | some t => if t.episode then s else raise .vdecStreamErr (streamInst k) [] (setStream { t with episode := true } s)

/-- Release the packets that are next in RTP order (R234). -/
def rtpRelease : Nat → Stream → Stream
  | 0, t => t
  | n + 1, t =>
    match t.reorder with
    | [] => t
    | (q, _, bs) :: rest =>
      if t.rtpNext = none ∨ t.rtpNext = some q then
        rtpRelease n { t with reorder := rest, rtpNext := some (q + 1), decode := depacket bs t.decode }
      else t
/-- Insert a packet in sequence order from the next number expected. -/
def rtpInsert (base : W16) (e : W16 × W64 × List Byte) : List (W16 × W64 × List Byte) → List (W16 × W64 × List Byte)
  | [] => [e]
  | f :: fs =>
    if (e.1 - base).toNat < (f.1 - base).toNat then e :: f :: fs
    else if e.1 = f.1 then f :: fs else f :: rtpInsert base e fs

/-- An RTP packet (R234): late ones are lost, others wait for their turn. -/
def rtpPacket (k : Nat) (bs : List Byte) (s : State) : State :=
  match getStream s k with
  | none => s
  | some t =>
    let q := BitVec.ofNat 16 (be16 bs 2)
    let base := t.rtpNext.getD q
    if 2 ^ 15 ≤ (q - base).toNat then spoilVideo k (setStream { t with rtpLost := t.rtpLost + 1 } s)
    else
      let t := { t with reorder := rtpInsert base (q, now s, rtpPayload bs) t.reorder }
      setStream (rtpRelease t.reorder.length t) s
/-- RTP_REORDER_EXPIRY (R234): the packets missing before the first one held are lost; what follows is released. -/
def rtpReorderExpiry (k : Nat) (s : State) : State :=
  match getStream s k with
  | none => s
  | some t =>
    match t.reorder with
    | [] => s
    | (q, _, _) :: _ =>
      let lost := (q - t.rtpNext.getD q).toNat
      let t := { t with rtpLost := t.rtpLost + lost, rtpNext := some q }
      let s := setStream (rtpRelease t.reorder.length t) s
      if lost = 0 then s else spoilVideo k s
/-- RTP_REORDER_EXPIRY. -/
def execRtpReorderExpiry (k : Nat) (s : State) : Res := .next (rtpReorderExpiry k s)

/-- PICTURE_DECODED (R222, R236): a clean IRAP picture ends an episode. -/
def pictureDecoded (k : Nat) (p : Picture) (s : State) : State :=
  if (getStream s k).isNone then s
  else
    let s := if p.clean then (if p.irap then updStream k (fun t => { t with episode := false }) s else s) else spoilVideo k s
    let bad := match getStream s k with | some t => t.episode | none => false
    completeUnit k bad (.picture p.depth p.y p.cb p.cr) (updStream k (fun t => { t with decode := [] }) s)
/-- PICTURE_DECODED. -/
def execPictureDecoded (k : Nat) (p : Picture) (s : State) : Res := .next (pictureDecoded k p s)

/-- A MAC's record. -/
def getMac (s : State) (m : Nat) : Mac := getK {} s.intake.macs m
def updMac (m : Nat) (f : Mac → Mac) (s : State) : State := { s with intake := { s.intake with macs := updK {} s.intake.macs m f } }

/-- A source address lies in an entry's prefix (R230). -/
def prefixOk (f : Flow) (src : BitVec 128) : Bool :=
  let w := if f.v6 then 128 else 32
  decide (src.toNat / 2 ^ (w - f.srcLen) = f.src.toNat / 2 ^ (w - f.srcLen)) || decide (f.srcLen = 0)
/-- A classifier entry matches a frame (R230). -/
def flowMatch (m : Nat) (e : EthFrame) (p : IpPkt) (f : Flow) : Bool :=
  f.macMask.getLsbD m && (match f.vlan with | some v => decide (e.vlan = some v) | none => true) && (f.v6 == p.v6)
    && prefixOk f p.src && decide (f.dst = p.dst) && decide (f.dport = p.dport)
    && (match f.sport with | some q => decide (q = p.sport) | none => true)
    && (decide (f.kind ≠ .rtpHevc) || (decide (f.ssrc.toNat = beVal (sub p.payload 8 4)) && decide (f.pt.toNat = fld p.payload 1 1 % 128)))

/-- A datagram of a matched flow (R231–R234). -/
def flowData (k : Nat) (f : Flow) (bs : List Byte) (s : State) : State :=
  match f.kind with
  | .lidarFlow => lidarPacket k (s.intake.templates.getD f.template { hdrLen := 0, recLen := 1, fixed := some 0, fields := [] }) bs s
  | .rtpHevc => rtpPacket k bs s
  | .udpRaw => updStream k (fun t => { t with ring := t.ring ++ [leBytes 4 bs.length ++ bs] }) s
  | .csi => s

/-- The stream of a flow entry on a MAC (R219). -/
def flowStream (s : State) (m idx : Nat) : Option Stream :=
  (streamsOf s).find? (fun t => decide (t.decl.kind ≠ .csi) && decide (t.decl.flow = idx) && (BitVec.ofNat 8 t.decl.port).getLsbD m)

/-- The checksums of a datagram hold (R230). -/
def sumsOk (p : IpPkt) : Bool := p.hdrSumOk && (if p.udpSumZero then !p.v6 else p.udpSumOk)
/-- The frame is addressed to the MAC or to a multicast group that a flow of it names (R229). -/
def macTakes (s : State) (m : Nat) (e : EthFrame) : Bool :=
  decide ((getMac s m).addr = some e.dmac)
    || (e.dmac.getLsbD 40 && (match e.ip with
      | some p => s.intake.flows.any (fun f => f.macMask.getLsbD m && decide (f.dst = p.dst))
      | none => false))

/-- ETH_FRAME (R229–R234). -/
def ethFrame (m : Nat) (e : EthFrame) (s : State) : State :=
  if ¬liveInput s then s
  else if e.len < 64 ∨ 9022 < e.len then updMac m (fun c => { c with len := c.len.inc }) s
  else if ¬e.fcsOk then updMac m (fun c => { c with fcs := c.fcs.inc }) s
  else if e.ethertype = 0x88F7 then s
  else match e.ip with
    | none => undeclared (16 + m, e.dmac.toNat, 0) s
    | some p =>
      if ¬macTakes s m e then undeclared (16 + m, p.src.toNat, p.dport.toNat) s
      else if p.unsupported then updMac m (fun c => { c with proto := c.proto.inc }) s
      else if ¬sumsOk p then updMac m (fun c => { c with csum := c.csum.inc }) s
      else match (List.range s.intake.flows.length).find? (fun i => match s.intake.flows[i]? with | some f => flowMatch m e p f | none => false) with
        | none => undeclared (16 + m, p.src.toNat, p.dport.toNat) s
        | some i =>
          match s.intake.flows[i]?, flowStream s m i with
          | some f, some t => flowData t.decl.id f p.payload s
          | _, _ => undeclared (16 + m, p.src.toNat, p.dport.toNat) s
/-- ETH_FRAME. -/
def execEthFrame (m : Nat) (e : EthFrame) (s : State) : Res := .next (ethFrame m e s)

/-- A stream turns MISSING (R224): raised once until it has delivered a FRESH unit. -/
def loseStream (k : Nat) (s : State) : State :=
  match getStream s k with
  | none => s
  | some t => if t.lost then s else raise .sensorLoss (streamInst k) [] (setStream { t with lost := true } s)

/-- LOSS_TIMEOUT (R223, R224): no unit is young enough; an open frame without its end is given up. -/
def lossTimeout (k : Nat) (s : State) : State :=
  match getStream s k with
  | none => s
  | some t => if t.fresh.isSome ∨ ¬liveInput s then s else loseStream k (setStream { t with last := none, open_ := none } s)
/-- LOSS_TIMEOUT. -/
def execLossTimeout (k : Nat) (s : State) : Res := .next (lossTimeout k s)

/-- A scene file. -/
def getFile (s : State) (set file : Nat) : Option MsrFileState := (getK [] s.intake.sets set)[file]?
def setFile (set file : Nat) (x : MsrFileState) (s : State) : State :=
  { s with intake := { s.intake with sets := updK [] s.intake.sets set (fun l => l.set file x) } }
/-- Bits of an element of a TENSOR's DTYPE (R239). -/
def dtypeBits (t : Nat) : Nat :=
  match t with
  | 0 => 32 | 1 => 16 | 2 => 16 | 3 => 32 | 4 => 16 | 5 => 8 | 6 => 8 | 7 => 8 | 8 => 4 | 9 => 8 | 10 => 16 | _ => 0
/-- A TENSOR's length is consistent (R239). -/
def tensorOk (p : List Byte) : Bool :=
  let dims := (List.range 6).map (fun i => fld p (4 + 4 * i) 4)
  let n := dims.foldl (· * ·) 1
  decide (dtypeBits (fld p 0 1) ≠ 0) && decide (1 ≤ fld p 1 1) && decide (fld p 1 1 ≤ 6)
    && decide (p.length = 32 + ceilDiv (n * dtypeBits (fld p 0 1)) 8)
/-- Lines of a CSI_FRAME record (R239). -/
def csiRecLines (p : List Byte) : List (List Byte) :=
  let pitch := fld p 8 4
  (List.range (fld p 2 2)).map (fun y => sub p (16 + y * pitch) (fld p 0 2 * dtBits (fld p 4 1) / 8))

/-- RECORD_DECODE (R238–R241): one record of a file in ADAPTING. -/
def recordDecode (set file : Nat) (r : MsrRec) (s : State) : State :=
  match getFile s set file with
  | none => s
  | some f =>
    if s.dev.state ≠ .adapting ∨ f.ended then s
    else
      let f := { f with ended := r.atEnd }
      let spoil (f : MsrFileState) : MsrFileState :=
        { f with corrupt := match f.frame with | some k => if f.corrupt.contains k then f.corrupt else f.corrupt ++ [k] | none => f.corrupt }
      let ty := fld r.header 4 2
      let stream := fld r.header 6 2
      if r.header.length ≠ 32 ∨ (crc32c (r.header.take 28)).toNat ≠ fld r.header 28 4 then
        raise .msrCorrupt (sub_ prismNode set) [] (setFile set file { spoil f with abandoned := true, ended := f.ended || !f.indexed } s)
      else if ty = 4 then
        let f := { f with frame := some (fld r.header 20 4), abandoned := false }
        setFile set file (if fld r.header 24 4 % 2 = 1 then spoil f else f) s
      else if f.abandoned then setFile set file f s
      else if crc32c r.payload ≠ r.crc ∨ fld r.header 0 4 ≠ r.payload.length ∨ (ty = 1 ∧ ¬tensorOk r.payload) then setFile set file (spoil f) s
      else
        let s := setFile set file (if 5 < ty ∨ ty = 0 then { f with skipped := f.skipped + 1 } else if fld r.header 24 4 % 2 = 1 then spoil f else f) s
        match ty with
        | 2 => completeUnit stream false (.csi (fld r.payload 4 1) (csiRecLines r.payload)) s
        | 3 => updStream stream (fun t => { t with decode := t.decode ++ [r.payload] }) s
        | _ => s
/-- RECORD_DECODE. -/
def execRecordDecode (set file : Nat) (r : MsrRec) (s : State) : Res := .next (recordDecode set file r s)

/-- Staging offset of a copy of a camera's ROI list for a target frame (R253; the placement is log entry 25). -/
def roiListAt (c : CamDecl) (copyB : Bool) (g : W32) : Nat := c.list + (2 * (g.toNat % 2) + (if copyB then 1 else 0)) * 1040
/-- A copy's 16-byte header and entries. -/
def roiCopy (m : MemT) (at_ : Nat) : List Byte := rdN m.staging at_ (16 + 16 * min (leVal (rdN m.staging (at_ + 4) 2)) 64)
/-- A copy's CRC and target frame check out (R253, R255). -/
def roiCopyOk (bs : List Byte) (g : W32) : Bool :=
  decide (fld bs 0 4 = g.toNat) && decide (fld bs 4 2 ≤ 64) && decide (fld bs 8 4 = (crc32c (bs.drop 16)).toNat)
/-- An entry of a copy (R253). -/
def roiEntry (bs : List Byte) (i : Nat) : Roi :=
  let o := 16 + 16 * i
  { x0 := fld bs o 2, y0 := fld bs (o + 2) 2, w := fld bs (o + 4) 2, h := fld bs (o + 6) 2, wo := fld bs (o + 8) 2, ho := fld bs (o + 10) 2,
    slot := fld bs (o + 12) 1, priority := decide (fld bs (o + 13) 1 % 2 = 1), track := fld bs (o + 14) 2 }
/-- The list a camera uses for a frame (R255; a seal in the cycle of the frame start is late): the published one, or the reason it is not used: 0 LATE, 1 CRC, 2 DIFFER. -/
def focusList (c : CamDecl) (t : Stream) (g : W32) (start : W64) (m : MemT) : List Roi ⊕ Nat :=
  let inTime (x : Option (W32 × W64)) : Bool := match x with | some (f, at_) => decide (f = g) && decide (at_ ≠ start) | none => false
  let a := roiCopy m (roiListAt c false g)
  let b := roiCopy m (roiListAt c true g)
  if ¬inTime t.sealA ∨ (c.mirrored ∧ ¬inTime t.sealB) then .inr 0
  else if ¬roiCopyOk a g ∨ (c.mirrored ∧ ¬roiCopyOk b g) then .inr 1
  else if c.mirrored ∧ a ≠ b then .inr 2
  else .inl ((List.range (fld a 4 2)).map (roiEntry a))

/-- Bytes of an ROI slot: its largest output size in planar rows of whole pitches. -/
def roiSlotBytes (pr : Profile) (chans : Nat) (d : Nat × Nat) : Nat := chans * d.2 * rowPitch pr.ofmt d.1
/-- Crop the entries of a list into the ROI set of a frame, then write its status table (R248, R256; placement: log entry 25).
Answers the crops dropped and clipped. -/
def cropAll (pr : Profile) (chans uw uh setAt : Nat) (ps : List Plane) (rs : List Roi) (m : MemT) : MemT × Nat × Nat :=
  let slotAt (k : Nat) : Nat := setAt + ((pr.slots.take k).map (roiSlotBytes pr chans)).sum
  let step (a : MemT × Nat × Nat × List Nat × List Roi) (r : Roi) : MemT × Nat × Nat × List Nat × List Roi :=
    let ok := rectOk uw uh r && decide (r.slot < pr.slots.length) && !a.2.2.2.1.contains r.slot
      && (match pr.slots[r.slot]? with | some d => decide (r.wo ≤ d.1) && decide (r.ho ≤ d.2) | none => false)
    if ok then
      let o := outImage pr r.x0 r.y0 r.w r.h r.wo r.ho ps
      (chamberPut (slotAt r.slot) o.1 [] a.1, a.2.1, a.2.2.1 + o.2, a.2.2.2.1 ++ [r.slot], a.2.2.2.2 ++ [r])
    else (a.1, a.2.1 + 1, a.2.2.1, a.2.2.2.1 ++ [r.slot], a.2.2.2.2)
  let z := rs.foldl step (m, 0, 0, [], [])
  let rows := (List.range 64).flatMap (fun k => match z.2.2.2.2.find? (fun r => r.slot = k) with
    | some r => [1, 0] ++ leBytes 2 r.wo ++ leBytes 2 r.ho ++ leBytes 2 r.track
    | none => List.replicate 8 0)
  (chamberPut (slotAt pr.slots.length) rows [] z.1, z.2.1, z.2.2.1)

/-- Focus for one stream at a frame start (R250, R255–R257). -/
def focusStream (k : Nat) (g : W32) (s : State) : State :=
  match getStream s k, getCam s k with
  | some t, some c =>
    match getProfile s t.decl.profile with
    | none => s
    | some pr =>
      if pr.slots.isEmpty ∨ t.moved then setStream { t with focus := 2 } s
      else
        let l := focusList c t g (now s) s.mem
        let s := match l with
          | .inl _ => s
          | .inr why => note Source.focusList.code (leBytes 1 k ++ leBytes 1 why) (raise .focusList (streamInst k) [] s)
        let rs := match l with | .inl rs => rs | .inr _ => pr.roiDefault
        let usable := match t.flag with | .fresh => true | .repeated => true | _ => false
        let body := match t.used with | some u => u.body | none => .none
        let ps := if usable then toPlanes pr t.decl.width t.decl.height body else []
        let chans := unitChans pr t.decl
        let uw := if chans = 4 then t.decl.width / 2 else t.decl.width
        let uh := if chans = 4 then t.decl.height / 2 else t.decl.height
        let setSize := (pr.slots.map (roiSlotBytes pr chans)).sum + 512
        let z := cropAll pr chans uw uh (pr.roiBase + g.toNat % 2 * setSize) ps (if usable then rs else []) s.mem
        let how := match l with | .inl _ => 0 | .inr _ => 1
        updStream k (fun t => { t with focus := how, focusDrop := t.focusDrop.add z.2.1, preClip := t.preClip.add z.2.2 }) { s with mem := z.1 }
  | _, _ => s

/-- Assign a stream's input to the frame that starts (R222, R223). A unit or a packet whose completion LTC is the frame start's
belongs to the following frame. -/
def assignStream (n : W32) (k : Nat) (s : State) : State :=
  match getStream s k with
  | none => s
  | some t =>
    let t := if t.lastPt = now s then t else mergePts t
    let t := if t.points.isEmpty ∧ ¬t.overrun then t
      else
        let x := s.intake.templates.getD ((s.intake.flows[t.decl.flow]?).map (·.template) |>.getD 0) { hdrLen := 0, recLen := 1, fixed := some 0, fields := [] }
        let tensor := pointTensor x.fp32 x.fields.length (t.decl.width * t.decl.height) t.points
        let u : SUnit := { stamp := t.ptAt, corrupt := t.overrun, body := .points t.points.length tensor }
        { t with fresh := some u, points := [], overrun := false, lastLtc := t.ptAt, lastFrame := n }
    let late := match t.fresh with | some u => decide (u.stamp = now s) | none => false
    let take := if late then t.prior else t.fresh
    let t := if late then { t with prior := none, lastFrame := n + 1 }
      else { t with prior := none, fresh := none, skip := if t.prior.isSome then t.skip.inc else t.skip }
    match take with
    | some u =>
      if u.corrupt then setStream { t with flag := .corrupt, used := some u } s
      else clearLevel .sensorLoss (streamInst k) (setStream { t with flag := .fresh, used := some u, last := some u, lost := false } s)
    | none =>
      match t.last with
      | some u =>
        if (now s - u.stamp).toNat < lossNs t.decl then setStream { t with flag := .repeated, used := some u } s
        else loseStream k (setStream { t with flag := .missing, used := none } s)
      | none =>
        let s := setStream { t with flag := .missing, used := none } s
        if t.flag = .missing then s else loseStream k s

/-- A moved stream comes into force or back (R260 step 3). -/
def applySplit (n : W32) (s : State) : State :=
  let due := s.intake.splitNext.filter (fun e => decide ((n - e.2.2).toNat < 2 ^ 31))
  due.foldl (fun s e =>
    let s := updStream e.1 (fun t => { t with moved := e.2.1 }) s
    let moved := if e.2.1 then s.intake.moved.erase e.1 ++ [e.1] else s.intake.moved.erase e.1
    let next := s.intake.splitNext.erase e
    let s := { s with intake := { s.intake with moved, splitFrame := n, splitAt := some (now s), above := 0, below := 0, splitNext := next } }
    match curPlan s with
    | some p => postEvent p.img.splitEvent (Config.evtKind 9) (leBytes 1 e.1 ++ leBytes 1 (if e.2.1 then 0 else 1) ++ [0, 0] ++ leBytes 4 n.toNat) s
    | none => s) s

/-- Intake's part of a frame start (R222, R223, R255, R260). -/
def intakeFrameStart (n : W32) (s : State) : State :=
  let s := applySplit n s
  if ¬liveInput s then s
  else
    let ids := (streamsOf s).map (fun t => t.decl.id)
    let s := ids.foldl (fun s k => assignStream n k s) s
    ids.foldl (fun s k => focusStream k n s) s

/-- Number of a unit flag (R251). -/
def flagNum (f : StreamFlag) : Nat := match f with | .fresh => 0 | .repeated => 1 | .corrupt => 2 | .missing => 3
/-- INTAKE_DONE (R251): Prism's message to the routes that the plan declares. -/
def intakeDone (k : Nat) (s : State) : State :=
  match getStream s k, getCam s k, s.loop.cur with
  | some t, some c, some f =>
    if t.decl.profile = 255 then s
    else
      let u := t.used.getD { stamp := 0 }
      let buf := match u.body with | .inbound b => b | _ => u.buffer
      let m := leBytes 1 k ++ leBytes 1 (flagNum t.flag) ++ leBytes 1 buf ++ leBytes 1 t.focus ++ leBytes 4 f.n.toNat ++ leBytes 8 u.stamp.toNat
      (c.routes.take 8).foldl (fun s r => emitFab (.data { src := prismNode, dst := r.1, chan := r.2, data := m }) s) s
  | _, _, _ => s
/-- INTAKE_DONE. -/
def execIntakeDone (k : Nat) (s : State) : Res := .next (intakeDone k s)

/-- FOCUS_SEAL (R254): a copy is published for a target frame. -/
def execFocusSeal (_src : Node) (k : Nat) (copyB : Bool) (g : W32) (s : State) : Res :=
  .next (updStream k (fun t => if copyB then { t with sealB := some (g, now s) } else { t with sealA := some (g, now s) }) s)

/-- The next stream to move, and its direction (R260 step 2). -/
def splitPick (s : State) : Option (Nat × Bool) :=
  if 100 ≤ s.intake.above then
    ((s.intake.split.map (·.1)).find? (fun k => !s.intake.moved.contains k)).map (fun k => (k, true))
  else if 100 ≤ s.intake.below then s.intake.moved.getLast?.map (fun k => (k, false))
  else none
/-- Decide a move for two frames later (R260): in TWIN the partner is told. -/
def splitDecide (k : Nat) (toHost : Bool) (s : State) : State :=
  let f := frameNo s
  let s := { s with intake := { s.intake with splitNext := s.intake.splitNext ++ [(k, toHost, f + 2)] } }
  if s.dv.twin then toPartner 2 (leBytes 1 0x27 ++ leBytes 1 k ++ leBytes 1 (if toHost then 0 else 1) ++ [0] ++ leBytes 4 f.toNat) s else s
/-- PRISM_UTIL_SAMPLE (R252, R260): the sample, the consecutive counts, and the trigger. -/
def prismUtilSample (u : Nat) (s : State) : State :=
  let i := s.intake
  let s := { s with intake := { i with
      util := u, utilHist := (u :: i.utilHist).take 100,
      above := if u * 100 > 85 * 65536 then min (i.above + 1) (2 ^ 32 - 1) else 0,
      below := if u * 100 < 60 * 65536 then min (i.below + 1) (2 ^ 32 - 1) else 0 } }
  let rested := match s.intake.splitAt with | some t => decide (100000000 ≤ (now s - t).toNat) | none => true
  match splitPick s with
  | some (k, d) => if s.intake.splitNext.isEmpty && rested && s.loop.ctx.isSome then splitDecide k d s else s
  | none => s
/-- PRISM_UTIL_SAMPLE. -/
def execPrismUtilSample (u : Nat) (s : State) : Res := .next (prismUtilSample u s)

end Sys2Proof.Machine
end

