-- ==== Sys2Proof/Machine/Energy.lean ====
section
/-! DEFINITION. The energy ledger, the electrical ceiling, the coolant and the sensors of Lantern (R202–R218, R466–R468, R528). -/

namespace Sys2Proof.Machine

/-- Event handles of the ledger (R218): LEDGER_LOW, LEDGER_OVERDRAFT, RUNG_CHANGE, WINDOW_END, METER_THRESHOLD. -/
def ledgerEvent (k : Nat) (payload : List Byte) (s : State) : State :=
  postEvent (s.energy.events.getD k 0xFFFF) (Config.evtKind (10 + k)) payload s
/-- A source is raised now for the device. -/
def raisedNow (s : State) (src : Source) : Bool := s.fc.active.any (fun e => e.source = src && e.raised)
/-- A meter. -/
def meter (s : State) (m : Nat) : W64 := getK 0 s.energy.meters m

/-- E_pred(r) × 2^32 in µJ (R211, R213). -/
def ePred (s : State) (p : Loaded) (r : Nat) : Nat := s.energy.k * ((p.img.rungs[r]?).map (·.energy)).getD 0

/-- The window of the next frame (R205, R206, R211): frames left and the balance it may use. -/
def nextWindow (s : State) (p : Loaded) : Option (Nat × Int) :=
  let e := s.energy
  let b := e.balance - (ePred s p e.force / 2 ^ 32 : Nat)
  let opened (w ew : Nat) : Option (Nat × Int) := if ew = 0 then none else some (w, (ew : Int) - min (max (-b) 0) ew)
  match e.newGrant with
  | some (w, ew, f) => if f = s.loop.next then opened w ew else
      (match e.grant with | some (w, ew) => if e.winFrame < w then some (w - e.winFrame, b) else opened w ew | none => none)
  | none => match e.grant with | some (w, ew) => if e.winFrame < w then some (w - e.winFrame, b) else opened w ew | none => none

/-- The energy rung for the next frame and whether it overdraws (R211), by exact comparison of n × E × 2^32 × 10^6. -/
def chooseRung (s : State) (p : Loaded) : Nat × Bool :=
  let w := nextWindow s p
  let n := match w with | some x => max x.1 1 | none => 1
  let pred (r : Nat) : Nat := ePred s p r * 1000000 * n
  let power := min (allowance s) s.ltn.cfg.ceiling * p.period.toNat * n
  let cap := match w with | some x => min (x.2.toNat * 2 ^ 32 * 1000000) power | none => power
  let prev := s.energy.rung
  let r := ((List.range 6).find? (fun i => pred i ≤ cap)).getD 5
  let r := if r < prev ∧ 9 * cap < 10 * pred r then prev else r
  let r := if r + 1 < prev then prev - 1 else r
  (r, decide (cap < pred r))

/-- The energy ladder is suspended (R216). -/
def torchOn (s : State) : Bool := s.dev.state = .degraded || (s.dev.state = .realign && s.dev.prior = some .degraded)

/-- DECISION_POINT (R211, R214). -/
def decisionPoint (s : State) : State :=
  match curPlan s with
  | none => s
  | some p =>
    if torchOn s then s
    else
      let c := chooseRung s p
      let s := { s with energy := { s.energy with nextRung := some c } }
      if s.dv.twin then toPartner 2 (leBytes 1 0x25 ++ leBytes 1 c.1 ++ [0, 0] ++ leBytes 4 s.loop.next.toNat) s else s
/-- DECISION_POINT. -/
def execDecisionPoint (s : State) : Res := .next (decisionPoint s)

/-- A frequency target for a core, latched (R69). -/
def setTarget (u : Nat) (c : Core) : Core := { c with freqNext := some (max 40 (min 125 u)) }
/-- The target a core has now. -/
def targetOf (c : Core) : Nat := c.freqNext.getD c.freq
/-- The declared frequency targets of the rung in force (R210, R215 step 4). -/
def rungTargets (s : State) : State :=
  match curPlan s with
  | none => s
  | some p =>
    (((p.img.rungs[s.energy.force]?).map (·.freqs)).getD []).foldl (fun s e => updCore e.1 (setTarget (freqCap s e.1 e.2)) s) s
/-- Change every core that is on. -/
def mapCores (f : Core → Core) (s : State) : State :=
  { s with cores := s.cores.map (fun e => if e.2.run = .off then e else (e.1, f e.2)) }

/-- A meter counts (R202, R203): energy meters wrap. -/
def countMeter (m : Nat) (uj : Nat) (s : State) : State :=
  let e := s.energy
  let old := getK 0 e.meters m
  let add := uj * getK 65536 e.trim m / 65536
  let past := decide (2 ^ 64 ≤ old.toNat + add)
  let new := old + BitVec.ofNat 64 add
  let below := decide (new.toNat < (getK 0 e.thresh m).toNat)
  { s with energy := { e with meters := putK 0 e.meters m new, crossed := if below then e.crossed.erase m else e.crossed,
                              wrapped := if past ∧ ¬e.wrapped.contains m then e.wrapped ++ [m] else e.wrapped } }
/-- The sixteen meters count; only PD_AON's does in AON_ONLY (R203). -/
def countMeters : Nat → List Nat → State → State
  | _, [], s => s
  | m, u :: us, s => countMeters (m + 1) us (if s.dev.state = .aonOnly ∧ m ≠ 0 then s else countMeter m u s)

/-- CEILING_INTERVAL (R202, R215): the meters count, and the 100 µs sum is compared with C. -/
def ceilingInterval (uj : List Nat) (s : State) : State :=
  let before := s.energy.meters
  let s := countMeters 0 (uj.take 16) s
  let sum := ((List.range 16).map (fun m => (getK 0 s.energy.meters m - getK 0 before m).toNat)).sum
  let c := s.ltn.cfg.ceiling
  let e := s.energy
  if c < sum * 10 then
    if e.capped then
      mapCores (fun k => if k.safety then setTarget (targetOf k - 5) k else k) { s with energy := { e with below := 0 } }
    else
      raise .pwrCeiling dev [] (mapCores (fun k => if k.safety then k else setTarget 40 k)
        { s with energy := { e with capped := true, below := 0, ceilingCnt := e.ceilingCnt.inc } })
  else if e.capped then
    let below := if sum * 100 < 9 * c then e.below + 1 else 0
    if 10 ≤ below then rungTargets { s with energy := { e with capped := false, below := 0 } }
    else { s with energy := { e with below } }
  else s
/-- CEILING_INTERVAL. -/
def execCeilingInterval (uj : List Nat) (s : State) : Res := .next (ceilingInterval uj s)

/-- METER_TRIM (R202): the estimators of domains are scaled. -/
def execMeterTrim (scale : List (Nat × Nat)) (s : State) : Res :=
  .next { s with energy := { s.energy with trim := scale.foldl (fun m e => if e.1 < 16 then putK 65536 m e.1 e.2 else m) s.energy.trim } }

/-- METER_THRESHOLD (R8, R10, R218): one event per crossing, and one when the meter wraps. -/
def meterThreshold (m : Nat) (s : State) : State :=
  let e := s.energy
  let t := getK 0 e.thresh m
  let v := meter s m
  let body := leBytes 1 m ++ List.replicate 7 0 ++ leBytes 8 v.toNat
  if e.wrapped.contains m then ledgerEvent 4 body { s with energy := { e with wrapped := e.wrapped.erase m } }
  else if t ≠ 0 ∧ t.toNat ≤ v.toNat ∧ ¬e.crossed.contains m then ledgerEvent 4 body { s with energy := { e with crossed := e.crossed ++ [m] } }
  else s
/-- METER_THRESHOLD. -/
def execMeterThreshold (m : Nat) (s : State) : Res := .next (meterThreshold m s)

/-- LOOP_HEAT_EXPIRY (R208). -/
def execLoopHeatExpiry (s : State) : Res := .next { s with energy := { s.energy with heat := none } }

/-- Sum of z^(2k+1) / (2k+1) for k below a bound, in 1/2^48: `p` is the power of z reached. -/
def artanhSum : Nat → Nat → Int → Int → Int
  | 0, _, _, _ => 0
  | n + 1, k, z, p => p / (2 * k + 1) + artanhSum n (k + 1) z (p * z / 2 ^ 48 * z / 2 ^ 48)
/-- ln(R / 10 kΩ) in 1/2^48 for a converter value of 16 bits (R528): v / (1 − v) = (1 + z) / (1 − z) with z = 2v − 1. -/
def ntcLn (v : Nat) : Int :=
  let z : Int := (2 * (v : Int) - 65536) * 2 ^ 32
  2 * artanhSum 400 0 z z
/-- Temperature in 0.01 °C for a converter value, to the nearest step (R528 and the worked example of its chapter: 21,395 reads 4,500). -/
def ntcTemp (v : Nat) : Int :=
  let d := 343500 * 2 ^ 48 + 29815 * ntcLn v
  (2 * (29815 * 343500 * 2 ^ 48) + d) / (2 * d) - 27315
/-- Mean of the filter's samples (R207; the filter is log entry 23). -/
def meanTemp (l : List Int) : Int := l.sum / max (l.length : Int) 1

/-- COOLANT_SAMPLE (R209, R528). -/
def coolantSample (v : Nat) (s : State) : State :=
  let openOrShort := decide (98 * 65536 < v * 100) || decide (v * 100 < 2 * 65536)
  let raw := ntcTemp v
  let outside := openOrShort || decide (raw < -4000) || decide (9000 < raw)
  let e := s.energy
  let samples := if outside then e.coolant else (raw :: e.coolant).take 8
  let t := meanTemp samples
  let hist := if outside then e.coolHist else (t :: e.coolHist).take 11
  let jump := hist.any (fun h => decide (1000 < (h - t).natAbs))
  let s := { s with energy := { e with coolant := samples, coolHist := hist } }
  if outside ∨ jump then
    let s := { s with energy := { s.energy with coolT := s.energy.tTop, coolInvalid := true } }
    if raisedNow s .coolantSensor then s else raise .coolantSensor dev [] s
  else
    let s := clearLevel .coolantSensor dev { s with energy := { s.energy with coolT := t, coolInvalid := false } }
    if 6000 < t ∨ t < -3000 then (if raisedNow s .coolantRange then s else raise .coolantRange dev [] s)
    else clearLevel .coolantRange dev s
/-- COOLANT_SAMPLE. -/
def execCoolantSample (v : Nat) (s : State) : Res := .next (coolantSample v s)

/-- One junction sensor's sample (R466): TJ_HIGH on two consecutive samples above 125 °C. -/
def tjSample (k : Nat) (t : Int) (s : State) : State :=
  let hot := decide (12500 < t)
  let was := s.ltn.tjHot.contains k
  let s := { s with ltn := { s.ltn with tj := putK 0 s.ltn.tj k t, tjHot := if hot then (if was then s.ltn.tjHot else s.ltn.tjHot ++ [k]) else s.ltn.tjHot.erase k } }
  if hot then
    if was ∧ ¬s.fc.active.any (fun e => e.is .tjHigh (sub_ 0x3FF k) && e.raised) then raise .tjHigh (sub_ 0x3FF k) [] s else s
  else clearLevel .tjHigh (sub_ 0x3FF k) s
/-- JUNCTION_SAMPLE (R208, R466). -/
def junctionSample (temps : List (Nat × Int)) (s : State) : State :=
  let s := temps.foldl (fun s e => tjSample e.1 e.2 s) s
  { s with energy := { s.energy with tj := match s.ltn.tj with | [] => 0 | e :: es => es.foldl (fun m x => max m x.2) e.2 } }
/-- JUNCTION_SAMPLE. -/
def execJunctionSample (temps : List (Nat × Int)) (s : State) : Res := .next (junctionSample temps s)

/-- RAIL_CURRENT_SAMPLE (R466). -/
def execRailCurrentSample (ma : List (Nat × Nat)) (s : State) : Res :=
  .next { s with ltn := { s.ltn with railMa := ma.foldl (fun m e => putK 0 m e.1 e.2) s.ltn.railMa } }
/-- RAIL_RANGE (R466). -/
def execRailRange (rail : Nat) (s : State) : Res := .next (raise .railRange (sub_ 0x3FF rail) [] s)
/-- CLK_REF_RANGE (R555). -/
def execClkRefRange (s : State) : Res := .next (raise .clkRefRange dev [] s)

/-- Meters latched at a frame start, and the frame's energy (R204). -/
def latchMeters (s : State) : Nat × State :=
  let e := s.energy
  let m := ((List.range 16).map (fun k => (getK 0 e.meters k - getK 0 e.latched k).toNat)).sum
  (m, { s with energy := { e with latched := e.meters } })

/-- k after a frame of energy m at declared energy d (R213). -/
def nextK (k m d : Nat) : Nat :=
  if d = 0 then k
  else
    let v : Int := (k : Int) + ((m * 2 ^ 32 / d : Nat) - (k : Int)) / 16
    max (2 ^ 31) (min (2 ^ 33) v.toNat)

/-- A window ends (R206, R218): the event, the debt, the new balance. -/
def closeWindow (ew : Nat) (s : State) : State :=
  let b := s.energy.balance
  let s := ledgerEvent 3 (leInt 8 b) s
  let debt := (-b).toNat
  { s with energy := { s.energy with
      balance := (ew : Int) - min debt ew, winFrame := 0, lowPosted := false,
      writeoff := if ew < debt then s.energy.writeoff.inc else s.energy.writeoff } }

/-- Reconcile the previous frame (R206, R213). -/
def reconcile (m : Nat) (p : Loaded) (s : State) : State :=
  if s.loop.started = 0 ∨ torchOn s then s
  else
    let e := s.energy
    let d := ((p.img.rungs[e.force]?).map (·.energy)).getD 0
    let s := { s with energy := { e with k := nextK e.k m d } }
    match e.grant with
    | none => s
    | some (_, ew) =>
      let b := e.balance - m
      let low := decide (b * 256 < (e.lowFrac * ew : Nat)) && !e.lowPosted
      let s := { s with energy := { s.energy with balance := b, lowPosted := e.lowPosted || low } }
      if low then ledgerEvent 0 (leInt 8 b) s else s

/-- The budget window at a frame start (R205, R206). -/
def windowStart (n : W32) (s : State) : State :=
  let e := s.energy
  let s := match e.newGrant with
    | some (w, ew, f) =>
      if (n - f).toNat < 2 ^ 31 then
        let s := { s with energy := { s.energy with newGrant := none } }
        let s := match e.grant with
          | some _ => closeWindow ew s
          | none => { s with energy := { s.energy with balance := (ew : Int) - min (max (-e.balance) 0) ew, winFrame := 0, lowPosted := false } }
        { s with energy := { s.energy with grant := if ew = 0 then none else some (w, ew) } }
      else s
    | none => s
  match s.energy.grant with
  | none => s
  | some (w, ew) =>
    let s := if w ≤ s.energy.winFrame then closeWindow ew s else s
    { s with energy := { s.energy with winFrame := s.energy.winFrame + 1 } }

/-- A floor computed in frame f does not yet apply to frame n (R201). -/
def floorPends (n : W32) (x : W32 × Nat) : Bool := decide (2 ^ 31 ≤ (n - (x.1 + 2)).toNat)
/-- The floor of a list, newest first, that applies to frame n (R201); none applies before the first. -/
def floorAtFrame (n : W32) (l : List (W32 × Nat)) : Nat := ((l.dropWhile (floorPends n)).head?.map (·.2)).getD 0
/-- Floors that apply to frame n or later ones. -/
def floorsFrom (n : W32) (l : List (W32 × Nat)) : List (W32 × Nat) := l.takeWhile (floorPends n) ++ (l.dropWhile (floorPends n)).take 1
/-- The bandwidth floor that applies to frame n (R200, R201): in TWIN the higher of both, from two frames after it was computed. -/
def floorFor (n : W32) (s : State) : Nat :=
  if s.dv.twin then max (floorAtFrame n s.mem.floors) (floorAtFrame n s.mem.partnerFloors) else s.mem.floor

/-- BULK caps for the rung in force, while BEST_EFFORT is halted (R200 steps 2 and 3). -/
def rescaleBulk (s : State) : State :=
  match curPlan s with
  | none => s
  | some p => match p.img.rungs[s.energy.force]? with
    | some x => if s.mem.halted then { s with mem := { s.mem with bulk := bulkScale (deliverable s x) (rungSums x) } } else s
    | none => s

/-- Recompute the floor at a frame start (R200), also after D has risen again. -/
def refloor (s : State) : State :=
  match curPlan s with
  | none => s
  | some p =>
    let k := if s.mem.retired.isEmpty then 0 else (floorRung s p.img.rungs s.energy.rung).getD 5
    let k := if k ≤ s.energy.rung then 0 else k
    if k = s.mem.floor then s
    else
      let s := { s with mem := { s.mem with floor := k, floors := (s.loop.next, k) :: s.mem.floors } }
      sendFloor s.loop.next s

/-- The rung for frame n (R211–R214, R217, R218). Answers whether the frame is UNAGREED. -/
def rungStart (n : W32) (s : State) : Bool × State :=
  let e := s.energy
  let own := match e.nextRung with | some x => x.1 | none => e.rung
  let past := match e.nextRung with | some x => x.2 | none => false
  let other := match e.partnerRung with | some (f, r) => if f = n then some r else none | none => none
  let unagreed := s.dv.twin && other.isNone
  let rung := if s.dv.twin then max own (other.getD own) else own
  let s := refloor { s with energy := { e with rung, nextRung := none } }
  let fl := floorFor n s
  let s := { s with mem := { s.mem with floors := floorsFrom n s.mem.floors, partnerFloors := floorsFrom n s.mem.partnerFloors } }
  let force := max rung fl
  let changed := decide (force ≠ e.force)
  let s := { s with energy := { s.energy with
      force, floor := fl, rungFrames := updK {} s.energy.rungFrames force (fun c => c.inc),
      overdraft := if past then s.energy.overdraft.inc else s.energy.overdraft } }
  let s := if past then ledgerEvent 1 (leBytes 4 n.toNat) s else s
  let s := if changed then ledgerEvent 2 (leBytes 1 e.force ++ leBytes 1 force) s else s
  let s := pumpStalled (rescaleBulk s)
  (unagreed, if s.energy.capped ∨ (¬changed ∧ 0 < s.loop.started) then s else rungTargets s)

end Sys2Proof.Machine
end

