-- ==== Sys2Proof/Machine/Objects.lean ====
section
/-! DEFINITION. Objects shared with the host: descriptors, residency and slot faults, queues, events, reference counts and
INVALIDATE (R308–R327, R571–R575). -/

namespace Sys2Proof.Machine

/-- A power of two between two bounds. -/
def pow2In (lo hi n : Nat) : Bool := decide (lo ≤ n) && decide (n ≤ hi) && (List.range 17).any (fun k => decide (n = 2 ^ k))
/-- Every byte of a field is zero. -/
def zeros (bs : List Byte) (off n : Nat) : Bool := (sub bs off n).all (· = 0)
/-- Bits of a field. -/
def fbits (bs : List Byte) (off n hi lo : Nat) : Nat := fld bs off n / 2 ^ lo % 2 ^ (hi + 1 - lo)

/-- A memory-object descriptor (R310), or `none` when it is invalid (R314). -/
def parseObj (bs : List Byte) : Option ObjDesc :=
  let fl := fld bs 0 4
  let loc := fl / 2 % 8
  let page := fl / 256 % 4
  let len := fld bs 8 8
  if fl % 2 = 0 ∨ 3 < loc ∨ fl / 64 % 4 ≠ 0 ∨ 1024 ≤ fl ∨ len = 0 ∨ 2 ^ 40 < len ∨ (loc ≠ 0 ∧ page ≠ 0) ∨ ¬zeros bs 38 26 then none
  else some { location := loc, cacheable := fl / 16 % 2 = 1, readOnly := fl / 32 % 2 = 1, page, length := len,
              base := BitVec.ofNat 64 (fld bs 16 8), generation := BitVec.ofNat 32 (fld bs 32 4),
              releaseEvent := BitVec.ofNat 16 (fld bs 36 2) }
/-- What the caches hold for an invalid descriptor (R314, R323): LENGTH 0. -/
def invalidObj : ObjDesc :=
  { location := 0, cacheable := false, readOnly := false, page := 0, length := 0, base := 0, generation := 0, releaseEvent := 0xFFFF }
/-- A context descriptor (R311), or `none` when it is invalid. -/
def parseCtx (id : Nat) (bs : List Byte) : Option CtxSlot :=
  let fl := fld bs 0 4
  let ring := fld bs 12 4
  let none_ := decide (ring = 0xFFFFFFFF)
  if fl % 2 = 0 ∨ fl / 4 % 4 ≠ 0 ∨ 256 ≤ fl ∨ 2 ^ 18 ≤ fld bs 4 4 ∨ (¬none_ ∧ (2 ^ 18 ≤ ring ∨ ¬pow2In 4 256 (fld bs 16 2))) ∨ ¬zeros bs 18 46 then none
  else some { id, safety := fl / 2 % 2 = 1, priority := fl / 16 % 16, plan := BitVec.ofNat 18 (fld bs 4 4),
              notify := BitVec.ofNat 16 (fld bs 8 2), delivery := BitVec.ofNat 16 (fld bs 10 2),
              ring := if none_ then none else some (BitVec.ofNat 18 ring), ringFrames := fld bs 16 2 }
/-- A queue descriptor (R312), or `none` when it is invalid. -/
def parseQueue (id : Nat) (bs : List Byte) : Option QueueSlot :=
  if fld bs 0 4 ≠ 1 ∨ 4096 ≤ fld bs 4 2 ∨ 2 ^ 18 ≤ fld bs 8 4 ∨ ¬pow2In 16 65536 (fld bs 12 4) ∨ ¬zeros bs 20 44 then none
  else some { id, ctx := fld bs 4 2, event := BitVec.ofNat 16 (fld bs 6 2), ring := BitVec.ofNat 18 (fld bs 8 4),
              entries := fld bs 12 4, head := BitVec.ofNat 32 (fld bs 16 4), tail := BitVec.ofNat 32 (fld bs 16 4) }
/-- An event descriptor (R313), or `none` when it is invalid. -/
def parseEvt (id : Nat) (bs : List Byte) : Option EvtSlot :=
  let v := fld bs 4 1
  if fld bs 0 4 % 2 = 0 ∨ 8 ≤ fld bs 0 4 ∨ v < 4 ∨ 63 < v ∨ ¬zeros bs 5 3 ∨ 2 ^ 18 ≤ fld bs 8 4 ∨ ¬pow2In 16 65536 (fld bs 12 4)
      ∨ fld bs 26 2 % 32768 ≠ 0 ∨ ¬zeros bs 28 4 then none
  else some { id, msix := fld bs 0 4 / 2 % 2 = 1, record := fld bs 0 4 / 4 % 2 = 1, vector := v, ring := BitVec.ofNat 18 (fld bs 8 4),
              entries := fld bs 12 4, producer := BitVec.ofNat 32 (fld bs 16 4), consumer := BitVec.ofNat 32 (fld bs 20 4),
              drop := { val := BitVec.ofNat 16 (fld bs 24 2), sat := 32768 ≤ fld bs 26 2 } }

/-- OBJ_INVALID (R314): the kind (0 context, 1 queue, 2 memory object, 3 event) and the handle are named in the log. -/
def badObject (kind h : Nat) (s : State) : State :=
  raise .objInvalid (sub_ 0x200 kind) [] (note Source.objInvalid.code (leBytes 1 kind ++ [0, 0, 0] ++ leBytes 4 h) s)

/-- Activation slots in use, and those pinned (R315). -/
def queuePinned (q : QueueSlot) : Bool := q.head ≠ q.tail
def slotsUsed (s : State) : Nat := s.obj.ctxs.length + s.obj.queues.length
def slotsPinned (s : State) : Nat := (s.obj.ctxs.filter (·.pinned)).length + (s.obj.queues.filter queuePinned).length
/-- Room for one more activation slot, after evicting the least recently used unpinned one if need be (R315). -/
def slotRoom (s : State) : Option State :=
  if slotsUsed s < 48 then some s
  else
    let older {α : Type} (u : α → W64) (b : Option α) (x : α) : Option α :=
      match b with | some y => if (u x).toNat < (u y).toNat then some x else b | none => some x
    let c := (s.obj.ctxs.filter (fun c => !c.pinned)).foldl (older CtxSlot.used) none
    let q := (s.obj.queues.filter (fun q => !queuePinned q)).foldl (older QueueSlot.used) none
    let dropC (c : CtxSlot) : State := { s with obj := { s.obj with ctxs := s.obj.ctxs.filter (fun x => x.id ≠ c.id) } }
    let dropQ (q : QueueSlot) : State := { s with obj := { s.obj with queues := s.obj.queues.filter (fun x => x.id ≠ q.id) } }
    match c, q with
    | none, none => none
    | some c, none => some (dropC c)
    | none, some q => some (dropQ q)
    | some c, some q => some (if c.used.toNat < q.used.toNat then dropC c else dropQ q)

/-- A resident queue. -/
def getQueue (s : State) (q : Nat) : Option QueueSlot := s.obj.queues.find? (fun x => x.id = q)
def setQueue (x : QueueSlot) (s : State) : State :=
  { s with obj := { s.obj with queues := s.obj.queues.map (fun y => if y.id = x.id then x else y) } }
/-- A discarded doorbell (R315, R572). -/
def dropDoorbell (s : State) : State := { s with obj := { s.obj with dbDrop := s.obj.dbDrop.inc } }

/-- A doorbell for a resident queue (R572). -/
def ringQueue (x : QueueSlot) (tail : W32) (s : State) : State :=
  if x.entries < (tail - x.head).toNat then dropDoorbell s
  else
    let ahead := (tail - x.head).toNat > (x.tail - x.head).toNat
    setQueue { x with used := now s, tail := if ahead then tail else x.tail } s

/-- A queue doorbell (R315, R572): a non-resident queue slot-faults, or waits in the FIFO when every slot is pinned. -/
def doorbell (q : Nat) (tail : W32) (s : State) : State :=
  if s.obj.queueTab.count ≤ q then dropDoorbell s
  else match getQueue s q with
    | some x => ringQueue x tail s
    | none =>
      if (slotRoom s).isSome then
        slotFault (.queue q) { s with obj := { s.obj with dbWait := s.obj.dbWait ++ [(q, tail)] } }
      else if s.obj.dbFifo.length < 256 then
        let s := if s.obj.starved.contains q then s
          else note 0 ([1] ++ leBytes 2 q) { s with obj := { s.obj with starved := s.obj.starved ++ [q] } }
        { s with obj := { s.obj with dbFifo := s.obj.dbFifo ++ [(q, tail)] } }
      else dropDoorbell s

/-- A write that reaches QUEUE_DB (R564, R572). -/
def queueDb (w : HalfWrite) (s : State) : State :=
  let act (v : W64) (s : State) : State :=
    if v.toNat / 16384 % 262144 ≠ 0 then dropDoorbell s
    else doorbell (v.toNat % 16384) (BitVec.ofNat 32 (v.toNat / 2 ^ 32)) s
  match w with
  | .whole v => act v s
  | .low rid v => { s with dev := { s.dev with qdbLow := putK none s.dev.qdbLow rid.toNat (some v) } }
  | .high rid v =>
    match getK none s.dev.qdbLow rid.toNat with
    | some lo => act (v ++ lo) { s with dev := { s.dev with qdbLow := putK none s.dev.qdbLow rid.toNat none } }
    | none => dropDoorbell s
/-- QUEUE_DB. -/
def execQueueDb (w : HalfWrite) (s : State) : Res := .next (queueDb w s)

/-- DOORBELL_FIFO_RELEASE (R315): the oldest doorbell held is served once a slot is free or can be freed. -/
def fifoRelease (s : State) : State :=
  match s.obj.dbFifo with
  | [] => s
  | e :: es => if (slotRoom s).isSome then doorbell e.1 e.2 { s with obj := { s.obj with dbFifo := es } } else s
/-- DOORBELL_FIFO_RELEASE. -/
def execDoorbellFifoRelease (s : State) : Res := .next (fifoRelease s)

/-- QUEUE_ENTRY (R312): the entry at HEAD is consumed, and HEAD is written back. -/
def queueEntry (q : Nat) (entry : List Byte) (s : State) : State :=
  match getQueue s q with
  | none => s
  | some x =>
    if x.head = x.tail then s
    else
      let kind := fld entry 0 2
      let skip := decide (kind ≠ 0) && decide (kind ≠ 1) && decide (kind < 256)
      let s := setQueue { x with head := x.head + 1, used := now s, noted := x.noted || skip } s
      let s := postWrite { obj := none, addr := s.obj.queueTab.base + BitVec.ofNat 64 (q * 64 + 16), data := leBytes 4 (x.head + 1).toNat } s
      if kind = 1 then postEvent x.event (Config.evtKind 20) (leBytes 2 q ++ [0, 0] ++ sub entry 4 4) s
      else if skip ∧ ¬x.noted then note 0 ([2] ++ leBytes 2 q ++ leBytes 2 kind) s
      else s
/-- QUEUE_ENTRY. -/
def execQueueEntry (q : Nat) (entry : List Byte) (s : State) : Res := .next (queueEntry q entry s)

/-- A write to EVT_REARM (R318, R573). -/
def evtRearm (v : W32) (s : State) : State :=
  if 65535 ≤ v.toNat then s
  else { s with obj := { s.obj with evts := s.obj.evts.map (fun e => if e.id = v.toNat then { e with armed := true } else e) } }
/-- EVT_REARM. -/
def execEvtRearm (v : W32) (s : State) : Res := .next (evtRearm v s)

/-- Deliver the records that wait for an event's descriptor or CONSUMER (R318). -/
def deliverWaiting (ev : Nat) (s : State) : State :=
  let mine := s.obj.evtWait.filter (fun r => r.event.toNat = ev)
  mine.foldl (fun (s : State) (r : EvtRec) =>
    match s.obj.evts.find? (fun e => e.id = ev) with
    | some e => deliverTo e r s
    | none => s) { s with obj := { s.obj with evtWait := s.obj.evtWait.filter (fun r => r.event.toNat ≠ ev) } }

/-- Post OBJ_RELEASED or OBJ_PERMANENT (R319, R322): handle, GENERATION and RETIRED_SEQ; an object whose descriptor is not
cached is fetched first. -/
def objNotice (h : Handle) (released : Bool) (s : State) : State :=
  match s.obj.descs.find? (fun d => d.1 = h) with
  | some (_, d) =>
    postEvent d.releaseEvent (Config.evtKind (if released then 21 else 22))
      (leBytes 4 h.toNat ++ leBytes 4 d.generation.toNat ++ leBytes 8 s.obj.retired.toNat) s
  | none => slotFault (.object h 0 none) { s with obj := { s.obj with notices := s.obj.notices ++ [(h, released)] } }

/-- REFCOUNT's address (R310, R319). -/
def refAddr (s : State) (h : Handle) : W64 := s.obj.objTab.base + BitVec.ofNat 64 (h.toNat * 64 + 4)
/-- The device's FetchAdd on REFCOUNT (R319). -/
def refAdd (what : ReqFor) (h : Handle) (v : W64) (s : State) : State :=
  hostReq what (fun t => .hostAtomic t none (refAddr s h) .fetchAdd false v 0) s
/-- Take a reference for a binding (R319); a count seen permanent is left alone (R322). -/
def takeRef (h : Handle) (s : State) : State :=
  let s := { s with obj := { s.obj with refs := s.obj.refs ++ [h] } }
  if s.obj.permanent.contains h then s else refAdd (.ref h true) h 1 s
/-- Drop a reference (R319, R320): RETIRE_FENCE first, then the decrement. RETIRED_SEQ never falls, so the fence written now
is not below one that the device wrote before. -/
def dropRef (h : Handle) (s : State) : State :=
  let s := { s with obj := { s.obj with refs := s.obj.refs.erase h } }
  let s := postWrite { obj := none, addr := s.obj.objTab.base + BitVec.ofNat 64 (h.toNat * 64 + 24), data := leBytes 8 (s.obj.retired + 1).toNat } s
  if s.obj.permanent.contains h then s else refAdd (.ref h false) h 0xFFFFFFFF s
/-- A retire point (R320). -/
def retireStep (s : State) : State := { s with obj := { s.obj with retired := s.obj.retired + 1 } }
/-- The count has been seen permanent (R322). -/
def setPermanent (h : Handle) (s : State) : State := { s with obj := { s.obj with permanent := s.obj.permanent.erase h ++ [h] } }
/-- The old value of a FetchAdd on REFCOUNT (R319, R322). -/
def refDone (h : Handle) (take : Bool) (old : Nat) (s : State) : State :=
  if old = 0xFFFFFFFF then refAdd (.undo h) h (if take then 0xFFFFFFFF else 1) (setPermanent h s)
  else if take then
    if old = 0xFFFFFFFE then objNotice h false (raise .objRefSat (sub_ 0x200 2) [] (note Source.objRefSat.code ([2, 0, 0, 0] ++ leBytes 4 h.toNat) (setPermanent h s)))
    else s
  else if old = 1 then objNotice h true s
  else if old = 0 then
    raise .objRefAnomaly (sub_ 0x200 2) [] (note Source.objRefAnomaly.code ([2, 0, 0, 0] ++ leBytes 4 h.toNat)
      (setPermanent h (refAdd (.undo h) h 1 s)))
  else s

/-- The address where a page of an object begins: BASE, or the page-list entry that the fetch brought (R310, R316). -/
def pageBase (d : ObjDesc) (bs : List Byte) : W64 := if d.page = 0 then d.base else BitVec.ofNat 64 (fld bs 64 8)
/-- The galleries of a plan's safety-related cores with a HOST window over an object: they pin its entries (R317). -/
def pinGalleries (p : PlanImage) (h : Handle) : List Nat :=
  ((p.cores.filter (fun c => c.safety && c.wins.any (fun w => w.2.space = .host && w.2.obj = h))).map
    (fun c => c.site.toNat / 128)).eraseDups
/-- The galleries in which loaded plans pin an object's entries (R317). -/
def pinnedIn (s : State) (h : Handle) : List Nat := (s.plans.flatMap (fun p => pinGalleries p.img h)).eraseDups
/-- Put a translation entry into the cache, into the gallery copy that asked, and pinned where a plan pins it (R316, R317). -/
def putTrans (t : TransEnt) (gallery : Option Nat) (s : State) : State :=
  let hit (x : TransEnt) : Bool := x.obj = t.obj && x.page = t.page
  let pins := pinnedIn s t.obj
  let ins (cap : Nat) (pin : Bool) (l : List TransEnt) : List TransEnt :=
    lruInsert cap (fun x => x.pinned) { t with pinned := pin } (l.filter (fun x => !hit x))
  let s := { s with obj := { s.obj with trans := ins 4096 (!pins.isEmpty) s.obj.trans } }
  (pins ++ (match gallery with | some g => if pins.contains g then [] else [g] | none => [])).foldl (fun (s : State) (g : Nat) =>
    { s with obj := { s.obj with gcopy := putK [] s.obj.gcopy g (ins 256 (pins.contains g) (getK [] s.obj.gcopy g)) } }) s
/-- Cache a descriptor (R316). -/
def putDesc (h : Handle) (d : ObjDesc) (s : State) : State :=
  { s with obj := { s.obj with descs := s.obj.descs.filter (fun x => x.1 ≠ h) ++ [(h, d)] } }

/-- A fetch is over: it is no longer in progress, and no request waits for it. -/
def endFault (f : SlotFaultOf) (s : State) : State :=
  { s with obj := { s.obj with faults := s.obj.faults.erase f }, host := { s.host with reqs := s.host.reqs.filter (fun r => r.what ≠ .table f) } }

/-- A queue's descriptor is here: the queue takes a slot, and its waiting doorbells are served (R315). -/
def queueLoaded (x : QueueSlot) (s : State) : State :=
  let mine := s.obj.dbWait.filter (fun d => d.1 = x.id)
  let s := { s with obj := { s.obj with dbWait := s.obj.dbWait.filter (fun d => d.1 ≠ x.id) } }
  let s := match slotRoom s with
    | some s => { s with obj := { s.obj with queues := s.obj.queues ++ [{ x with used := now s }] } }
    | none => s
  let s := mine.foldl (fun (s : State) (d : Nat × W32) => doorbell d.1 d.2 s) s
  if s.obj.ctxs.any (fun c => c.id = x.ctx) ∨ s.obj.ctxTab.count ≤ x.ctx then s else slotFault (.context x.ctx) s

/-- A descriptor or page-list fetch completes (R314–R316, R318). A fetch that completes with POISON leaves what waits for it
waiting; the next slot fault retries it. -/
def slotServed (f : SlotFaultOf) (got : Fetched) (s : State) : State :=
  if ¬s.obj.faults.contains f then s
  else
    let s := endFault f s
    match got with
    | .poison => s
    | .bytes bs =>
      match f with
      | .object h page g =>
        let d := (parseObj bs).getD invalidObj
        let s := if d.length = 0 then badObject 2 h.toNat s else s
        let s := putTrans { obj := h, page, base := pageBase d bs } g (putDesc h d s)
        let mine := s.obj.notices.filter (fun n => n.1 = h)
        mine.foldl (fun (s : State) (n : Handle × Bool) => objNotice n.1 n.2 s)
          { s with obj := { s.obj with notices := s.obj.notices.filter (fun n => n.1 ≠ h) } }
      | .context id =>
        match parseCtx id bs, slotRoom s with
        | none, _ => badObject 0 id s
        | some c, room =>
          if s.obj.ctxs.any (fun x => x.id = id) then
            { s with obj := { s.obj with ctxs := s.obj.ctxs.map (fun x => if x.id = id then { c with pinned := x.pinned, used := x.used } else x) } }
          else match room with
            | some s => { s with obj := { s.obj with ctxs := s.obj.ctxs ++ [{ c with used := now s }] } }
            | none => s
      | .queue id =>
        match parseQueue id bs with
        | none => badObject 1 id { s with obj := { s.obj with dbWait := s.obj.dbWait.filter (fun d => d.1 ≠ id) } }
        | some q =>
          match getQueue s id with
          | some x => setQueue { q with head := x.head, tail := x.tail, noted := x.noted, used := x.used } s
          | none => queueLoaded q s
      | .event id =>
        match parseEvt id bs with
        | none =>
          let n := (s.obj.evtWait.filter (fun r => r.event.toNat = id)).length
          badObject 3 id { s with obj := { s.obj with evtWait := s.obj.evtWait.filter (fun r => r.event.toNat ≠ id), evtLost := s.obj.evtLost.add n } }
        | some e =>
          let others := (s.obj.evts.filter (fun x => x.id ≠ id))
          let others := others.drop (others.length - 63)
          let slot := ((List.range 64).find? (fun k => !others.any (fun x => x.slot = k))).getD 0
          deliverWaiting id { s with obj := { s.obj with evts := others ++ [{ e with slot }] } }

/-- Drop the copies that an invalidation covers (R325). Pinned entries are fetched again; the translation stays pinned. -/
def dropCopies (scope : Nat) (handle : Nat) (s : State) : State :=
  let all := decide (scope = 4)
  let objHit (h : Handle) : Bool := all || (decide (scope = 0) && decide (h.toNat = handle))
  let o := s.obj
  let pinned := (o.trans.filter (fun t => objHit t.obj && t.pinned)).map (fun t => (t.obj, t.page))
  let keep (t : TransEnt) : Bool := !objHit t.obj
  let s := { s with
    obj := { o with
      trans := o.trans.filter keep
      gcopy := (o.gcopy.map (fun e : Nat × List TransEnt => (e.1, e.2.filter keep))).filter (fun e => !e.2.isEmpty)
      descs := o.descs.filter (fun d => !objHit d.1)
      ctxs := o.ctxs.filter (fun c => c.pinned || !(all || (decide (scope = 1) && decide (c.id = handle))))
      queues := o.queues.filter (fun q => queuePinned q || !(all || (decide (scope = 2) && decide (q.id = handle))))
      evts := o.evts.filter (fun e => !(all || (decide (scope = 3) && decide (e.id = handle)))) }
    host := { s.host with lines := s.host.lines.filter (fun l => !objHit l.1) } }
  let again := (s.obj.ctxs.filter (fun c => all || (decide (scope = 1) && decide (c.id = handle)))).map (fun c => SlotFaultOf.context c.id)
  let againQ := (s.obj.queues.filter (fun q => all || (decide (scope = 2) && decide (q.id = handle)))).map (fun q => SlotFaultOf.queue q.id)
  (pinned.map (fun p => SlotFaultOf.object p.1 p.2 none) ++ again ++ againQ).foldl (fun (s : State) (f : SlotFaultOf) => slotFault f s) s

/-- Apply an invalidation at its application point (R325). -/
def applyInval (x : Inval) (s : State) : State :=
  dropCopies x.scope x.handle { s with obj := { s.obj with invals := s.obj.invals.map (fun y => if y.id = x.id then { y with applied := true } else y) } }

/-- INVALIDATE_COMPLETE (R325): the completion event carries the invalidation ID. With no frame loop left, the application point
is at once. -/
def invalidateComplete (id : W32) (s : State) : State :=
  match s.obj.invals.find? (fun x => x.id = id && (x.applied || !loopRuns s)) with
  | none => s
  | some x =>
    let s := if x.applied then s else applyInval x s
    postEvent x.event (Config.evtKind 23) (leBytes 4 id.toNat) { s with obj := { s.obj with invals := s.obj.invals.filter (fun y => y.id ≠ id) } }
/-- INVALIDATE_COMPLETE. -/
def execInvalidateComplete (id : W32) (s : State) : Res := .next (invalidateComplete id s)

end Sys2Proof.Machine
end

