-- ==== Sys2Proof/Machine/HostLink.lean ====
section
/-! DEFINITION. The host link: attachment and loss, held and torn writes, MSI-X, BAR2, inbound windows, completions and
snoops (R284–R307, R316). -/

namespace Sys2Proof.Machine

/-- The event-slot vectors that have events pending: records written and not consumed (R302, R313). -/
def eventVectors (s : State) : List Nat := (s.obj.evts.filter (fun e => e.msix && decide (e.producer ≠ e.consumer))).map (fun e => e.vector)

/-- Send the vectors whose pending bit is set and that may now go out (R302). -/
def flushMsix (s : State) : State :=
  if s.host.up ∧ s.host.msixEn then
    (s.host.msix.filter (fun e => e.2.pend && !e.2.masked)).foldl (fun (s : State) (e : Nat × MsixVec) =>
      emit (.msix e.1) { s with host := { s.host with msix := putK {} s.host.msix e.1 { e.2 with pend := false } } }) s
  else s

/-- MSIX_UNMASK (R302): the MSI-X enable and one vector's table entry are written; what is pending on it goes out. -/
def msixUnmask (enable : Bool) (vec : Nat) (addr : W64) (data : W32) (s : State) : State :=
  let s := { s with host := { s.host with msixEn := enable } }
  let s := if vec < 64 then
      { s with host := { s.host with msix := putK {} s.host.msix vec { getVec s vec with addr, data, masked := false } } }
    else s
  flushMsix s
/-- MSIX_UNMASK. -/
def execMsixUnmask (enable : Bool) (vec : Nat) (addr : W64) (data : W32) (s : State) : Res := .next (msixUnmask enable vec addr data s)

/-- A function reset (R302, R303): the configuration and the MSI-X table are cleared; vector 0, and each event-slot vector
with events pending, is raised once when it can be. -/
def functionReset (s : State) : State :=
  let vecs := (0 :: eventVectors s).eraseDups
  { s with host := { s.host with
      bme := false, atomicEn := false, msixEn := false, d3 := false,
      msix := vecs.foldl (fun m v => putK {} m v { pend := true }) [] } }

/-- Discard every held write (R304), its object TORN with a flag (R305). -/
def discardHeld (flag : BitVec 4) (s : State) : State :=
  let ws := s.host.held
  let s := { s with host := { s.host with held := [], holdEnded := true } }
  kvTorn (ws.foldl (fun (s : State) (w : Posted) => discardPosted flag w s) s)

/-- The device is detached (R303, R577): only an attached device begins a detachment. -/
def detachLink (cause : BitVec 4) (s : State) : State :=
  if ¬s.host.attached then s
  else
    raise .hostLinkDown { node := 0x220 } []
      { s with host := { s.host with attached := false, gen := s.host.gen + 1, cause, detachLtc := now s,
                                     holdEnded := false, overflowed := false } }

/-- A PERST_N, hot reset or FLR (R303, R304, R306, R577): detachment, held writes discarded at once, the mapping void. -/
def linkReset (cause : BitVec 4) (s : State) : State :=
  let was := s.host.attached
  let s := detachLink cause s
  let s := discardHeld 8 s
  functionReset { s with host := { s.host with needAttach := true, resetSeen := s.host.resetSeen || !was } }

/-- DL_DOWN (R303). -/
def execDlDown (s : State) : Res := .next (detachLink 1 { s with host := { s.host with up := false } })
/-- PERST_N (R303). -/
def execPerstN (s : State) : Res := .next (linkReset 2 { s with host := { s.host with up := false, perst := true, detect := false } })
/-- PERST_N_DEASSERT (R368): with the link enabled, the LTSSM enters Detect. -/
def execPerstNDeassert (s : State) : Res :=
  .next { s with host := { s.host with perst := false, detect := s.host.enabled } }
/-- HOT_RESET (R303). -/
def execHotReset (s : State) : Res := .next (linkReset 3 { s with host := { s.host with up := false, detect := s.host.enabled && !s.host.perst } })
/-- FLR (R303). -/
def execFlr (s : State) : Res := .next (linkReset 4 s)
/-- D3HOT (R303). -/
def execD3hot (s : State) : Res := .next (detachLink 5 { s with host := { s.host with d3 := true } })
/-- BUS_MASTER_ENABLE_CLEAR (R303). -/
def execBusMasterEnableClear (s : State) : Res := .next (detachLink 6 { s with host := { s.host with bme := false } })
/-- HOLD_LIMIT (R304): 10 ms after detachment the held writes are discarded. -/
def holdLimit (s : State) : State := if s.host.attached ∨ s.host.holdEnded then s else discardHeld 2 s
/-- HOLD_LIMIT. -/
def execHoldLimit (s : State) : Res := .next (holdLimit s)

/-- DL_UP (R285, R295, R302, R304): the link is up; a changed CXL mode drops the line cache; a hold that has not ended, with no
reset between and Bus Master Enable still set, sends the held writes in order and the device is attached again. -/
def dlUp (cxl : Bool) (width rate : Nat) (s : State) : State :=
  if ¬s.host.enabled ∨ s.host.perst then s
  else
    let h := s.host
    let cxl := cxl && decide (rate = 5) && (decide (width = 8) || decide (width = 4))
    let s := { s with host := { h with up := true, detect := false, width, rate, cxl, lines := if cxl = h.cxl then h.lines else [] } }
    let s := if ¬h.attached ∧ ¬h.holdEnded ∧ ¬h.needAttach ∧ h.bme ∧ ¬h.d3 then
        h.held.foldl (fun (s : State) (w : Posted) => emit (.hostWrite w) s)
          { s with host := { s.host with attached := true, replayed := true, held := [], overflowed := false, holdEnded := true } }
      else s
    flushMsix s
/-- DL_UP. -/
def execDlUp (cxl : Bool) (width rate : Nat) (s : State) : Res := .next (dlUp cxl width rate s)

/-- Where a BAR2 offset lies (R289). -/
inductive Bar2At | dram (a : Nat) | chamber (k : Nat) | staging (o : Nat) | gone
deriving DecidableEq, Repr
/-- The target of a BAR2 offset; a chamber of a gated domain is not there. -/
def bar2At (s : State) (a n : Nat) : Bar2At :=
  if a < 0x800000000 then (if dramBacked s a n then .dram a else .gone)
  else if a < 0x804000000 then
    let k := a - 0x800000000
    if powered s (chamberInst k).node then .chamber k else .gone
  else if 0x808000000 ≤ a ∧ a + n ≤ 0x808800000 then .staging (a - 0x808000000)
  else .gone

/-- BAR2 traffic on DRAM is served in BEST_EFFORT (R199). -/
def bar2Charge (a n : Nat) (s : State) : State :=
  { s with mem := countBytes .bestEffort a n s.mem }

/-- Mark what a write with EP set wrote as poisoned (R289): 64-byte lines of DRAM, 8-byte words elsewhere. -/
def poisonRange (w : Bar2At) (n : Nat) (s : State) : State :=
  let words (a : Nat) (l : List Nat) : List Nat :=
    (l ++ (List.range (ceilDiv (a % 8 + n) 8)).map (fun i => a / 8 + i)).eraseDups
  match w with
  | .dram a => { s with mem := { s.mem with dramBad := (s.mem.dramBad ++ (dramLines s.mem a n).map (fun l => l.1)).eraseDups } }
  | .chamber k => { s with mem := { s.mem with chamberBad := words k s.mem.chamberBad } }
  | .staging o => { s with mem := { s.mem with stagingBad := words o s.mem.stagingBad } }
  | .gone => s

/-- Write at a place, its traffic counted by the caller. -/
def placePut (w : Bar2At) (bs : List Byte) (ep : Bool) (s : State) : State :=
  let s := match w with
    | .dram a => dramWrite a bs [] s
    | .chamber k => { s with mem := chamberPut k bs [] s.mem }
    | .staging o => { s with mem := stagingPut o bs [] s.mem }
    | .gone => s
  if ep then poisonRange w bs.length s else s

/-- A host write through BAR2 (R289, R195). -/
def bar2Put (w : Bar2At) (bs : List Byte) (ep : Bool) (s : State) : State :=
  placePut w bs ep (match w with | .dram a => bar2Charge a bs.length s | _ => s)
/-- A write through an inbound window: in DRAM it belongs to the plan's declaration of the group, else to BEST_EFFORT (R298). -/
def inbPut (w : Bar2At) (bs : List Byte) (ep : Bool) (s : State) : State :=
  placePut w bs ep (match w with | .dram a => (chargeTo (inbDecl s) a bs.length s).2 | _ => s)
/-- The read-only part of hub staging in BAR2 (R289). -/
def bar2ReadOnly (w : Bar2At) : Bool := match w with | .staging o => decide (o < 0x200000) | _ => false
/-- An access discarded with a C0 note (R289). -/
def bar2Discard (a : Nat) (s : State) : State := note 0 ([3, 0, 0, 0] ++ leBytes 8 a) s

/-- BAR2_ACCESS (R289, R290). -/
def bar2Access (a : Nat) (op : Bar2Op) (s : State) : State :=
  match op with
  | .read n =>
    match bar2At s a n with
    | .dram d =>
      if s.mem.halted then { s with host := { s.host with bar2Held := s.host.bar2Held ++ [(d, n, now s)] } }
      else bar2Reply (dramGet s d n) (bar2Charge d n s)
    | .chamber k => bar2Reply (chamberGet s.mem k n) s
    | .staging o => bar2Reply (stagingGet s.mem o n) s
    | .gone => bar2Reply (List.replicate n 0, false) s
  | .write bs ep =>
    let w := bar2At s a bs.length
    if bar2ReadOnly w then bar2Discard a s
    else match w with
      | .gone => if 0x800000000 ≤ a ∧ a < 0x804000000 then s else bar2Discard a s
      | _ => bar2Put w bs ep s
  | .atomic op wide x y =>
    let n := if wide then 8 else 4
    let w := bar2At s a n
    let run (g : Got) : State :=
      if g.2 then bar2Reply ([], true) s
      else match atomicNew op n g.1 (leBytes n x.toNat ++ leBytes n y.toNat) with
        | some bs => bar2Reply g (if bar2ReadOnly w then bar2Discard a s else bar2Put w bs false s)
        | none => bar2Reply g s
    match w with
    | .dram d => run (dramGet s d n)
    | .staging o => run (stagingGet s.mem o n)
    | _ => emit (.completion [] false true false) s
/-- BAR2_ACCESS. -/
def execBar2Access (a : Nat) (op : Bar2Op) (s : State) : Res := .next (bar2Access a op s)

/-- BAR2_READ_TIMEOUT (R290): the oldest held read completes with Completer Abort. -/
def bar2Timeout (s : State) : State :=
  match s.host.bar2Held with
  | [] => s
  | _ :: hs => emit (.completion [] false false true) { s with host := { s.host with bar2Held := hs } }
/-- BAR2_READ_TIMEOUT. -/
def execBar2ReadTimeout (s : State) : Res := .next (bar2Timeout s)

/-- An inbound window (R297). -/
def getInb (s : State) (w : Nat) : InbWin := getK {} s.host.inb w
def setInb (w : Nat) (x : InbWin) (s : State) : State := { s with host := { s.host with inb := putK {} s.host.inb w x } }
/-- The window's doorbell page (R297). -/
def doorbellPage : Nat := 0x3FFF000
/-- Its buffer is HELD (R300). -/
def InbWin.isHeld (x : InbWin) (b : Nat) : Bool := x.held.any (fun e => e.1 = b)

/-- Where an offset of a device object lies (R297, R310). -/
def objectAt (s : State) (d : ObjDesc) (off n : Nat) : Bar2At :=
  let a := d.base.toNat + off
  match d.location with
  | 1 => if dramBacked s a n then .dram a else .gone
  | 2 => if powered s (chamberInst (a % 2 ^ 26)).node then .chamber (a % 2 ^ 26) else .gone
  | 3 => .staging (a % 2 ^ 23)
  | _ => .gone

/-- A doorbell for a bound window (R299, R300): the event, and unit completion for a stream's window. -/
def inboundRing (w b : Nat) (v : W32) (s : State) : State :=
  let x := getInb s w
  let corrupt := x.corrupt.contains b
  let held := (x.held.filter (fun e => !(e.1 = b) && (x.stream = 0xFF || e.2.isSome))) ++ [(b, none)]
  let s := setInb w { x with seq := BitVec.ofNat 16 (v.toNat / 65536), dbLtc := now s, held, corrupt := x.corrupt.erase b } s
  let s := postEvent x.event (Config.evtKind 4) (leBytes 1 w ++ leBytes 1 b ++ leBytes 2 (v.toNat / 65536) ++ [0, 0, 0, 0] ++ leBytes 8 (now s).toNat) s
  if x.stream = 0xFF then s else completeUnit x.stream.toNat corrupt (.inbound b) s

/-- INBOUND_WRITE and INBOUND_DOORBELL (R298, R299), in the order of R298's table. A write whose object's descriptor is not
cached waits for it, and what follows waits behind it. -/
def inboundAccess (w off : Nat) (data : List Byte) (ep : Bool) (rid : W16) (s : State) : State :=
  let x := getInb s w
  let oor (s : State) : State := setInb w { x with oor := x.oor.inc } s
  let size := x.bufsz * 4096
  let b := off / max size 1
  let inPage := decide (doorbellPage ≤ off)
  if ¬x.bound ∨ 16 ≤ w then (if w < 16 then oor s else s)
  else if ¬inPage ∧ (x.nb ≤ b ∨ (b + 1) * size < off + data.length) then oor s
  else if x.filter ∧ x.rid ≠ rid then setInb w { x with rej := x.rej.inc } s
  else if inPage then
    if off ≠ doorbellPage ∨ data.length ≠ 4 then s
    else
      let v := BitVec.ofNat 32 (leVal data)
      if v.toNat / 4 % 16384 ≠ 0 ∨ x.nb ≤ v.toNat % 4 then oor s
      else if s.host.inbWait.isEmpty then inboundRing w (v.toNat % 4) v s
      else { s with host := { s.host with inbWait := s.host.inbWait ++ [.inboundDoorbell w v rid] } }
  else if x.isHeld b then setInb w { x with heldCnt := x.heldCnt.inc, corrupt := if x.corrupt.contains b then x.corrupt else x.corrupt ++ [b] } s
  else match s.obj.descs.find? (fun d => d.1 = x.obj), s.host.inbWait.isEmpty with
    | some d, true => if d.2.length = 0 then s else inbPut (objectAt s d.2 off data.length) data ep s
    | none, _ => slotFault (.object x.obj 0 none) { s with host := { s.host with inbWait := s.host.inbWait ++ [.inboundWrite w off data ep rid] } }
    | _, false => { s with host := { s.host with inbWait := s.host.inbWait ++ [.inboundWrite w off data ep rid] } }
/-- INBOUND_WRITE. -/
def execInboundWrite (w off : Nat) (data : List Byte) (ep : Bool) (rid : W16) (s : State) : Res := .next (inboundAccess w off data ep rid s)
/-- INBOUND_DOORBELL. -/
def execInboundDoorbell (w : Nat) (v : W32) (rid : W16) (s : State) : Res :=
  .next (inboundAccess w doorbellPage (leBytes 4 v.toNat) false rid s)

/-- INB_RELEASE (R300): the consumer of a window with no stream releases a buffer. -/
def inbRelease (w b : Nat) (s : State) : State :=
  let x := getInb s w
  if x.stream = 0xFF then setInb w { x with held := x.held.filter (fun e => ¬(e.1 = b)) } s else s
/-- INB_RELEASE. -/
def execInbRelease (w b : Nat) (s : State) : Res := .next (inbRelease w b s)

/-- Assign the units of a starting frame to it: their buffers stay HELD until it ends (R300). A doorbell at the frame start's own
LTC belongs to the following frame (R222). -/
def inbFrameStart (n : W32) (s : State) : State :=
  { s with host := { s.host with inb := s.host.inb.map (fun e =>
      (e.1, if e.2.stream = 0xFF ∨ e.2.dbLtc = now s then e.2 else { e.2 with held := e.2.held.map (fun h => (h.1, some (h.2.getD n))) })) } }
/-- A frame ends: the buffers of its units are released (R300). -/
def inbFrameEnd (n : W32) (s : State) : State :=
  { s with host := { s.host with inb := s.host.inb.map (fun e => (e.1, { e.2 with held := e.2.held.filter (fun h => ¬(h.2 = some n)) })) } }
/-- Unbindings take effect at a frame boundary (chapter 14, "A doorbell arrives while the window is being unbound"). -/
def inbBoundary (s : State) : State :=
  (s.host.inb.filter (fun e => e.2.unbinding)).foldl (fun (s : State) (e : Nat × InbWin) =>
    retireStep (dropRef e.2.obj (setInb e.1 { e.2 with bound := false, unbinding := false, held := [], corrupt := [] } s))) s

/-- Serve the writes that waited for a descriptor, in order, once no window's object is missing. -/
def replayInbound (s : State) : State :=
  if s.host.inb.any (fun e => e.2.bound && !s.obj.descs.any (fun d => d.1 = e.2.obj)) then s
  else
    let ws := s.host.inbWait
    ws.foldl (fun (s : State) (c : Instr) => match c with
      | .inboundWrite w off data ep rid => inboundAccess w off data ep rid s
      | .inboundDoorbell w v rid => inboundAccess w doorbellPage (leBytes 4 v.toNat) false rid s
      | _ => s) { s with host := { s.host with inbWait := [] } }

/-- A slot fault's fetch completes (R316), and what waited for it goes on. -/
def slotFaultServed (f : SlotFaultOf) (got : Fetched) (s : State) : State := replayInbound (slotServed f got s)
/-- SLOT_FAULT_SERVED. -/
def execSlotFaultServed (f : SlotFaultOf) (got : Fetched) (s : State) : Res := .next (slotFaultServed f got s)

/-- The host line cache takes the whole lines of a completed read (R292): any line of a CACHEABLE object with CXL, of a
READ_ONLY one without. -/
def fillLines (h : Handle) (a : Nat) (bs : List Byte) (s : State) : State :=
  match s.obj.descs.find? (fun d => d.1 = h) with
  | none => s
  | some (_, d) =>
    if ¬d.cacheable ∨ d.location ≠ 0 ∨ (¬s.host.cxl ∧ ¬d.readOnly) then s
    else
      let first := ceilDiv a 64
      let n := (a + bs.length) / 64 - first
      (List.range n).foldl (fun (s : State) (i : Nat) =>
        let l := first + i
        { s with host := { s.host with lines := lruInsert 32768 (fun _ => false) (h, l, sub bs (l * 64 - a) 64)
                                                  (s.host.lines.filter (fun x => ¬(x.1 = h ∧ x.2.1 = l))) } }) s

/-- What a finished request of the device does (R286, R296): `data` is absent when it completes with POISON. -/
def finishReq (q : HReq) (data : Option (List Byte)) (ur : Bool) (s : State) : State :=
  match q.what with
  | .coreReq core tag obj addr len =>
    match data with
    | some bs => emitFab (.reply core tag .ok bs) (if len = 0 then s else fillLines obj addr.toNat bs s)
    | none =>
      let s := emitFab (.reply core tag .poison []) s
      if ur ∧ len = 0 then raise .hostAtomicUr (at_ 0x220) [] s else s
  | .consumer ev =>
    let s := match data with
      | some bs => { s with obj := { s.obj with evts := s.obj.evts.map (fun e => if e.id = ev then { e with consumer := BitVec.ofNat 32 (fld bs 0 4) } else e) } }
      | none => s
    deliverWaiting ev s
  | .table f => slotFaultServed f (match data with | some bs => .bytes bs | none => .poison) s
  | .ref h take =>
    match data with
    | some bs => refDone h take (fld bs 0 4) s
    | none => if ur then raise .hostAtomicUr (at_ 0x220) [] s else s
  | .undo _ => if data.isNone ∧ ur then raise .hostAtomicUr (at_ 0x220) [] s else s
  | .sump seq page =>
    match data with
    | some bs => sumpArrival seq page bs s
    | none => sumpFailed seq page s
  | .ring q => match data with | some bs => queueEntry q bs s | none => s
  | .other => s

/-- A request leaves the list of outstanding ones. -/
def takeReq (tag : Nat) (s : State) : Option (HReq × State) :=
  (s.host.reqs.find? (fun r => r.tag = tag)).map (fun q => (q, { s with host := { s.host with reqs := s.host.reqs.filter (fun r => r.tag ≠ tag) } }))

/-- HOST_COMPLETION (R296): EP, or a status other than Successful Completion, completes the request with POISON. -/
def hostCompletion (tag : Nat) (st : CplStatus) (data : List Byte) (s : State) : State :=
  match takeReq tag s with
  | none => s
  | some (q, s) => finishReq q (if st = .success then some data else none) (st = .unsupportedRequest) s
/-- HOST_COMPLETION. -/
def execHostCompletion (tag : Nat) (st : CplStatus) (data : List Byte) (s : State) : Res := .next (hostCompletion tag st data s)

/-- HOST_COMPLETION_TIMEOUT (R296): dispatch firmware's requests complete with POISON; a core's request is bounded by R44, so
its own timeout has completed it. -/
def hostTimeout (tag : Nat) (s : State) : State :=
  match takeReq tag s with
  | none => s
  | some (q, s) => match q.what with | .coreReq _ _ _ _ _ => s | _ => finishReq q none false s
/-- HOST_COMPLETION_TIMEOUT. -/
def execHostCompletionTimeout (tag : Nat) (s : State) : Res := .next (hostTimeout tag s)

/-- HOST_SNOOP (R292, R293): the host takes a line back. -/
def execHostSnoop (h : Handle) (line : Nat) (s : State) : Res :=
  .next { s with host := { s.host with lines := s.host.lines.filter (fun l => ¬(l.1 = h ∧ l.2.1 = line)) } }

end Sys2Proof.Machine
end

