-- ==== Sys2Proof/Machine/Mailbox.lean ====
section
/-! DEFINITION. The mailboxes: slots and doorbells, the judgement of a command before its own checks, the urgent slot's
acknowledgement (R328–R339, R358, R359). -/

namespace Sys2Proof.Machine

/-- A request as the device reads it (R331): its slot and the slot's 256 bytes. -/
structure Req where
  slot : Nat
  bytes : List Byte
/-- Header fields. -/
def Req.op (r : Req) : Nat := fld r.bytes 0 2
def Req.arglen (r : Req) : Nat := fld r.bytes 4 2
def Req.flags (r : Req) : Nat := fld r.bytes 6 2
def Req.session (r : Req) : Nat := fld r.bytes 8 4
/-- Argument bytes; bytes beyond ARGLEN read as zero (R333). -/
def Req.args (r : Req) : List Byte := (r.bytes.drop 16).take r.arglen
/-- An argument field of `n` bytes at an argument offset. -/
def Req.arg (r : Req) (off n : Nat) : Nat := fld r.args off n
/-- The argument bytes of a field. -/
def Req.argBytes (r : Req) (off n : Nat) : List Byte := sub r.args off n
/-- A CFLAGS bit is set. -/
def Req.flag (r : Req) (k : Nat) : Bool := r.flags / 2 ^ k % 2 = 1

/-- Rows of the state matrix (R358). -/
inductive Legal | any | ready | readyAttached | attached | stop | adapting | recover | normal
deriving DecidableEq, Repr

/-- The commands (R341–R355): home mailbox, smallest ARGLEN (the end of the last argument), and the CFLAGS bits defined. -/
def cmdInfo (op : Nat) : Option (Mailbox × Nat × Nat) :=
  match op with
  | 0x0101 => some (.dispatch, 60, 1) | 0x0102 => some (.dispatch, 0, 0) | 0x0103 => some (.dispatch, 2, 1)
  | 0x0104 => some (.dispatch, 0, 0)
  | 0x0201 => some (.dispatch, 4, 0) | 0x0202 => some (.dispatch, 14, 0) | 0x0203 => some (.dispatch, 2, 0)
  | 0x0210 => some (.dispatch, 18, 0) | 0x0211 => some (.dispatch, 1, 0)
  | 0x0301 => some (.dispatch, 8, 0) | 0x0302 => some (.dispatch, 2, 0) | 0x0303 => some (.dispatch, 8, 0)
  | 0x0304 => some (.dispatch, 4, 0) | 0x0305 => some (.dispatch, 4, 0) | 0x0306 => some (.dispatch, 13, 0)
  | 0x0307 => some (.dispatch, 4, 0) | 0x0308 => some (.dispatch, 0, 0) | 0x0309 => some (.dispatch, 5, 3)
  | 0x030A => some (.dispatch, 0, 1) | 0x030B => some (.dispatch, 2, 0)
  | 0x0401 => some (.dispatch, 1, 1) | 0x0402 => some (.dispatch, 24, 0) | 0x0403 => some (.dispatch, 1, 0)
  | 0x0404 => some (.dispatch, 0, 1) | 0x0405 => some (.dispatch, 0, 0) | 0x0406 => some (.dispatch, 0, 0)
  | 0x0501 => some (.lantern, 0, 1) | 0x0502 => some (.lantern, 32, 0) | 0x0503 => some (.lantern, 20, 0)
  | 0x0504 => some (.lantern, 28, 0) | 0x0505 => some (.lantern, 1, 0)
  | 0x0601 => some (.dispatch, 16, 0) | 0x0602 => some (.dispatch, 4, 0) | 0x0603 => some (.dispatch, 0, 1)
  | 0x0604 => some (.dispatch, 144, 0)
  | 0x0701 => some (.lantern, 80, 0) | 0x0702 => some (.lantern, 4, 0) | 0x0703 => some (.lantern, 0, 0)
  | 0x0704 => some (.lantern, 0, 0) | 0x0705 => some (.lantern, 3, 1) | 0x0706 => some (.lantern, 16, 0)
  | 0x0707 => some (.lantern, 16, 0)
  | 0x0801 => some (.lantern, 16, 0) | 0x0802 => some (.lantern, 1, 0) | 0x0803 => some (.lantern, 0, 0)
  | 0x0804 => some (.lantern, 1, 0)
  | 0x0901 => some (.dispatch, 36, 1) | 0x0902 => some (.dispatch, 0, 0) | 0x0903 => some (.dispatch, 0, 0)
  | 0x0904 => some (.dispatch, 0, 0)
  | _ => none

/-- A command's row of the state matrix (R358). -/
def legalOf (r : Req) : Legal :=
  match r.op with
  | 0x0104 | 0x0803 | 0x0804 => .any
  | 0x0101 => if r.flag 0 then .normal else .ready
  | 0x0801 => if r.arg 0 1 = 1 then .readyAttached else .ready
  | 0x0802 => .ready
  | 0x0102 | 0x0301 | 0x0302 | 0x0303 | 0x0305 | 0x0210 | 0x0211 => .attached
  | 0x0701 => if r.arg 0 1 = 3 ∨ r.arg 0 1 = 4 then .attached else .normal
  | 0x0304 => .stop
  | 0x0306 | 0x0308 | 0x0402 | 0x0403 => .adapting
  | 0x0704 => .recover
  | _ => .normal

/-- The state that decides legality: in REALIGN the one that PRIOR names (R359). -/
def legalState (d : Dev) : DevState := match d.state with | .realign => d.prior.getD .realign | x => x
/-- The state matrix (R358). -/
def legalIn (l : Legal) (st : DevState) : Bool :=
  match st with
  | .ready => (match l with | .any | .ready | .readyAttached => true | _ => false)
  | .attached => (match l with | .any | .readyAttached | .attached | .normal => true | _ => false)
  | .running => (match l with | .any | .stop | .normal => true | _ => false)
  | .adapting => (match l with | .any | .adapting | .normal => true | _ => false)
  | .degraded => (match l with | .any | .stop | .recover | .normal => true | _ => false)
  | .safeHold => (match l with | .any | .recover | .normal => true | _ => false)
  | _ => false

/-- SESSION is not checked (R331). -/
def sessionFree (s : State) (r : Req) : Bool :=
  decide (r.op = 0x0104) || (decide (r.op = 0x0101) && !r.flag 0) || (decide (r.op / 256 = 8) && s.dev.state = .ready)

/-- The checks before a command's own (R333): the status and DETAIL of the first that fails. CFLAGS bits that the command
does not define, and the header's reserved bytes, are fields of the request like its arguments. -/
def judge (m : Mailbox) (r : Req) (s : State) : Option (W16 × W16) :=
  match cmdInfo r.op with
  | none => some (1, 0)
  | some (home, min, cf) =>
    if home ≠ m then some (1, match home with | .dispatch => 1 | .lantern => 2)
    else if 240 < r.arglen ∨ r.arglen < min then some (2, BitVec.ofNat 16 min)
    else if ¬legalIn (legalOf r) (legalState s.dev) then some (9, 0)
    else if ¬sessionFree s r ∧ (s.dev.session = 0 ∨ r.session ≠ s.dev.session.toNat) then some (3, 8)
    else if fld r.bytes 2 2 ≠ (getK {} (getMb m s).slots r.slot).tag.toNat then some (3, 2)
    else if r.flags &&& (65535 - cf) ≠ 0 then some (3, 6)
    else if ¬zeros r.bytes 12 4 then some (3, 12)
    else none

/-- The number of a mailbox. -/
def mbNum (m : Mailbox) : Nat := match m with | .dispatch => 0 | .lantern => 1
/-- The request in a slot. -/
def readReqOf (m : Mailbox) (slot : Nat) (s : State) : Req := { slot, bytes := rdN (getMb m s).req (slot * 256) 256 }

/-- Answer a refused command (R333, R337): one log entry; INTERNAL never arises. -/
def refuse (m : Mailbox) (r : Req) (st detail : W16) (results : List Byte) (s : State) : State :=
  let s := if st = 9 then raise .mbStateRefused (sub_ 0x200 (mbNum m)) (leBytes 2 r.op) s
    else logRec 9 0 (BitVec.ofNat 16 r.op) (leBytes 2 st.toNat ++ leBytes 2 detail.toNat ++ leBytes 1 r.slot) s
  respond m r.slot st detail results s

/-- Answer the commands at the head of a mailbox that no command of it serves: unknown opcodes and other mailboxes' (R328). -/
def settle : Nat → Mailbox → State → State
  | 0, _, s => s
  | fuel + 1, m, s =>
    let b := getMb m s
    match b.fifo with
    | [] => s
    | k :: ks =>
      let r := readReqOf m k s
      if (match cmdInfo r.op with | some (home, _, _) => decide (home = m) | none => false) || !b.service then s
      else match judge m r s with
        | some (st, d) => settle fuel m (refuse m r st d [] (setMb m { b with fifo := ks } s))
        | none => s

/-- Serve the command at the head of a mailbox when it is the one named (R333, R334): the common checks, then its own. -/
def serveCmd (m : Mailbox) (op : Nat) (body : Req → State → State) (s : State) : State :=
  let b := getMb m s
  match b.fifo with
  | [] => s
  | k :: ks =>
    let r := readReqOf m k s
    if r.op ≠ op ∨ ¬b.service then s
    else
      let s := setMb m { b with fifo := ks } s
      settle 8 m (match judge m r s with
        | some (st, d) => refuse m r st d [] s
        | none => body r s)

/-- A command fails one of its own checks. -/
def bad (m : Mailbox) (r : Req) (off : Nat) (s : State) : State := refuse m r 3 (BitVec.ofNat 16 off) [] s
/-- A command is done. -/
def ok (m : Mailbox) (r : Req) (results : List Byte) (s : State) : State := respond m r.slot 0 0 results s
/-- The object is TORN (R305). -/
def tornObj (s : State) (h : Nat) : Bool := s.host.torn.any (fun t => t.obj.toNat = h)

/-- A write to MB_DOORBELL (R330, R335). -/
def mbDoorbell (m : Mailbox) (v : W32) (s : State) : State :=
  let b := getMb m s
  let k := v.toNat % 8
  let x := getK {} b.slots k
  if x.phase ≠ .free then setMb m { b with bad := b.bad.inc } s
  else
    let s := setMb m { b with slots := putK {} b.slots k { phase := .busy, tag := BitVec.ofNat 16 (v.toNat / 65536), ltc := now s } } s
    if b.service then
      settle 8 m (setMb m { getMb m s with fifo := b.fifo ++ [k] } s)
    else match s.dev.state with
      | .booting | .locked => respond m k 9 0 [] s
      | _ => respond m k 6 10 [] s
/-- MB_DOORBELL. -/
def execMbDoorbell (m : Mailbox) (v : W32) (s : State) : Res := .next (mbDoorbell m v s)

/-- A write to MB_DONE (R329, R330): a DONE slot whose bit is written 1 is FREE. -/
def mbDone (m : Mailbox) (v : W32) (s : State) : State :=
  let b := getMb m s
  setMb m { b with slots := (List.range 8).foldl (fun l k =>
    let x := getK {} l k
    if v.getLsbD k ∧ x.phase = .done then putK {} l k {} else l) b.slots } s
/-- MB_DONE. -/
def execMbDone (m : Mailbox) (v : W32) (s : State) : Res := .next (mbDone m v s)

/-- A write to MB_BAD_SAT (R329): writing 1 clears the flag and the counter. -/
def mbBadSat (m : Mailbox) (v : W32) (s : State) : State :=
  if v.getLsbD 0 then setMb m { getMb m s with bad := {} } s else s
/-- MB_BAD_SAT. -/
def execMbBadSat (m : Mailbox) (v : W32) (s : State) : Res := .next (mbBadSat m v s)

/-- MB_LATE (R334): a command without its response at its limit; raised once per command. -/
def mbLate (m : Mailbox) (slot : Nat) (s : State) : State :=
  let b := getMb m s
  let x := getK {} b.slots slot
  if x.phase = .busy ∧ ¬x.late then
    raise .mbLate (sub_ 0x200 (mbNum m)) [] (setMb m { b with slots := putK {} b.slots slot { x with late := true } } s)
  else s
/-- MB_LATE. -/
def execMbLate (m : Mailbox) (slot : Nat) (s : State) : Res := .next (mbLate m slot s)

/-- A write to URG_ACK (R339). -/
def urgAck (v : W32) (s : State) : State :=
  match s.urg.slot with
  | some (q, _) =>
    if q = v then loadUrgent { s with urg := { s.urg with slot := none } }
    else { s with mbL := { s.mbL with bad := s.mbL.bad.inc } }
  | none => { s with mbL := { s.mbL with bad := s.mbL.bad.inc } }
/-- URG_ACK. -/
def execUrgAck (v : W32) (s : State) : Res := .next (urgAck v s)

end Sys2Proof.Machine
end

