-- ==== Sys2Proof/Machine/Domain.lean ====
section
/-! DEFINITION. Power domains: powering up and gating, and the refusals of Lantern (R35, R55, R537–R540). -/

namespace Sys2Proof.Machine

/-- The core sites of a die, spares included (R33, R50). -/
def coreSites : List Node :=
  (List.range 4).flatMap (fun g => (List.range 7).flatMap (fun c => (List.range 6).map (fun r => BitVec.ofNat 10 (g * 128 + c * 8 + r))))
/-- The core sites of a power domain. -/
def sitesOf (d : Nat) : List Node := coreSites.filter (fun n => domainOf n = d)

/-- A GAP record (R507), counted in TRC_GAPS. -/
def traceGap (code : Nat) (from_ : W64) (s : State) : State :=
  traceFunnel 0x10 code (leBytes 8 from_.toNat ++ leBytes 8 (now s).toNat) { s with trace := { s.trace with gaps := s.trace.gaps.inc } }

/-- Power a domain up (R538): its islands come out of reset, its cores are HELD with undefined contents, and it is admitted. -/
def domainOn (d : Nat) (s : State) : State :=
  if ¬s.fab.gated.contains d then s
  else
    let s := { s with fab := { s.fab with gated := s.fab.gated.filter (fun x => x ≠ d) } }
    let before := s.cores
    let s := (sitesOf d).foldl (fun (s : State) (n : Node) => setIsland n {} (setCore n { run := .held } s)) s
    let s := match getK none s.trace.gated d with
      | some t =>
        let s := { s with trace := { s.trace with gated := putK none s.trace.gated d none } }
        if s.trace.running then traceGap d t s else s
      | none => s
    traceRun before 0 s

/-- The chamber banks of a gallery half (R537). -/
def bankOf (k : Nat) : Nat := 8 + 2 * (k / 2 ^ 24 % 4) + (if k / 2 ^ 19 % 32 % 6 < 3 then 0 else 1)
/-- What the banks of a gated domain held is lost (R537). -/
def gateMem (d : Nat) (m : MemT) : MemT :=
  if d = 1 then { m with staging := [], stagingBad := [] }
  else if d = 6 then { m with dram := [], dramBad := [] }
  else if d < 8 then m
  else { m with chamber := m.chamber.filter (fun e => bankOf e.1 ≠ d), chamberBad := m.chamberBad.filter (fun w => bankOf (w * 8) ≠ d) }
/-- Gate a domain (R55, R537): its cores are OFF and what its cores and banks held is lost. -/
def domainOff (d : Nat) (s : State) : State :=
  if s.fab.gated.contains d ∨ d = 0 then s
  else
    let before := s.cores
    let s := (sitesOf d).foldl (fun (s : State) (n : Node) => setCore n {} (setIsland n {} s)) s
    let s := { s with mem := gateMem d s.mem, fab := { s.fab with gated := s.fab.gated ++ [d] } }
    let s := if (sitesOf d).any (fun n => s.trace.enabled.contains (logicalOf s n)) then
        { s with trace := { s.trace with gated := putK none s.trace.gated d (some (now s)) } }
      else s
    traceRun before 0 s

/-- A window of a plan names a chamber bank of a gallery half (R539). -/
def banksNamed (p : PlanImage) (d : Nat) : Bool :=
  p.cores.any (fun c => c.wins.any (fun w => w.2.space = .chamber && (List.range (w.2.length / 2 ^ 19 + 2)).any (fun i =>
    decide (i * 2 ^ 19 < w.2.length + 2 ^ 19) && bankOf ((w.2.base.toNat + min (i * 2 ^ 19) (w.2.length - 1)) % 2 ^ 26) = d)))
/-- A plan places a core in a domain (R537). -/
def coresIn (p : PlanImage) (d : Nat) : Bool := p.cores.any (fun c => domainOf c.site = d)

/-- A core of gallery x ⊕ 1, among those that `live` takes, that the plan lets send into gallery x ⊕ 2 (R539). -/
def crossing (live : Node → Bool) (x : Nat) (img : PlanImage) (map : List MapPair) : Bool :=
  let from_ := x ^^^ 1
  let dest := x ^^^ 2
  img.cores.any (fun c =>
    let n := c.site
    decide (n.toNat / 128 = from_) && live n &&
      (c.routes.any (fun r => r.2.1.toNat / 128 = dest)
        || c.wins.any (fun w => (w.2.space = .chamber && decide (w.2.base.toNat / 2 ^ 24 % 4 = dest))
            || (w.2.space = .peer && decide (w.2.base.toNat / 2 ^ 48 % 1024 / 128 = dest)))
        || map.any (fun p => (p.lead = n || p.trail = n) && (decide (p.cmp0.toNat / 128 = dest) || decide (p.cmp1.toNat / 128 = dest)))))

/-- Lantern refuses to gate a domain now (R35, R537, R539): a half goes only while quiesced, west before east, and not while it
carries crossing traffic, a torch core, a comparator site of a loaded pair or a bank that a window names. -/
def gateRefused (s : State) (d : Nat) : Bool :=
  if d < 8 then
    match d with
    | 4 => s.dev.state = .adapting || s.intake.streams.any (fun e => match e.2 with | some t => t.decl.kind = .rtpHevc | none => false)
    | 5 => s.intake.streams.any (fun e => match e.2 with | some t => t.decl.kind ≠ .csi | none => false) || !s.time.order.isEmpty
    | 7 => decide (2 ≤ s.dv.n)
    | _ => true
  else
    let x := (d - 8) / 2
    let east := decide (d % 2 = 1)
    (sitesOf d).any (fun n => let c := getCore s n; c.run = .run || c.run = .wait || c.torch)
      || (sitesOf d).any (fun n => match (getCore s n).run with | .idle | .done => true | _ => false)
      || (east && !s.fab.gated.contains (d - 1))
      || (east && s.plans.any (fun p => crossing (fun n => (getCore s n).run ≠ .quiesced && powered s n) x p.img p.map))
      || s.plans.any (fun p => p.map.any (fun q => domainOf q.cmp0 = d || domainOf q.cmp1 = d))
      || s.plans.any (fun p => banksNamed p.img d || (coresIn p.img d && !p.img.gates.contains d))

/-- A plan uses a gallery half (R537, R539): by a core, a bank that a window names, a comparator, or messages that cross it; and
the B half is on while the A half is (R35). -/
def halfUsed (img : PlanImage) (map : List MapPair) (d : Nat) : Bool :=
  let own (d : Nat) : Bool := coresIn img d || banksNamed img d || map.any (fun q => domainOf q.cmp0 = d || domainOf q.cmp1 = d)
  own d || (decide (d % 2 = 1) && (own (d - 1) || crossing (fun _ => true) ((d - 8) / 2) img map))
/-- Power the gallery halves that a plan uses, each B half before its A half (R35, R538). -/
def powerHalves (img : PlanImage) (map : List MapPair) (s : State) : State :=
  ([9, 8, 11, 10, 13, 12, 15, 14].filter (halfUsed img map)).foldl (fun (s : State) (d : Nat) => domainOn d s) s
/-- Lantern gates the domains that nothing uses any more (R537): the decoder, the MACs, the Dvorpo ports, and the gallery halves of
no loaded plan, west before east. -/
def gateUnused (s : State) : State :=
  let ds := [4, 5, 7] ++ ((List.range 8).map (fun k => 8 + k)).filter (fun d => !s.plans.any (fun p => halfUsed p.img p.map d))
  ds.foldl (fun (s : State) (d : Nat) => if gateRefused s d then s else domainOff d s) s

/-- DOMAIN_POWER_UP (R538). -/
def execDomainPowerUp (d : Nat) (s : State) : Res := .next (if d < 16 then domainOn d s else s)
/-- DOMAIN_GATE (R539): a refused request has no effect. -/
def execDomainGate (d : Nat) (s : State) : Res := .next (if d < 16 ∧ ¬gateRefused s d then domainOff d s else s)

end Sys2Proof.Machine
end

