-- ==== Sys2Proof/Machine/Plan.lean ====
section
/-! DEFINITION. Plans: the checks of plan load, core sections, loading and unloading (R87, R88, R98, R100, R114–R119, R126,
R129, R133, R145, R150–R152, R180, R187, R189, R198, R210, R243, R254, R293, R315, R317, R345, R346, R356, R357, R386, R401, R453). -/

namespace Sys2Proof.Machine

/-- A failed check of plan load: its number, status, DETAIL, rung and sub-check, image offset (R346). -/
structure PlanErr where
  check : Nat
  status : W16
  detail : W16
  rung : Nat := 0
  sub_ : Nat := 0
  offset : Nat := 0
deriving DecidableEq, Repr

/-- The first failure of a list of checks. -/
def firstErr : List (Option PlanErr) → Option PlanErr
  | [] => none
  | some e :: _ => some e
  | none :: es => firstErr es
/-- A check that fails with BAD_ARGUMENT, RESOURCE_OVERFLOW or INTEGRITY. The field that a plan's BAD_ARGUMENT names is the
context at slot byte 16. -/
def badIf (k : Nat) (c : Bool) (off : Nat := 0) : Option PlanErr := if c then some { check := k, status := 3, detail := 16, offset := off } else none
def overIf (k : Nat) (c : Bool) (off : Nat := 0) : Option PlanErr := if c then some { check := k, status := 13, detail := BitVec.ofNat 16 k, offset := off } else none
def integrityIf (k : Nat) (c : Bool) : Option PlanErr := if c then some { check := k, status := 12, detail := BitVec.ofNat 16 k } else none

/-- Header fields (R356). -/
def hdr (p : PlanImage) (off n : Nat) : Nat := fld p.bytes off n
/-- The plan digest (R356): SHA-256 of header bytes 0x00–0x3F and of the body. -/
def planDigest (p : PlanImage) : List Byte := sha256 (sub p.bytes 0 64 ++ (p.bytes.take (hdr p 0x20 8)).drop 256)
/-- FLAGS of the header. -/
def planFlag (p : PlanImage) (k : Nat) : Bool := hdr p 0x0C 4 / 2 ^ k % 2 = 1

/-- Checks 1 to 8 (R357). -/
def checksHeader (s : State) (objLen : Nat) (p : PlanImage) : Option PlanErr :=
  firstErr [
    integrityIf 1 (hdr p 0 4 ≠ 0x4E4C5047 || hdr p 4 2 ≠ 1 || hdr p 8 4 ≠ 256),
    (if objLen < hdr p 0x20 8 then some { check := 2, status := 2, detail := 8 } else none),
    integrityIf 3 (!ecdsaOk Config.planKey (sha256 (sub p.bytes 0 0xC0)) (sub p.bytes 0xC0 64)),
    integrityIf 4 (planDigest p ≠ sub p.bytes 0x40 32),
    badIf 5 (hdr p 0x10 4 ≠ 0x3142),
    badIf 6 (decide (0x10000 < hdr p 0x14 4)),
    badIf 7 (planFlag p 5 && decide (hdr p 0x18 4 ≠ Config.plannerVersion.toNat)),
    badIf 8 (!s.dev.manifestLoaded || !(if s.dv.n = 1 then planFlag p 3 else if s.dv.twin then planFlag p 1 else planFlag p 2))]

/-- The scale set digest in force and check 9 (R180): the committed one, else the built-in set's. -/
def scaleCheck (s : State) (p : PlanImage) : List Byte × Option PlanErr :=
  match s.ltn.cfg.scales.find? (fun r => r.plan = planDigest p) with
  | some r => (r.committed, integrityIf 9 (sha256 p.scales ≠ r.committed))
  | none => (sub p.bytes 0x60 32, none)

/-- Consecutive pairs. -/
def pairsOf {α : Type} (l : List α) : List (α × α) := l.zip l.tail
/-- Check 10 (R210, R356). -/
def checkLadder (p : PlanImage) : Option PlanErr :=
  let period := hdr p 0x28 8
  badIf 10 (p.rungs.length ≠ 6 || hdr p 0x1F 1 ≠ 6
    || (pairsOf (p.rungs.map (·.energy))).any (fun e => decide (e.1 < e.2))
    || p.rungs.any (fun r => !r.allSafety)
    || (match p.rungs[5]? with | some r => decide (6 * period < r.energy * 1000 * 2 ^ 32) | none => true)
    || decide (period < 1000000 * 2 ^ 32) || decide (100000000 * 2 ^ 32 < period))
/-- Check 11 (R196, R198). -/
def checkBandwidth (s : State) (p : PlanImage) : Option PlanErr :=
  let pl := plannable s
  let past := (List.range p.rungs.length).findSome? (fun r =>
    match p.rungs[r]? with
    | none => none
    | some g =>
      let x := rungSums g
      let k := if 9 * pl < 10 * (x.1 + x.2.1) then 1 else if 4 * pl < 10 * x.2.2 then 2 else if pl < x.1 + x.2.1 + x.2.2 then 3 else 0
      if k = 0 then none else some (r, k))
  match past with
  | some (r, k) => some { check := 11, status := 7, detail := BitVec.ofNat 16 (r * 256 + k), rung := r, sub_ := k }
  | none =>
    badIf 11 (p.rungs.any (fun r => decide (256 < r.bw.length))
      || (pairsOf (p.rungs.map rungSums)).any (fun e => decide (e.1.1 < e.2.1) || decide (e.1.2.1 < e.2.2.1) || decide (e.1.2.2 < e.2.2.2)))

/-- Shares of all routes of a plan that name a channel (R87, R88), with dispatch firmware's to a frame-start channel (R100)
and Prism's for INTAKE_DONE (R251). -/
def chanShares (p : PlanImage) (site : Node) (k : Nat) : Nat :=
  (p.cores.flatMap (fun c => (c.routes.filter (fun r => decide (r.2.1 = site) && decide (r.2.2.1.toNat = k))).map (fun r => r.2.2.2.1))).sum
    + (p.cores.filter (fun c => decide (c.site = site) && decide (c.frameChan = some k))).length
    + (p.cams.flatMap (fun c => c.routes.filter (fun r => decide (r.1 = site) && decide (r.2.toNat = k)))).length
/-- Ranges overlap. -/
def overlaps (a n b m : Nat) : Bool := decide (a < b + m) && decide (b < a + n)
/-- A logical site: one of the 40 enabled sites of a gallery (R50, R51). -/
def isSite (n : Node) : Bool := isCore n && !(n.toNat % 64 = 48) && !(n.toNat % 64 = 53)

/-- FP32 pattern that R170 refuses: NaN, infinite or subnormal. -/
def badScale (v : W32) : Bool :=
  let e := v.toNat / 2 ^ 23 % 256
  decide (e = 255) || (decide (e = 0) && decide (v.toNat % 2 ^ 23 ≠ 0))

/-- A core section against R81, R87, R88, R98, R100, R170, R173. -/
def badSection (p : PlanImage) (c : CoreSect) : Bool :=
  let span (h : Nat × Nat × Nat) : Nat := chanShares p c.site h.1 * h.2.2
  !isSite c.site
    || c.chans.any (fun h => c.wins.any (fun w => w.2.space = .lcl && (w.2.w || w.2.a) && overlaps h.2.1 (span h) w.2.base.toNat w.2.length))
    || c.routes.any (fun r => (c.routes.filter (fun q => decide (q.2.1 = r.2.1) && decide (q.2.2.1 = r.2.2.1))).length ≠ 1
        || decide (32 ≤ r.1) || decide (r.2.2.2.1 = 0) || decide (64 < r.2.2.2.1))
    || c.chans.any (fun h => decide (8 ≤ h.1) || decide (h.2.2 < 32) || decide (4096 < h.2.2) || decide (h.2.2 % 32 ≠ 0)
        || decide (64 < chanShares p c.site h.1) || decide (2 ^ 19 < h.2.1 + span h))
    || decide (8192 < c.words.length)
    || ((c.resident || !c.writes.isEmpty) && c.frameChan.isNone) || decide (64 < c.writes.length)
    || (match c.frameChan with
        | some k => (match c.chans.find? (fun h => h.1 = k) with | some h => decide (h.2.2 < 32 + 16 * c.writes.length) | none => true)
        | none => false)
    || c.scl.any (fun e => badScale e.2)
    || (c.clamp && c.scl.any (fun e => decide (e.1 = 1022)))

/-- The map held for a plan, on physical nodes (R51, R385, R386). -/
def mapFor (s : State) (digest : List Byte) : List MapPair :=
  match s.ltn.cfg.maps.find? (fun m => m.plan = digest) with
  | some m => m.pairs.map (fun p => { p with lead := physOf s p.lead, trail := physOf s p.trail })
  | none => []
/-- A plan as it loads now: every logical core replaced by the physical site that serves it (R51, R52). -/
def physImage (s : State) (p : PlanImage) : PlanImage :=
  let f := physOf s
  let peer (x : Window) : Window := if x.space = .peer then
      { x with base := BitVec.ofNat 64 ((f (BitVec.ofNat 10 (x.base.toNat / 2 ^ 48))).toNat * 2 ^ 48 + x.base.toNat % 2 ^ 48) }
    else x
  let rung (r : Rung) : Rung := { r with
    freqs := r.freqs.map (fun e => (f e.1, e.2))
    bw := r.bw.map (fun d => if d.agent < 1024 then { d with agent := (f (BitVec.ofNat 10 d.agent)).toNat } else d) }
  let sect (c : CoreSect) : CoreSect := { c with
    site := f c.site
    wins := c.wins.map (fun w => (w.1, peer w.2))
    routes := c.routes.map (fun r => (r.1, f r.2.1, r.2.2)) }
  { p with
    rungs := p.rungs.map rung
    cores := p.cores.map sect
    outputs := p.outputs.map (fun o => { o with cores := o.cores.map f })
    torch := p.torch.map (fun t => { t with cores := t.cores.map f })
    cams := p.cams.map (fun c => { c with routes := c.routes.map (fun r => (f r.1, r.2)) })
    adaptable := p.adaptable.map (fun a => (f a.1, a.2)) }
/-- The section of a physical core. -/
def sectAt (p : PlanImage) (n : Node) : Option CoreSect := p.cores.find? (fun c => c.site = n)
/-- A pair breaks R386 or R401. -/
def badPair (p : PlanImage) (all : List MapPair) (m : MapPair) : Bool :=
  let uses (n : Node) : Nat := (all.filter (fun q => decide (q.cmp0 = n) || decide (q.cmp1 = n))).length
  let g (n : Node) : Nat := n.toNat / 128
  let supp (c : CoreSect) : Bool := (List.range 16).any (fun k => m.suppress.getLsbD k &&
    !(c.wins.any (fun w => decide (w.1 = k) && w.2.w && !w.2.r && !w.2.a)))
  let retryBad (c : CoreSect) : Bool :=
    c.resident || c.wins.any (fun w => w.2.a)
      || c.routes.any (fun r => decide (r.2.1 ≠ m.lead) && decide (r.2.1 ≠ m.trail))
      || !c.writes.isEmpty
      || c.wins.any (fun w => w.2.w && w.2.space ≠ .lcl && p.cores.any (fun d => d.wins.any (fun x =>
          x.2.r && x.2.space = w.2.space && decide (x.2.obj = w.2.obj) && overlaps w.2.base.toNat w.2.length x.2.base.toNat x.2.length)))
  match sectAt p m.lead, sectAt p m.trail with
  | some a, some b =>
    decide (g m.lead = g m.trail) || decide (g m.cmp0 = g m.cmp1)
      || [m.cmp0, m.cmp1].any (fun n => decide (domainOf n = domainOf m.lead) || decide (domainOf n = domainOf m.trail) || decide (4 < uses n))
      || supp b
      || (m.retry && (retryBad a || retryBad b || decide (196608 < (m.ckpt.map (·.2)).sum + (if m.ckptScl then 4096 else 0) + (if m.ckptA1 then 4096 else 0))))
  | _, _ => true
/-- Pairs against R386 and R401. -/
def badPairs (p : PlanImage) (map : List MapPair) : Bool :=
  if p.pairs.isEmpty then false
  else p.pairs.any (fun k => !map.any (fun m => m.pair = k)) || map.any (fun m => !p.pairs.contains m.pair) || map.any (badPair p map)

/-- The torch section (R453). -/
def badTorch (s : State) (p : PlanImage) : Bool :=
  match p.torch with
  | none => planFlag p 0
  | some t =>
    decide ((t.cores.map (fun n => n.toNat / 128)).eraseDups.length < 2) || decide (200000 < t.energy)
      || p.rungs.any (fun r => r.freqs.any (fun f => t.cores.contains f.1))
      || t.pairs.any (fun k => !p.pairs.contains k) || (s.dev.manifestLoaded && t.streams.any (fun k => (getStream s k).isNone))

/-- Pre-processing (R243, R254): consumed streams name declared profiles, and SAFETY cameras are MIRRORED. -/
def badCams (s : State) (p : PlanImage) : Bool :=
  decide (32 < p.profiles.length)
    || p.cams.any (fun c => match getStream s c.stream with
        | none => true
        | some t => (t.decl.profile ≠ 255 && !p.profiles.any (fun q => q.id = t.decl.profile))
            || (t.safety && !c.mirrored && p.profiles.any (fun q => decide (q.id = t.decl.profile) && !q.slots.isEmpty)))
    || p.streams.any (fun k => (getStream s k).isNone)

/-- Check 12 (R54, R81, R87, R88, R98, R100, R170, R173, R243, R254, R386, R401, R453, R539). -/
def checkCores (s : State) (p : PlanImage) (map : List MapPair) : Option PlanErr :=
  firstErr (p.cores.map (fun c => firstErr [
      badIf 12 (badSection p c || (p.cores.filter (fun d => d.site = c.site)).length ≠ 1) c.offset,
      overIf 12 (s.dev.unavailable.contains (physOf s c.site)) c.offset])
    ++ [badIf 12 (badPairs (physImage s p) map), badIf 12 (badTorch s p), badIf 12 (badCams s p),
        badIf 12 (p.gates.any (fun d => decide (8 ≤ d) && decide (d % 2 = 1) && crossing (fun _ => true) ((d - 8) / 2) (physImage s p) map)),
        badIf 12 (hdr p 0x1C 2 ≠ p.cores.length || hdr p 0x1E 1 ≠ p.pairs.length)])

/-- ⌈a/b⌉ candidates of the planner (R116). -/
def gemmCands : List Nat := [8, 4, 2, 1]
/-- The largest chunk TK that fits (R116), or 0. -/
def gemmChunk (tm tn k e o budget : Nat) : Nat :=
  ((List.range 64).findSome? (fun i =>
    let s := i + 1
    let tk := ceilDiv k s
    if 1 < s ∧ tk < 32 then some 0
    else if 2 * (tm + tn) * 32 * tk * e / 2 + tm * tn * 1024 * o / 2 ≤ budget then some tk else none)).getD 0
/-- A tiling and its key (R116). -/
structure Tiling where
  tm : Nat
  tn : Nat
  tk : Nat
  cycles : Nat
  traffic : Nat
deriving DecidableEq, Repr
/-- The planner's order (R116): array time, bytes fetched, then a larger chunk, a larger TM, a smaller TN. -/
def tilingLess (a b : Tiling) : Bool :=
  decide (a.cycles < b.cycles) || (decide (a.cycles = b.cycles) &&
    (decide (a.traffic < b.traffic) || (decide (a.traffic = b.traffic) &&
      (decide (b.tk < a.tk) || (decide (a.tk = b.tk) &&
        (decide (b.tm < a.tm) || (decide (a.tm = b.tm) && decide (a.tn < b.tn))))))))
/-- The tile planner (R116). Element sizes e and o count nibbles. -/
def planGemm (m n k e o budget cores : Nat) : Option Tiling :=
  if m = 0 ∨ n = 0 ∨ k = 0 then none
  else
    let mt := ceilDiv m 32
    let nt := ceilDiv n 32
    let one (tm tn : Nat) : Option Tiling :=
      if mt < tm ∨ nt < tn then none
      else
        let tk := gemmChunk tm tn k e o budget
        if tk = 0 then none
        else
          let blocks := ceilDiv mt tm * ceilDiv nt tn
          some { tm, tn, tk, cycles := ceilDiv blocks (max cores 1) * tm * tn * k,
                 traffic := mt * 32 * k * e / 2 * ceilDiv nt tn + nt * 32 * k * e / 2 * ceilDiv mt tm }
    (gemmCands.flatMap (fun a => gemmCands.map (fun b => (a, b)))).foldl (fun (best : Option Tiling) (c : Nat × Nat) =>
      match one c.1 c.2, best with
      | none, _ => best
      | some t, none => some t
      | some t, some b => if tilingLess t b then some t else some b) none
/-- A matrix operator can be tiled for a shape: by its table, else by the planner (R115, R116). -/
def tiles (o : OpDecl) (m n k : Nat) : Bool := o.table.contains (m, n, k) || (planGemm m n k o.e o.o o.budget o.cores).isSome

/-- A compressed region breaks R133. -/
def badRegion (all : List RegionDecl) (r : RegionDecl) : Bool :=
  let size (x : RegionDecl) : Nat := x.length / 64 * x.slot + x.pool * 64
  decide (4 ≤ r.gallery) || decide (r.base % 64 ≠ 0) || decide (r.length % 64 ≠ 0) || decide (2 ^ 24 < r.base + r.length)
    || !([24, 32, 40, 48].contains r.slot) || decide (65535 < r.pool) || decide (r.storage % 64 ≠ 0) || decide (2 ^ 24 < r.storage + size r)
    || (all.filter (fun x => decide (x.gallery = r.gallery) && (overlaps x.base x.length r.base r.length || overlaps x.storage (size x) r.storage (size r)))).length ≠ 1
    || decide (16 < (all.filter (fun x => x.gallery = r.gallery)).length)
/-- A sequence declaration breaks R149 or R150. -/
def badSeq (d : SeqDecl) : Bool :=
  let pos (v : W32) : Bool := decide (v.toNat < 0x7F800000) && decide (v ≠ 0)
  decide (15 < d.priority) || decide (128 < d.dh) || decide (1024 < d.heads * d.dh * (if d.format = 3 then 2 else 1)) || decide (3 < d.format)
    || decide (d.pMax = 0) || decide (4096 < d.pMax) || decide (64 < d.k) || decide (d.w = 0) || decide (16 < d.w) || !pos d.sigmaS || !pos d.sigmaQ
/-- A recurrent operator breaks R145. -/
def badRecurrent (x : Nat × Nat × Nat × Nat × Nat × Nat) : Bool :=
  let (cell, df, all, seqs, din, gates) := x
  decide (2 < cell) || decide (df = 0) || decide (32 < df) || decide (32 < all) || decide (seqs = 0) || decide (32 < seqs)
    || decide (din = 0) || decide (65536 < din) || decide (4096 < gates)
/-- A convolution breaks R126. -/
def badConv (c : List Nat) : Bool :=
  let out (k lo hi : Nat) : Bool := decide (c.getD k 0 < lo) || decide (hi < c.getD k 0)
  out 0 1 15 || out 1 1 15 || out 2 1 15 || out 3 1 8 || out 4 1 15 || out 5 1 15 || out 6 0 255 || out 7 0 255 || out 8 1 65536
/-- A Winograd operator breaks R129 or R131. -/
def badWinograd (w : List Nat × Bool × Bool × Bool) : Bool :=
  decide (w.1.take 6 ≠ [3, 3, 1, 1, 1, 1]) || !(w.2.1 || w.2.2.1) || (w.2.1 && !w.2.2.2)
/-- A fused pair breaks R120. -/
def badFused (x : Nat × Nat × Nat × Bool) : Bool := decide (1024 < x.1) || decide (65536 < x.2.1) || decide (x.2.2.1 % 32 ≠ 0) || x.2.2.2

/-- Check 13 (R119, R120, R126, R129, R131, R133, R145, R149–R152). -/
def checkOps (p : PlanImage) : Option PlanErr :=
  let guar := p.seqs.filter (fun d => d.guaranteed)
  firstErr [
    badIf 13 (p.limits.conv.any badConv), badIf 13 (p.limits.winograd.any badWinograd), badIf 13 (p.limits.fused.any badFused),
    badIf 13 (p.limits.recurrent.any badRecurrent), badIf 13 (p.regions.any (badRegion p.regions)),
    badIf 13 (decide (256 < p.seqs.length) || p.seqs.any badSeq),
    badIf 13 (p.pools.chamber.any (fun c => decide (512 < c.1)) || decide (65535 < p.pools.dram.1) || decide (65535 < p.pools.sump)),
    overIf 13 (p.ops.any (fun o => match o.shape with | some (m, n, k) => !tiles o m n k | none => false)),
    overIf 13 (decide ((p.pools.chamber.map (·.1)).sum < (guar.map (fun d => 1 + d.k + d.w)).sum)
      || decide (p.pools.dram.1 < (guar.map (fun d => d.pMax)).sum))]

/-- A descriptor: cached (R323), else as fetched for the command; an invalid one is none. -/
def descOf (s : State) (objs : List (Handle × List Byte)) (h : Handle) : Option ObjDesc :=
  match s.obj.descs.find? (fun d => d.1 = h) with
  | some (_, d) => if d.length = 0 then none else some d
  | none => (objs.find? (fun e => e.1 = h)).bind (fun e => parseObj e.2)

/-- A window breaks R76, R77, R187, R189 or R293. -/
def badWindow (s : State) (objs : List (Handle × List Byte)) (w : Nat × Window) : Bool :=
  let x := w.2
  let a := x.base.toNat
  decide (16 ≤ w.1) || decide (x.length = 0) || decide (2 ^ 32 ≤ x.length) ||
  match x.space with
  | .lcl => decide (2 ^ 19 < a + x.length)
  | .chamber => decide (2 ^ 27 ≤ a) || decide (2 ^ 24 < a % 2 ^ 24 + x.length)
  | .staging => decide (a < 0x200000) || decide (2 ^ 23 < a + x.length)
  | .dram => decide (dramU s < a + x.length)
  | .host => (match descOf s objs x.obj with
      | some d => decide (d.location ≠ 0) || (d.readOnly && (x.w || x.a))
      | none => true)
  | .peer => decide (2 ^ 19 < a % 2 ^ 19 + x.length)
/-- Check 14 (R187, R189, R293, R427, R451). -/
def checkWindows (s : State) (objs : List (Handle × List Byte)) (p : PlanImage) : Option PlanErr :=
  firstErr (p.cores.map (fun c => badIf 14 (c.wins.any (badWindow s objs)) c.offset)
    ++ [badIf 14 (p.sinks.any (fun k => decide (k.lo < 0x200000) || decide (2 ^ 23 < k.lo + k.len)))])

/-- Translation entries that a plan pins: object and entries (R317). -/
def pinnedObjs (p : PlanImage) : List (Handle × Nat) :=
  p.hostObjs.filter (fun h => p.cores.any (fun c => c.safety && c.wins.any (fun w => w.2.space = .host && w.2.obj = h.1)))
/-- Check 15 (R315, R317). -/
def checkResidency (s : State) (ctx : Nat) (p : PlanImage) : Option PlanErr :=
  let imgs := p :: s.plans.map (·.img)
  let total : Nat := (((imgs.flatMap pinnedObjs).eraseDups).map (fun (h : Handle × Nat) => max h.2 1)).sum
  let inG (g : Nat) : Nat := (((imgs.flatMap (fun q => (pinnedObjs q).filter (fun h => (pinGalleries q h.1).contains g))).eraseDups).map (fun (h : Handle × Nat) => max h.2 1)).sum
  let resident := s.obj.ctxs.any (fun c => c.id = ctx)
  overIf 15 (decide (32 ≤ (s.obj.ctxs.filter (fun c => c.pinned && c.id ≠ ctx)).length) || (!resident && (slotRoom s).isNone)
    || decide (2048 < total) || (List.range 4).any (fun g => decide (128 < inG g)))

/-- The checks of R357, in order. -/
def planChecks (s : State) (ctx objLen : Nat) (p : PlanImage) (objs : List (Handle × List Byte)) : Option PlanErr :=
  firstErr [checksHeader s objLen p, (scaleCheck s p).2, checkLadder p, checkBandwidth s p,
    checkCores s p (mapFor s (planDigest p)), checkOps p, checkWindows s objs p, checkResidency s ctx p]

/-- Load a core section (R98): registers at their reset values, every memory and table written, the core IDLE, its clip
counters 0 (R178) unless the section is loaded again for a loop. -/
def loadSection (p : PlanImage) (map : List MapPair) (keep : Bool) (c : CoreSect) (s : State) : State :=
  let n := c.site
  let old := getCore s n
  let wins := c.wins.foldl (fun m w => putK none m w.1 (some w.2)) []
  let routes := c.routes.foldl (fun m r =>
    putK none m r.1 (some { node := r.2.1, chan := r.2.2.1, share := r.2.2.2.1, optional := r.2.2.2.2, credits := r.2.2.2.1 })) []
  let chans := c.chans.foldl (fun m h => putK none m h.1 (some { base := h.2.1, slotSize := h.2.2, slots := chanShares p c.site h.1 })) []
  let pr := map.find? (fun m => m.lead = n ∨ m.trail = n)
  let trail := match pr with | some m => decide (m.trail = n) | none => false
  let skew := match pr with | some m => m.skew | none => 0
  let imem := putsK 0 [] 0 c.words
  let mem := c.segs.foldl (fun m g => wrN m g.1 g.2) old.mem
  let memBad := c.segs.foldl (fun b g => b.filter (fun w => ¬(g.1 ≤ w * 8 ∧ w * 8 + 8 ≤ g.1 + g.2.length))) old.memBad
  let scl := c.scl.foldl (fun m e => putK 0 m e.1 e.2) []
  let ld := c.lds.foldl (fun m e => putK 0 m e.1 e.2) []
  let sig : SigUnit := { pair := pr.map (fun m => m.pair), trail }
  let suppress := match pr with | some m => if trail then m.suppress else 0 | none => 0
  let new : Core := {
    run := .idle, pc := c.entry, entry := c.entry, resident := c.resident, waitNs := c.waitUs * 1000,
    imem, mem, memBad, scl, ld, wins, routes, chans, safety := c.safety, torch := c.torch,
    freq := old.freq, freqNext := old.freqNext, clips := if keep then old.clips else [],
    clipSnap := if keep then old.clipSnap else [], clipThresh := c.clipThresh, clipEvent := c.clipEvent,
    destAbsent := old.destAbsent, skew, skewParity := skewPar skew, suppress, sig,
    traceSeq := old.traceSeq, traceFifo := old.traceFifo, traceLost := old.traceLost }
  changeCore n (fun _ => new) s
/-- Load every core section of a plan. -/
def loadSections (p : PlanImage) (map : List MapPair) (keep : Bool) (s : State) : State :=
  p.cores.foldl (fun (s : State) (c : CoreSect) => loadSection p map keep c s) s

/-- A measurement (R373): the chain always; the log while it has room. -/
def measure (code : W32) (digest : List Byte) (s : State) : State :=
  let l := s.ltn
  { s with ltn := { l with chain := sha256 (l.chain ++ leBytes 4 code.toNat ++ digest),
                           meas := if l.meas.length < 64 then l.meas ++ [(code, digest)] else l.meas } }

/-- Every object a plan binds (R319): one reference for each HOST window, the sump object and the plan image object. -/
def planRefs (c : CtxSlot) (p : PlanImage) : List Handle :=
  c.plan :: (match p.pools.sumpObj with | some o => [o] | none => [])
    ++ p.cores.flatMap (fun c => (c.wins.filter (fun w => w.2.space = .host)).map (fun w => w.2.obj))

/-- The MEM declared by a plan's compressed regions is cleared (R133): every slot holds an all-zero bitmap. -/
def openRegions (p : PlanImage) (s : State) : State :=
  let clear (m : MemT) (r : RegionDecl) : MemT :=
    chamberPut (r.gallery * 2 ^ 24 + r.storage) (List.replicate (r.length / 64 * r.slot) 0) [] m
  { s with mem := { p.regions.foldl clear s.mem with regions := s.mem.regions ++ p.regions.map (fun d => { decl := d }) } }

/-- PLAN_LOAD's effect once every check has passed (R98, R133, R213, R315, R317, R319, R373, R538). -/
def planLoaded (c : CtxSlot) (p : PlanImage) (objs : List (Handle × List Byte)) (s : State) : State :=
  let digest := planDigest p
  let scale := (scaleCheck s p).1
  let map := mapFor s digest
  let p := physImage s p
  let s := { s with dev := { s.dev with subst := s.ltn.cfg.subst }, energy := { s.energy with k := 2 ^ 32 } }
  let s := powerHalves p map s
  let s := loadSections p map false s
  let refs := planRefs c p
  let l : Loaded := { ctx := c.id, img := p, digest, scaleDigest := scale, period := BitVec.ofNat 64 (hdr p 0x28 8),
                      flags := BitVec.ofNat 32 (hdr p 0x0C 4), planner := BitVec.ofNat 32 (hdr p 0x18 4), recalFor := sub p.bytes 0x80 32,
                      map, objs := refs }
  let s := openRegions p { s with plans := s.plans ++ [l] }
  let s := if s.obj.ctxs.any (fun x => x.id = c.id) then
      { s with obj := { s.obj with ctxs := s.obj.ctxs.map (fun x => if x.id = c.id then { x with pinned := true, used := now s } else x) } }
    else match slotRoom s with
      | some s => { s with obj := { s.obj with ctxs := s.obj.ctxs ++ [{ c with pinned := true, used := now s }] } }
      | none => s
  let s := objs.foldl (fun (s : State) (e : Handle × List Byte) =>
    if s.obj.descs.any (fun d => d.1 = e.1) then s
    else match parseObj e.2 with | some d => putDesc e.1 d s | none => s) s
  let s := (pinnedObjs p).foldl (fun (s : State) (h : Handle × Nat) =>
    match s.obj.descs.find? (fun d => d.1 = h.1) with
    | some (_, d) =>
      if d.page = 0 then putTrans { obj := h.1, page := 0, base := d.base } none s
      else (List.range h.2).foldl (fun (s : State) (k : Nat) => slotFault (.object h.1 k none) s) s
    | none => slotFault (.object h.1 0 none) s) s
  let s := refs.foldl (fun (s : State) (h : Handle) => takeRef h s) s
  measure 0x21 scale (measure 0x20 digest s)

/-- PLAN_LOAD (R345, R346, R357). -/
def planLoad (ctxBytes : List Byte) (img : Option PlanImage) (objs : List (Handle × List Byte)) (r : Req) (s : State) : State :=
  let ctx := r.arg 0 2
  let so := r.arg 4 4
  if s.obj.ctxTab.count ≤ ctx then refuse .dispatch r 5 16 [] s
  else if (planOf s ctx).isSome then bad .dispatch r 16 s
  else if r.arg 2 2 ≠ 0 then bad .dispatch r 18 s
  else if so ≠ 0xFFFFFFFF ∧ s.obj.objTab.count ≤ so then refuse .dispatch r 5 20 [] s
  else if so ≠ 0xFFFFFFFF ∧ tornObj s so then refuse .dispatch r 10 20 [] s
  else match (match s.obj.ctxs.find? (fun c => c.id = ctx) with | some c => some c | none => parseCtx ctx ctxBytes) with
    | none => refuse .dispatch r 5 16 [] (badObject 0 ctx s)
    | some c =>
      match img, descOf s objs c.plan with
      | none, _ => refuse .dispatch r 11 1 [] s
      | some _, none => refuse .dispatch r 5 16 [] (badObject 2 c.plan.toNat s)
      | some p, some d =>
        match planChecks s ctx d.length p objs with
        | some e => refuse .dispatch r e.status e.detail (leBytes 2 e.check ++ leBytes 1 e.rung ++ leBytes 1 e.sub_ ++ leBytes 4 e.offset) s
        | none =>
          let s := planLoaded c p objs s
          let subs := (p.cores.filter (fun c => decide (physOf s c.site ≠ c.site))).length
          let pins := ((pinnedObjs p).map (fun h => max h.2 1)).sum
          ok .dispatch r (planDigest p ++ (match planOf s ctx with | some l => l.scaleDigest | none => []) ++ leBytes 4 Config.plannerVersion.toNat
            ++ leBytes 2 p.cores.length ++ leBytes 1 p.pairs.length ++ leBytes 1 subs ++ leBytes 2 pins ++ leBytes 1 (slotsPinned s) ++ [0]) s
/-- PLAN_LOAD. -/
def execPlanLoad (ctx : List Byte) (img : Option PlanImage) (objs : List (Handle × List Byte)) (s : State) : Res :=
  .next (serveCmd .dispatch 0x0301 (planLoad ctx img objs) s)

/-- Unload a plan (R315, R317, R319): its cores return to reset, its pins and references are dropped. -/
def unload (l : Loaded) (s : State) : State :=
  let others := s.plans.filter (fun p => p.ctx ≠ l.ctx)
  let s := (l.img.cores.map (fun c => c.site)).foldl (fun (s : State) (n : Node) =>
    if others.any (fun p => (sectAt p.img n).isSome) then s else changeCore n (fun c => if c.run = .off then c else { coreReset c with wins := [], routes := [], chans := [] }) s) s
  let s := { s with
    plans := others
    obj := { s.obj with ctxs := s.obj.ctxs.map (fun c => if c.id = l.ctx then { c with pinned := false } else c) }
    mem := { s.mem with regions := s.mem.regions.filter (fun g => !l.img.regions.contains g.decl) }
    kv := if l.img.seqs.isEmpty then s.kv else {}
    mir := if s.mir.pairs.any (fun p => l.map.any (fun m => m.lead = p.map.lead)) then {} else s.mir
    loop := { s.loop with torchCtx := if s.loop.torchCtx = some l.ctx then none else s.loop.torchCtx } }
  let pins (t : TransEnt) : TransEnt := { t with pinned := t.pinned && !(pinnedIn s t.obj).isEmpty }
  let s := { s with obj := { s.obj with
    trans := s.obj.trans.map pins
    gcopy := s.obj.gcopy.map (fun e => (e.1, e.2.map (fun t => { t with pinned := t.pinned && (pinnedIn s t.obj).contains e.1 }))) } }
  l.objs.foldl (fun (s : State) (h : Handle) => dropRef h s) s

/-- PLAN_UNLOAD (R345): its completion is a retire point (R320). -/
def planUnload (r : Req) (s : State) : State :=
  match planOf s (r.arg 0 2) with
  | none => refuse .dispatch r 5 16 [] s
  | some l =>
    let s := gateUnused (retireStep (unload l s))
    ok .dispatch r (leBytes 8 s.obj.retired.toNat) s
/-- PLAN_UNLOAD. -/
def execPlanUnload (s : State) : Res := .next (serveCmd .dispatch 0x0302 planUnload s)

end Sys2Proof.Machine
end

