-- ==== Sys2Proof/Machine/Loop.lean ====
section
/-! DEFINITION. The frame loop's start and stop, the agreement with the partner, frame signatures, verdicts and the delivery
ring (R21, R118, R276, R345, R347, R365, R403, R404, R430–R432, R451, R452). -/

namespace Sys2Proof.Machine

/-- The LTC at which frame k of an epoch starts (R276): E + ⌊k × T_f⌋. -/
def startAt (e period : W64) (k : Nat) : W64 := e + BitVec.ofNat 64 (k * period.toNat / 2 ^ 32)

/-- The outputs of a frame: the torch section's in a torch frame, else the others (R451, R453). -/
def isOwnOut (p : Loaded) (torch : Bool) (i : Nat) : Bool := match p.img.outputs[i]? with | some o => o.torch = torch | none => false
/-- The records of a frame with their output indices. -/
def ownRecs (p : Loaded) (f : Frame) : List (Nat × OutRec) := ((List.range f.recs.length).zip f.recs).filter (fun e => isOwnOut p f.torch e.1)

/-- Stream entries in stream-ID order. -/
def byStream (l : List (Nat × Byte × Byte)) : List (Nat × Byte × Byte) := (List.range 112).flatMap (fun k => l.filter (fun e => e.1 = k))
/-- The frame signature (R403; widths: log entry 28). -/
def frameSigOf (p : Loaded) (f : Frame) : W64 :=
  let seed := crc64 0 (leBytes 4 f.n.toNat)
  crc64 seed (leBytes 1 f.rung ++ (byStream f.flags).flatMap (fun e => leBytes 1 e.1 ++ [e.2.1, e.2.2])
    ++ (ownRecs p f).flatMap (fun e => leBytes 1 e.1 ++ [if e.2.invalid then 1 else 0] ++ leBytes 4 e.2.data.length ++ e.2.data))

/-- The plan and context whose frames are delivered: the loop's, or the last loop's. -/
def deliverCtx (s : State) : Option CtxSlot := match s.loop.torchCtx with | some c => ctxOf s c | none => none
def deliverPlan (s : State) : Option Loaded := match s.loop.torchCtx with | some c => planOf s c | none => none
/-- Size of a delivery ring slot (R451). -/
def ringSlot (p : Loaded) : Nat := ceilDiv (64 + 32 * p.img.outputs.length) 64 * 64
/-- Ring object and offset of a frame's slot (R451). -/
def slotOf (s : State) (n : W32) : Option (Handle × Nat) :=
  match deliverCtx s, deliverPlan s with
  | some c, some p => c.ring.map (fun o => (o, n.toNat % max c.ringFrames 1 * ringSlot p))
  | _, _ => none
/-- A posted write into a frame's slot. -/
def ringPut (n : W32) (off : Nat) (bs : List Byte) (s : State) : State :=
  match slotOf s n with
  | some (o, at_) => postWrite { obj := some o, addr := BitVec.ofNat 64 (at_ + off), data := bs } s
  | none => s

/-- Write VERDICT and VERDICT_SEQ, then post FRAME_VERDICT (R404, R452). -/
def postVerdict (n : W32) (v : Nat) (s : State) : State :=
  let s := ringPut n 56 (leBytes 4 n.toNat) (ringPut n 32 (leBytes 1 v) s)
  notifyAll (Config.evtKind 2) (leBytes 4 n.toNat ++ leBytes 1 v) s
/-- Frames that are delivered, retired and judged leave the list. -/
def prunePast (s : State) : State :=
  { s with loop := { s.loop with past := s.loop.past.filter (fun f => !(f.gated && f.retired && decide (f.verdict ≠ 0))) } }
/-- Change the ended frame of a number. -/
def updPast (n : W32) (f : Frame → Frame) (s : State) : State :=
  { s with loop := { s.loop with past := s.loop.past.map (fun x => if x.n = n ∧ ¬x.torch then f x else x) } }
/-- A frame's verdict is known (R404): 1 MATCH, 2 MISMATCH, 3 UNCHECKED. It follows the frame's delivery (R452). -/
def judgeFrame (n : W32) (v : Nat) (s : State) : State :=
  match s.loop.past.find? (fun f => f.n = n && !f.torch && decide (f.verdict = 0)) with
  | none => s
  | some f =>
    let s := if v = 2 then raise .twinMismatch dev [] s else s
    let s := updPast n (fun x => { x with verdict := v }) s
    prunePast (if f.gated then postVerdict n v s else s)

/-- A partner frame number as one of this device's (R281, R425). -/
def fromPartner (s : State) (f : W32) : W32 := s.time.alignOwn + (f - s.time.alignPartner)
/-- One of this device's frame numbers as the partner's (R281). -/
def ownToPartner (s : State) (f : W32) : W32 := s.time.alignPartner + (f - s.time.alignOwn)

/-- Compare the frames that have ended with the partner's signatures (R404, R421): a signature whose bytes 24–27 do not match
the pointer is discarded; one of an UNAGREED or REALIGN frame, of either device, gives UNCHECKED. -/
def compareSigs (s : State) : State :=
  (s.loop.past.filter (fun f => f.ended && !f.torch && decide (f.verdict = 0))).foldl (fun (s : State) (f : Frame) =>
    match s.dv.sigs.find? (fun e => fromPartner s e.2.frame = f.n) with
    | none => s
    | some (t, m) =>
      let s := { s with dv := { s.dv with sigs := s.dv.sigs.erase (t, m) } }
      let off := f.unagreed || f.realign || m.unagreed || m.realign || m.mapped ≠ f.n
      judgeFrame f.n (if off then 3 else if m.sig = f.sig then 1 else 2) s) s

/-- The latest measured Δ: the partner's LTC minus this device's (R423). -/
def lastDelta (s : State) : Int := match s.dv.deltas.head? with | some e => e.2 | none => 0
/-- A partner's LTC as this device's. -/
def ownLtc (s : State) (t : W64) : Int := (t.toNat : Int) - lastDelta s

/-- PLAN_CHECK of a loaded plan (R425). -/
def planCheckBytes (s : State) (p : Loaded) : List Byte :=
  [0x23, 0, 0, 0] ++ sub p.digest 0 32 ++ sub p.scaleDigest 0 32 ++ leBytes 4 Config.plannerVersion.toNat ++ sub s.dv.digest 0 32
/-- LOOP_PROPOSE (R425). -/
def proposeBytes (e : W64) (n : W32) (running : Bool) : List Byte :=
  [0x24, 0, 0, 0] ++ leBytes 8 e.toNat ++ leBytes 4 n.toNat ++ [if running then 1 else 0]
/-- The first failed comparison with the partner (R21, R118, R347): 1 plan, 2 scale set, 3 planner, 4 manifest; 0 none. -/
def checkFails (s : State) (p : Loaded) (m : PlanCheckMsg) : Nat :=
  if m.plan ≠ sub p.digest 0 32 then 1
  else if m.scale ≠ sub p.scaleDigest 0 32 then 2
  else if m.planner ≠ Config.plannerVersion then 3
  else if m.manifest ≠ sub s.dv.digest 0 32 then 4
  else 0
/-- R21's C2 fault of a failed comparison: a log entry of class C2 (the spec gives it no source). -/
def logCheckFail (k : Nat) (s : State) : State := logRec 1 2 0 (leBytes 4 k) s

/-- The pulse of this device's turn of the sideband test (R430): request, asserted, released; FAULT_OUT is high for 5 µs. -/
def sidebandPulse (s : State) : State :=
  toPartner 2 [0x2A, 2, 0] (toPartner 2 [0x2A, 1, 0] (toPartner 2 [0x2A, 0, 0] s))

/-- The mirror pairs of a plan that runs (R385, R386, R453). -/
def pairsFor (p : Loaded) : List Pair :=
  p.map.map (fun m => { map := m, torch := match p.img.torch with | some t => t.pairs.contains m.pair | none => false })

/-- LOOP_START is accepted (R276, R347, R361, R365): every core section is loaded again after RECOVER, frame 0 starts at E, its
rung is decided, and the state is RUNNING. The sideband test follows where the partner is present (R430). -/
def startLoop (p : Loaded) (slot : Nat) (e : W64) (absent : Bool) (s : State) : State :=
  let pair := decide (2 ≤ s.dv.n)
  let s := if s.loop.reload then loadSections p.img p.map true s else s
  let past := s.loop.past
  let s := { s with
    loop := { ctx := some p.ctx, epoch := e, period := p.period, torchCtx := some p.ctx, clearNext := s.loop.clearNext, past }
    mir := { pairs := pairsFor p }
    mem := { s.mem with floor := 0, floors := [], partnerFloors := [] }
    dv := { s.dv with compare := pair && s.dv.twin && !absent, comparing := false, absent, check := none, propose := none,
                      sigs := [], beyond := 0, within := 0 } }
  let s := decisionPoint s
  let s := enter .running none 0x0303 s
  let s := if absent then raise .partnerAbsent dev [] s else s
  let rung := match s.energy.nextRung with | some x => x.1 | none => s.energy.rung
  let s := respond .dispatch slot 0 0 (leBytes 8 e.toNat ++ leBytes 1 ((if absent then 1 else 0) + (if pair ∧ s.dv.twin then 2 else 0))
    ++ leBytes 1 rung ++ [0, 0] ++ leBytes 4 Config.plannerVersion.toNat) s
  if pair ∧ ¬absent ∧ s.dv.p % 2 = 0 then sidebandPulse s else s

/-- The epoch, the partner frame of frame 0 and the new partner offset, from the partner's proposal (R347, R431, R432). -/
def agreeEpoch (s : State) (p : Loaded) (own : W64) (m : W64 × W32 × Bool) : W64 × W32 :=
  let theirs := ownLtc s m.1
  if m.2.2 then
    let short := (own.toNat : Int) - theirs
    let k := if short ≤ 0 then 0 else ceilDiv (short.toNat * 2 ^ 32) (max p.period.toNat 1)
    (BitVec.ofInt 64 (theirs + (k * p.period.toNat / 2 ^ 32 : Nat)), m.2.1 + BitVec.ofNat 32 k)
  else (BitVec.ofInt 64 (max (own.toNat : Int) theirs), 0)

/-- The start in progress is over: its plan, or `none` where the device has left ATTACHED or the plan is unloaded. -/
def startPlan (s : State) (c : Nat) : Option Loaded := if s.dev.state = .attached then planOf s c else none
/-- A LOOP_START whose state or plan has gone is answered STATE_REFUSED (chapter 16, "When things collide"). -/
def dropStart (w : Waiting) (s : State) : State :=
  respond .dispatch w.slot 9 0 [] { s with mbD := { s.mbD with waiting := s.mbD.waiting.erase w }, loop := { s.loop with starting := none } }

/-- Judge the start in progress, once the partner's messages are here (R21, R118, R347, R431, R432). -/
def tryStart (s : State) : State :=
  match s.loop.starting, s.mbD.waiting.find? (fun w => w.opcode = 0x0303) with
  | some (c, own, _), some w =>
    match startPlan s c with
    | none => dropStart w s
    | some p =>
      let fresh (t : W64) : Bool := decide ((now s - t).toNat ≤ 100000000)
      let done (s : State) : State := { s with mbD := { s.mbD with waiting := s.mbD.waiting.erase w }, loop := { s.loop with starting := none } }
      match (if s.dv.twin then (match s.dv.check with | some m => if fresh s.dv.checkAt then some (checkFails s p m) else none | none => none) else some 0) with
      | none => s
      | some 0 =>
        match s.dv.propose with
        | some m =>
          if ¬fresh s.dv.proposeAt then s
          else
            let a := agreeEpoch s p own m
            let s := { done s with
              dv := { s.dv with offset := lastDelta s, mapped := true }
              time := { s.time with alignOwn := 0, alignPartner := a.2, alignOffset := lastDelta s } }
            startLoop p w.slot a.1 false s
        | none => s
      | some k => logCheckFail k (respond .dispatch w.slot 12 (BitVec.ofNat 16 k) [] (done s))
  | _, _ => s

/-- LOOP_START (R347). -/
def loopStart (r : Req) (s : State) : State :=
  let lead := r.arg 4 4
  if r.arg 2 2 ≠ 0 then bad .dispatch r 18 s
  else if lead < 1000 ∨ 1000000 < lead then bad .dispatch r 20 s
  else match planOf s (r.arg 0 2) with
    | none => refuse .dispatch r 5 16 [] s
    | some p =>
      let e := now s + BitVec.ofNat 64 (lead * 1000)
      if s.loop.starting.isSome then refuse .dispatch r 6 (Config.suggestedWait 0) [] s
      else if s.dv.n < 2 then startLoop p r.slot e false s
      else
        let limit := now s + 100000000
        let s := { s with
          mbD := { s.mbD with waiting := s.mbD.waiting ++ [{ slot := r.slot, opcode := 0x0303, args := [p.ctx], limit }] }
          loop := { s.loop with starting := some (p.ctx, e, limit) } }
        let s := if s.dv.twin then toPartner 2 (planCheckBytes s p) s else s
        tryStart (toPartner 2 (proposeBytes e 0 false) s)
/-- LOOP_START. -/
def execLoopStart (s : State) : Res := .next (serveCmd .dispatch 0x0303 loopStart s)

/-- PARTNER_CHECK_TIMEOUT (R347): 100 ms after LOOP_START the loop starts with the partner absent. A TWIN partner whose last
HEARTBEAT shows ADAPTING refuses the start with INTEGRITY (chapter 1, "One partner is in ADAPTING"). A SPLIT partner that is
heard is not absent. -/
def partnerCheckTimeout (s : State) : State :=
  match s.loop.starting, s.mbD.waiting.find? (fun w => w.opcode = 0x0303) with
  | some (c, e, _), some w =>
    match startPlan s c with
    | none => dropStart w s
    | some p =>
      let s := { s with mbD := { s.mbD with waiting := s.mbD.waiting.erase w }, loop := { s.loop with starting := none } }
      let shown := match s.dv.partner with | some b => b.devstate.toNat % 16 | none => 0
      if s.dv.twin ∧ ¬s.dv.lost ∧ shown = 5 then logCheckFail 1 (respond .dispatch w.slot 12 1 [] s)
      else
        let here := !s.dv.twin && !s.dv.lost && s.dv.heard.isSome && (partnerPort s).isSome
        let s := { s with dv := { s.dv with mapped := false } }
        startLoop p w.slot (if e.toNat < (now s).toNat then now s else e) (!here) s
  | _, _ => s
/-- PARTNER_CHECK_TIMEOUT. -/
def execPartnerCheckTimeout (s : State) : Res := .next (partnerCheckTimeout s)

/-- The loop has run its stop frame (R345, R361, R364, R365): ATTACHED, with the SAFE pins asserted. -/
def finishStop (last : W32) (s : State) : State :=
  let ws := s.mbD.waiting.filter (fun w => w.opcode = 0x0304)
  let s := { s with mbD := { s.mbD with waiting := s.mbD.waiting.filter (fun w => w.opcode ≠ 0x0304) } }
  let s := { s with
    loop := { s.loop with ctx := none, cur := none, stopAt := none }
    dv := { s.dv with comparing := false, compare := false, entry := none, exitAt := none } }
  let s := answerBoundary (enter .attached none 0x0304 (driveSafe true s))
  ws.foldl (fun (s : State) (w : Waiting) => respond .dispatch w.slot 0 0 (leBytes 4 last.toNat) s) s

/-- LOOP_STOP (R345, R365): the loop runs to the named frame, or to the one in progress; with no frame in progress it ends at
once. In DEGRADED the torch plan stops. -/
def loopStop (r : Req) (s : State) : State :=
  let v := r.arg 0 4
  if torchOn s then
    let last := frameNo s
    let s := stopTorch .none 0x0304 s
    ok .dispatch r (leBytes 4 last.toNat) s
  else
    let cur := if s.loop.started = 0 then 0xFFFFFFFF else s.loop.next - 1
    let target := if v = 0xFFFFFFFF then cur else BitVec.ofNat 32 v
    if 2 ^ 31 ≤ (target - cur).toNat then bad .dispatch r 16 s
    else
      let s := { s with mbD := { s.mbD with waiting := s.mbD.waiting ++ [{ slot := r.slot, opcode := 0x0304, args := [target.toNat], limit := 0 }] } }
      if target = cur ∧ s.loop.cur.isNone then finishStop target s
      else { s with loop := { s.loop with stopAt := some target } }
/-- LOOP_STOP. -/
def execLoopStop (s : State) : Res := .next (serveCmd .dispatch 0x0304 loopStop s)

end Sys2Proof.Machine
end

