-- ==== Sys2Proof/Machine/Dvorpo.lean ====
section
/-! DEFINITION. The Dvorpo link: training, flits, replay, routes, and the messages of its four channels; the fault sideband,
partner loss, alignment and REALIGN entry (R18, R19, R201, R214, R260, R280, R281, R404, R406–R438). -/

namespace Sys2Proof.Machine

/-- The node of a port, and its record. -/
def portNode (k : Nat) : Node := BitVec.ofNat 10 (0x228 + k % 2)
def getDv (s : State) (k : Nat) : DvPort := getK {} s.dv.ports k
def setDv (k : Nat) (p : DvPort) (s : State) : State := { s with dv := { s.dv with ports := putK {} s.dv.ports k p } }
/-- The device belongs to a constellation of two or more and PD_LINK is on (R24, R376). -/
def dvOn (s : State) : Bool := decide (2 ≤ s.dv.n) && powered s 0x228

/-- A message of the partner has arrived (R426). -/
def heardNow (s : State) : State :=
  let s := { s with dv := { s.dv with heard := some (now s) } }
  if s.dv.lost then clearLevel .partnerLost dev { s with dv := { s.dv with lost := false } } else s
/-- PARTNER_LOST, once per loss (R417, R426). -/
def losePartner (s : State) : State :=
  if s.dv.lost then s else raise .partnerLost dev [] { s with dv := { s.dv with lost := true } }

/-! Physical and link layer. -/

/-- The orientation read from the lane numbers (R408): reversed when more readable lanes show the reversal than the identity. -/
def laneReversed (ls : List LaneState) : Bool :=
  let votes (rev : Bool) : Nat := ((List.range 4).filter (fun i => match ls[i]? with
    | some l => !l.opened && !l.shorted && decide (l.number.toNat = if rev then 3 - i else i)
    | none => false)).length
  decide (votes false < votes true)
/-- A physical lane is good (R407–R409): terminated, not shorted, and numbered as the orientation has it. -/
def laneGood (rev : Bool) (ls : List LaneState) (i : Nat) : Bool :=
  match ls[i]? with
  | some l => !l.opened && !l.shorted && decide (l.number.toNat = if rev then 3 - i else i)
  | none => false
/-- The logical lane of a physical one (R408). -/
def lgLane (rev : Bool) (i : Nat) : Nat := if rev then 3 - i else i
/-- A mask of four bits. -/
def mask4 (f : Nat → Bool) : BitVec 4 := BitVec.ofBool (f 3) ++ BitVec.ofBool (f 2) ++ BitVec.ofBool (f 1) ++ BitVec.ofBool (f 0)
/-- The width that a set of usable logical lanes gives (R409). -/
def widthOf (m : BitVec 4) : Nat :=
  if m = 15 then 4 else if m.getLsbD 0 ∧ m.getLsbD 1 then 2 else if m.getLsbD 2 ∧ m.getLsbD 3 then 2 else if m = 0 then 0 else 1
/-- The position that R16 and R18 prescribe at the far end of a port; for N = 2 either crossing is accepted. -/
def wrongFar (s : State) (k : Nat) (far : Nat) : Bool :=
  decide (4 ≤ s.dv.n) && decide (far ≠ if k = 1 then (s.dv.p + 1) % s.dv.n else (s.dv.p + s.dv.n - 1) % s.dv.n)
/-- IDENT (R425). -/
def identBytes (s : State) : List Byte :=
  [0x20] ++ leBytes 1 s.dv.p ++ leBytes 1 s.dv.n ++ [0] ++ sub s.dv.digest 0 32 ++ leBytes 16 Config.serial.toNat

/-- Send every held flit again, in order (R413). -/
def resendHeld (k : Nat) (s : State) : State :=
  (getDv s k).buf.foldl (fun (s : State) (f : HeldFlit) => emit (.dv k f.seq f.chan f.src f.dst f.hops f.msgId f.corr f.first f.last f.payload) s) s

/-- LINK_TRAINING (R407–R410): a port that is DOWN or TRAINING trains; the outcome is ACTIVE, HELD, or another try. A retrain
keeps its settings, its sequence numbers and its held flits, and never widens. -/
def linkTraining (k : Nat) (lanes : List LaneState) (farGood : BitVec 4) (far : Option Ident) (s : State) : State :=
  let p := getDv s k
  let fit : Bool := match p.state with | .down | .training => true | _ => false
  if ¬dvOn s ∨ ¬fit then s
  else
    let rev := laneReversed lanes
    let good := mask4 (fun j => laneGood rev lanes (lgLane rev j))
    let inverted := mask4 (fun j => laneGood rev lanes (lgLane rev j) && (match lanes[lgLane rev j]? with | some l => l.inverted | none => false))
    let w := widthOf (good &&& farGood)
    let width := if p.adapted then min w p.width else w
    let bad := (List.range 4).filter (fun i => !laneGood rev lanes i)
    let s := bad.foldl (fun (s : State) (i : Nat) => raise .dvLane { node := portNode k, sub := BitVec.ofNat 8 (lgLane rev i) } [] s) s
    let s := if width < 4 then raise .dvWidth (at_ (portNode k)) [] s else s
    let q := { getDv s k with good, inverted, reversed := rev, width }
    match far with
    | none => setDv k { q with state := .training } s
    | some f =>
      if width = 0 then setDv k { q with state := .training } s
      else if wrongFar s k f.p.toNat then
        raise .dvMiswire (at_ (portNode k)) [] (setDv k { q with state := .held, far := f.p.toNat, adapted := false, buf := [], wait := [] } s)
      else
        let q := if p.adapted then q else { q with txSeq := 0, rxSeq := 0xFFF, nak := false }
        let s := resendHeld k (setDv k { q with state := .active, far := f.p.toNat, adapted := true } s)
        dvSend k 2 f.p.toNat (identBytes s) s
/-- LINK_TRAINING. -/
def execLinkTraining (k : Nat) (lanes : List LaneState) (farGood : BitVec 4) (far : Option Ident) (s : State) : Res :=
  .next (linkTraining k lanes farGood far s)

/-- TRAINING_RETRY (R407): the next try begins. -/
def execTrainingRetry (k : Nat) (s : State) : Res :=
  .next (if dvOn s ∧ (getDv s k).state = .down then setDv k { getDv s k with state := .training } s else s)

/-- A retrain (R410, R416). -/
def retrain (k : Nat) (s : State) : State :=
  let p := getDv s k
  if p.state = .active then raise .dvRetrain (at_ (portNode k)) [] (setDv k { p with state := .training, retrain := p.retrain.inc } s) else s
/-- LANE_LOCK_LOSS (R410). -/
def execLaneLockLoss (k _lane : Nat) (s : State) : Res := .next (retrain k s)

/-- Replay of every held flit (R413): after four replays of the oldest, the port retrains. -/
def replayPort (k : Nat) (s : State) : State :=
  let p := getDv s k
  match p.buf with
  | [] => s
  | f :: _ =>
    if 4 ≤ f.replays then retrain k (setDv k { p with buf := p.buf.map (fun x => { x with replays := 0 }) } s)
    else resendHeld k (setDv k { p with replay := p.replay.inc, buf := p.buf.map (fun x => { x with replays := x.replays + 1, at_ := now s }) } s)
/-- REPLAY_TIMEOUT (R413). -/
def execReplayTimeout (k : Nat) (s : State) : Res := .next (if (getDv s k).state = .active then replayPort k s else s)

/-- An ACK releases every flit up to the named SEQ (R413). -/
def ackFlits (k : Nat) (q : BitVec 12) (s : State) : State :=
  let p := getDv s k
  if p.buf.any (fun f => f.seq = q) then
    dvPump 65 k (setDv k { p with buf := (p.buf.dropWhile (fun f => f.seq ≠ q)).tail } s)
  else s

/-- DV_LINK_DOWN (R413, R417): the port is DOWN, and what it held goes out on the other route; with no route, DATA is dropped
and a partner left without a route is lost. -/
def linkDown (k : Nat) (s : State) : State :=
  let p := getDv s k
  let was : Bool := match p.state with | .active | .training => p.adapted | _ => false
  if ¬was then s
  else
    let flits := p.buf ++ p.wait
    let s := setDv k { p with state := .down, width := 0, adapted := false, buf := [], wait := [] } s
    let s := raise .dvLinkDown (at_ (portNode k)) [] s
    let q := getDv s (1 - k)
    let other := q.state = .active || (q.state = .training && q.adapted)
    let s := flits.foldl (fun (s : State) (f : HeldFlit) =>
      if other then dvQueue (1 - k) { f with replays := 0 } s
      else if f.chan = 3 then raise .dvDataDrop (at_ (portNode k)) [] s
      else s) s
    if (partnerPort s).isNone then losePartner s else s
/-- DV_LINK_DOWN. -/
def execDvLinkDown (k : Nat) (s : State) : Res := .next (linkDown (k % 2) s)

/-! SIG. -/

/-- FRAME_SIG arrives (R404, R420, R421). -/
def frameSigIn (m : FrameSigMsg) (s : State) : State :=
  let s := heardNow s
  if ¬s.dv.twin ∨ ¬s.dv.comparing then s
  else compareSigs { s with dv := { s.dv with sigs := (s.dv.sigs ++ [(now s, m)]).drop (s.dv.sigs.length - 15) } }
/-- FRAME_SIG. -/
def execFrameSig (m : FrameSigMsg) (s : State) : Res := .next (frameSigIn m s)
/-- FRAME_SIG_WAIT_EXPIRY (R421): frames that have ended and have no verdict are UNCHECKED. -/
def frameSigWait (s : State) : State :=
  (s.loop.past.filter (fun f => f.ended && !f.torch && decide (f.verdict = 0))).foldl (fun (s : State) (f : Frame) => judgeFrame f.n 3 s) s
/-- FRAME_SIG_WAIT_EXPIRY. -/
def execFrameSigWaitExpiry (s : State) : Res := .next (frameSigWait s)

/-! TIME. -/

/-- This device is the follower of its pair (R263, R422). -/
def isFollower (s : State) : Bool := decide (2 ≤ s.dv.n) && decide (s.dv.p % 2 = 1)
/-- TIME_REQ_INTERVAL (R422): the follower asks. -/
def timeReqSend (s : State) : State :=
  if isFollower s ∧ (partnerPort s).isSome then
    toPartner 1 ([0x10, 0, 0, 0] ++ leBytes 8 (now s).toNat) { s with dv := { s.dv with t1 := some (now s) } }
  else s
/-- TIME_REQ_INTERVAL. -/
def execTimeReqInterval (s : State) : Res := .next (timeReqSend s)
/-- TIME_REQ (R422): the leader answers with its stamps, its frame number and that frame's start. -/
def timeReqIn (t1 : W64) (corr : W32) (s : State) : State :=
  let s := heardNow s
  if decide (s.dv.n < 2) || isFollower s then s
  else
    let frameLtc : W64 := match s.loop.cur with | some f => f.stamp.ltc | none => s.time.stamp.ltc
    let t := (now s).toNat
    toPartner 1 ([0x11, 0, 0, 0] ++ leBytes 8 t1.toNat ++ leBytes 8 t ++ leBytes 8 t ++ leBytes 4 corr.toNat
      ++ leBytes 4 (frameNo s).toNat ++ leBytes 8 frameLtc.toNat) s
/-- TIME_REQ. -/
def execTimeReq (t1 : W64) (corr : W32) (s : State) : Res := .next (timeReqIn t1 corr s)

/-- The follower's LTC_INC after an exchange (R424): the leader's rate from Δ over the last 8 exchanges, and the phase term. -/
def followInc (d : Int) (s : State) : State :=
  let inc : Int := s.time.inc.toNat
  let slope : Int := match s.dv.deltas.head?, s.dv.deltas.getLast? with
    | some (t, a), some (u, b) => if t = u then 0 else inc * (a - b) / ((t - u).toNat : Int)
    | _, _ => 0
  let lim : Int := if s.dev.state = .realign then 400 else 80
  let phase : Int := 8589934592 * max (-lim) (min lim d) / 4000000
  { s with time := { s.time with inc := trimInc (inc + slope + phase) } }

/-- Enter REALIGN (R12, R361, R433): PRIOR is the state left, and e is the frame in which it is entered. -/
def enterRealign (s : State) : State :=
  if ¬s.dv.twin then s
  else match s.dev.state with
    | .running | .degraded =>
      let st := s.dev.state
      enter .realign (some st) 0 { s with dv := { s.dv with entry := some (frameNo s), exitAt := none, beyond := 0, within := 0 } }
    | _ => s
/-- REALIGN_ENTER to the partner (R425). -/
def sendRealign (d : Int) (s : State) : State := toPartner 2 ([0x28, 0, 0, 0] ++ leBytes 4 (frameNo s).toNat ++ leInt 4 d) s
/-- The first frame of this device that starts at least 500 µs from now (R435). -/
def exitFrame (s : State) : W32 :=
  let late (t : W64) : Bool := decide (500000 ≤ (t - now s).toNat) && decide ((t - now s).toNat < 2 ^ 63)
  if s.loop.ctx.isSome then
    let k := ((List.range 3).find? (fun j => late (startAt s.loop.epoch s.loop.period (s.loop.started + j)))).getD 1
    s.loop.next + BitVec.ofNat 32 k
  else
    let k := ((List.range 3).find? (fun j => late (s.loop.torchEpoch + BitVec.ofNat 64 ((s.loop.torchNext.toNat + j) * 33333000)))).getD 1
    s.loop.torchNext + BitVec.ofNat 32 k
/-- Four exchanges within the guard restore alignment (R435): the follower names the frame at which comparison resumes. -/
def restoreAlign (s : State) : State :=
  let k := exitFrame s
  toPartner 2 ([0x29, 0, 0, 0] ++ leBytes 4 (if s.loop.ctx.isSome then ownToPartner s k else k).toNat)
    { s with dv := { s.dv with exitAt := some k } }

/-- The guard after an exchange (R433, R435). -/
def guardStep (d : Int) (gap : Bool) (s : State) : State × Bool :=
  let out := decide (1000 < d.natAbs)
  if s.dev.state = .realign then
    let n := if out then 0 else s.dv.within + 1
    let s := { s with dv := { s.dv with within := n } }
    (if n = 4 ∧ s.dv.exitAt.isNone then restoreAlign s else s, false)
  else
    let n := if out then s.dv.beyond + 1 else 0
    let s := { s with dv := { s.dv with beyond := n } }
    let due := s.dv.twin && s.dv.mapped && out && (gap || decide (2 ≤ n)) && (s.dev.state = .running || s.dev.state = .degraded)
    (if due then sendRealign d (enterRealign s) else s, due)

/-- TIME_RESP (R281, R423, R424, R433–R435). -/
def timeRespIn (m : TimeRespMsg) (s : State) : State :=
  let s := heardNow s
  if ¬isFollower s ∨ s.dv.t1 ≠ some m.t1 then s
  else
    let gap := match s.dv.exch with | some t => decide (1000000 ≤ (now s - t).toNat) | none => true
    let a : Int := (m.t2.toNat : Int) - m.t1.toNat - m.corrReq.toNat
    let b : Int := (m.t4.toNat : Int) - m.t3.toNat - m.corrResp.toNat
    let delta := (a - b) / 2
    let delay := (a + b) / 2
    let d := delta - s.dv.offset
    let s := { s with
      dv := { s.dv with t1 := none, exch := some (now s), deltas := ((now s, delta) :: s.dv.deltas).take 8, delay, holdInc := false }
      time := { s.time with alignOffset := s.dv.offset, alignDev := d } }
    let s := followInc d s
    let g := guardStep d gap s
    toPartner 1 ([0x12, 0, 0, 0] ++ leInt 8 delta ++ leInt 8 d ++ leInt 4 delay ++ leBytes 8 g.1.time.inc.toNat
      ++ [if g.2 then 1 else 0]) g.1
/-- TIME_RESP. -/
def execTimeResp (m : TimeRespMsg) (s : State) : Res := .next (timeRespIn m s)

/-- TIME_REPORT (R281, R423): the leader's pointer, with the signs reversed. -/
def timeReportIn (m : TimeReportMsg) (s : State) : State :=
  let s := heardNow s
  if decide (s.dv.n < 2) || isFollower s then s
  else
    let s := { s with
      dv := { s.dv with exch := some (now s), deltas := ((now s, -m.delta) :: s.dv.deltas).take 8, delay := m.delay.toNat }
      time := { s.time with alignOffset := m.dev - m.delta, alignDev := -m.dev } }
    if m.realign then enterRealign s else s
/-- TIME_REPORT. -/
def execTimeReport (m : TimeReportMsg) (s : State) : Res := .next (timeReportIn m s)
/-- EXCHANGE_HOLD (R424): the follower holds LTC_INC until the next exchange. -/
def execExchangeHold (s : State) : Res := .next { s with dv := { s.dv with holdInc := true } }

/-! CTRL. -/

/-- HEARTBEAT_INTERVAL (R425). -/
def execHeartbeatInterval (s : State) : Res :=
  .next (if 2 ≤ s.dv.n then toPartner 2 (beatBytes 0x21 (beat s)) s else s)
/-- HEARTBEAT (R425, R429): RUNNING shown, with FAULT_IN low for 1 ms, ends the UNCHECKED verdicts of a partner fault. -/
def heartbeatIn (b : Beat) (s : State) : State :=
  let s := heardNow { s with dv := { s.dv with partner := some b } }
  let low : Bool := match s.dv.lowAt with | some t => decide (1000000 ≤ (now s - t).toNat) | none => false
  if decide (b.devstate.toNat % 16 = 4) && !s.fc.faultIn && low then { s with dv := { s.dv with uncheck := false } } else s
/-- HEARTBEAT. -/
def execHeartbeat (b : Beat) (s : State) : Res := .next (heartbeatIn b s)
/-- FAULT_STATE (R17, R425): the partner's is its latest; a ring neighbour's is noted. -/
def faultStateIn (own : Bool) (b : Beat) (src : W16) (s : State) : State :=
  if own then heardNow { s with dv := { s.dv with partner := some b } }
  else note src [b.devstate, b.cls, b.rung] s
/-- FAULT_STATE. -/
def execFaultState (own : Bool) (b : Beat) (src : W16) (s : State) : Res := .next (faultStateIn own b src s)

/-- PLAN_CHECK (R21, R118, R425, R432): it serves a start in progress; a device that runs unchecked answers with its own and
begins comparison at the next frame boundary if the check passes. -/
def planCheckIn (m : PlanCheckMsg) (s : State) : State :=
  let s := heardNow { s with dv := { s.dv with check := some m, checkAt := now s } }
  match s.loop.ctx, curPlan s with
  | some _, some p =>
    if ¬s.dv.twin ∨ s.dv.comparing then s
    else
      let s := toPartner 2 (planCheckBytes s p) s
      let k := checkFails s p m
      if k = 0 then { s with dv := { s.dv with compare := true, absent := false } } else logCheckFail k s
  | _, _ => tryStart s
/-- PLAN_CHECK. -/
def execPlanCheck (m : PlanCheckMsg) (s : State) : Res := .next (planCheckIn m s)

/-- LOOP_PROPOSE (R281, R431, R432): it serves a start in progress; a device that already runs answers with its next frame, and
maps the first of its frames that starts no earlier than the proposal to the partner's frame 0. The partner's LOOP_START also
brings the sideband test, in which the leader's pulse comes first (R430). -/
def loopProposeIn (e : W64) (n : W32) (running : Bool) (s : State) : State :=
  let s := heardNow { s with dv := { s.dv with propose := some (e, n, running), proposeAt := now s } }
  match s.loop.ctx with
  | none => tryStart s
  | some _ =>
    if running then s
    else
      let next := startAt s.loop.epoch s.loop.period s.loop.started
      let short := ownLtc s e - (next.toNat : Int)
      let k := if short ≤ 0 then 0 else ceilDiv (short.toNat * 2 ^ 32) (max s.loop.period.toNat 1)
      let s := { s with
        dv := { s.dv with offset := lastDelta s, mapped := true }
        time := { s.time with alignOwn := s.loop.next + BitVec.ofNat 32 k, alignPartner := n, alignOffset := lastDelta s } }
      let s := toPartner 2 (proposeBytes next s.loop.next true) s
      if s.dv.p % 2 = 0 then sidebandPulse s else s
/-- LOOP_PROPOSE. -/
def execLoopPropose (e : W64) (n : W32) (running : Bool) (s : State) : Res := .next (loopProposeIn e n running s)

/-- RUNG_ENERGY (R214, R425). -/
def execRungEnergy (rung : Nat) (f : W32) (s : State) : Res :=
  .next (let s := heardNow s; { s with energy := { s.energy with partnerRung := some (fromPartner s f, rung) } })
/-- RUNG_FLOOR (R201, R425). -/
def execRungFloor (fl : Nat) (f : W32) (s : State) : Res :=
  .next (let s := heardNow s; { s with mem := { s.mem with partnerFloors := (fromPartner s f, fl) :: s.mem.partnerFloors } })
/-- SPLIT_MOVE (R260, R425): in force on this device too from frame f + 2. -/
def splitMoveIn (k : Nat) (toHost : Bool) (f : W32) (s : State) : State :=
  let s := heardNow s
  if s.intake.splitNext.any (fun e => e.1 = k) ∨ s.intake.moved.contains k = toHost then s
  else { s with intake := { s.intake with splitNext := s.intake.splitNext ++ [(k, toHost, fromPartner s f + 2)] } }
/-- SPLIT_MOVE. -/
def execSplitMove (k : Nat) (toHost : Bool) (f : W32) (s : State) : Res := .next (splitMoveIn k toHost f s)
/-- REALIGN_ENTER (R433). -/
def execRealignEnter (_f : W32) (_d : Int) (s : State) : Res := .next (enterRealign (heardNow s))
/-- REALIGN_EXIT (R435): it names a leader frame, and the leader is who receives it. -/
def execRealignExit (f : W32) (s : State) : Res :=
  .next (let s := heardNow s; if s.dev.state = .realign then { s with dv := { s.dv with exitAt := some f } } else s)

/-- SIDEBAND_TEST (R430): a request announces the partner's pulse; once released, the result is sent, and the follower's own
turn comes; a failed test raises DV_FAULT_PIN, on the device that missed the pulse and on the one that drove it. -/
def sidebandIn (phase : Nat) (result : Bool) (s : State) : State :=
  let s := heardNow s
  match phase with
  | 0 => { s with dv := { s.dv with test := 1 } }
  | 2 =>
    let sensed := decide (s.dv.test = 2)
    let s := toPartner 2 [0x2A, 3, if sensed then 1 else 0] { s with dv := { s.dv with test := 0 } }
    let turn := isFollower s
    let s := if sensed then s else raise .dvFaultPin dev [] s
    if turn then sidebandPulse s else s
  | 3 => if result then s else raise .dvFaultPin dev [] s
  | _ => s
/-- SIDEBAND_TEST. -/
def execSidebandTest (phase : Nat) (result : Bool) (s : State) : Res := .next (sidebandIn phase result s)

/-! DATA. -/

/-- The declared DATA sink of a transfer (R427). -/
def sinkOf (s : State) (id off n : Nat) : Option Sink :=
  (s.plans.flatMap (fun p => p.img.sinks)).find? (fun k => k.id = id && decide (0x200000 ≤ k.lo) && decide (k.lo ≤ off) && decide (off + n ≤ k.lo + k.len))
/-- A message that ends where its sink ends is the last of its transfer, as the flits show it (R427). -/
def sinkEnds (s : State) (id at_ : Nat) : Bool := s.plans.any (fun p => p.img.sinks.any (fun k => k.id = id && decide (k.lo + k.len = at_)))
/-- DATA_MESSAGE (R427). -/
def dataMessage (id off : Nat) (bs : List Byte) (last : Bool) (s : State) : State :=
  match sinkOf s id off bs.length with
  | none => raise .dvDataDrop (at_ 0x228) [] s
  | some k =>
    let s := { s with mem := stagingPut off bs [] s.mem }
    if last then postEvent k.event (Config.evtKind 15) (leBytes 2 id) s else s
/-- DATA_MESSAGE. -/
def execDataMessage (id off : Nat) (bs : List Byte) (last : Bool) (s : State) : Res := .next (dataMessage id off bs last s)

/-! The partner's loss and the fault sideband. -/

/-- PARTNER_LOST (R426): 3 ms without a message while a route exists. -/
def execPartnerLost (s : State) : Res := .next (if 2 ≤ s.dv.n ∧ (partnerPort s).isSome then losePartner s else s)

/-- The PARTNER_FAULT reports that are pending or shown, with the class sensed in byte 40 (R429, R463). -/
def classifyReport (c : Cls) (s : State) : State :=
  let f (r : Report) : Report := if r.source = .partnerFault then
    { r with payload := sub r.payload 0 8 ++ leBytes 1 c.num ++ sub (r.payload.drop 9) 0 19 } else r
  { s with urg := { s.urg with pending := s.urg.pending.map f, slot := s.urg.slot.map (fun e => (e.1, f e.2)) } }

/-- FAULT_IN (R24, R429, R430): a lone device ignores it; during the partner's sideband test it is the pulse awaited. -/
def faultInSense (s : State) : State :=
  if s.dv.n < 2 then s
  else
    let s := { s with fc := { s.fc with faultIn := true, faultInAt := now s, faultInFell := false }, dv := { s.dv with lowAt := none } }
    if s.dv.test = 1 then { s with dv := { s.dv with test := 2 } }
    else
      let s := { s with fc := { s.fc with partnerClass := none }, dv := { s.dv with uncheck := true } }
      raiseAs .partnerFault dev (clsOf s .partnerFault dev) true [] s
/-- FAULT_IN. -/
def execFaultIn (s : State) : Res := .next (faultInSense s)

/-- The survivor takes over the declared FSYNC outputs from the first series point at least 1 ms after sensing (R280). -/
def takeover (s : State) : State :=
  if ¬s.dv.twin then s
  else s.dv.takeover.foldl (fun (s : State) (n : Nat) =>
    let x := getTrig s n
    let from_ : Int := ptcNs s.time + 1000000 - ((now s - s.fc.faultInAt).toNat : Int)
    setTrig n { x with heldInactive := false, series := x.series.map (fun q =>
      { q with takeover := true, next := max q.next (trigNext q.start q.period from_) }) } s) s
/-- FAULT_IN_CLASSIFY (R429): a low pulse seen means C3, none means C4, which may follow a C3. -/
def faultInClassify (pulse : Bool) (s : State) : State :=
  if ¬s.fc.faultIn ∨ s.dv.n < 2 ∨ s.dv.test ≠ 0 then s
  else
    let c : Cls := if pulse then .c3 else .c4
    let s := classifyReport c { s with fc := { s.fc with partnerClass := some c } }
    if pulse then s else takeover s
/-- FAULT_IN_CLASSIFY. -/
def execFaultInClassify (pulse : Bool) (s : State) : Res := .next (faultInClassify pulse s)
/-- FAULT_IN_LOW (R429). -/
def execFaultInLow (s : State) : Res :=
  .next (if s.fc.faultIn then
    clearLevel .dvFaultPin dev { s with fc := { s.fc with faultIn := false, faultInFell := true, partnerClass := none }, dv := { s.dv with lowAt := some (now s) } }
  else s)
/-- DV_FAULT_PIN (R430): FAULT_IN reads high while the partner's HEARTBEATs show RUNNING. -/
def execDvFaultPin (s : State) : Res :=
  .next (if s.fc.faultIn && (match s.dv.partner with | some b => decide (b.devstate.toNat % 16 = 4) | none => false) then raise .dvFaultPin dev [] s else s)

/-! Flits. -/

/-- A TIME message (R422), with the receive stamp. -/
def timeMsgIn (corr : W32) (b : List Byte) (s : State) : State :=
  match fld b 0 1 with
  | 0x10 => timeReqIn (BitVec.ofNat 64 (fld b 4 8)) corr s
  | 0x11 => timeRespIn { t1 := BitVec.ofNat 64 (fld b 4 8), t2 := BitVec.ofNat 64 (fld b 12 8), t3 := BitVec.ofNat 64 (fld b 20 8), t4 := now s, corrReq := BitVec.ofNat 32 (fld b 28 4), corrResp := corr, frame := BitVec.ofNat 32 (fld b 32 4), frameLtc := BitVec.ofNat 64 (fld b 36 8) } s
  | 0x12 => timeReportIn { delta := signed 64 (fld b 4 8), dev := signed 64 (fld b 12 8), delay := BitVec.ofNat 32 (fld b 20 4), inc := BitVec.ofNat 64 (fld b 24 8), realign := fld b 32 1 % 2 = 1 } s
  | _ => s
/-- HEARTBEAT's fields (R425). -/
def beatOf (b : List Byte) : Beat :=
  { devstate := BitVec.ofNat 8 (fld b 1 1), cls := BitVec.ofNat 8 (fld b 2 1), rung := BitVec.ofNat 8 (fld b 3 1), frame := BitVec.ofNat 32 (fld b 4 4) }
/-- A CTRL message of the partner (R425). -/
def ctrlMsgIn (b : List Byte) (s : State) : State :=
  let f := BitVec.ofNat 32 (fld b 4 4)
  let run (r : Res) : State := match r with | .next t => t | _ => s
  match fld b 0 1 with
  | 0x21 => heartbeatIn (beatOf b) s
  | 0x22 => faultStateIn true (beatOf b) (BitVec.ofNat 16 (fld b 8 2)) s
  | 0x23 => planCheckIn { plan := sub b 4 32, scale := sub b 36 32, planner := BitVec.ofNat 32 (fld b 68 4), manifest := sub b 72 32 } s
  | 0x24 => loopProposeIn (BitVec.ofNat 64 (fld b 4 8)) (BitVec.ofNat 32 (fld b 12 4)) (fld b 16 1 % 2 = 1) s
  | 0x25 => run (execRungEnergy (fld b 1 1) f s)
  | 0x26 => run (execRungFloor (fld b 1 1) f s)
  | 0x27 => splitMoveIn (fld b 1 1) (fld b 2 1 = 0) f s
  | 0x28 => enterRealign (heardNow s)
  | 0x29 => run (execRealignExit f s)
  | 0x2A => sidebandIn (fld b 1 1) (fld b 2 1 = 1) s
  | _ => s
/-- A SIG message (R420). -/
def sigMsgIn (b : List Byte) (s : State) : State :=
  if fld b 0 1 = 1 then
    frameSigIn { unagreed := fld b 1 1 % 2 = 1, realign := fld b 1 1 / 2 % 2 = 1, degraded := fld b 1 1 / 4 % 2 = 1, rung := BitVec.ofNat 8 (fld b 2 1), frame := BitVec.ofNat 32 (fld b 4 4), sig := BitVec.ofNat 64 (fld b 8 8), ltcEnd := BitVec.ofNat 64 (fld b 16 8), mapped := BitVec.ofNat 32 (fld b 24 4) } s
  else s

/-- A MSG flit for this device (R411, R417, R419, R427): a message already accepted is dropped; DATA flits are assembled, in
order per source. -/
def takeFlit (replayed : Bool) (chan src : Nat) (id : W16) (corr : W32) (first last : Bool) (pay : List Byte) (s : State) : State :=
  let key := (src, chan, id)
  if s.dv.seen.contains key then s
  else
    let s := if last then { s with dv := { s.dv with seen := (key :: s.dv.seen).take 64 } } else s
    let own := decide (src = partnerPos s)
    let s := if own then heardNow s else s
    match chan with
    | 0 => if own then sigMsgIn pay s else s
    | 1 => if own ∧ ¬replayed then timeMsgIn corr pay s else s
    | 2 => if own then ctrlMsgIn pay s
           else if fld pay 0 1 = 0x22 then faultStateIn false (beatOf pay) (BitVec.ofNat 16 (fld pay 8 2)) s else s
    | _ =>
      let old := match s.dv.frags.find? (fun e => e.1 = src && e.2.1 = id) with | some e => if first then [] else e.2.2 | none => []
      let b := old ++ pay
      let rest := s.dv.frags.filter (fun e => !(e.1 = src && e.2.1 = id))
      if last then
        let s := { s with dv := { s.dv with frags := rest } }
        if fld b 0 1 = 0x40 then dataMessage (fld b 2 2) (fld b 4 4) (b.drop 8) (sinkEnds s (fld b 2 2) (fld b 4 4 + (b.length - 8))) s else s
      else { s with dv := { s.dv with frags := rest ++ [(src, id, b)] } }

/-- Forward a flit (R19, R418): out of the other port, HOPS one higher, a TIME flit's CORR grown by a residence of at most
100 ns (a free value, log entry 2); one whose HOPS reaches N is discarded. -/
def forwardFlit (k : Nat) (f : HeldFlit) (s : State) : State :=
  if s.dv.n ≤ f.hops + 1 then s
  else
    let r := if f.chan = 1 then freshBits 32 s else (0, s)
    let corr := if f.chan = 1 then f.corr + BitVec.ofNat 32 (r.1.toNat % 101) else f.corr
    dvQueue (1 - k) { f with hops := f.hops + 1, corr } r.2

/-- A flit with a bad CRC or an unexpected SEQ (R410, R412, R416): discarded, counted and NAKed; more than 1,000 CRC errors in
1 ms retrain the port. -/
def badFlit (k : Nat) (crc : Bool) (s : State) : State :=
  let p := getDv s k
  let recent := p.crcAt.filter (fun t => decide ((now s - t).toNat ≤ 1000000))
  let crcAt := if crc then now s :: recent else recent
  let tooMany := decide (1000 < crcAt.length)
  let s := emit (.dvAck k true p.rxSeq) (setDv k { p with crc := p.crc.inc, nak := true, crcAt := if tooMany then [] else crcAt } s)
  if tooMany then retrain k s else s

/-- FLIT_RECEIVE (R411–R418). -/
def flitReceive (k : Nat) (b : List Byte) (s : State) : State :=
  let p := getDv s k
  if p.state ≠ .active ∨ ¬dvOn s ∨ b.length ≠ 256 then s
  else if crc64 0xFFFFFFFFFFFFFFFF (b.take 248) ≠ BitVec.ofNat 64 (fld b 248 8) then badFlit k true s
  else
    let ack := BitVec.ofNat 12 (fld b 2 2)
    let valid := decide (fld b 2 2 / 4096 % 2 = 1)
    let nak := decide (fld b 2 2 / 8192 % 2 = 1)
    let s := if valid || nak then ackFlits k ack s else s
    let s := if nak then replayPort k s else s
    if fld b 0 2 / 4096 ≠ 0 then s
    else
      let seq := BitVec.ofNat 12 (fld b 0 2)
      let p := getDv s k
      if seq ≠ p.rxSeq + 1 then badFlit k false s
      else
        let s := emit (.dvAck k false seq) (setDv k { p with rxSeq := seq, nak := false } s)
        let c := fld b 4 1
        let src := fld b 5 1 % 8
        let dst := fld b 5 1 / 8 % 8
        let f : HeldFlit := { seq := 0, at_ := now s, chan := c % 4, src, dst, hops := fld b 6 1, msgId := BitVec.ofNat 16 (fld b 8 2), corr := BitVec.ofNat 32 (fld b 12 4), first := c / 4 % 2 = 1, last := c / 8 % 2 = 1, payload := sub b 16 (min (fld b 10 2) 232) }
        if dst ≠ s.dv.p then forwardFlit k f s
        else takeFlit p.nak f.chan src f.msgId f.corr f.first f.last f.payload s
/-- FLIT_RECEIVE. -/
def execFlitReceive (k : Nat) (b : List Byte) (s : State) : Res := .next (flitReceive (k % 2) b s)

end Sys2Proof.Machine
end

