-- ==== Sys2Proof/Machine/Guard.lean ====
section
/-! DEFINITION. The two-party protocol's commands: PROPOSE and the proposing commands, VETO, GUARD_STATUS, and the MCU's ENDORSE,
GUARD_QUERY and VETO (R52, R53, R352, R353, R472, R483–R487). -/

namespace Sys2Proof.Machine

/-- Lantern has received a valid SPI request in the last 100 ms (R353, R473). -/
def spiFresh (s : State) : Bool := match s.ltn.spiLast with | some t => decide ((now s - t).toNat ≤ 100000000) | none => false
/-- A proposal cannot be made now (R353, R487): one is held, or the safety MCU is silent. -/
def proposeBlocked (s : State) : Option (W16 × W16) :=
  let g := s.ltn.guard
  match g.phase with
  | .awaiting => some (6, BitVec.ofNat 16 ((g.deadline - now s).toNat / 1000000 + 1))
  | .endorsed => some (6, 80)
  | _ => if spiFresh s then none else some (14, 3)

/-- The challenge of the n-th proposal: never 0 (R484). -/
def challengeOf (n : Nat) : W32 := if Config.challenge n = 0 then 1 else Config.challenge n
/-- Proposal IDs are nonzero and wrap (R484). -/
def nextGuardId (id : W32) : W32 := if id + 1 = 0 then 1 else id + 1

/-- A change that passed the digest check is checked by its owning kind, and becomes the proposal (R483, R484, R487). -/
def newProposal (r : Req) (kind : Byte) (digest plan : List Byte) (change : GChange) (s : State) : State :=
  match checkChange s change with
  | some (st, d) => refuse .lantern r st d [] s
  | none =>
    let g := s.ltn.guard
    let p : Guard := { id := nextGuardId g.id, phase := .awaiting, kind, digest, planDigest := plan, args := r.argBytes 0 16,
                       challenge := challengeOf g.drawn, deadline := now s + 500000000, drawn := g.drawn + 1, change,
                       writing := g.writing, failCnt := g.failCnt }
    let s := guardLog 0 (updGuard (fun _ => p) s)
    ok .lantern r (leBytes 4 p.id.toNat ++ leBytes 4 p.challenge.toNat ++ leBytes 8 p.deadline.toNat ++ sub digest 0 32) s

/-- Lantern's own copy of a staged object, at hub staging offset 0x10_0000 (R483). -/
def stageCopy (b : List Byte) (s : State) : State := { s with mem := stagingPut 0x100000 b [] s.mem }

/-- PROPOSE of kind CONFIG or MANIFEST (R353, R483). -/
def proposeObject (kind : Nat) (staged : Option (List Byte)) (r : Req) (s : State) : State :=
  let h := r.arg 4 4
  if s.obj.objTab.count ≤ h then refuse .lantern r 5 20 [] s
  else if tornObj s h then refuse .lantern r 10 20 [] s
  else if ¬zeros r.args 48 32 then bad .lantern r 64 s
  else match staged with
    | none => refuse .lantern r 11 1 [] s
    | some b =>
      if (if kind = 1 then 262144 else 1048576) < b.length then bad .lantern r 20 s
      else
        let s := stageCopy b s
        let d := sha256 b
        if d ≠ r.argBytes 16 32 then bad .lantern r 32 s
        else if kind = 1 then newProposal r 1 d [] (.config b) s
        else if manifestOk b b.length then newProposal r 2 d [] (.manifest (sub b 32 32)) s
        else refuse .lantern r 12 1 [] s

/-- PROPOSE of the other kinds (R353): the digest covers the candidate, the previous digest, or arguments 0–15. -/
def proposeInline (kind : Nat) (r : Req) (s : State) : State :=
  let given := r.argBytes 16 32
  let plan := r.argBytes 48 32
  match kind with
  | 3 => newProposal r 3 given plan (.scaleCommit plan given) s
  | 4 =>
    match scaleRec s.ltn.cfg plan with
    | some x =>
      if x.previous = [] then refuse .lantern r 5 64 [] s
      else if x.previous ≠ given then bad .lantern r 32 s
      else newProposal r 4 given plan (.scaleRevert plan given) s
    | none => refuse .lantern r 5 64 [] s
  | _ =>
    let d := sha256 (r.argBytes 0 16)
    if ¬zeros r.args 48 32 then bad .lantern r 64 s
    else if d ≠ given then bad .lantern r 32 s
    else newProposal r (BitVec.ofNat 8 kind) d [] (if kind = 5 then .ceiling (r.arg 8 8) else .debugUnlock (r.arg 8 8)) s

/-- PROPOSE (R353, R483, R487). -/
def propose (staged : Option (List Byte)) (r : Req) (s : State) : State :=
  let kind := r.arg 0 1
  match proposeBlocked s with
  | some (st, d) => refuse .lantern r st d [] s
  | none =>
    if kind = 0 ∨ 6 < kind then bad .lantern r 16 s
    else if ¬zeros r.args 1 3 then bad .lantern r 17 s
    else if kind = 1 ∨ kind = 2 then proposeObject kind staged r s
    else proposeInline kind r s
/-- PROPOSE. -/
def execPropose (staged : Option (List Byte)) (s : State) : Res := .next (serveCmd .lantern 0x0701 (propose staged) s)

/-- SPARE_SUBSTITUTE (R52, R53, R352): a proposing command of kind 0x07. -/
def spareSubstitute (r : Req) (s : State) : State :=
  match proposeBlocked s with
  | some (st, d) => refuse .lantern r st d [] s
  | none =>
    if 3 < r.arg 0 1 then bad .lantern r 16 s
    else if 6 < r.arg 1 1 then bad .lantern r 17 s
    else if 5 < r.arg 2 1 then bad .lantern r 18 s
    else if 1 < r.arg 3 1 then bad .lantern r 19 s
    else if 1 < r.arg 4 1 then bad .lantern r 20 s
    else if ¬zeros r.args 5 11 then bad .lantern r 21 s
    else newProposal r 7 (sha256 (r.argBytes 0 16)) []
      (.spare { gallery := BitVec.ofNat 2 (r.arg 0 1), column := BitVec.ofNat 3 (r.arg 1 1), row := BitVec.ofNat 3 (r.arg 2 1), spare := r.arg 3 1 }
        (decide (r.arg 4 1 = 1))) s
/-- SPARE_SUBSTITUTE. -/
def execSpareSubstitute (s : State) : Res := .next (serveCmd .lantern 0x0706 spareSubstitute s)

/-- RETIRE_CLEAR (R193, R352): a proposing command of kind 0x08. -/
def retireClear (r : Req) (s : State) : State :=
  match proposeBlocked s with
  | some (st, d) => refuse .lantern r st d [] s
  | none =>
    if ¬zeros r.args 1 15 then bad .lantern r 17 s
    else newProposal r 8 (sha256 (r.argBytes 0 16)) [] (.retireClear (r.arg 0 1)) s
/-- RETIRE_CLEAR. -/
def execRetireClear (s : State) : Res := .next (serveCmd .lantern 0x0707 retireClear s)

/-- VETO from the host (R487). -/
def hostVeto (r : Req) (s : State) : State :=
  let v := vetoProposal (BitVec.ofNat 32 (r.arg 0 4)) 1 s
  if v.1 then ok .lantern r [] v.2 else refuse .lantern r 5 16 [] s
/-- VETO. -/
def execVeto (s : State) : Res := .next (serveCmd .lantern 0x0702 hostVeto s)

/-- GUARD_STATUS (R352). -/
def guardStatus (r : Req) (s : State) : State :=
  let g := s.ltn.guard
  ok .lantern r (leBytes 4 g.id.toNat ++ leBytes 1 g.phase.num ++ [g.kind, 0, 0] ++ sub g.digest 0 32 ++ leBytes 8 g.deadline.toNat) s
/-- GUARD_STATUS. -/
def execGuardStatus (s : State) : Res := .next (serveCmd .lantern 0x0703 guardStatus s)

/-! The safety MCU's side. Each answers its RESULT and response payload (R471, R472). -/

/-- GUARD_QUERY (R472). -/
def guardQuery (s : State) : Byte × List Byte :=
  let g := s.ltn.guard
  (0, leBytes 4 g.id.toNat ++ [g.kind] ++ leBytes 1 g.phase.num ++ [0, 0] ++ leBytes 4 g.challenge.toNat ++ leBytes 8 g.deadline.toNat
    ++ sub g.digest 0 32 ++ sub g.planDigest 0 32 ++ sub g.args 0 16)
/-- The 93-byte message that an endorsement signs (R485). -/
def endorseMsg (g : Guard) : List Byte :=
  [0x47, 0x45, 0x4E, 0x44] ++ leBytes 16 Config.serial.toNat ++ leBytes 4 g.id.toNat ++ [g.kind] ++ leBytes 4 g.challenge.toNat
    ++ sub g.digest 0 32 ++ sub g.planDigest 0 32
/-- A failure at step 3 or 4 ends the proposal (R485). -/
def endorseFail (reason : Nat) (s : State) : State := guardPhase .vetoed reason (updGuard (fun g => { g with failCnt := g.failCnt.inc }) s)
/-- ENDORSE (R485). -/
def endorse (b : List Byte) (s : State) : (Byte × List Byte) × State :=
  let g := s.ltn.guard
  let r : Byte × State :=
    if fld b 0 4 ≠ g.id.toNat ∨ g.phase ≠ .awaiting then (5, s)
    else if g.deadline.toNat < (now s).toNat then (6, guardPhase .expired 7 s)
    else if fld b 4 1 ≠ g.kind.toNat ∨ fld b 8 4 ≠ g.challenge.toNat ∨ sub b 12 32 ≠ sub g.digest 0 32 then (7, endorseFail 3 s)
    else if hmacSha256 Config.endorseKey (endorseMsg g) ≠ sub b 44 32 then (4, endorseFail 4 s)
    else (0, guardPhase .endorsed 0 (updGuard (fun g => { g with writing := true, written := false }) s))
  let t := if r.1 = 0 then (now s).toNat else 0
  ((r.1, leBytes 4 r.2.ltn.guard.id.toNat ++ leBytes 1 r.2.ltn.guard.phase.num ++ [0, 0, 0] ++ leBytes 8 t), r.2)
/-- VETO from the MCU (R487). -/
def mcuVeto (id : W32) (s : State) : (Byte × List Byte) × State :=
  let v := vetoProposal id 2 s
  ((if v.1 then 0 else 5, leBytes 4 id.toNat ++ leBytes 1 v.2.ltn.guard.phase.num), v.2)

end Sys2Proof.Machine
end

