-- ==== Sys2Proof/Machine/Reconcile.lean ====
section
/-! DEFINITION. Reconciliation of Lantern's and dispatch firmware's views of the units (R480–R482). -/

namespace Sys2Proof.Machine

/-- The instance that names a unit (R462; log entry 15): its node, and a port, channel or MAC as sub-index. -/
def unitInst (u : RUnit) : Inst :=
  match u with
  | .core n => at_ n
  | .chamber g k => at_ (BitVec.ofNat 10 (g % 4 * 128 + 64 + k % 8))
  | .dram k => dramInst k
  | .csi k => sub_ prismNode k
  | .mac k => sub_ 0x3FF (0x20 + k)
  | .dvorpo k => sub_ (BitVec.ofNat 10 (0x228 + k % 2)) k
  | .prism => sub_ prismNode 0xFF
  | .decoder => sub_ 0x3FF 0x30
  | .hostLink => at_ 0x220
/-- The unit's fabric node, when it is an island of its own (R33). -/
def unitNode (u : RUnit) : Option Node :=
  match u with
  | .csi _ | .mac _ | .decoder => none
  | u => some (unitInst u).node
/-- Every unit (R480). -/
def allUnits : List RUnit :=
  coreSites.map RUnit.core ++ (List.range 24).map (fun k => RUnit.chamber (k / 6) (k % 6)) ++ (List.range 4).map RUnit.dram
    ++ (List.range 8).map RUnit.csi ++ (List.range 4).map RUnit.mac ++ (List.range 2).map RUnit.dvorpo ++ [.prism, .decoder, .hostLink]
/-- The power domain of a unit (R537). -/
def unitDomain (u : RUnit) : Nat :=
  match u with
  | .mac _ => 5
  | .decoder => 4
  | u => domainOf (unitInst u).node
/-- Lantern's view of a unit (R480): its self-test result or retirement, its power switches, whether it is quiesced, else UP. -/
def ltnView (s : State) (u : RUnit) : UnitState :=
  let lost := match u with | .core n => s.dev.unavailable.contains n | .dram k => s.mem.retired.contains (k / 2) | _ => false
  if lost then .unavailable
  else if s.fab.gated.contains (unitDomain u) then .gated
  else if (match unitNode u with | some n => (getIsland s n).closed | none => false) then .quiesced
  else .up
/-- Dispatch firmware's view of a unit, from its last round (R480). -/
def dspView (s : State) (u : RUnit) : UnitState := match s.ltn.viewDsp.find? (fun e => e.1 = u) with | some e => e.2 | none => .up
/-- The two views differ. -/
def viewsDiffer (s : State) (u : RUnit) : Bool := decide (ltnView s u ≠ dspView s u)
/-- The unit was agreed in the last round (R481). -/
def viewsAgree (s : State) (u : RUnit) : Bool := !s.ltn.differ.contains u
/-- The units in disagreement that an instance names. -/
def unitAt (s : State) (i : Inst) : List RUnit := (s.ltn.disagree.filter (fun e => unitInst e.1 = i)).map (fun e => e.1)
/-- A unit's effective state (R480, R481). -/
def effective (s : State) (u : RUnit) : UnitState := if s.ltn.disagree.any (fun e => e.1 = u) then .unavailable else ltnView s u

/-- LTN_RECONCILE for a unit (R481). -/
def raiseUnit (u : RUnit) (s : State) : State :=
  raise .ltnReconcile (unitInst u) []
    { s with ltn := { s.ltn with disagree := s.ltn.disagree.filter (fun e => !(e.1 = u)) ++ [(u, some (now s))] } }
/-- A unit whose views differed in the round before too, or that is in disagreement already (R481). -/
def judgeUnit (before : List RUnit) (u : RUnit) (s : State) : State :=
  match s.ltn.disagree.find? (fun e => e.1 = u) with
  | some (_, none) => raiseUnit u s
  | some (_, some t) => if viewsDiffer s u ∧ 10000000 ≤ (now s - t).toNat then raiseUnit u s else s
  | none =>
    if viewsDiffer s u ∧ before.contains u then
      raiseUnit u (match unitNode u with | some n => quiesce n 200000 s | none => s)
    else s
/-- RECONCILE_ROUND (R480–R482): a missed round counts unless dispatch firmware restarts; the third in a row is DSP_WATCHDOG. -/
def reconcileRound (v : Option (List (RUnit × UnitState))) (s : State) : State :=
  if ¬s.dev.dispatchUp ∨ s.ltn.restart.isSome then s
  else match v with
    | none =>
      let s := { s with ltn := { s.ltn with missed := s.ltn.missed + 1 } }
      if s.ltn.missed = 3 then raise .dspWatchdog dev [] s else s
    | some v =>
      let before := s.ltn.differ
      let s := { s with ltn := { s.ltn with missed := 0, viewDsp := v.filter (fun e => !decide (e.2 = UnitState.up)) } }
      let s := { s with ltn := { s.ltn with differ := allUnits.filter (viewsDiffer s) } }
      allUnits.foldl (fun (s : State) (u : RUnit) => judgeUnit before u s) s
/-- RECONCILE_ROUND. -/
def execReconcileRound (v : Option (List (RUnit × UnitState))) (s : State) : Res := .next (reconcileRound v s)

end Sys2Proof.Machine
end

