-- ==== Sys2Proof/Machine/Frame.lean ====
section
/-! DEFINITION. Frames: their start and end, shapes and tilings, FRAME_START messages, recovery episodes, delivery, retire points
and the torch plan (R99, R100, R115–R119, R153, R164, R165, R178, R204, R216, R223, R276, R300, R320, R325, R397, R400, R403, R404,
R420, R421, R435, R447–R459, R462, R481). -/

namespace Sys2Proof.Machine

/-- The bytes of a frame stamp (R276). -/
def stampBytes (t : FrameStamp) : List Byte :=
  leBytes 4 t.n.toNat ++ leBytes 8 t.ltc.toNat ++ leBytes 6 t.sec.toNat
    ++ leBytes 2 (t.status.toNat + (if t.stepped then 8 else 0) + (if t.masterChanged then 16 else 0))
    ++ leBytes 4 t.ns.toNat ++ leInt 8 (if t.stepped then t.step else 0)
/-- The stamp of the frame that starts now (R276); the flags of what happened since the previous start are used up. -/
def stampNow (n : W32) (s : State) : State :=
  let t := s.time
  let ns := (ptcNs t).toNat
  let st : FrameStamp := { n, ltc := now s, sec := BitVec.ofNat 48 (ns / 1000000000), ns := BitVec.ofNat 32 (ns % 1000000000),
                           status := BitVec.ofNat 3 (ptcCode t.status), stepped := t.stepped.isSome, masterChanged := t.masterChanged,
                           step := t.stepped.getD 0 }
  { s with time := { t with stamp := st, stepped := none, masterChanged := false } }

/-- The frames of a plan still run: the loop's, or the torch section's. -/
def alive (p : Loaded) (torch : Bool) (s : State) : Bool :=
  if torch then s.fc.torch && decide (s.loop.torchCtx = some p.ctx) else decide (s.loop.ctx = some p.ctx)
/-- Go on while the frames still run. -/
def whileAlive (p : Loaded) (torch : Bool) (f : State → State) (s : State) : State := if alive p torch s then f s else s

/-- Mark records of the frame in progress only. -/
def markCur (f : Nat → Bool) (cls : Cls) (src : Source) (s : State) : State :=
  { s with loop := { s.loop with cur := s.loop.cur.map (Frame.mark f cls src) } }

/-- The invalid marks that open episodes put on a new frame (R457), unless RECOVER cleared them (R459). -/
def markEpisodes (s : State) : State :=
  if s.loop.clearNext then { s with loop := { s.loop with clearNext := false } }
  else (s.fc.active.filter (fun e => e.episode)).foldl (fun (s : State) (e : Active) =>
    match e.scope with
    | 0 => s
    | 1 => markCur (attributed s e.inst) .c2 e.source s
    | _ => markCur (fun _ => true) .c2 e.source s) s

/-- Reload the section of a core that some loaded plan holds (R98, R457). -/
def reloadCore (n : Node) (s : State) : State :=
  match s.plans.find? (fun l => (sectAt l.img n).isSome) with
  | some l => (match sectAt l.img n with | some c => loadSection l.img l.map true c s | none => s)
  | none => s
/-- The recovery action of an episode, and its end (R457, R481). -/
def recoverOne (e : Active) (s : State) : State :=
  let close (s : State) : State := { s with fc := { s.fc with active := s.fc.active.map (fun x => if x.is e.source e.inst then { x with episode := false, expired := false } else x) } }
  if e.source = .mirRetry ∨ e.source = .mirRetryFailed then close s
  else if ¬e.expired then s
  else if e.source.group = 0x02 then close (reloadCore e.inst.node s)
  else if e.source = .ltnReconcile then
    if (unitAt s e.inst).all (fun u => viewsAgree s u) then
      close (readmit e.inst.node { s with ltn := { s.ltn with disagree := s.ltn.disagree.filter (fun x => !(unitInst x.1 = e.inst)) } })
    else close { s with ltn := { s.ltn with disagree := s.ltn.disagree.map (fun x => if unitInst x.1 = e.inst then (x.1, none) else x) } }
  else close (readmit e.inst.node s)
/-- The recovery actions due at a frame start (R399, R400, R457). -/
def recoverAll (s : State) : State := (s.fc.active.filter (fun e => e.episode)).foldl (fun (s : State) (e : Active) => recoverOne e s) s

/-- The mirror pairs' part of a frame start (R397, R399, R400): pending signatures are discarded, a held pair may run again, and
checkpoints are taken. -/
def mirFrameStart (torch : Bool) (s : State) : State :=
  let s := { s with
    mir := { s.mir with cmp0 := [], cmp1 := [], pairs := s.mir.pairs.map (fun (q : Pair) => { q with retried := false, restoring := none }) }
    cores := s.cores.map (fun (e : Nat × Core) => (e.1, { e.2 with heldStop := false })) }
  (s.mir.pairs.filter (fun q => q.map.retry && q.torch == torch)).foldl (fun (s : State) (q : Pair) =>
    updCore q.map.lead (takeCkpt q.map) (updCore q.map.trail (takeCkpt q.map) s)) s

/-- The Dvorpo part of a frame start (R432, R435): comparison begins or resumes; REALIGN is left, or fails before frame e + 3. -/
def dvFrameStart (n : W32) (s : State) : State :=
  let s := if s.dv.compare then { s with dv := { s.dv with comparing := true, compare := false } } else s
  if s.dev.state ≠ .realign then s
  else match s.dv.exitAt with
    | some k =>
      if (n - k).toNat < 2 ^ 31 then
        let prior := s.dev.prior.getD .running
        enter prior none 0 { s with dv := { s.dv with entry := none, exitAt := none, beyond := 0, within := 0 } }
      else s
    | none => if s.dv.entry = some (n - 3) then raise .dvRealignFail dev [] s else s

/-- Invalidations whose application point is here are applied (R325). -/
def invalBoundary (n : W32) (torch : Bool) (s : State) : State :=
  (s.obj.invals.filter (fun x => !x.applied && (torch || decide (x.target = 0xFFFFFFFF) || decide ((n - x.target).toNat < 2 ^ 31)))).foldl
    (fun (s : State) (x : Inval) => applyInval x s) s

/-- The instance of an operator: the first core of its outputs. -/
def opInst (p : Loaded) (o : OpDecl) : Inst :=
  match (o.outputs.filterMap (fun k => (p.img.outputs[k]?).bind (fun d => d.cores.head?))).head? with
  | some n => at_ n
  | none => at_ 0x200
/-- The outputs of an operator are invalid in this frame. -/
def markOp (o : OpDecl) (src : Source) (s : State) : State := markCur (fun k => o.outputs.contains k) .c2 src s
/-- One shape at a frame start (R115): an exact match, else the planner for a DYNAMIC operator (R119). -/
def runShape (p : Loaded) (o : OpDecl) (m n k : Nat) (s : State) : State :=
  if m = 0 ∨ o.table.contains (m, n, k) then s
  else if ¬o.dynamic then raise .planShapeMiss (opInst p o) [] s
  else if (planGemm m n k o.e o.o o.budget o.cores).isSome then s
  else markOp o .planNoTiling (raise .planNoTiling (opInst p o) [] s)
/-- Rows of sequences laid out at 32-row boundaries (R164). -/
def rowsOf (ls : List Nat) : Nat := (ls.map (fun l => ceilDiv l 32 * 32)).sum
/-- An operator's shape as a frame start sees it (R115, R164, R165). -/
def opShape (p : Loaded) (d : DynShape) (s : State) : State :=
  match p.img.ops.find? (fun o => o.id = d.op) with
  | none => s
  | some o =>
    if o.shape.isSome then s
    else if o.buckets.isEmpty then runShape p o (if d.lengths.isEmpty then d.m else rowsOf d.lengths) d.n d.k s
    else
      let used := o.buckets.filter (fun b => d.lengths.any (fun l => decide (0 < l) && decide (o.buckets.find? (fun x => decide (l ≤ x)) = some b)))
      let s := used.foldl (fun (s : State) (b : Nat) => runShape p o b d.n d.k s) s
      if d.lengths.any (fun l => (o.buckets.find? (fun x => decide (l ≤ x))).isNone) then
        markOp o .seqBucketOverflow (raise .seqBucketOverflow (opInst p o) [] s)
      else s

/-- The FRAME_START message of a core, without its KV entries' bytes (R100). -/
def frameMsgHead (f : Frame) (first : Bool) (rung m : Nat) : List Byte :=
  leBytes 4 f.n.toNat ++ leBytes 8 f.stamp.ltc.toNat ++ leBytes 1 rung ++ leBytes 1 ((if first then 1 else 0) + (if f.torch then 2 else 0))
    ++ leBytes 2 m ++ List.replicate 16 0
/-- The whole message for a core section: one KV entry per sequence that it writes, in ascending order (R100). -/
def frameMsg (f : Frame) (first : Bool) (c : CoreSect) (s : State) : List Byte × State :=
  let ids := (List.range 256).filter (fun q => c.writes.contains q)
  let r := ids.foldl (fun (a : List Byte × State) (q : Nat) => let e := kvEntry q a.2; (a.1 ++ e.1, e.2)) ([], s)
  (frameMsgHead f first s.energy.force ids.length ++ r.1, r.2)
/-- Send a core its message, or raise DEADLINE_MISS where the credit is still held (R100). -/
def frameMsgTo (n : Node) (chan : Nat) (msg : List Byte) (s : State) : State :=
  if s.loop.held.contains n then markCur (attributed s (at_ n)) .c2 .deadlineMiss (raise .deadlineMiss (at_ n) [] s)
  else sendFrameMsg n chan msg s
/-- The TRAIL of a pair, whose LEAD's message it gets (R100). -/
def leadOf (s : State) (n : Node) : Option Node := match pairOf s n with | some q => if q.map.trail = n then some q.map.lead else none | none => none
/-- FRAME_START messages to every declared channel of the plan's cores of this kind (R100). -/
def sendMessages (p : Loaded) (f : Frame) (first : Bool) (s : State) : State :=
  let own := p.img.cores.filter (fun c => c.torch == f.torch && c.frameChan.isSome)
  let firstly := own.filter (fun c => (leadOf s c.site).isNone)
  let step (a : SMap (List Byte) × State) (c : CoreSect) : SMap (List Byte) × State :=
    let m := frameMsg f first c a.2
    (putK [] a.1 c.site.toNat m.1, frameMsgTo c.site (c.frameChan.getD 0) m.1 m.2)
  let r := firstly.foldl step ([], s)
  (own.filter (fun c => (leadOf s c.site).isSome)).foldl (fun (s : State) (c : CoreSect) =>
    let lead := (leadOf s c.site).getD c.site
    let msg := getK [] r.1 lead.toNat
    let m := if msg.isEmpty then frameMsg f first c s else (msg, s)
    frameMsgTo c.site (c.frameChan.getD 0) m.1 m.2) r.2
/-- CONTROL START to every core of this kind: a RESIDENT core once, a PER_FRAME core at every frame start (R99). -/
def sendStarts (p : Loaded) (torch : Bool) (s : State) : State :=
  (p.img.cores.filter (fun c => c.torch == torch && !(c.resident && (getCore s c.site).started))).foldl
    (fun (s : State) (c : CoreSect) => emitFab (.control 0x200 c.site .start) s) s

/-- The frame in progress ends (R178, R300, R364, R403, R404, R420, R449): what its cores wrote fills its records. -/
def fillRecs (p : Loaded) (f : Frame) (outs : List OutData) : Frame :=
  outs.foldl (fun (f : Frame) (d : OutData) =>
    if isOwnOut p f.torch d.index then
      { f with recs := f.recs.mapIdx (fun i r => if i = d.index then { r with offset := d.offset, data := d.data, degraded := f.torch } else r) }
    else f) f
/-- CLIP_THRESHOLD events of the counters that crossed (R178). -/
def clipEvents (p : Loaded) (s : State) : State :=
  p.img.cores.foldl (fun (s : State) (c : CoreSect) =>
    let k := getCore s c.site
    let s := (k.clips.filter (fun e => e.2.crossed)).foldl (fun (s : State) (e : Nat × Clip) =>
      postEvent k.clipEvent (Config.evtKind 16) (leBytes 2 c.site.toNat ++ leBytes 2 e.1 ++ leBytes 4 e.2.clip.val.toNat) s) s
    setCore c.site { k with clips := k.clips.map (fun e => (e.1, { e.2 with crossed := false })) } s) s
/-- FRAME_SIG (R420). -/
def frameSigBytes (s : State) (f : Frame) : List Byte :=
  [0x01] ++ leBytes 1 ((if f.unagreed then 1 else 0) + (if f.realign then 2 else 0) + (if torchOn s then 4 else 0)) ++ leBytes 1 f.rung ++ [0]
    ++ leBytes 4 f.n.toNat ++ leBytes 8 f.sig.toNat ++ leBytes 8 f.endLtc.toNat ++ leBytes 4 (ownToPartner s f.n).toNat
/-- A C3 or C4 cause is raised, or a reaction is in force (R364, R448). -/
def safeBlocked (s : State) : Bool := s.fc.c3 || s.fc.c4 || s.fc.active.any (fun e => e.cause)
/-- The SAFE pins at a frame end (R364, R448): released in RUNNING and in REALIGN from RUNNING, with no C3 or C4 cause. -/
def releaseSafe (s : State) : State :=
  let run := decide (s.dev.state = .running) || (decide (s.dev.state = .realign) && decide (s.dev.prior = some .running))
  if run && !safeBlocked s then driveSafe false s else s
/-- The verdict of a frame that ends (R404, R421, R426, R429, R451): 4 outside TWIN, 3 where it is not compared, 0 while it waits. -/
def endVerdict (s : State) (f : Frame) : Nat :=
  if f.torch ∨ ¬s.dv.twin then 4
  else if ¬s.dv.comparing ∨ s.dv.uncheck ∨ s.dv.lost ∨ f.realign ∨ f.unagreed then 3 else 0
/-- FRAME_END (R449). -/
def frameEnd (outs : List OutData) (s : State) : State :=
  match s.loop.cur, curPlan s with
  | some f, some p =>
    let f := fillRecs p f outs
    let flags := (p.img.streams.filterMap (fun k => (getStream s k).map (fun t => (k, BitVec.ofNat 8 (flagNum t.flag), BitVec.ofNat 8 t.focus))))
    let f := { f with ended := true, endLtc := now s, flags, realign := decide (s.dev.state = .realign), absent := s.dv.absent }
    let f := if f.torch ∨ ¬s.dv.twin then f else { f with sig := frameSigOf p f }
    let v := endVerdict s f
    let s := clipEvents p s
    let s := inbFrameEnd f.n (kvFrameEnd s)
    let s := { s with loop := { s.loop with cur := none, past := s.loop.past ++ [{ f with verdict := if v = 4 then 4 else 0 }] } }
    let s := if f.torch ∨ ¬s.dv.twin then s else toPartner 0 (frameSigBytes s f) s
    let s := if v = 3 then judgeFrame f.n 3 s else if v = 0 then compareSigs s else s
    let s := if f.torch then s else releaseSafe s
    match s.loop.stopAt with
    | some t => if ¬f.torch ∧ (f.n - t).toNat < 2 ^ 31 then finishStop f.n s else s
    | none => s
  | _, _ => s
/-- FRAME_END. -/
def execFrameEnd (outs : List OutData) (s : State) : Res := .next (frameEnd outs s)

/-- No grant since attach (R205): the note NO_BUDGET, once. -/
def noBudgetNote (s : State) : State :=
  if s.energy.noBudget ∨ s.energy.grant.isSome ∨ s.energy.newGrant.isSome then s
  else raise .noBudget dev [] { s with energy := { s.energy with noBudget := true } }
/-- The ledger's part of a frame start (R204–R206, R211–R213): the previous frame is reconciled, the window and the rung follow. -/
def energyStart (n : W32) (torch : Bool) (p : Loaded) (s : State) : Bool × State :=
  let l := latchMeters s
  if torch then (false, l.2) else rungStart n (windowStart n (noBudgetNote (reconcile l.1 p l.2)))

/-- A frame starts (R99, R100, R115, R153, R204, R223, R276, R300, R325, R397, R400, R435, R455, R457, R486). -/
def beginFrame (torch : Bool) (shapes : List DynShape) (p : Loaded) (s : State) : State :=
  let n := if torch then s.loop.torchNext else s.loop.next
  let first := if torch then decide (n = 0) else decide (s.loop.started = 0)
  let s := stampNow n (answerBoundary s)
  let e := energyStart n torch p s
  let s := e.2
  let f : Frame := { n, torch, recs := p.img.outputs.map (fun o => { obj := o.obj, degraded := torch }), rung := s.energy.force,
                     stamp := s.time.stamp, unagreed := e.1, absent := s.dv.absent }
  let s := { s with loop := if torch then { s.loop with cur := some f, torchNext := n + 1 }
                            else { s.loop with cur := some f, next := n + 1, started := s.loop.started + 1 } }
  let s := recoverAll s
  let s := markEpisodes s
  let s := mirFrameStart torch s
  let s := inbBoundary (invalBoundary n torch s)
  let s := whileAlive p torch (dvFrameStart n) s
  let s := whileAlive p torch (intakeFrameStart n) s
  let s := whileAlive p torch (fun s => kvFrameStart (inbFrameStart n s)) s
  let s := whileAlive p torch (fun s => shapes.foldl (fun (s : State) (d : DynShape) => whileAlive p torch (opShape p d) s) s) s
  let s := whileAlive p torch (fun s => sendMessages p (s.loop.cur.getD f) first s) s
  whileAlive p torch (sendStarts p torch) s

/-- FRAME_START (R276): a frame that has not ended yet ends here (log entry 27). -/
def frameStart (shapes : List DynShape) (s : State) : State :=
  let s := if s.loop.ctx.isSome && s.loop.cur.isSome then frameEnd [] s else s
  match s.loop.ctx with
  | some c => (match planOf s c with | some p => beginFrame false shapes p s | none => s)
  | none => s
/-- FRAME_START. -/
def execFrameStart (shapes : List DynShape) (s : State) : Res := .next (frameStart shapes s)

/-- The frame record's bytes 0–55 (R451). -/
def frameRecord (s : State) (p : Loaded) (f : Frame) : List Byte :=
  let inv := (ownRecs p f).any (fun e => e.2.invalid)
  stampBytes f.stamp ++ leBytes 1 (if f.verdict = 4 then 4 else 0)
    ++ leBytes 1 ((if inv then 1 else 0) + (if f.torch then 2 else 0) + (if f.unagreed then 4 else 0) + (if f.realign then 8 else 0)
        + (if f.absent then 16 else 0))
    ++ leBytes 1 f.rung ++ leBytes 1 p.img.outputs.length ++ leBytes 4 s.host.gen.toNat ++ leBytes 8 f.sig.toNat ++ leBytes 8 (now s).toNat
/-- An output record (R451). -/
def outRecord (i : Nat) (r : OutRec) : List Byte :=
  leBytes 2 i ++ leBytes 1 ((if r.invalid then 1 else 0) + (if r.degraded then 2 else 0)) ++ leBytes 1 (if r.invalid then r.cls.num else 0)
    ++ leBytes 2 r.source.toNat ++ [0, 0] ++ leBytes 4 r.obj.toNat ++ [0, 0, 0, 0] ++ leBytes 8 r.offset.toNat ++ leBytes 4 r.data.length ++ [0, 0, 0, 0]
/-- Every signature window of an ended frame has been judged (R449). -/
def windowsJudged (s : State) (f : Frame) : Bool :=
  let mine (x : PendSig) : Bool := x.frame = f.n.setWidth 16
  !s.mir.cmp0.any mine && !s.mir.cmp1.any mine && (s.loop.cur.isSome || s.mir.verdicts.isEmpty)
/-- RESULT_GATE_OPEN (R449, R452): the oldest ended frame whose windows are judged is delivered. -/
def gateOpen (s : State) : State :=
  match s.loop.past.find? (fun f => f.ended && !f.gated) with
  | none => s
  | some f =>
    if ¬windowsJudged s f then s
    else
      let f := if f.torch ∨ ¬s.dv.twin then { f with verdict := 4 } else f
      let set (l : List Frame) : List Frame := l.map (fun x => if x.n = f.n ∧ x.torch = f.torch ∧ ¬x.gated then { f with gated := true } else x)
      let s := match deliverPlan s with
        | some p =>
          let s := (ownRecs p f).foldl (fun (s : State) (e : Nat × OutRec) => ringPut f.n (64 + 32 * e.1) (outRecord e.1 e.2) s) s
          ringPut f.n 56 (leBytes 4 f.n.toNat) (ringPut f.n 0 (frameRecord s p f) s)
        | none => s
      let s := match deliverCtx s with
        | some c => postEvent c.delivery (Config.evtKind 3) (leBytes 4 f.n.toNat) s
        | none => s
      let s := if f.verdict = 0 ∨ f.verdict = 4 then s else postVerdict f.n f.verdict s
      prunePast { s with loop := { s.loop with past := set s.loop.past } }
/-- RESULT_GATE_OPEN. -/
def execResultGateOpen (s : State) : Res := .next (gateOpen s)

/-- RETIRE_POINT (R320): every access of the oldest ended frame's agents has completed. -/
def retirePoint (s : State) : State :=
  match s.loop.past.find? (fun f => f.ended && !f.retired) with
  | none => s
  | some f =>
    let set (l : List Frame) : List Frame := l.map (fun x => if x.n = f.n ∧ x.torch = f.torch ∧ ¬x.retired then { x with retired := true } else x)
    prunePast (retireStep { s with loop := { s.loop with past := set s.loop.past } })
/-- RETIRE_POINT. -/
def execRetirePoint (s : State) : Res := .next (retirePoint s)

/-! The torch plan and recovery. -/

/-- TORCH_START (R454, R455): the torch section's frames begin, or the condition that fails is logged. -/
def torchStart (s : State) : State :=
  if s.dev.state ≠ .safeHold ∨ ¬s.fc.c3 ∨ s.fc.torch then s
  else match torchCheck s, torchPlan s with
    | .none, some p =>
      let s := { s with
        fc := { s.fc with torch := true, torchReason := .none }
        loop := { s.loop with torchCtx := some p.ctx, torchEpoch := now s, torchNext := 0 }
        mir := { pairs := (pairsFor p).filter (fun q => q.torch) } }
      let s := enter .degraded none s.fc.lastSrc s
      beginFrame true [] p s
    | why, _ => note 0 (4 :: leBytes 1 why.num) { s with fc := { s.fc with torchReason := why } }
/-- TORCH_START. -/
def execTorchStart (s : State) : Res := .next (torchStart s)

/-- TORCH_START_FAIL (R454): 20 ms after detection the torch plan does not run although it may. -/
def torchStartFail (s : State) : State :=
  if s.dev.state ≠ .safeHold ∨ ¬s.fc.c3 ∨ s.fc.torch ∨ torchCheck s ≠ .none then s
  else
    let s := raise .torchStartFail dev [] s
    { s with fc := { s.fc with torchReason := .startFail } }
/-- TORCH_START_FAIL. -/
def execTorchStartFail (s : State) : Res := .next (torchStartFail s)

/-- TORCH_FRAME_START (R455). -/
def torchFrameStart (s : State) : State :=
  if ¬s.fc.torch then s
  else
    let s := if s.loop.cur.isSome then frameEnd [] s else s
    match curPlan s with | some p => beginFrame true [] p s | none => s
/-- TORCH_FRAME_START. -/
def execTorchFrameStart (s : State) : Res := .next (torchFrameStart s)

/-- QUIET_PERIOD_EXPIRY (R457): with no frame loop the episode ends; else its recovery action is due at the next frame start. A
LEVEL source still raised keeps its quiet period from running. -/
def quietExpiry (src : Source) (i : Inst) (s : State) : State :=
  { s with fc := { s.fc with active := s.fc.active.map (fun e =>
      if e.is src i && e.episode && !e.raised then (if loopRuns s then { e with expired := true } else { e with episode := false, expired := false }) else e) } }
/-- QUIET_PERIOD_EXPIRY. -/
def execQuietPeriodExpiry (src : Source) (i : Inst) (s : State) : Res := .next (quietExpiry src i s)

/-- COL_CHANNEL_DIFFER (R445). -/
def execColChannelDiffer (s : State) : Res := .next (raise .colChannelDiffer dev [] s)
/-- FAULT_RAISE (R441, R442): a fault line or flit reaches the collector. A core whose own parity or ECC finds an error in a
register, an instruction word or a memory word that its instruction uses does not complete it and enters FAULT (R56, R57,
R60). -/
def faultRaise (src : Source) (i : Inst) (detail : List Byte) (s : State) : State :=
  if (src = .coreRegPe ∨ src = .coreImemUe ∨ src = .coreMemUe) ∧ canIssue (getCore s i.node) then coreFault i.node src 0 0 s
  else raise src i detail s
/-- FAULT_RAISE. -/
def execFaultRaise (src : Source) (i : Inst) (detail : List Byte) (s : State) : Res := .next (faultRaise src i detail s)

/-- ALIVE_TOGGLE (R364, R447): the output toggles while it may and the watchdog has been refreshed within 200 µs; else it is low. -/
def aliveToggle (s : State) : State :=
  let fresh := decide ((now s - s.ltn.wdogAt).toNat ≤ 200000)
  driveAlive (s.fc.aliveRun && fresh && !s.fc.alive) s
/-- ALIVE_TOGGLE. -/
def execAliveToggle (s : State) : Res := .next (aliveToggle s)
/-- WATCHDOG_REFRESH (R447). -/
def execWatchdogRefresh (s : State) : Res := .next { s with ltn := { s.ltn with wdogAt := now s } }
/-- LTN_WATCHDOG (R447): the bank registers a refresh missed for 1 ms. -/
def execLtnWatchdog (s : State) : Res := .next (raise .ltnWatchdog dev [] s)

/-- An accepted RECOVER (R459): the torch plan stops, the C3 reaction is over, and the device is ATTACHED. The episode of an
instance that was raised at C3 ends (chapter 20, "A C2 episode is open when the same instance raises at C3"). -/
def recoverNow (s : State) : State :=
  let s := stopCores (fun c => c.torch) s
  let past := match s.loop.cur with | some f => s.loop.past ++ [{ f with ended := true, endLtc := now s }] | none => s.loop.past
  let s := answerBoundary { s with
    fc := { s.fc with torch := false, torchReason := .none, c3 := false, c3List := [],
                      active := s.fc.active.map (fun e => if e.cls = .c3 then { e with cause := false, episode := false, expired := false } else e) }
    loop := { s.loop with cur := none, past, clearNext := true, reload := true } }
  let hi := highest s
  let s := { s with
    fc := { s.fc with chan0 := { s.fc.chan0 with highest := hi }, chan1 := { s.fc.chan1 with highest := hi } }
    dv := { s.dv with entry := none, exitAt := none } }
  enter .attached none 0x0704 (driveSafe true s)
/-- RECOVER (R352, R459). -/
def recover (r : Req) (s : State) : State :=
  match heldCause s with
  | some e => refuse .lantern r 6 e.source.code [] s
  | none =>
    let s := recoverNow s
    ok .lantern r [devByte s.dev] s
/-- RECOVER. -/
def execRecover (s : State) : Res := .next (serveCmd .lantern 0x0704 recover s)

/-- A 32-byte record of the active table (R462). -/
def activeBytes (e : Active) : List Byte :=
  let st := if e.raised then 0 else if e.episode then 1 else if e.cause then 2 else 3
  leBytes 2 e.source.code.toNat ++ leBytes 1 e.cls.num ++ leBytes 1 st ++ leBytes 4 (instWord e.inst e.safety).toNat
    ++ leBytes 8 e.first.toNat ++ leBytes 8 e.latest.toNat ++ leBytes 2 e.cnt.val.toNat
    ++ leBytes 1 (satBit e.cnt.sat 0 + satBit e.escalated 1 + satBit e.fromPartner 2) ++ [0] ++ leBytes 4 e.frame.toNat
/-- FAULT_READ (R352, R462). -/
def faultRead (r : Req) (s : State) : State :=
  let first := r.arg 0 2
  let count := r.arg 2 1
  if count < 1 ∨ 6 < count then bad .lantern r 18 s
  else
    let es := (s.fc.active.drop first).take count
    let s := if r.flag 0 then
        { s with fc := { s.fc with active := s.fc.active.mapIdx (fun i e => if first ≤ i ∧ i < first + count then { e with cnt := {} } else e) } }
      else s
    ok .lantern r (leBytes 1 es.length ++ List.replicate 7 0 ++ es.flatMap activeBytes) s
/-- FAULT_READ. -/
def execFaultRead (s : State) : Res := .next (serveCmd .lantern 0x0705 faultRead s)

end Sys2Proof.Machine
end

