-- ==== Sys2Proof/Machine/Session.lean ====
section
/-! DEFINITION. Sessions: the manifest's rules and configuration, ATTACH, DETACH, TORN_READ, IDENTIFY, and the object commands
(R14, R207, R219–R235, R278, R286, R297, R305–R309, R340–R344, R376–R380, R511, R527). -/

namespace Sys2Proof.Machine

/-- Two elements of a list are equal. -/
def repeats {α : Type} [DecidableEq α] : List α → Bool
  | [] => false
  | x :: xs => xs.contains x || repeats xs

/-- Declared payload of a stream in 1/1000 bit per second (R228). -/
def payloadRate (d : StreamDecl) : Nat := d.width * d.height * dtBits d.dt.toNat * d.rate
/-- The streams of a CSI port. -/
def csiOn (m : Manifest) (port : Nat) : List StreamDecl := m.streams.filter (fun d => decide (d.kind = .csi) && decide (d.port = port))
/-- A port's configuration is outside R225 or R226, or its payload exceeds 0.85 times its raw rate (R228). -/
def badPort (m : Manifest) (c : CsiCfg) : Bool :=
  let sum := ((csiOn m c.port).map payloadRate).sum
  let phy := if c.dphy then [1, 2, 4].contains c.lanes && decide (c.rate ≤ 4500000) else [1, 2, 3].contains c.lanes && decide (c.rate ≤ 6000000)
  let raw := if c.dphy then 7 * c.lanes * c.rate else 16 * c.lanes * c.rate
  !phy || decide (7 < c.port) || decide (c.rate < 80000) || repeats c.map || c.map.any (fun l => decide (4 ≤ l))
    || decide (85 * raw * 1000000 < sum * 700)
/-- A stream declaration is out of its ranges (R219, R225), or beyond the decoder's limits (R235; level 5.1: log entry 25). -/
def badStream (m : Manifest) (d : StreamDecl) : Bool :=
  decide (111 < d.id) || decide (2 ^ 16 ≤ d.width) || decide (2 ^ 16 ≤ d.height) || decide (2 ^ 32 ≤ d.rate) || decide (2 ^ 16 ≤ d.timeout)
    || decide (255 < d.profile) ||
  match d.kind with
  | .csi => decide (7 < d.port) || dtBits d.dt.toNat = 0 || !m.ports.any (fun c => c.port = d.port)
      || (d.fsync && !(BitVec.ofNat 16 m.sioMask.toNat).getLsbD d.port)
  | .rtpHevc => decide (15 < d.port) || decide (63 < d.flow) || decide (8444 < d.width) || decide (8444 < d.height)
      || decide (8912896 < d.width * d.height) || decide (534773760000 < d.width * d.height * d.rate)
  | .lidarFlow | .udpRaw => decide (15 < d.port) || decide (63 < d.flow)
/-- Bytes of a point field's type (R232); 0 for a code that is none. -/
def codeBytes (c : Nat) : Nat := if 15 < c then 0 else match c % 8 with | 0 | 1 => 1 | 2 | 3 => 2 | 4 | 5 | 6 => 4 | _ => 0
/-- A lidar template is out of its ranges (R232). -/
def badTemplate (t : Template) : Bool :=
  let cnt := match t.fixed with
    | some _ => false
    | none => decide (codeBytes t.countCode = 0) || decide (t.hdrLen < t.countOff + codeBytes t.countCode)
  let sq := match t.seq with | some (_, w) => decide (w ≠ 2) && decide (w ≠ 4) | none => false
  decide (1024 < t.hdrLen) || decide (t.recLen < 1) || decide (256 < t.recLen) || cnt || sq || decide (12 < t.fields.length)
    || t.fields.any (fun f => decide (codeBytes f.code = 0) || decide (t.recLen < f.off + codeBytes f.code))
/-- A classifier entry is out of its ranges (R230). -/
def badFlow (f : Flow) : Bool := decide ((if f.v6 then 128 else 32) < f.srcLen) || decide (15 < f.template) || decide (f.kind = .csi)
/-- A section of the manifest breaks a rule of its owning chapter (R14, R207, R219, R228, R230, R232, R235, R259, R267, R527). -/
def manifestBad (s : State) (m : Manifest) : Bool :=
  let kinds (k : StreamKind) : Nat := (m.streams.filter (fun d => decide (d.kind = k))).length
  let luma : Nat := ((m.streams.filter (fun d => decide (d.kind = .rtpHevc))).map (fun d => d.width * d.height * d.rate)).sum
  let csi : Nat := ((m.streams.filter (fun d => decide (d.kind = .csi))).map payloadRate).sum
  let cool := match m.coolant with
    | some (lo, hi, pHi, pLo) => decide (lo < -3000) || decide (6000 < hi) || decide (hi ≤ lo) || decide (pLo < 6000) || decide (pHi < pLo)
        || decide (s.ltn.cfg.ceiling < pHi)
    | none => false
  !([1, 2, 4, 6, 8].contains m.n) || decide (m.n ≤ m.p) || m.takeover.any (fun k => decide (7 < k))
    || decide (112 < m.streams.length) || decide (32 < kinds .csi) || decide (64 < kinds .lidarFlow + kinds .rtpHevc + kinds .udpRaw)
    || decide (16 < kinds .rtpHevc) || repeats (m.streams.map (fun d => d.id)) || m.streams.any (badStream m)
    || repeats (m.ports.map (fun c => c.port)) || m.ports.any (badPort m) || decide (64 * 10 ^ 12 < csi)
    || decide (64 < m.flows.length) || m.flows.any badFlow || decide (16 < m.templates.length) || m.templates.any badTemplate
    || decide (2000000000000 < luma) || decide (4 < m.macs.length) || repeats m.gptp || m.gptp.any (fun k => decide (3 < k))
    || decide (4096 ≤ m.sioMask.toNat) || decide (m.ltrig.length ≠ 4)
    || m.ltrig.any (fun k => decide (k ≠ 255) && !m.streams.any (fun d => decide (d.id = k) && decide (d.kind = .lidarFlow)))
    || cool || decide (8 < m.split.length)

/-- Sensor intake without a declared stream (R219, R379): what was counted stays. -/
def clearStreams (s : State) : State :=
  { s with intake := { s.intake with
      streams := [], flows := [], templates := [], noted := [], split := [], moved := [], splitNext := [], above := 0, below := 0
      ports := s.intake.ports.map (fun e => (e.1, { e.2 with cfg := none, failSince := none }))
      macs := s.intake.macs.map (fun e => (e.1, { e.2 with addr := none })) } }
/-- Intake and the classifier as a manifest declares them (R219, R225, R229, R230, R259). -/
def setStreams (m : Manifest) (s : State) : State :=
  let s := clearStreams s
  let streams := m.streams.foldl (fun (l : SMap (Option Stream)) (d : StreamDecl) => putK none l d.id (some { decl := d, safety := d.safety, since := now s })) []
  let ports := m.ports.foldl (fun (l : SMap CsiPort) (c : CsiCfg) => updK {} l c.port (fun p => { p with cfg := some c })) s.intake.ports
  let macs := (List.range m.macs.length).foldl (fun (l : SMap Mac) (k : Nat) => updK {} l k (fun x => { x with addr := m.macs[k]? })) s.intake.macs
  { s with intake := { s.intake with streams, ports, macs, flows := m.flows, templates := m.templates, split := m.split } }
/-- An FSYNC output that R27 holds inactive: in TWIN, a declared output whose camera the partner drives. -/
def fsyncHeld (m : Manifest) (k : Nat) : Bool := m.twin && decide (k < 8) && !(csiOn m k).any (fun d => d.fsync)
/-- Time and the trigger outputs as a manifest declares them (R267, R278, R527). -/
def setTimeCfg (m : Manifest) (s : State) : State :=
  let ports := (List.range 4).foldl (fun (l : SMap PtpPort) (k : Nat) => updK {} l k (fun p => { p with declared := m.gptp.contains k })) s.time.ports
  let trig := (List.range 12).foldl (fun (l : SMap Trig) (k : Nat) =>
    let used := m.sioMask.getLsbD k
    updK {} l k (fun x => { x with declared := used, heldInactive := used && fsyncHeld m k, series := if used then x.series else none,
                                   active := x.active && used })) s.time.trig
  let s := { s with time := { s.time with ports, order := m.gptp, trig }, ltn := { s.ltn with sioMask := m.sioMask } }
  match s.time.slave with
  | some k => if m.gptp.contains k then s else holdover false s
  | none => s
/-- The coolant allowance as a manifest declares it (R207). -/
def setCoolant (m : Manifest) (s : State) : State :=
  let e := s.energy
  { s with energy := match m.coolant with
      | some (lo, hi, pHi, pLo) => { e with tKnee := lo, tTop := hi, pHi := some pHi, pLo }
      | none => { e with tKnee := 4000, tTop := 6000, pHi := none, pLo := 20000 } }
/-- The constellation of a manifest; with N ≥ 2 Dvorpo trains, unless it is trained under the same manifest (R14, R376, R380). -/
def setDvorpo (m : Manifest) (digest : List Byte) (s : State) : State :=
  let same := decide (s.dv.digest = digest)
  let pair := decide (2 ≤ m.n)
  let ports := (List.range 2).foldl (fun (l : SMap DvPort) (k : Nat) => updK {} l k (fun p =>
    if ¬pair then { p with state := .unused }
    else if same && decide (p.state ≠ .unused) then p
    else { p with state := .training, adapted := false })) s.dv.ports
  let s := if pair then domainOn 7 s else s
  { s with dv := { s.dv with n := m.n, p := m.p, twin := m.twin && pair, preferred := m.preferred, takeover := m.takeover, digest, ports } }
/-- The device configures its units from the manifest (R376), and powers the domains that it needs (R537). -/
def configure (m : Manifest) (s : State) : State :=
  let eth := !m.gptp.isEmpty || m.streams.any (fun d => decide (d.kind ≠ .csi))
  let s := if eth then domainOn 5 s else s
  let s := if m.streams.any (fun d => decide (d.kind = .rtpHevc)) then domainOn 4 s else s
  gateUnused (setDvorpo m (sub m.bytes 32 32) (setCoolant m (setTimeCfg m (setStreams m s))))

/-- The tables that ATTACH names (R308, R342): address, count and largest count, with the slot bytes of base and count. -/
def attachTables (r : Req) : List (Nat × Nat × Nat × Nat × Nat) :=
  [(r.arg 8 8, r.arg 16 4, 4096, 24, 32), (r.arg 20 8, r.arg 28 4, 16384, 36, 44),
   (r.arg 32 8, r.arg 40 4, 262144, 48, 56), (r.arg 44 8, r.arg 52 4, 65536, 60, 68)]
/-- The first table that breaks R308. -/
def badTable (r : Req) : Option Nat :=
  ((attachTables r).flatMap (fun t => (if t.1 % 4096 = 0 then [] else [t.2.2.2.1]) ++ (if t.2.1 ≤ t.2.2.1 then [] else [t.2.2.2.2]))).head?
/-- The tables, put in force. -/
def putTables (r : Req) (s : State) : State :=
  let t (b c : Nat) : HTable := { base := BitVec.ofNat 64 (r.arg b 8), count := r.arg c 4 }
  { s with obj := { s.obj with ctxTab := t 8 16, queueTab := t 20 28, objTab := t 32 40, evtTab := t 44 52 } }

/-- The pair mode of IDENTIFY and ATTACH (R341): 0 TWIN, 1 SPLIT, 2 lone. -/
def pairMode (d : Dv) : Nat := if d.n < 2 then 2 else if d.twin then 0 else 1
/-- A session value not issued since power-on (R376). -/
def freshSession (s : State) : W32 :=
  let v := Config.session s.dev.sessions.length
  let used (w : W32) : Bool := decide (w = 0) || s.dev.sessions.contains w
  if used v then ((List.range (s.dev.sessions.length + 2)).map (fun k => BitVec.ofNat 32 k)).find? (fun w => !used w) |>.getD 1 else v

/-- What every accepted ATTACH does with the host link (R306, R309, R577). -/
def linkAttach (s : State) : State :=
  dropCopies 4 0 { s with host := { s.host with attached := true, bme := true, attachLtc := now s, needAttach := false, holdEnded := true, overflowed := false,
                                                held := [], replayed := false, resetSeen := false, lines := [] } }
/-- ATTACH's results (R342). -/
def attachResults (man : List Byte) (ctxs : Nat) (s : State) : List Byte :=
  leBytes 4 s.dev.session.toNat ++ [1, 0, 0, 0] ++ sub man 0 32 ++ leBytes 1 s.dv.p ++ leBytes 1 s.dv.n ++ leBytes 1 (pairMode s.dv) ++ [0] ++ leBytes 4 ctxs

/-- A new session opens (R376). -/
def openSession (manifest : Bool) (s : State) : State :=
  let v := freshSession s
  { s with dev := { s.dev with session := v, sessions := s.dev.sessions ++ [v], manifestLoaded := manifest } }
/-- The manifest, if any, is measured and configured (R373, R376). -/
def takeManifest (m : Option Manifest) (s : State) : State :=
  match m with
  | some m => measure 0x10 (sub m.bytes 32 32) (configure m s)
  | none => clearStreams s
/-- An ATTACH without RECLAIM is accepted (R376): the manifest, if any, is measured and configured. -/
def attachNew (r : Req) (m : Option Manifest) (s : State) : State :=
  let s := openSession m.isSome (takeManifest m (putTables r s))
  let s := linkAttach { s with
    energy := { s.energy with noBudget := false, grant := none, newGrant := none, winFrame := 0 } }
  let s := enter .attached none 0x0101 s
  ok .dispatch r (attachResults (match m with | some m => sub m.bytes 32 32 | none => []) 0 s) s

/-- Every slot of a mailbox returns to the host: responses not yet read are discarded, and a command still running answers none (R306). -/
def freeSlots (b : Mbx) : Mbx :=
  { b with slots := [], rsp := [], fifo := [], waiting := b.waiting.map (fun w => { w with slot := 8 }) }
/-- ATTACH with RECLAIM is accepted (R306, R307, R309): the session and the manifest stay. -/
def attachReclaim (r : Req) (s : State) : State :=
  let s := putTables r s
  let s := { s with mbD := freeSlots s.mbD, mbL := freeSlots s.mbL }
  let s := if s.dev.manifestLoaded then measure 0x10 (sub s.dv.digest 0 32) s else s
  let s := linkAttach s
  ok .dispatch r (attachResults (if s.dev.manifestLoaded then s.dv.digest else []) s.plans.length s) s

/-- ATTACH (R376, R379), in the order of R376. -/
def attach (man : Option Manifest) (atomicEn : Bool) (r : Req) (s : State) : State :=
  let s := { s with host := { s.host with atomicEn } }
  let h := r.arg 56 4
  let scan := match s.trace.jtag with | .extest | .clamp | .highz => true | _ => false
  if scan then refuse .dispatch r 6 (Config.suggestedWait 1) [] s
  else if ¬atomicEn then bad .dispatch r 0 s
  else if r.arg 0 2 ≠ 1 then bad .dispatch r 16 s
  else if ¬zeros r.args 4 4 then bad .dispatch r 20 s
  else match badTable r with
    | some off => bad .dispatch r off s
    | none =>
      if r.flag 0 then attachReclaim r s
      else if h = 0xFFFFFFFF then attachNew r none s
      else if r.arg 40 4 ≤ h then refuse .dispatch r 5 72 [] s
      else if tornObj s h then refuse .dispatch r 10 72 [] s
      else match man with
        | none => refuse .dispatch r 11 1 [] s
        | some m =>
          if ¬manifestOk m.bytes m.bytes.length then refuse .dispatch r 12 1 [] s
          else if s.ltn.cfg.manifestDigest ≠ some (sub m.bytes 32 32) then refuse .dispatch r 12 3 [] s
          else if manifestBad s m then bad .dispatch r 72 s
          else attachNew r (some m) s
/-- ATTACH. -/
def execAttach (man : Option Manifest) (atomicEn : Bool) (s : State) : Res := .next (serveCmd .dispatch 0x0101 (attach man atomicEn) s)

/-- Every bound inbound window is released, and its object's reference dropped (R319, R380). -/
def unbindAll (s : State) : State :=
  (s.host.inb.filter (fun e => e.2.bound)).foldl (fun (s : State) (e : Nat × InbWin) =>
    dropRef e.2.obj (setInb e.1 { e.2 with bound := false, unbinding := false, held := [], corrupt := [] } s)) s
/-- DETACH (R380): plans, references, session and manifest go; Dvorpo, time and the triggers stay as they are. -/
def detach (r : Req) (s : State) : State :=
  let n := s.plans.length
  let s := s.plans.foldl (fun (s : State) (l : Loaded) => unload l s) s
  let s := retireStep (unbindAll s)
  let s := gateUnused (clearStreams s)
  let s := { s with
    dev := { s.dev with session := 0, manifestLoaded := false }
    host := { s.host with attached := false, needAttach := true, holdEnded := true } }
  let s := enter .ready none 0x0102 s
  ok .dispatch r (leBytes 4 n) s
/-- DETACH. -/
def execDetach (s : State) : Res := .next (serveCmd .dispatch 0x0102 detach s)

/-- A torn-list entry (R305; 32 bytes). -/
def tornBytes (t : TornEnt) : List Byte :=
  leBytes 4 t.obj.toNat ++ leBytes 4 t.gen.toNat ++ leBytes 8 t.lost ++ leBytes 4 t.first.toNat ++ leBytes 4 t.last.toNat
    ++ leBytes 4 t.flags.toNat ++ [0, 0, 0, 0]
/-- TORN_READ (R305, R341). -/
def tornRead (r : Req) (s : State) : State :=
  let m := r.arg 0 2
  if m < 1 ∨ 7 < m then bad .dispatch r 16 s
  else
    let es := s.host.torn.take m
    let s := if r.flag 0 then { s with host := { s.host with torn := s.host.torn.drop m } } else s
    ok .dispatch r (leBytes 2 es.length ++ leBytes 2 s.host.torn.length ++ [0, 0, 0, 0] ++ es.flatMap tornBytes) s
/-- TORN_READ. -/
def execTornRead (s : State) : Res := .next (serveCmd .dispatch 0x0103 tornRead s)

/-- IDENTIFY (R341). -/
def identify (r : Req) (s : State) : State :=
  ok .dispatch r ([0x42, 0x31, 0, 0] ++ leBytes 4 0x10000 ++ leBytes 8 s.dev.dspFwVer.toNat ++ leBytes 8 s.dev.ltnFwVer.toNat
    ++ leBytes 16 Config.serial.toNat ++ leBytes 1 s.dv.p ++ leBytes 1 s.dv.n ++ leBytes 1 (pairMode s.dv)) s
/-- IDENTIFY. -/
def execIdentify (s : State) : Res := .next (serveCmd .dispatch 0x0104 identify s)

/-- OBJ_QUERY (R343). -/
def objQuery (r : Req) (s : State) : State :=
  let h := r.arg 0 4
  if s.obj.objTab.count ≤ h then refuse .dispatch r 5 16 [] s
  else
    let es := s.obj.trans.filter (fun t => t.obj.toNat = h)
    let torn := s.host.torn.filter (fun t => t.obj.toNat = h)
    ok .dispatch r (leBytes 2 es.length ++ leBytes 1 (satBit (es.any (fun t => t.pinned)) 0 + satBit (!torn.isEmpty) 1) ++ [(0 : Byte)]
      ++ leBytes 4 (match torn.getLast? with | some t => t.gen.toNat | none => 0)) s
/-- OBJ_QUERY. -/
def execObjQuery (s : State) : Res := .next (serveCmd .dispatch 0x0201 objQuery s)

/-- The frame in progress, or the last that started, of the loop that runs (R276, R455). -/
def loopFrame (s : State) : W32 := (if s.fc.torch then s.loop.torchNext else s.loop.next) - 1
/-- Largest count of the table that a scope's handle names (R325). -/
def scopeCount (s : State) (scope : Nat) : Nat :=
  match scope with | 0 => s.obj.objTab.count | 1 => s.obj.ctxTab.count | 2 => s.obj.queueTab.count | _ => s.obj.evtTab.count
/-- INVALIDATE (R325, R344). -/
def invalidate (r : Req) (s : State) : State :=
  let scope := r.arg 0 1
  let h := r.arg 4 4
  let t := BitVec.ofNat 32 (r.arg 8 4)
  let cur := loopFrame s
  let started := decide (t = 0xFFFFFFFF) || decide (t = cur) || decide (2 ^ 31 ≤ (t - cur).toNat)
  if 4 < scope then bad .dispatch r 16 s
  else if ¬zeros r.args 1 3 then bad .dispatch r 17 s
  else if scope ≠ 4 ∧ scopeCount s scope ≤ h then refuse .dispatch r 5 20 [] s
  else if scope = 0 ∧ tornObj s h then refuse .dispatch r 10 20 [] s
  else if loopRuns s ∧ ¬started ∧ 120 < (t - cur).toNat then bad .dispatch r 24 s
  else
    let target := if started then cur + 1 else t
    let x : Inval := { id := s.obj.nextInval, scope, handle := h, target, event := BitVec.ofNat 16 (r.arg 12 2) }
    let s := { s with obj := { s.obj with nextInval := s.obj.nextInval + 1, invals := s.obj.invals ++ [x] } }
    if loopRuns s then ok .dispatch r (leBytes 4 x.id.toNat ++ leBytes 4 target.toNat) s
    else ok .dispatch r (leBytes 4 x.id.toNat ++ leBytes 4 0xFFFFFFFF) (applyInval x s)
/-- INVALIDATE. -/
def execInvalidate (s : State) : Res := .next (serveCmd .dispatch 0x0202 invalidate s)

/-- EVT_QUERY (R343). -/
def evtQuery (r : Req) (s : State) : State :=
  let h := r.arg 0 2
  if ¬evtValid s h then refuse .dispatch r 5 16 [] s
  else match s.obj.evts.find? (fun e => e.id = h) with
    | some e => ok .dispatch r (leBytes 1 (1 + satBit e.armed 1) ++ [0, 0, 0] ++ leBytes 4 e.producer.toNat ++ leBytes 4 e.consumer.toNat) s
    | none => ok .dispatch r (List.replicate 12 0) s
/-- EVT_QUERY. -/
def execEvtQuery (s : State) : Res := .next (serveCmd .dispatch 0x0203 evtQuery s)

/-- INBOUND_BIND (R297, R319, R343). -/
def inboundBind (desc : List Byte) (r : Req) (s : State) : State :=
  let w := r.arg 0 1
  let nb := r.arg 1 1
  let size := r.arg 4 4
  let h := r.arg 8 4
  let st := r.arg 14 1
  if 15 < w ∨ (getInb s w).bound then bad .dispatch r 16 s
  else if nb < 1 ∨ 4 < nb then bad .dispatch r 17 s
  else if r.arg 2 2 ≠ 0 then bad .dispatch r 18 s
  else if size = 0 ∨ 16383 < nb * size then bad .dispatch r 20 s
  else if s.obj.objTab.count ≤ h then refuse .dispatch r 5 24 [] s
  else if tornObj s h then refuse .dispatch r 10 24 [] s
  else if st ≠ 255 ∧ (getStream s st).isNone then bad .dispatch r 30 s
  else if 1 < r.arg 15 1 then bad .dispatch r 31 s
  else match descOf s [(BitVec.ofNat 18 h, desc)] (BitVec.ofNat 18 h) with
    | none => refuse .dispatch r 5 24 [] (badObject 2 h s)
    | some d =>
      if d.location = 0 then bad .dispatch r 24 s
      else if d.length < nb * size * 4096 then bad .dispatch r 20 s
      else
        let x := getInb s w
        let y : InbWin := { x with bound := true, nb, bufsz := size, obj := BitVec.ofNat 18 h, event := BitVec.ofNat 16 (r.arg 12 2), stream := BitVec.ofNat 8 st,
                                   filter := r.arg 15 1 = 1, rid := BitVec.ofNat 16 (r.arg 16 2), held := [], corrupt := [], unbinding := false }
        let s := if s.obj.descs.any (fun e => e.1.toNat = h) then s else putDesc (BitVec.ofNat 18 h) d s
        ok .dispatch r [] (takeRef (BitVec.ofNat 18 h) (setInb w y s))
/-- INBOUND_BIND. -/
def execInboundBind (desc : List Byte) (s : State) : Res := .next (serveCmd .dispatch 0x0210 (inboundBind desc) s)

/-- INBOUND_UNBIND (R297): it takes effect at the next frame boundary, which in ATTACHED is at once. -/
def inboundUnbind (r : Req) (s : State) : State :=
  let w := r.arg 0 1
  if 15 < w ∨ ¬(getInb s w).bound then refuse .dispatch r 5 16 [] s
  else
    let s := setInb w { getInb s w with unbinding := true } s
    ok .dispatch r [] (if loopRuns s then s else inbBoundary s)
/-- INBOUND_UNBIND. -/
def execInboundUnbind (s : State) : Res := .next (serveCmd .dispatch 0x0211 inboundUnbind s)

end Sys2Proof.Machine
end

