-- ==== Sys2Proof/Machine/Adapt.lean ====
section
/-! DEFINITION. Charging-time recalibration, and the status commands of the plans and contexts group (R70, R75, R96, R178,
R179–R185, R192, R199, R258, R345, R381, R382). -/

namespace Sys2Proof.Machine

/-- The physical site that serves a logical core under the map of the latest plan load (R51, R52). -/
def servedBy (s : State) (n : Node) : Node := match coreSites.find? (fun k => decide (logicalOf s k = n)) with | some k => k | none => n
/-- A logical core (R33, R50): a site that is no spare. -/
def isLogical (n : Nat) : Bool := decide (n < 512) && isSite (BitVec.ofNat 10 n)

/-! The shuffle of R258. -/

/-- Half the width of the shuffle's domain: the least b with 4^b ≥ N, at most 16. -/
def shuffleHalf (n : Nat) : Nat := ((List.range 17).find? (fun b => decide (1 ≤ b) && decide (n ≤ 4 ^ b))).getD 16
/-- One pass of the shuffle's four rounds. -/
def shuffleOnce (b : Nat) (k : Nat) (x : Nat) : Nat :=
  let mask := 2 ^ b
  let r := (List.range 4).foldl (fun (p : Nat × Nat) (i : Nat) =>
    let ki := k / 2 ^ (16 * i) % 65536
    let t := (p.2 + ki) * (if ki % 2 = 1 then ki else ki + 1) % 2 ^ 32
    let f := (t ^^^ (t / 2048)) % mask
    (p.2, p.1 ^^^ f)) (x / mask, x % mask)
  r.1 * mask + r.2
/-- The cycle walk: passes until the value is below N; the orbit is no longer than the domain. -/
def shuffleWalk (b k n : Nat) : Nat → Nat → Nat
  | 0, x => x
  | fuel + 1, x => let y := shuffleOnce b k x; if y < n then y else shuffleWalk b k n fuel y
/-- σ(j) for N, a seed and an epoch (R258). -/
def shuffle (j n : Nat) (seed : W64) (e : Nat) : Nat :=
  let b := shuffleHalf n
  shuffleWalk b (seed ^^^ BitVec.ofNat 64 (e * 0x9E3779B97F4A7C15)).toNat n (4 ^ b) j
/-- Scene frames of a set. -/
def setFrames (s : State) (set : Nat) : Nat := ((getK [] s.intake.sets set).map (fun f => f.frames)).sum
/-- The replay order of an epoch (R240, R258): the shuffle, or record order where a file has no index. -/
def epochOrder (s : State) (set : Nat) (seed : W64) (e : Nat) : List Nat :=
  let n := setFrames s set
  if (getK [] s.intake.sets set).all (fun f => f.indexed) then (List.range n).map (fun j => shuffle j n seed e) else List.range n
/-- A replay reads the files of a set from their first record again. -/
def rewind (set : Nat) (s : State) : State :=
  { s with intake := { s.intake with sets := updK [] s.intake.sets set (fun l => l.map (fun f => { f with frame := none, abandoned := false, ended := false })) } }

/-- A run ends (R183, R345): its record is kept, and its completion event is posted. -/
def endRun (a : AdaptRun) (x : AdaptRec) (s : State) : State :=
  let s := { s with adapt := { s.adapt with run := none, recs := s.adapt.recs ++ [x] } }
  postEvent a.event (Config.evtKind 24) (leBytes 4 a.id.toNat ++ leBytes 1 x.verdict) s
/-- CORRUPT scene frames of a run's sets (R241). -/
def corruptCount (s : State) (a : AdaptRun) : Nat :=
  ((getK [] s.intake.sets a.scene ++ getK [] s.intake.sets a.valid).map (fun f => f.corrupt.length)).sum
/-- End a run as ABORTED (R382). -/
def abortRun (s : State) : State :=
  match s.adapt.run with
  | some a => endRun a { id := a.id, verdict := 3, corrupt := corruptCount s a } s
  | none => s

/-- PARKED_CHARGING has been reported within the last second (R381). -/
def parkedFresh (s : State) : Bool := match s.ltn.parked with | some t => decide ((now s - t).toNat ≤ 1000000000) | none => false
/-- ADAPT_ENTER (R381, R538). -/
def adaptEnter (r : Req) (s : State) : State :=
  match planOf s (r.arg 0 2), planOf s (r.arg 2 2) with
  | none, _ => refuse .dispatch r 5 16 [] s
  | _, none => refuse .dispatch r 5 18 [] s
  | some c, some p =>
    if ¬c.flags.getLsbD 4 ∨ c.recalFor ≠ sub p.digest 0 32 then bad .dispatch r 16 s
    else if ¬parkedFresh s ∨ s.energy.coolInvalid then
      refuse .dispatch r 6 1000 [] s
    else
      let s := domainOn 4 { s with adapt := { s.adapt with ctxs := some (c.ctx, p.ctx) } }
      ok .dispatch r [] (enter .adapting none 0x0305 (driveSafe true s))
/-- ADAPT_ENTER. -/
def execAdaptEnter (s : State) : Res := .next (serveCmd .dispatch 0x0305 adaptEnter s)

/-- ADAPT_RUN (R181, R258, R345): the records of the run before go. -/
def adaptRun (r : Req) (s : State) : State :=
  let scene := r.arg 0 1
  let valid := r.arg 1 1
  let e := r.arg 12 1
  if 3 < scene then bad .dispatch r 16 s
  else if 3 < valid ∨ valid = scene then bad .dispatch r 17 s
  else if (getK [] s.intake.sets scene).isEmpty then refuse .dispatch r 5 16 [] s
  else if (getK [] s.intake.sets valid).isEmpty then refuse .dispatch r 5 17 [] s
  else if setFrames s scene = 0 ∨ 2 ^ 32 ≤ setFrames s scene then bad .dispatch r 16 s
  else if e < 1 ∨ 64 < e then bad .dispatch r 28 s
  else if s.adapt.run.isSome then refuse .dispatch r 6 (Config.suggestedWait 2) [] s
  else
    let seed := BitVec.ofNat 64 (r.arg 4 8)
    let a : AdaptRun := { id := s.adapt.nextId, scene, valid, event := BitVec.ofNat 16 (r.arg 2 2), seed, epochs := e, order := epochOrder s scene seed 0 }
    let s := rewind valid (rewind scene { s with adapt := { s.adapt with run := some a, recs := [], nextId := s.adapt.nextId + 1 } })
    ok .dispatch r (leBytes 4 a.id.toNat) s
/-- ADAPT_RUN. -/
def execAdaptRun (s : State) : Res := .next (serveCmd .dispatch 0x0306 adaptRun s)

/-- The plan of the recalibration context. -/
def recalPlan (s : State) : Option Loaded := match s.adapt.ctxs with | some (c, _) => planOf s c | none => none
/-- The step j of an adaptable channel (R182): 0 with CLIPSAT or CONVSAT set, else the smallest that meets the target. Where none
does, R182 states no value: a free one (log entry 2). -/
def fitStep (c : FitChannel) (s : State) : Int × State :=
  let x := getK {} (getCore s (servedBy s c.core)).clips c.counter
  if x.clip.sat ∨ x.conv.sat then (0, s)
  else match (List.range 17).find? (fun k => c.predicted.getD k false) with
    | some k => ((k : Int) - 8, s)
    | none => let f := freshBits 5 s; (((f.1.toNat % 17 : Nat) : Int) - 8, f.2)
/-- Fit the channels that the plan marks ADAPTABLE (R179, R182): s' = s × 2^(j/4), the exponents kept in quarters. -/
def fitAll (fit : List FitChannel) (s : State) : State :=
  fit.foldl (fun (s : State) (c : FitChannel) =>
    match s.adapt.run, recalPlan s with
    | some _, some p =>
      if ¬p.img.adaptable.contains (c.core, c.counter) then s
      else
        let f := fitStep c s
        let key := c.core.toNat * 512 + c.counter
        let put (a : AdaptRun) : AdaptRun :=
          let old := match a.scales.find? (fun e => e.1 = key) with | some e => e.2 | none => 0
          { a with scales := a.scales.filter (fun e => e.1 ≠ key) ++ [(key, old + f.1)] }
        { f.2 with adapt := { f.2.adapt with run := f.2.adapt.run.map put } }
    | _, _ => s) s
/-- EPOCH_END (R181, R182, R258): the fitting rule, then the next epoch's replay, or after the last the validation replay. -/
def epochEnd (fit : List FitChannel) (s : State) : State :=
  match s.adapt.run with
  | none => s
  | some a =>
    if a.epochs ≤ a.epoch then s
    else
      let s := fitAll fit s
      let e := a.epoch + 1
      let order := if e < a.epochs then epochOrder s a.scene a.seed e else []
      let s := { s with adapt := { s.adapt with run := s.adapt.run.map (fun a => { a with epoch := e, order }) } }
      rewind (if e < a.epochs then a.scene else a.valid) s
/-- EPOCH_END. -/
def execEpochEnd (fit : List FitChannel) (s : State) : Res := .next (epochEnd fit s)

/-- The first failed test of R183, in its order from 1; 0 for none. -/
def firstTest (a : AdaptRun) (x : RecalFigures) : Nat :=
  if ¬x.entriesNormal then 1 else if ¬x.clipOk then 2 else if ¬x.headOk then 3 else if ¬x.winogradOk then 4 else if a.faulted then 5 else 0
/-- RECALIBRATION_COMPLETE (R181, R183): unequal digests of the mirrors end the run as REJECTED. -/
def recalibrationComplete (x : RecalFigures) (s : State) : State :=
  match s.adapt.run with
  | none => s
  | some a =>
    if a.epoch < a.epochs then s
    else
      let plan := match s.adapt.ctxs with | some (_, p) => (match planOf s p with | some l => l.digest | none => []) | none => []
      let t := firstTest a x
      let rec0 : AdaptRec :=
        if x.leadDigest ≠ x.trailDigest then { id := a.id, verdict := 2, corrupt := corruptCount s a, plan }
        else { id := a.id, verdict := if t = 0 then 1 else 2, first := t, corrupt := corruptCount s a, candidate := sub x.leadDigest 0 32,
               worstClip := x.worstClip, worstHead := x.worstHead, worstWino := x.worstWino, plan }
      endRun a rec0 s
/-- RECALIBRATION_COMPLETE. -/
def execRecalibrationComplete (x : RecalFigures) (s : State) : Res := .next (recalibrationComplete x s)

/-- ADAPT_RESULT (R345). -/
def adaptResult (r : Req) (s : State) : State :=
  let id := r.arg 0 4
  match s.adapt.run, s.adapt.recs.find? (fun x => x.id.toNat = id) with
  | some a, _ => if a.id.toNat = id then ok .dispatch r (List.replicate 48 0) s else refuse .dispatch r 5 16 [] s
  | none, none => refuse .dispatch r 5 16 [] s
  | none, some x =>
    ok .dispatch r (leBytes 1 x.verdict ++ leBytes 1 x.first ++ leBytes 2 x.corrupt ++ sub x.candidate 0 32 ++ leBytes 4 x.worstClip.toNat
      ++ leBytes 4 x.worstHead.toNat ++ leBytes 4 x.worstWino.toNat) s
/-- ADAPT_RESULT. -/
def execAdaptResult (s : State) : Res := .next (serveCmd .dispatch 0x0307 adaptResult s)

/-- Every record set is closed (R382). -/
def closeSets (s : State) : State := { s with intake := { s.intake with sets := [] } }
/-- ADAPT_EXIT (R345, R382). -/
def adaptExit (r : Req) (s : State) : State :=
  let s := closeSets (abortRun s)
  let v := match s.adapt.recs.getLast? with | some x => x.verdict | none => 0
  let s := gateUnused (enter .attached none 0x0308 { s with adapt := { s.adapt with ctxs := none } })
  ok .dispatch r (leBytes 1 v) s
/-- ADAPT_EXIT. -/
def execAdaptExit (s : State) : Res := .next (serveCmd .dispatch 0x0308 adaptExit s)

/-- PARKED_CHARGING is withdrawn or no longer fresh (R382). -/
def parkedLost (s : State) : State :=
  match s.ltn.parked with
  | none => s
  | some _ =>
    let s := { s with ltn := { s.ltn with parked := none } }
    if s.adapt.run.isSome then note 0 [4] (abortRun s) else s
/-- PARKED_CHARGING_EXPIRY (R382). -/
def execParkedChargingExpiry (s : State) : Res := .next (parkedLost s)
/-- The MCU's PARKED_CHARGING report (R381, R382). -/
def parkedReport (on : Bool) (s : State) : State := if on then { s with ltn := { s.ltn with parked := some (now s) } } else parkedLost s

/-- CLIP_READ (R178, R345): a snapshot at the next frame boundary, or at once with no frame loop. -/
def clipRead (r : Req) (s : State) : State :=
  let k := r.arg 0 2
  let first := r.arg 2 2
  let count := r.arg 4 1
  let n := servedBy s (BitVec.ofNat 10 k)
  if ¬isLogical k then bad .dispatch r 16 s
  else if 511 < first then bad .dispatch r 18 s
  else if count < 1 ∨ 28 < count ∨ 512 < first + count then bad .dispatch r 20 s
  else if r.flag 1 then ok .dispatch r (clipResults n first count s) s
  else if loopRuns s then
    { s with mbD := { s.mbD with waiting := s.mbD.waiting ++
      [{ slot := r.slot, opcode := 0x0309, args := [n.toNat, first, count, if r.flag 0 then 1 else 0], limit := 0 }] } }
  else
    let s := snapClips n (r.flag 0) s
    ok .dispatch r (clipResults n first count s) s
/-- CLIP_READ. -/
def execClipRead (s : State) : Res := .next (serveCmd .dispatch 0x0309 clipRead s)

/-- MEM_STATUS (R192, R199, R345). -/
def memStatus (r : Req) (s : State) : State :=
  let m := s.mem
  let ch (c : Nat) : Channel := getK {} m.chan c
  let rung : Rung := match curPlan s with | some p => p.img.rungs.getD s.energy.force { energy := 0 } | none => { energy := 0 }
  let sats := ((List.range 4).map (fun c => satBit (ch c).ce.sat (2 * c) + satBit (ch c).ue.sat (2 * c + 1))).sum
    + ((List.range 16).map (fun k => satBit (getK {} m.overrun k).sat (8 + k))).sum
  let out := leBytes 4 (plannable s) ++ leBytes 4 (deliverable s rung)
    ++ leBytes 1 (satBit (m.retired.contains 0) 0 + satBit (m.retired.contains 1) 1) ++ leBytes 1 (satBit m.migrating 0) ++ [0, 0]
    ++ (List.range 4).flatMap (fun c => leBytes 2 (ch c).ce.val.toNat ++ leBytes 2 (ch c).ue.val.toNat)
    ++ (List.range 16).flatMap (fun k => leBytes 8 (getK {} m.bytes k).val.toNat)
    ++ (List.range 16).flatMap (fun k => leBytes 2 (getK {} m.overrun k).val.toNat)
    ++ leBytes 4 sats ++ leBytes 2 ((List.range 16).map (fun k => satBit (getK {} m.bytes k).sat k)).sum
  let s := if r.flag 0 then
      { s with mem := { m with bytes := [], overrun := [], chan := (List.range 4).foldl (fun (l : SMap Channel) (c : Nat) => updK {} l c (fun x => { x with ce := {}, ue := {} })) m.chan } }
    else s
  ok .dispatch r out s
/-- MEM_STATUS. -/
def execMemStatus (s : State) : Res := .next (serveCmd .dispatch 0x030A memStatus s)

/-- The fault record of CORE_STATUS, 32 bytes (R96, R113; the layout is log entry 15). -/
def faultRecBytes (c : Core) : List Byte :=
  let f := c.frec
  let src := match f.source with | some x => x.code.toNat | none => 0
  let ag := match f.ag with | some a => a | none => (3, [], 0, 0)
  leBytes 8 (src + 2 ^ 16 * f.pcFault.toNat + 2 ^ 29 * f.pcLast.toNat + 2 ^ 42 * f.node.toNat + 2 ^ 52 * (f.index % 32) + 2 ^ 57 * ag.1)
    ++ leBytes 4 f.off ++ leBytes 4 ag.2.2.1.toNat ++ leBytes 4 ag.2.2.2.toNat ++ (List.range 6).flatMap (fun k => leBytes 2 (ag.2.1.getD k 0))
/-- CORE_STATUS (R345). -/
def coreStatus (r : Req) (s : State) : State :=
  let k := r.arg 0 2
  if ¬isLogical k then bad .dispatch r 16 s
  else
    let n := servedBy s (BitVec.ofNat 10 k)
    let c := getCore s n
    ok .dispatch r (leBytes 1 c.run.code ++ [0] ++ leBytes 2 n.toNat ++ leBytes 4 c.status.toNat ++ faultRecBytes c) s
/-- CORE_STATUS. -/
def execCoreStatus (s : State) : Res := .next (serveCmd .dispatch 0x030B coreStatus s)

end Sys2Proof.Machine
end

