-- ==== Sys2Proof/Machine/Status.lean ====
section
/-! DEFINITION. Commands of the sensors and intake, time and energy groups (R205, R208, R217, R218, R222–R233, R237, R242, R249, R252,
R256, R260, R269, R272–R280, R282, R348–R351). -/

namespace Sys2Proof.Machine

/-! Sensors and intake (R348). -/

/-- Codes of stream kinds (R219). -/
def kindNum (k : StreamKind) : Nat := match k with | .csi => 1 | .lidarFlow => 2 | .rtpHevc => 3 | .udpRaw => 4
/-- A stream's counters with their flags, in the order of their defining rules (R222, R227, R232, R233, R249, R256). -/
def streamCounters (s : State) (t : Stream) : List (Nat × Bool) :=
  let c16 (x : Stick 16) : Nat × Bool := (x.val.toNat, x.sat)
  let c32 (x : Stick 32) : Nat × Bool := (x.val.toNat, x.sat)
  let p := getPort s t.decl.port
  let own := match t.decl.kind with
    | .csi => [c16 p.hdrCe, c16 p.hdrUe, c16 p.crc, c16 p.len, c16 p.ovf]
    | .lidarFlow => [c16 t.short, c32 t.ovf, c32 t.gap]
    | .rtpHevc | .udpRaw => []
  c16 t.skip :: own ++ [c32 t.preClip, c16 t.focusDrop]
/-- A bitmap of flags. -/
def satMap (l : List Bool) : Nat := ((List.range l.length).map (fun k => satBit (l.getD k false) k)).sum
/-- Clear a stream's counters and flags. -/
def clearCounters (k : Nat) (s : State) : State :=
  match getStream s k with
  | none => s
  | some t =>
    let s := setStream { t with skip := {}, short := {}, ovf := {}, gap := {}, preClip := {}, focusDrop := {} } s
    if t.decl.kind = .csi then updPort t.decl.port (fun p => { p with hdrCe := {}, hdrUe := {}, crc := {}, len := {}, ovf := {} }) s else s
/-- STREAM_STATUS (R348). -/
def streamStatus (r : Req) (s : State) : State :=
  let k := r.arg 0 1
  match getStream s k with
  | none => refuse .dispatch r 5 16 [] s
  | some t =>
    let cs := streamCounters s t
    let out := leBytes 1 (flagNum t.flag) ++ leBytes 1 (kindNum t.decl.kind) ++ [0, 0] ++ leBytes 4 t.lastFrame.toNat ++ leBytes 8 t.lastLtc.toNat
      ++ cs.flatMap (fun c => leBytes 4 c.1) ++ leBytes 4 (satMap (cs.map (fun c => c.2)))
    ok .dispatch r out (if r.flag 0 then clearCounters k s else s)
/-- STREAM_STATUS. -/
def execStreamStatus (s : State) : Res := .next (serveCmd .dispatch 0x0401 streamStatus s)

/-- An MSR file header of R237; the CRC is checked on its own. -/
def msrHeaderOk (h : List Byte) : Bool :=
  decide (h.length = 64) && decide (h.take 4 = [0x4D, 0x53, 0x52, 0x31]) && decide (fld h 4 2 = 1) && decide (fld h 8 8 % 8 = 0) && decide (64 ≤ fld h 8 8)
/-- RECORD_OPEN (R237, R240, R348). -/
def recordOpen (file : Option MsrFile) (r : Req) (s : State) : State :=
  let set := r.arg 0 1
  let h := r.arg 4 4
  let files := getK [] s.intake.sets set
  if 3 < set then bad .dispatch r 16 s
  else if ¬zeros r.args 1 3 then bad .dispatch r 17 s
  else if h ≠ 0xFFFFFFFF ∧ s.obj.objTab.count ≤ h then refuse .dispatch r 5 20 [] s
  else if h ≠ 0xFFFFFFFF ∧ tornObj s h then refuse .dispatch r 10 20 [] s
  else if h = 0xFFFFFFFF ∧ dramU s < r.arg 8 8 + r.arg 16 8 then bad .dispatch r 24 s
  else if r.arg 16 8 < 64 then bad .dispatch r 32 s
  else if 64 ≤ files.length then refuse .dispatch r 4 0 [] s
  else match file with
    | none => refuse .dispatch r 11 1 [] s
    | some f =>
      if ¬msrHeaderOk f.header then bad .dispatch r 20 s
      else if (crc32c (f.header.take 60)).toNat ≠ fld f.header 60 4 then refuse .dispatch r 12 1 [] s
      else
        let x : MsrFileState := { frames := f.sceneFrames, indexed := f.indexValid }
        let s := { s with intake := { s.intake with sets := putK [] s.intake.sets set (files ++ [x]) } }
        ok .dispatch r (leBytes 4 f.sceneFrames ++ leBytes 1 (satBit f.indexValid 0) ++ [0, 0, 0] ++ leBytes 4 files.length) s
/-- RECORD_OPEN. -/
def execRecordOpen (file : Option MsrFile) (s : State) : Res := .next (serveCmd .dispatch 0x0402 (recordOpen file) s)

/-- RECORD_CLOSE (R348): a set that a run reads stays open. -/
def recordClose (r : Req) (s : State) : State :=
  let set := r.arg 0 1
  let used := match s.adapt.run with | some a => decide (a.scene = set) || decide (a.valid = set) | none => false
  if 3 < set then bad .dispatch r 16 s
  else if (getK [] s.intake.sets set).isEmpty then refuse .dispatch r 5 16 [] s
  else if used then refuse .dispatch r 6 (Config.suggestedWait 4) [] s
  else ok .dispatch r [] { s with intake := { s.intake with sets := putK [] s.intake.sets set [] } }
/-- RECORD_CLOSE. -/
def execRecordClose (s : State) : Res := .next (serveCmd .dispatch 0x0403 recordClose s)

/-- INTAKE_COUNTERS (R220, R229, R230, R348). -/
def intakeCounters (r : Req) (s : State) : State :=
  let i := s.intake
  let cs := i.undecl :: (List.range 4).flatMap (fun m => let x := getMac s m; [x.fcs, x.len, x.proto, x.csum])
  let out := cs.flatMap (fun c => leBytes 4 c.val.toNat) ++ leBytes 4 (satMap (cs.map (fun c => c.sat)))
  let s := if r.flag 0 then
      { s with intake := { i with undecl := {}, macs := i.macs.map (fun e => (e.1, { e.2 with fcs := {}, len := {}, proto := {}, csum := {} })) } }
    else s
  ok .dispatch r out s
/-- INTAKE_COUNTERS. -/
def execIntakeCounters (s : State) : Res := .next (serveCmd .dispatch 0x0404 intakeCounters s)

/-- SPLIT_STATUS (R260, R348). -/
def splitStatus (r : Req) (s : State) : State :=
  let i := s.intake
  ok .dispatch r (leBytes 1 i.moved.length ++ sub (i.moved.flatMap (fun k => leBytes 1 k)) 0 8 ++ [0, 0, 0] ++ leBytes 4 i.splitFrame.toNat) s
/-- SPLIT_STATUS. -/
def execSplitStatus (s : State) : Res := .next (serveCmd .dispatch 0x0405 splitStatus s)

/-- PRISM_STATUS (R252, R260, R348). -/
def prismStatus (r : Req) (s : State) : State :=
  let i := s.intake
  ok .dispatch r (leBytes 2 i.util ++ leBytes 2 (i.utilHist.foldl max 0) ++ leBytes 4 i.above ++ leBytes 4 i.below) s
/-- PRISM_STATUS. -/
def execPrismStatus (s : State) : Res := .next (serveCmd .dispatch 0x0406 prismStatus s)

/-! Time (R272, R282, R349). -/

/-- The slave port's master is qualified (R282, PTC_STATUS [3]). -/
def masterQualified (s : State) : Bool := match s.time.slave with | some k => ptpFit (getPtp s k) | none => false
/-- PTC_STATUS (R282). -/
def ptcStatusWord (s : State) : Nat :=
  ptcCode s.time.status + satBit (masterQualified s) 3 + (match s.time.slave with | some k => 16 * (k % 4) | none => 0) + 256 * (s.time.slewLimit / 2 % 256)
/-- TXTS_FLAGS (R282). -/
def txtsFlags (s : State) : Nat := satMap ((List.range 4).map (fun k => (getPtp s k).ovf))
/-- TIME_SAT (R282). -/
def timeSat (s : State) : Nat :=
  256 * satMap ((List.range 4).map (fun k => (getPtp s k).drop.sat)) + 4096 * satMap ((List.range 12).map (fun k => (getTrig s k).suppr.sat))
    + satBit s.time.domainCnt.sat 24
/-- The time-unit registers 0x0000–0x0083 (R282). -/
def timeBlock (s : State) : List Byte :=
  let t := s.time
  let ns := (ptcNs t).toNat
  leBytes 8 (now s).toNat ++ leBytes 8 t.inc.toNat ++ leBytes 8 (ns / 1000000000) ++ leBytes 4 (ns % 1000000000) ++ leBytes 4 (ptcStatusWord s)
    ++ leInt 8 t.offset ++ leInt 4 t.ppb ++ leBytes 4 0 ++ leBytes 8 t.gm.toNat ++ leBytes 4 t.event.toNat ++ leBytes 4 (txtsFlags s)
    ++ (List.range 4).flatMap (fun k => leBytes 2 (getPtp s k).drop.val.toNat) ++ leBytes 4 (timeSat s) ++ leBytes 4 0
    ++ sub (stampBytes t.stamp) 0 32 ++ leBytes 4 t.alignOwn.toNat ++ leBytes 4 t.alignPartner.toNat ++ leInt 8 t.alignOffset ++ leInt 4 t.alignDev
/-- TRIG_SUPPR_CNT of the twelve outputs (R282). -/
def supprBytes (s : State) : List Byte := (List.range 12).flatMap (fun k => leBytes 2 (getTrig s k).suppr.val.toNat)
/-- Clear the STICK counters of chapter 13 and their flags, those that `m` has a bit for in TIME_SAT's places (R272, R282). -/
def clearTimeSat (m : Nat) (s : State) : State :=
  let on (k : Nat) : Bool := m / 2 ^ k % 2 = 1
  { s with time := { s.time with
      ports := (List.range 4).foldl (fun (l : SMap PtpPort) (k : Nat) => if on (8 + k) then updK {} l k (fun p => { p with drop := {} }) else l) s.time.ports
      trig := (List.range 12).foldl (fun (l : SMap Trig) (k : Nat) => if on (12 + k) then updK {} l k (fun x => { x with suppr := {} }) else l) s.time.trig
      domainCnt := if on 24 then {} else s.time.domainCnt } }
/-- TIME_STATUS (R272, R349). -/
def timeStatus (r : Req) (s : State) : State :=
  let out := timeBlock s ++ supprBytes s ++ leBytes 2 s.time.domainCnt.val.toNat
  ok .lantern r out (if r.flag 0 then clearTimeSat (2 ^ 25 - 1) s else s)
/-- TIME_STATUS. -/
def execTimeStatus (s : State) : Res := .next (serveCmd .lantern 0x0501 timeStatus s)

/-- TIME_STEP (R273, R350): it waits for the next Sync, or for the LTC it names. -/
def timeStep (r : Req) (s : State) : State :=
  let mode := r.arg 0 1
  let t := r.arg 24 8
  let n := (now s).toNat
  let wait (args : List Nat) : State := { s with mbL := { s.mbL with waiting := s.mbL.waiting ++ [{ slot := r.slot, opcode := 0x0502, args, limit := BitVec.ofNat 64 t }] } }
  if 1 < mode then bad .lantern r 16 s
  else if ¬zeros r.args 1 7 then bad .lantern r 17 s
  else if s.mbL.waiting.any (fun w => w.opcode = 0x0502) then refuse .lantern r 6 (Config.suggestedWait 3) [] s
  else if mode = 0 then (if masterQualified s then wait [0] else refuse .lantern r 5 16 [] s)
  else if ¬zeros r.args 14 2 then bad .lantern r 30 s
  else if 1000000000 ≤ r.arg 16 4 then bad .lantern r 32 s
  else if t < n + 100000 ∨ n + 1000000000 < t then bad .lantern r 40 s
  else wait [1, r.arg 8 6, r.arg 16 4, t]
/-- TIME_STEP. -/
def execTimeStep (s : State) : Res := .next (serveCmd .lantern 0x0502 timeStep s)

/-- TIME_CONFIG (R269, R275, R349). -/
def timeConfig (r : Req) (s : State) : State :=
  let lim := r.arg 0 2
  if lim < 50 ∨ 500 < lim then bad .lantern r 16 s
  else if 15 < r.arg 2 1 then bad .lantern r 18 s
  else if r.arg 3 1 ≠ 0 then bad .lantern r 19 s
  else
    let ports := (List.range 4).foldl (fun (l : SMap PtpPort) (k : Nat) =>
      if r.arg 2 1 / 2 ^ k % 2 = 1 then updK {} l k (fun p => { p with rxLat := r.arg (4 + 4 * k) 2, txLat := r.arg (6 + 4 * k) 2 }) else l) s.time.ports
    ok .lantern r [] { s with time := { s.time with slewLimit := lim, ports } }
/-- TIME_CONFIG. -/
def execTimeConfig (s : State) : Res := .next (serveCmd .lantern 0x0503 timeConfig s)

/-- TRIG_SET (R27, R278, R280, R349). -/
def trigSet (r : Req) (s : State) : State :=
  let k := r.arg 0 1
  let x := getTrig s k
  let ns := r.arg 12 4
  let period := r.arg 16 8
  let width := r.arg 24 4
  if 11 < k ∨ ¬x.declared ∨ (x.heldInactive ∧ ¬s.dv.takeover.contains k) then bad .lantern r 16 s
  else if 1 < r.arg 1 1 then bad .lantern r 17 s
  else if r.arg 2 2 ≠ 0 then bad .lantern r 18 s
  else if r.arg 10 2 ≠ 0 then bad .lantern r 26 s
  else if 1000000000 ≤ ns then bad .lantern r 28 s
  else if period < 1000000 * 2 ^ 32 ∨ 2000000000 * 2 ^ 32 < period then bad .lantern r 32 s
  else if width < 1000 ∨ period < 2 * width * 2 ^ 32 ∨ width % 2 = 1 then bad .lantern r 40 s
  else
    let start := r.arg 4 6 * 1000000000 + ns
    let q : Series := { start, period, width, activeLow := r.arg 1 1 = 1, next := trigNext start period (ptcNs s.time) }
    ok .lantern r (leBytes 8 q.next) (setTrig k { x with series := some q } s)
/-- TRIG_SET. -/
def execTrigSet (s : State) : Res := .next (serveCmd .lantern 0x0504 trigSet s)

/-- TRIG_STOP (R272, R349): the series ends at its next edge. -/
def trigStop (r : Req) (s : State) : State :=
  let k := r.arg 0 1
  let x := getTrig s k
  if 11 < k then bad .lantern r 16 s
  else match x.series with
    | none => refuse .lantern r 5 16 [] s
    | some q =>
      ok .lantern r (leBytes 8 (match x.lastEdge with | some t => t.toNat | none => 0)) (setTrig k { x with series := some { q with stopping := true } } s)
/-- TRIG_STOP. -/
def execTrigStop (s : State) : Res := .next (serveCmd .lantern 0x0505 trigStop s)

/-! Energy (R205, R208, R217, R218, R351). -/

/-- Rung-5 energies that a grant must cover: the running plan's, or with no loop those of every loaded plan (R205). -/
def floorEnergies (s : State) : List Nat :=
  (match curPlan s with | some p => [p] | none => s.plans).map (fun (p : Loaded) => match p.img.rungs[5]? with | some (x : Rung) => x.energy | none => 0)
/-- ENERGY_BUDGET (R205): the window opens at the next frame start whose rung is not yet decided. -/
def energyBudget (r : Req) (s : State) : State :=
  let w := r.arg 0 4
  let e := r.arg 8 8
  if w < 1 ∨ 1200 < w then bad .dispatch r 16 s
  else if r.arg 4 4 ≠ 0 then bad .dispatch r 20 s
  else if e ≠ 0 ∧ (floorEnergies s).any (fun x => decide (e < w * x)) then bad .dispatch r 24 s
  else
    let n := if s.loop.ctx.isNone then 0 else if s.energy.nextRung.isSome then s.loop.next + 1 else s.loop.next
    ok .dispatch r (leBytes 4 n.toNat) { s with energy := { s.energy with newGrant := some (w, e, n) } }
/-- ENERGY_BUDGET. -/
def execEnergyBudget (s : State) : Res := .next (serveCmd .dispatch 0x0601 energyBudget s)

/-- ENERGY_LOOP (R208). -/
def energyLoop (r : Req) (s : State) : State :=
  let t := now s + 1000000000
  ok .dispatch r (leBytes 8 t.toNat) { s with energy := { s.energy with heat := some (r.arg 0 4, t) } }
/-- ENERGY_LOOP. -/
def execEnergyLoop (s : State) : Res := .next (serveCmd .dispatch 0x0602 energyLoop s)

/-- ENERGY_STATUS (R217): at a frame boundary, or at once with no frame loop. -/
def energyStatus (r : Req) (s : State) : State :=
  if loopRuns s then
    { s with mbD := { s.mbD with waiting := s.mbD.waiting ++ [{ slot := r.slot, opcode := 0x0603, args := [if r.flag 0 then 1 else 0], limit := 0 }] } }
  else
    let b := ledgerBytes s
    ok .dispatch r b (if r.flag 0 then clearLedger s else s)
/-- ENERGY_STATUS. -/
def execEnergyStatus (s : State) : Res := .next (serveCmd .dispatch 0x0603 energyStatus s)

/-- ENERGY_THRESH (R218, R351). -/
def energyThresh (r : Req) (s : State) : State :=
  let hs := (List.range 5).map (fun k => r.arg (2 * k) 2)
  match (List.range 5).find? (fun k => let h := hs.getD k 0xFFFF; decide (h ≠ 0xFFFF) && !evtValid s h) with
  | some k => refuse .dispatch r 5 (BitVec.ofNat 16 (16 + 2 * k)) [] s
  | none =>
    if ¬zeros r.args 11 5 then bad .dispatch r 27 s
    else
      let thresh := tabulateK (0 : W64) 16 (fun k => BitVec.ofNat 64 (r.arg (16 + 8 * k) 8))
      ok .dispatch r [] { s with energy := { s.energy with events := hs.map (fun h => BitVec.ofNat 16 h), lowFrac := r.arg 10 1, thresh, crossed := [] } }
/-- ENERGY_THRESH. -/
def execEnergyThresh (s : State) : Res := .next (serveCmd .dispatch 0x0604 energyThresh s)

end Sys2Proof.Machine
end

