-- ==== Sys2Proof/Machine/Service.lean ====
section
/-! DEFINITION. Firmware staging and activation, measurements read back, trace control and the debug access port (R354, R355, R373,
R471, R476–R479, R482, R501–R512). -/

namespace Sys2Proof.Machine

/-- An UPDATE record (R469): every firmware update step is logged. -/
def updateLog (code : W16) (payload : List Byte) (s : State) : State := logRec 4 0 code payload s
/-- The slots of a body. -/
def getFw (t : FwBody) (s : State) : FwSlots := match t with | .dispatch => s.ltn.fwDispatch | .lantern => s.ltn.fwLantern
def setFw (t : FwBody) (x : FwSlots) (s : State) : State :=
  { s with ltn := match t with | .dispatch => { s.ltn with fwDispatch := x } | .lantern => { s.ltn with fwLantern := x } }
/-- Staging runs (R477). -/
def staging (s : State) : Bool := match s.ltn.stage with | .verifying | .writing => true | _ => false

/-- FW_STAGE (R354, R477): the checks report through FW_STATUS only. -/
def fwStage (version rollback : W32) (r : Req) (s : State) : State :=
  let t := r.arg 0 1
  let off := r.arg 4 8
  let len := r.arg 12 4
  if 1 < t then bad .lantern r 16 s
  else if ¬zeros r.args 1 3 then bad .lantern r 17 s
  else if dramU s < off + len then bad .lantern r 20 s
  else if len < 256 ∨ (if t = 1 then 393216 else 4194304) < len then bad .lantern r 28 s
  else if staging s then refuse .lantern r 6 (Config.suggestedWait 5) [] s
  else
    let b : FwBody := if t = 1 then .lantern else .dispatch
    let s := setFw b { getFw b s with staged := false } s
    let s := updateLog 1 [if t = 1 then 1 else 0] { s with ltn := { s.ltn with stage := .verifying, stageImg := some (b, off, len), stageFail := 0 } }
    ok .lantern r (leBytes 4 version.toNat ++ leBytes 4 rollback.toNat) s
/-- FW_STAGE. -/
def execFwStage (version rollback : W32) (s : State) : Res := .next (serveCmd .lantern 0x0801 (fwStage version rollback) s)

/-- The first failed check of a staged image (R477): its status. -/
def stageFailure (x : StageCheck) (otp : Nat) : Option W16 :=
  if ¬x.magic then some 12 else if ¬x.stepping then some 3 else if ¬x.signature then some 12 else if ¬x.body then some 12
  else if x.rollback < otp then some 12 else none
/-- FW_STAGE_DONE (R477): a failed check leaves the slot untouched; a written slot is read back and verified. -/
def fwStageDone (x : StageCheck) (writeOk : Bool) (s : State) : State :=
  match staging s && !ltnHeld s, s.ltn.stageImg with
  | true, some (t, _, _) =>
    let fail (st : W16) : State := updateLog 2 (leBytes 2 st.toNat) { s with ltn := { s.ltn with stage := .failed, stageFail := st, stageImg := none } }
    match stageFailure x s.ltn.otpSteps with
    | some st => fail st
    | none =>
      if ¬writeOk then fail 12
      else
        let f := getFw t s
        let img : SlotCheck := { wellFormed := true, signatureOk := true, rollback := x.rollback, version := x.version, digest := x.digest }
        let f := if f.activeB then { f with slotA := img, staged := true } else { f with slotB := img, staged := true }
        updateLog 3 [] (setFw t f { s with ltn := { s.ltn with stage := .done, stageImg := none } })
  | _, _ => s
/-- FW_STAGE_DONE. -/
def execFwStageDone (x : StageCheck) (writeOk : Bool) (s : State) : Res := .next (fwStageDone x writeOk s)

/-- FW_ACTIVATE (R354, R478): the boot record names the other slot; the dispatch complex restarts at once. -/
def fwActivate (r : Req) (s : State) : State :=
  let t := r.arg 0 1
  let b : FwBody := if t = 1 then .lantern else .dispatch
  let f := getFw b s
  if 1 < t ∨ ¬f.staged then bad .lantern r 16 s
  else
    let f := { f with activeB := !f.activeB, staged := false }
    let s := setFw b f { s with ltn := { s.ltn with bootSeq := s.ltn.bootSeq + 1 } }
    let s := updateLog 4 (leBytes 1 t ++ [if f.activeB then 1 else 0]) s
    let s := if t = 1 then s else
      { s with dev := { s.dev with dispatchUp := false, dspFwVer := 0 }, mbD := { s.mbD with service := false },
               ltn := { s.ltn with restart := some (now s), missed := 0 } }
    ok .lantern r [if f.activeB then 1 else 0] s
/-- FW_ACTIVATE. -/
def execFwActivate (s : State) : Res := .next (serveCmd .lantern 0x0802 fwActivate s)

/-- DISPATCH_RESTART (R478, R482): dispatch firmware runs its new image, or DSP_WATCHDOG is raised after 2 s. -/
def dispatchRestart (up : Bool) (s : State) : State :=
  if s.ltn.restart.isNone then s
  else
    let s := { s with ltn := { s.ltn with restart := none, missed := 0 } }
    if up then
      let f := s.ltn.fwDispatch
      let img := if f.activeB then f.slotB else f.slotA
      { s with dev := { s.dev with dispatchUp := true, dspFwVer := img.version }, mbD := { s.mbD with service := true },
               ltn := { s.ltn with fwDispatch := { f with bootedB := f.activeB } } }
    else raise .dspWatchdog dev [] s
/-- DISPATCH_RESTART. -/
def execDispatchRestart (up : Bool) (s : State) : Res := .next (dispatchRestart up s)

/-- Codes of FW_STATUS's phases (R354). -/
def stageNum (p : StagePhase) : Nat := match p with | .idle => 0 | .verifying => 1 | .writing => 2 | .done => 3 | .failed => 4
/-- FW_STATUS (R354). The progress of a staging that runs is a free value (log entry 2); the 16 bytes of a target: log entry 15. -/
def fwStatus (r : Req) (s : State) : State :=
  let f := freshBits 8 s
  let prog : Nat := if staging s then f.1.toNat % 101 else if s.ltn.stage = .done then 100 else 0
  let body (t : FwBody) : List Byte :=
    let x := getFw t s
    [if x.activeB then 1 else 0, 0, 0, 0] ++ leBytes 4 x.slotA.version.toNat ++ leBytes 4 x.slotB.version.toNat ++ [0, 0, 0, 0]
  ok .lantern r (leBytes 1 (stageNum s.ltn.stage) ++ leBytes 1 prog ++ leBytes 2 s.ltn.stageFail.toNat ++ body .dispatch ++ body .lantern
    ++ leBytes 1 s.ltn.otpSteps) f.2
/-- FW_STATUS. -/
def execFwStatus (s : State) : Res := .next (serveCmd .lantern 0x0803 fwStatus s)

/-- BOOT_MEASURE (R354, R373): entry 0 is the chain. -/
def bootMeasure (r : Req) (s : State) : State :=
  let es := (((0 : W32), s.ltn.chain) :: s.ltn.meas).drop (r.arg 0 1) |>.take 6
  ok .lantern r (leBytes 1 es.length ++ [0, 0, 0] ++ es.flatMap (fun (e : W32 × List Byte) => leBytes 4 e.1.toNat ++ sub e.2 0 32)) s
/-- BOOT_MEASURE. -/
def execBootMeasure (s : State) : Res := .next (serveCmd .lantern 0x0804 bootMeasure s)

/-! Trace (R355, R501–R508). -/

/-- The logical cores in ascending order of node address: bit k of TRACE_CONFIG's bitmap is the k-th (log entry 15). -/
def logicalCores : List Node := coreSites.filter isSite
/-- TRACE_CONFIG (R355, R505, R509). -/
def traceConfig (r : Req) (s : State) : State :=
  let mask := r.arg 20 1
  let dst := r.arg 21 1
  let off := r.arg 24 8
  let size := r.arg 32 4
  if s.trace.running then refuse .dispatch r 6 (Config.suggestedWait 6) [] s
  else if 128 ≤ mask then bad .dispatch r 36 s
  else if mask / 64 % 2 = 1 ∧ s.ltn.cfg.lock.getLsbD 1 then refuse .dispatch r 8 6 [] s
  else if 1 < dst then bad .dispatch r 37 s
  else if ¬zeros r.args 22 2 then bad .dispatch r 38 s
  else if dst = 1 ∧ (off % 4096 ≠ 0 ∨ dramU s < off + size) then bad .dispatch r 40 s
  else if dst = 1 ∧ (size % 4096 ≠ 0 ∨ size < 65536 ∨ 1073741824 < size) then bad .dispatch r 48 s
  else
    let bits := r.arg 0 20
    let enabled := (logicalCores.zip (List.range 160)).filterMap (fun (e : Node × Nat) => if bits / 2 ^ e.2 % 2 = 1 then some e.1 else none)
    ok .dispatch r [] { s with trace := { s.trace with
      enabled, mask := BitVec.ofNat 8 mask, dram := dst = 1, off := if dst = 1 then off else 0, size := if dst = 1 then size else 262144, stopFull := r.flag 0 } }
/-- TRACE_CONFIG. -/
def execTraceConfig (s : State) : Res := .next (serveCmd .dispatch 0x0901 traceConfig s)

/-- TRACE_START (R506, R508): the counters restart; after AON_ONLY the first record is a GAP with domain code 0xFF. -/
def traceStart (r : Req) (s : State) : State :=
  let t := s.trace
  let s := { s with trace := { t with running := true, full := false, bytes := {}, records := {}, gaps := {}, drops := {}, aon := none } }
  let s := match t.aon with
    | some (a, b) => traceFunnel 0x10 0xFF (leBytes 8 a.toNat ++ leBytes 8 b.toNat) { s with trace := { s.trace with gaps := s.trace.gaps.inc } }
    | none => s
  ok .dispatch r (leBytes 8 (now s).toNat) s
/-- TRACE_START. -/
def execTraceStart (s : State) : Res := .next (serveCmd .dispatch 0x0902 traceStart s)
/-- TRACE_STOP (R355). -/
def traceStop (r : Req) (s : State) : State :=
  ok .dispatch r (leBytes 8 (now s).toNat) { s with trace := { s.trace with running := false } }
/-- TRACE_STOP. -/
def execTraceStop (s : State) : Res := .next (serveCmd .dispatch 0x0903 traceStop s)
/-- TRACE_STATUS (R355). -/
def traceStatus (r : Req) (s : State) : State :=
  let t := s.trace
  ok .dispatch r (leBytes 8 t.bytes.val.toNat ++ leBytes 4 t.records.val.toNat ++ leBytes 4 t.gaps.val.toNat ++ leBytes 4 t.drops.val.toNat) s
/-- TRACE_STATUS. -/
def execTraceStatus (s : State) : Res := .next (serveCmd .dispatch 0x0904 traceStatus s)

/-! Debug (R509–R512). -/

/-- JTAG_INSTRUCTION (R509, R511): locked, all but BYPASS, IDCODE and SAMPLE/PRELOAD are BYPASS; unlocked, EXTEST, CLAMP and HIGHZ
are taken only in READY. -/
def jtagInstruction (i : JtagInstr) (s : State) : State :=
  let locked := s.ltn.cfg.lock.getLsbD 0
  let j : JtagInstr := match i with
    | .bypass | .idcode | .samplePreload => i
    | .extest | .clamp | .highz => if locked || !(s.dev.state = .ready) then .bypass else i
    | .dap => if locked then .bypass else i
  let s := { s with trace := { s.trace with jtag := j } }
  if j = .idcode then emit (.debug (leBytes 4 Config.idcode.toNat)) s else s
/-- JTAG_INSTRUCTION. -/
def execJtagInstruction (i : JtagInstr) (s : State) : Res := .next (jtagInstruction i s)

/-- Bytes the DAP reads at a core (R512; the address map is log entry 15): core memory from 0, the scalar registers from 2^24, the
gallery's chamber from 2^32. -/
def dapGet (s : State) (n : Node) (a len : Nat) : List Byte :=
  let c := getCore s n
  if a < 2 ^ 24 then rdN c.mem a len
  else if a < 2 ^ 32 then sub ((List.range 32).flatMap (fun k => leBytes 4 (getK 0 c.s k).toNat)) (a - 2 ^ 24) len
  else rdN s.mem.chamber (n.toNat / 128 * 2 ^ 24 + a % 2 ^ 24) len
/-- The DAP writes at a core (R512). -/
def dapPut (n : Node) (a : Nat) (b : List Byte) (s : State) : State :=
  if a < 2 ^ 24 then updCore n (fun c => { c with mem := wrN c.mem a (b.take (2 ^ 19 - a)) }) s
  else if a < 2 ^ 32 then
    let k := (a - 2 ^ 24) / 4
    if 31 < k then s else updCore n (fun c => { c with s := putK 0 c.s k (BitVec.ofNat 32 (fld b 0 4)) }) s
  else { s with mem := chamberPut (n.toNat / 128 * 2 ^ 24 + a % 2 ^ 24) b [] s.mem }
/-- DAP_ACCESS (R512): its reply begins with the DAP status, 1 for a refusal. Without the DAP instruction in force the TAP is a
bypass. -/
def dapAccess (n : Node) (op : DapOp) (s : State) : State :=
  if s.trace.jtag ≠ .dap ∨ s.ltn.cfg.lock.getLsbD 0 then s
  else
    let refused := loopRuns s || !powered s n
    let act (f : State → State) : State := if refused then emit (.debug [1]) s else emit (.debug [0]) (f s)
    match op with
    | .read a len => if powered s n then emit (.debug (0 :: dapGet s n a len)) s else emit (.debug [1]) s
    | .write a b => act (dapPut n a b)
    | .halt => act (updCore n (fun c => { c with halted := true, stepOne := false }))
    | .step => act (updCore n (fun c => { c with halted := true, stepOne := true }))
    | .resume => act (updCore n (fun c => { c with halted := false, stepOne := false }))
/-- DAP_ACCESS. -/
def execDapAccess (n : Node) (op : DapOp) (s : State) : Res := .next (dapAccess n op s)

end Sys2Proof.Machine
end

