-- ==== Sys2Proof/Machine/Sio.lean ====
section
/-! DEFINITION. The supervised outputs: modes, driven levels, and the bank's samples (R278, R364, R428, R430, R520–R527). -/

namespace Sys2Proof.Machine

/-- The instance of a supervised pin (R521). -/
def pinInst (k : Nat) : Inst := sub_ 0x3FF k
/-- A pin's mode (R526): the one set, or the default. -/
def sioMode (s : State) (k : Nat) : SioMode :=
  match s.ltn.cfg.sioModes.find? (fun m => m.pin = k) with
  | some m => m
  | none =>
    match k with
    | 0 => { pin := 0, openDrain := false, load := 1, openDetect := true, rMin := 47, rMax := 220 }
    | 1 | 2 => { pin := k, openDrain := false, load := 2, openDetect := true, rMin := 47, rMax := 220 }
    | 3 => { pin := 3, openDrain := false, load := 1, openDetect := decide (2 ≤ s.dv.n), rMin := 330, rMax := 610 }
    | _ => { pin := k, openDrain := false, load := 0, openDetect := false, rMin := 0, rMax := 0 }
/-- The output is in use (R527). -/
def pinUsed (s : State) (k : Nat) : Bool := decide (k < 3) || (decide (k = 3) && decide (2 ≤ s.dv.n)) || (decide (4 ≤ k) && s.ltn.sioMask.getLsbD (k - 4))
/-- The level that the device drives on an output (R278, R364, R428, R527). -/
def pinLevel (s : State) (k : Nat) : Bool :=
  match k with
  | 0 => s.fc.safeA
  | 1 => s.fc.safeBN
  | 2 => s.fc.alive
  | 3 => decide (2 ≤ s.dv.n) && s.fc.faultOut ≠ .low
  | _ => trigLevel (getTrig s (k - 4))
/-- When the level driven on an output last changed (R522). -/
def pinEdge (s : State) (k : Nat) : Option W64 :=
  match k with
  | 0 | 1 => s.fc.safeAt
  | 2 => s.fc.aliveAt
  | 3 => s.fc.faultAt
  | _ => (getTrig s (k - 4)).edgeAt
/-- The bank does not sample an output in the 5 µs after a change of its driven level (R522). -/
def pinSettles (s : State) (k : Nat) : Bool := match pinEdge s k with | some t => decide ((now s - t).toNat < 5000) | none => false
/-- The output drives against its declared load (R522). -/
def againstLoad (m : SioMode) (d : Bool) : Bool := if d then m.load = 2 else m.load = 1
/-- The condition a sample shows (R522, R526): 0 none, 1 short to ground, 2 short to supply, 3 readback, 4 leg, 5 open. -/
def sampleCond (s : State) (p : PinSample) (d : Bool) : Nat :=
  let m := sioMode s p.pin
  let used := pinUsed s p.pin
  if m.openDrain ∧ d then 0
  else if d ∧ ¬p.level ∧ p.atLimit then 1
  else if ¬d ∧ p.level ∧ (p.atLimit ∨ m.openDrain) then 2
  else if ¬used then 0
  else if d ≠ p.level then 3
  else if againstLoad m d ∧ [0, 1, 3].contains p.pin ∧ (p.legPercent < 25 ∨ 75 < p.legPercent) then 4
  else if againstLoad m d ∧ m.openDetect ∧ p.microAmp * m.rMax * 100 < 1650000 then 5
  else 0
/-- The source of a condition (R522). -/
def condSource (c : Nat) : Source := match c with | 1 | 2 => .sioShort | 3 | 4 => .sioReadback | _ => .sioOpen
/-- A confirmed condition can be seen at this level, so a good sample there ends it. -/
def condShows (m : SioMode) (c : Nat) (d : Bool) : Bool :=
  match c with | 1 => d | 2 => !d | 3 => true | _ => againstLoad m d
/-- One pin's sample (R430, R522): five in a row confirm a condition. -/
def pinSample (p : PinSample) (s : State) : State :=
  let x := getK {} s.sio p.pin
  let d := pinLevel s p.pin
  let put (y : SioPin) (s : State) : State := { s with sio := putK {} s.sio p.pin y }
  if 15 < p.pin then s
  else if pinSettles s p.pin then s
  else
    let c := sampleCond s p d
    if c = 0 then
      if 5 ≤ x.count then
        (if condShows (sioMode s p.pin) x.cond d then clearLevel (condSource x.cond) (pinInst p.pin) (put { x with cond := 0, count := 0 } s) else s)
      else put { x with cond := 0, count := 0 } s
    else if c = x.cond then
      let s := put { x with count := x.count + 1 } s
      if x.count + 1 = 5 then
        let s := raise (condSource c) (pinInst p.pin) [BitVec.ofNat 8 c] s
        if c = 3 ∧ p.pin = 3 then raise .dvFaultPin dev [] s else s
      else s
    else
      let s := if 5 ≤ x.count then clearLevel (condSource x.cond) (pinInst p.pin) s else s
      put { x with cond := c, count := 1 } s
/-- SIO_SAMPLE (R522). -/
def execSioSample (pins : List PinSample) (s : State) : Res := .next (pins.foldl (fun (s : State) (p : PinSample) => pinSample p s) s)

end Sys2Proof.Machine
end

