-- ==== Sys2Proof/Machine/Lifecycle.lean ====
section
/-! DEFINITION. Log flushes, power-on, boot, warm reset, power cycle, standby and wake (R54, R263, R361–R374, R383, R384, R458,
R460, R470, R479, R487, R508, R530, R534, R535). -/

namespace Sys2Proof.Machine

/-! The log's flash area (R470). -/

/-- Records of the ring that are not yet in flash. -/
def unflushed (l : Log) : List LogRec := l.ring.filter (fun r => decide ((r.seq - l.flushed).toNat < 2 ^ 31))
/-- The flash log area holds 131,072 records; when it is full, its oldest sector of 2048 is erased (R470). -/
def flashKeep (l : List LogRec) : List LogRec := if l.length ≤ 131072 then l else l.drop (2048 * ceilDiv (l.length - 131072) 2048)
/-- Write the oldest `n` unflushed records to flash. -/
def flushLog (n : Nat) (s : State) : State :=
  let rs := (unflushed s.log).take n
  let l := { s.log with flash := flashKeep (s.log.flash ++ rs), flushed := match rs.getLast? with | some r => r.seq + 1 | none => s.log.flushed }
  { s with log := { l with urgentFlush := l.urgentFlush && !(unflushed l).isEmpty } }
/-- LOG_FLUSH (R470): everything after a record of class C2 or higher, else a block of 128 when one has accumulated; a write of
the configuration area goes first (chapter 21, "Flash writes"). -/
def logFlush (s : State) : State :=
  let n := (unflushed s.log).length
  if s.ltn.guard.writing ∨ ltnHeld s then s
  else if s.log.urgentFlush then flushLog n s
  else if 128 ≤ n then flushLog 128 s
  else s
/-- LOG_FLUSH. -/
def execLogFlush (s : State) : Res := .next (logFlush s)

/-! The boot (R367–R374). -/

/-- The check that refuses an image slot (R369): 0 none, 1 header, 2 signature, 3 rollback. -/
def slotCheck (otp : Nat) (x : SlotCheck) : Nat := if ¬x.wellFormed then 1 else if ¬x.signatureOk then 2 else if x.rollback < otp then 3 else 0
/-- The slot a boot takes (R369): the active one, else the other; whether it is slot B, and its image. -/
def bootSlot (otp : Nat) (f : FwSlots) : Option (Bool × SlotCheck) :=
  let at_ (b : Bool) : SlotCheck := if b then f.slotB else f.slotA
  if slotCheck otp (at_ f.activeB) = 0 then some (f.activeB, at_ f.activeB)
  else if slotCheck otp (at_ (!f.activeB)) = 0 then some (!f.activeB, at_ (!f.activeB))
  else none
/-- The strap that halts the boot (R530): 0 none, 1 FLASH, 2 TEST. -/
def strapHalt (x : BitVec 3) : Nat := if x.getLsbD 2 then 2 else if x.getLsbD 0 && x.getLsbD 1 then 1 else 0
/-- An image came from its non-active slot (R362, R369). -/
def fallback (s : State) : State := raise .bootFallback dev [] { s with dev := { s.dev with bootedAlt := true, bootClean := false } }

/-- Steps 2 and 3 (R367, R369, R370, R530): Lantern's image, or the boot halt. -/
def bootLantern (s : State) : State :=
  let otp := s.ltn.otpSteps
  let f := s.ltn.fwLantern
  let halt (h : Nat × Nat × Nat) : State := { s with dev := { s.dev with state := .bootHalt, haltCheck := h } }
  if strapHalt s.dev.straps ≠ 0 then halt (0, 0, strapHalt s.dev.straps)
  else match bootSlot otp f with
    | none => halt (slotCheck otp f.slotA, slotCheck otp f.slotB, 0)
    | some (b, x) =>
      let alt := b != f.activeB
      let s := measure 1 x.digest { s with
        dev := { s.dev with ltnFwVer := x.version, bootClean := true }
        ltn := { s.ltn with fw := true, spiNext := none, fallback := alt, fwLantern := { f with bootedB := b } } }
      if alt then fallback s else s
/-- The rails that PMBus switches come up (R534): the gallery rails at the set point for 400 MHz. -/
def railsUp (s : State) : State := (List.range 4).foldl (fun (s : State) (g : Nat) => setRail g (setPoint g 40) s) s
/-- Step 6 (R367, R371): PD_HUB, and the dispatch image; with none acceptable DISPATCH_UP stays clear. -/
def bootDispatch (s : State) : State :=
  let f := s.ltn.fwDispatch
  let s := domainOn 1 s
  let s := { s with mbL := { s.mbL with service := true } }
  match bootSlot s.ltn.otpSteps f with
  | none => { s with dev := { s.dev with bootClean := false } }
  | some (b, x) =>
    let s := measure 3 x.digest { s with
      dev := { s.dev with dispatchUp := true, dspFwVer := x.version }, mbD := { s.mbD with service := true }
      ltn := { s.ltn with fwDispatch := { f with bootedB := b } } }
    if b != f.activeB then fallback s else s
/-- Steps 4 to 7 (R367, R368, R372, R373). The digest of the configuration area is a free value (log entry 2). -/
def bootTail (s : State) : State :=
  if ¬s.ltn.cfgValid then raise .ltnConfigLost dev [] s
  else
    let d := freshBits 256 s
    let s := bootDispatch (railsUp (measure 2 (leBytes 32 d.1.toNat) d.2))
    let s := domainOn 2 s
    { s with host := { s.host with enabled := true, detect := !s.host.perst } }
/-- The boot from its ROM stage (R366, R367). -/
def bootRom (s : State) : State :=
  let s := bootLantern s
  if s.dev.state = .bootHalt then s else bootTail s

/-- A condition of a pin that the start-up pattern found, as the bank's samples keep it (R374, R522). -/
def patternPin (cond : Nat) (src : Source) (k : Nat) (s : State) : State :=
  raise src (pinInst k) [BitVec.ofNat 8 cond] { s with sio := putK {} s.sio k { cond, count := 5 } }
/-- The start-up pattern (R374): both pins inverted is a swapped harness; one wrong level is an open, a failed readback a short. -/
def startPattern (p : PatternResult) (s : State) : State :=
  if ¬p.safeAHigh ∧ p.safeBHigh then driveSafe true (raise .sioHarnessSwap dev [] s)
  else if ¬p.safeAHigh then patternPin 5 .sioOpen 0 s
  else if p.safeBHigh then patternPin 5 .sioOpen 1 s
  else if ¬p.drivenOk then patternPin 1 .sioShort (p.badPin % 2) s
  else driveFault (if s.fc.c3 then s.fc.faultOut else .low) { s with fc := { s.fc with aliveRun := true } }
/-- The site self-tests (R54): a failing site is unavailable, with one C2 record. -/
def siteTests (failed : List Node) (s : State) : State :=
  let bad := coreSites.filter (fun n => failed.contains n)
  bad.foldl (fun (s : State) (n : Node) => logRec 1 2 0 (leBytes 4 (instWord (at_ n) false).toNat) s)
    { s with dev := { s.dev with unavailable := bad, sitesLost := !bad.isEmpty } }
/-- DRAM training (R193, R194, R367): a pair without lock is retired; with a retired pair U is halved and REMAP is in force. -/
def dramBoot (lockFail : List Nat) (s : State) : State :=
  let pairs := [0, 1].filter (fun p => lockFail.any (fun c => c / 2 = p) && !s.ltn.cfg.retired.contains p)
  let s := pairs.foldl (fun (s : State) (p : Nat) => retirePair p s) s
  let r := s.ltn.cfg.retired
  { s with mem := { s.mem with retired := r, remap := !r.isEmpty, migrating := false, copied := [], halved := !r.isEmpty } }
/-- After a clean boot to READY the OTP count rises to the lower rollback step of the two images (R479); 64 is final. -/
def raiseOtp (s : State) : State :=
  let img (f : FwSlots) : SlotCheck := if f.bootedB then f.slotB else f.slotA
  let m := min 64 (min (img s.ltn.fwLantern).rollback (img s.ltn.fwDispatch).rollback)
  if s.dev.bootClean ∧ s.ltn.otpSteps < m then updateLog 5 (leBytes 1 m) { s with ltn := { s.ltn with otpSteps := m } } else s
/-- Steps 8 and 9 (R361, R367): galleries, tests, DRAM, the site map's measurement (its digest a free value), and the end state. -/
def bootEnd (e : BootEnv) (s : State) : State :=
  let s := startPattern e.pattern s
  let s := [3, 6, 9, 8, 11, 10, 13, 12, 15, 14].foldl (fun (s : State) (d : Nat) => domainOn d s) s
  let s := dramBoot e.dramLockFail (siteTests e.failedSites s)
  let d := freshBits 256 s
  let s := gateUnused (measure 4 (leBytes 32 d.1.toNat) d.2)
  let s := { s with fc := { s.fc with aliveRun := true } }
  if (heldCause s).isSome then enter .safeHold none 0 { s with fc := { s.fc with c3 := true } }
  else
    raiseOtp (enter .ready none 0 { s with fc := { s.fc with
      c3 := false, c3List := [], torchReason := .none, chan0 := { s.fc.chan0 with highest := .c0 }, chan1 := { s.fc.chan1 with highest := .c0 } } })
/-- BOOT_COMPLETE (R361). From the state right after power-on reset it takes the earlier steps first. -/
def bootComplete (e : BootEnv) (s : State) : State :=
  if s.dev.state ≠ .booting then s
  else
    let s := if s.ltn.fw then s else bootRom s
    if s.dev.state = .booting then bootEnd e s else s
/-- BOOT_COMPLETE. -/
def execBootComplete (e : BootEnv) (s : State) : Res := .next (bootComplete e s)

/-! Power and resets (R366, R460, R535). -/

/-- What the non-volatile parts hold: the flash and OTP. A written endorsed change is in the newer copy (R487). -/
def keptLtn (s : State) : Ltn :=
  let l := (endProposal s).ltn
  { cfg := l.cfg, guard := { drawn := l.guard.drawn }, otpSteps := l.otpSteps, bootSeq := l.bootSeq, cfgValid := l.cfgValid
    fwLantern := { l.fwLantern with staged := false }, fwDispatch := { l.fwDispatch with staged := false } }
/-- The device without supply, or at power-on reset: everything volatile is lost (R366). The log's sequence goes on after flash. -/
def coldState (latch : Bool) (s : State) : State :=
  let seq : W32 := match s.log.flash.getLast? with | some r => r.seq + 1 | none => 0
  { State.reset with
    pending := s.pending, free := s.free, sent := s.sent
    log := { flash := s.log.flash, seq, flushed := seq }
    ltn := keptLtn s
    host := { perst := s.host.perst }
    dev := { lockedLatch := latch, straps := s.dev.straps } }
/-- The flash as this boot reads it. -/
def readFlash (f : FlashEnv) (s : State) : State :=
  { s with ltn := { s.ltn with
      cfgValid := f.configValid
      fwLantern := { s.ltn.fwLantern with slotA := f.lanternA, slotB := f.lanternB }
      fwDispatch := { s.ltn.fwDispatch with slotA := f.dispatchA, slotB := f.dispatchB } } }
/-- Lantern's boot calibration of the reference clock: a value within ±200 ppm of nominal that no rule states (R263; log entry 2). -/
def calibrate (s : State) : State :=
  let f := freshBits 32 s
  { f.2 with time := { f.2.time with inc := BitVec.ofNat 64 (2 ^ 33 + f.1.toNat % 3435973 - 1717986) } }
/-- POWER_ON (R366, R367, R530, R535): with the latch still set the boot ROM enters LOCKED at once. -/
def powerOn (f : FlashEnv) (s : State) : State :=
  let s := readFlash f (coldState s.dev.lockedLatch s)
  let s := { s with dev := { s.dev with straps := f.straps } }
  if s.dev.lockedLatch then transition .locked none 0 { s with fc := { s.fc with c4 := true } }
  else
    let s := bootRom s
    if s.dev.state = .bootHalt then s else calibrate s
/-- POWER_ON. -/
def execPowerOn (f : FlashEnv) (s : State) : Res := .next (powerOn f s)
/-- POWER_CYCLE (R460, R535): VDD_AON below 0.5 V for 10 ms loses what is volatile and clears the LOCKED latch. -/
def execPowerCycle (s : State) : Res := .next (coldState false s)

/-- A warm reset's clearing (R366): the time unit, the log ring and the configuration area are kept. A staging that ran reads
"failed" afterwards, with a status that no rule states (chapter 17, "A warm reset arrives during FW_STAGE"; log entry 2). -/
def warmClear (s : State) : State :=
  let old := devByte s.dev
  let s := endProposal (match s.time.slave with | some _ => holdover false s | none => s)
  let f := freshBits 16 s
  let ran := staging s
  let s := if ran then f.2 else s
  let l := keptLtn s
  let t : State := { State.reset with
    pending := s.pending, free := s.free, sent := s.sent, log := s.log
    time := { s.time with trig := [], ports := [], order := [] }
    ltn := { l with guard := s.ltn.guard, stage := if ran then .failed else .idle, stageFail := if ran then f.1 else 0 }
    host := { perst := s.host.perst }
    dev := { sessions := s.dev.sessions, straps := s.dev.straps, lockedLatch := s.dev.lockedLatch } }
  logRec 2 0 0 [old, devByte t.dev] t
/-- WARM_RESET (R366): ignored in LOCKED. -/
def execWarmReset (f : FlashEnv) (s : State) : Res :=
  .next (if s.dev.state = .locked then s else bootRom (readFlash f (warmClear s)))

/-! Standby and wake (R383, R384). -/

/-- The host link's part of a shutdown (R303, R304, R383): detachment with cause STANDBY, held writes discarded, the PHY gated. -/
def standbyLink (s : State) : State :=
  let s := detachLink 7 s
  let s := functionReset (if s.host.holdEnded then s else discardHeld 2 s)
  let h := s.host
  { s with host := { gen := h.gen, cause := h.cause, replayed := h.replayed, resetSeen := h.resetSeen, detachLtc := h.detachLtc,
                     attachLtc := h.attachLtc, torn := h.torn, tornOvf := h.tornOvf, perst := h.perst } }
/-- What is lost in AON_ONLY (R384): everything outside PD_AON, and the manifest, plans and sessions. -/
def dropAll (s : State) : State :=
  let e := s.energy
  { s with
    dev := { s.dev with dispatchUp := false, dspFwVer := 0, manifestLoaded := false, session := 0, subst := [], hiLatch := [], arLatch := none, qdbLow := [] }
    mbD := {}, mbL := {}, kv := {}, mir := {}, loop := {}, plans := [], intake := {}, dv := {}, mem := {}, cores := []
    obj := { retired := s.obj.retired, nextInval := s.obj.nextInval }
    adapt := { nextId := s.adapt.nextId }
    energy := { e with grant := none, newGrant := none, winFrame := 0, nextRung := none, partnerRung := none, heat := none,
                       events := [0xFFFF, 0xFFFF, 0xFFFF, 0xFFFF, 0xFFFF], rung := 0, floor := 0, force := 0, noBudget := false }
    time := { s.time with trig := [], ports := [], order := [] }
    trace := { s.trace with running := false, gated := [], aon := some (now s, now s) }
    fc := { s.fc with torch := false, torchReason := .none, aliveRun := false, alive := false, aliveAt := edgeTime s.fc.alive false s.fc.aliveAt s, c3 := false, c3List := [] }
    ltn := { s.ltn with restart := none, missed := 0, viewDsp := [], differ := [], disagree := [], sioMask := 0, vout := [], voutAt := []
                        stage := if staging s then .failed else s.ltn.stage } }
/-- The gallery rails are lowered, in the reverse order (R534). -/
def railsDown (s : State) : State := [3, 2, 1, 0].foldl (fun (s : State) (g : Nat) => emit (.pmbus g 0) s) s
/-- An accepted standby request's steps (R383, R487, R470): detachment, quiesce and gating, the log flushed, AON_ONLY. -/
def standbySteps (s : State) : State :=
  let s := endProposal { s with mbD := { s.mbD with service := false }, mbL := { s.mbL with service := false } }
  let s := standbyLink s
  let s := match s.time.slave with | some _ => holdover false s | none => s
  let s := [2, 8, 9, 10, 11, 12, 13, 14, 15, 4, 3, 5, 7, 6, 1].foldl (fun (s : State) (d : Nat) => domainOff d s) s
  let s := railsDown (flushLog 2048 (dropAll s))
  transition .aonOnly none 0 (driveSafe true s)
/-- The states in which STANDBY is accepted (R383). -/
def standbyOk (st : DevState) : Bool := match st with | .ready | .attached | .safeHold => true | _ => false
/-- STANDBY from the safety MCU: its RESULT and payload (R383, R472). -/
def standby (s : State) : (Byte × List Byte) × State := if standbyOk s.dev.state then ((0, []), standbySteps s) else ((3, []), s)

/-- A wake (R384, R458, R508): a new drive cycle, BOOTING, and the boot from step 4. -/
def wakeUp (s : State) : State :=
  if s.dev.state ≠ .aonOnly then s
  else
    let s := clearLevel .recoveryLimit {} s
    let s := { s with
      fc := { s.fc with recovery := {} }
      trace := { s.trace with aon := s.trace.aon.map (fun e => (e.1, now s)) }
      dev := { s.dev with bootedAlt := s.ltn.fallback, bootClean := !s.ltn.fallback, unavailable := [], sitesLost := false } }
    bootTail (transition .booting none 0 s)
/-- WAKE over SPI: its RESULT and payload (R384, R472). Elsewhere than in AON_ONLY it has no effect and is refused (log entry 29). -/
def wake (s : State) : (Byte × List Byte) × State := if s.dev.state = .aonOnly then ((0, []), wakeUp s) else ((3, []), s)
/-- CAN_WAKE (R384): a frame with the wake identifier. -/
def execCanWake (ident : BitVec 29) (s : State) : Res := .next (if ident = Config.wakeId then wakeUp s else s)

end Sys2Proof.Machine
end

