-- ==== Sys2Proof/Machine/Spi.lean ====
section
/-! DEFINITION. The safety MCU's SPI port: frames, requests and their answers (R366, R370, R381–R384, R464, R471–R473, R485, R487,
R557). -/

namespace Sys2Proof.Machine

/-- FC_STATUS (R464). -/
def fcStatusWord (s : State) : Nat :=
  (highest s).num + satBit s.fc.c3 3 + satBit s.fc.c4 4 + satBit s.fc.torch 5 + satBit s.fc.tableFull 6
    + 256 * min 255 (s.fc.active.filter (fun e => e.live)).length
/-- PARKED_CHARGING is reported and at most 1 s old (R381, R472). -/
def parkedValid (s : State) : Bool := match s.ltn.parked with | some t => decide ((now s - t).toNat ≤ 1000000000) | none => false
/-- The STATUS payload (R472); the order of the SAT flags is the model's (log entry 15). -/
def spiStatusBytes (s : State) : List Byte :=
  let g := s.ltn.guard
  [devByte s.dev] ++ leBytes 1 (highest s).num ++ leBytes 1 (fcStatusWord s) ++ leBytes 1 s.fc.recovery.val.toNat
    ++ leBytes 4 (frameNo s).toNat ++ leBytes 8 (now s).toNat ++ leBytes 4 g.id.toNat ++ leBytes 1 g.phase.num ++ [g.kind]
    ++ leBytes 2 s.ltn.spiBad.val.toNat ++ leBytes 2 g.failCnt.val.toNat
    ++ leBytes 1 (satBit s.ltn.spiBad.sat 0 + satBit g.failCnt.sat 1 + satBit s.fc.recovery.sat 2)
    ++ leBytes 1 (if parkedValid s then 1 else 0) ++ (List.range 8).flatMap (fun k => leBytes 2 (getK 0 s.ltn.i3c k).toNat)
/-- The log records held, oldest first: flash, then what the ring has besides (R470, R472). -/
def heldRecs (l : Log) : List LogRec := l.flash ++ l.ring.filter (fun r => !l.flash.any (fun f => f.seq = r.seq))
/-- The LOG_READ payload (R472). -/
def logReadBytes (first : W32) (l : Log) : List Byte :=
  let all := heldRecs l
  let rs := (all.filter (fun r => decide ((r.seq - first).toNat < 2 ^ 31))).take 3
  let oldest : Nat := match all.head? with | some r => r.seq.toNat | none => 0
  leBytes 1 rs.length ++ [(0 : Byte), 0, 0] ++ leBytes 4 oldest ++ rs.flatMap logBytes

/-- A request's effect: RESULT, response payload and state (R472). RESET is served apart. -/
def spiRequest (ty : Nat) (b : List Byte) (s : State) : (Byte × List Byte) × State :=
  match ty with
  | 1 => ((0, spiStatusBytes s), s)
  | 2 => (guardQuery s, s)
  | 3 => endorse b s
  | 4 => mcuVeto (BitVec.ofNat 32 (fld b 0 4)) s
  | 5 => ((0, []), parkedReport (decide (fld b 0 1 % 2 = 1)) s)
  | 6 => standby s
  | 7 => wake s
  | 9 => ((0, logReadBytes (BitVec.ofNat 32 (fld b 0 4)) s.log), s)
  | _ => ((3, []), s)
/-- The payload of the boot halt's answer: the failed check of each Lantern slot, and the strap (R370, R530; log entry 15). -/
def haltBytes (s : State) : List Byte := leBytes 1 s.dev.haltCheck.1 ++ leBytes 1 s.dev.haltCheck.2.1 ++ leBytes 1 s.dev.haltCheck.2.2
/-- The answer that stands before Lantern firmware runs (R370, R472): its TYPE and payload. -/
def romAnswer (s : State) : Option (Byte × List Byte) :=
  if s.dev.state = .bootHalt then some (0x7F, haltBytes s) else if s.ltn.fw then none else some (0x7E, [])
/-- What the next transaction is to carry. -/
def setSpiNext (ty : Byte) (seq : W16) (res : Byte) (b : List Byte) (s : State) : State :=
  { s with ltn := { s.ltn with spiNext := some (ty, seq, res, b) } }
/-- RESET with the right payload is a warm reset (R366, R472); in LOCKED it is ignored, and refused. -/
def spiReset (b : List Byte) (s : State) : Option State :=
  if sub b 0 4 = [0x52, 0x53, 0x54, 0x31] ∧ s.dev.state ≠ .locked then some (bootRom (warmClear s)) else none
/-- A valid request with its sequence number (R471–R473). -/
def spiServe (ty : Nat) (seq : W16) (b : List Byte) (s : State) : State :=
  if ltnHeld s then s
  else match romAnswer s with
    | some (t, p) => setSpiNext t seq 3 p s
    | none =>
      let s := { s with ltn := { s.ltn with spiLast := some (now s), spiLost := false } }
      match (if ty = 8 then spiReset b s else none) with
      | some s => s
      | none =>
        let r := spiRequest ty b s
        setSpiNext (BitVec.ofNat 8 ty) seq r.1.1 r.1.2 r.2

/-- A frame on MISO (R471). -/
def misoFrame (ty : Byte) (seq : W16) (res : Byte) (b : List Byte) (s : State) : List Byte :=
  let f : List Byte := [0xA5, ty] ++ leBytes 2 seq.toNat ++ leBytes 2 (min b.length 112) ++ [devByte s.dev, res] ++ sub b 0 112 ++ [0, 0, 0, 0]
  f ++ leBytes 4 (crc32c f).toNat
/-- The frame that this transaction carries (R370, R471, R472): the response due, else the ROM's answer or a STATUS response. -/
def misoNow (s : State) : List Byte :=
  match s.ltn.spiNext with
  | some (ty, seq, res, b) => misoFrame ty seq res b s
  | none => match romAnswer s with
    | some (t, p) => misoFrame t 0 3 p s
    | none => misoFrame 1 0 0 (spiStatusBytes s) s
/-- A request frame is well formed (R471, R557). -/
def mosiOk (b : List Byte) (edges : Nat) : Bool :=
  decide (edges = 1024) && decide (b.length = 128) && decide (fld b 0 1 = 0x5A) && decide (fld b 4 2 ≤ 112)
    && decide (fld b 124 4 = (crc32c (b.take 124)).toNat)
/-- SPI_TRANSACTION (R471, R557): one too soon after the last is not decoded; else MISO carries the response due, and the request
is judged. -/
def spiTransaction (b : List Byte) (edges : Nat) (s : State) : State :=
  let badFrame (res : Byte) (s : State) : State :=
    setSpiNext (BitVec.ofNat 8 (fld b 1 1)) (BitVec.ofNat 16 (fld b 2 2)) res [] { s with ltn := { s.ltn with spiBad := s.ltn.spiBad.inc } }
  if ltnHeld s then s
  else if (match s.ltn.spiEnd with | some t => decide ((now s - t).toNat < 50000) | none => false) then
    { s with ltn := { s.ltn with spiBad := s.ltn.spiBad.inc, spiEnd := some (now s) } }
  else
    let s := emit (.spi (misoNow s)) { s with ltn := { s.ltn with spiEnd := some (now s), spiNext := none } }
    if (romAnswer s).isSome then spiServe (fld b 1 1) (BitVec.ofNat 16 (fld b 2 2)) [] s
    else if ¬mosiOk b edges then badFrame 1 s
    else if fld b 1 1 < 1 ∨ 9 < fld b 1 1 then badFrame 2 s
    else spiServe (fld b 1 1) (BitVec.ofNat 16 (fld b 2 2)) (sub (b.drop 8) 0 (fld b 4 2)) s
/-- SPI_TRANSACTION. -/
def execSpiTransaction (mosi : List Byte) (edges : Nat) (s : State) : Res := .next (spiTransaction mosi edges s)

/-! The requests as commands of their own: a valid request with SEQ 0. -/

/-- SPI_STATUS. -/
def execSpiStatus (s : State) : Res := .next (spiServe 1 0 [] s)
/-- GUARD_QUERY. -/
def execGuardQuery (s : State) : Res := .next (spiServe 2 0 [] s)
/-- ENDORSE. -/
def execEndorse (b : List Byte) (s : State) : Res := .next (spiServe 3 0 b s)
/-- SPI_VETO. -/
def execSpiVeto (id : W32) (s : State) : Res := .next (spiServe 4 0 (leBytes 4 id.toNat) s)
/-- PARKED_CHARGING. -/
def execParkedCharging (on : Bool) (s : State) : Res := .next (spiServe 5 0 [if on then 1 else 0] s)
/-- STANDBY. -/
def execStandby (s : State) : Res := .next (spiServe 6 0 [] s)
/-- WAKE. -/
def execWake (s : State) : Res := .next (spiServe 7 0 [] s)
/-- SPI_RESET. -/
def execSpiReset (b : List Byte) (s : State) : Res := .next (spiServe 8 0 b s)
/-- LOG_READ. -/
def execLogRead (first : W32) (s : State) : Res := .next (spiServe 9 0 (leBytes 4 first.toNat) s)

/-- SPI_SILENCE (R353, R473): 100 ms without a valid request; one SPI record per loss. -/
def spiSilence (s : State) : State :=
  if s.ltn.spiLost ∨ ¬s.ltn.fw then s else logRec 8 0 1 [] { s with ltn := { s.ltn with spiLost := true, spiLast := none } }
/-- SPI_SILENCE. -/
def execSpiSilence (s : State) : Res := .next (spiSilence s)

end Sys2Proof.Machine
end

