-- ==== Sys2Proof/Machine/Regs.lean ====
section
/-! DEFINITION. BAR0: what each register reads as, the latches of reads in halves, and writes by access code (R4–R7, R217, R282,
R283, R301, R329, R330, R338, R416, R438, R464, R506, R540, R562–R578). -/

namespace Sys2Proof.Machine

/-- LINK_STATUS (R567). -/
def linkStatus (h : HostLink) : Nat := h.width % 16 + 16 * (h.rate % 16) + satBit h.cxl 8 + satBit h.attached 9
/-- PD_STATUS (R540): the domains that are on; no switching transition lasts beyond a command. -/
def pdStatus (s : State) : Nat := satMap ((List.range 16).map (fun d => !s.fab.gated.contains d))
/-- CONSTELLATION (R569). -/
def constellation (s : State) : Nat :=
  if s.dev.manifestLoaded then s.dv.p % 8 + 256 * (s.dv.n % 16) + 65536 * pairMode s.dv + satBit s.dv.preferred 18 else 0x30000
/-- The identity registers, 0x0000–0x0047 (R565, R566, R568, R570). -/
def identityBytes (s : State) : List Byte :=
  leBytes 4 0x3834474D ++ leBytes 4 0x3142 ++ leBytes 4 0x10000 ++ leBytes 4 0 ++ leBytes 4 (devstate s.dev).toNat ++ leBytes 4 (linkStatus s.host)
    ++ leBytes 4 (pdStatus s) ++ leBytes 4 s.dev.straps.toNat ++ leBytes 16 Config.serial.toNat ++ leBytes 8 s.dev.dspFwVer.toNat
    ++ leBytes 8 s.dev.ltnFwVer.toNat ++ leBytes 4 (constellation s) ++ leBytes 4 s.dev.scratch.toNat
/-- A port's state code (R438). -/
def PortState.num (p : PortState) : Nat := match p with | .unused => 0 | .down => 1 | .training => 2 | .active => 3 | .held => 4
/-- DV_PORT (R438). -/
def dvPortWord (p : DvPort) : Nat :=
  p.state.num + 16 * (match p.width with | 0 => 0 | 1 => 1 | 2 => 2 | _ => 3) + 256 * p.good.toNat + 4096 * p.inverted.toNat + satBit p.reversed 16
    + 2 ^ 24 * (p.far % 8)
/-- DV_FLAGS (R438). -/
def dvFlags (s : State) : Nat := satMap ([0, 1].flatMap (fun k => let p := getDv s k; [p.crc.sat, p.replay.sat, p.retrain.sat]))
/-- DV_PARTNER (R438): the route, FAULT_IN as classified, and the partner's DEVSTATE. -/
def dvPartner (s : State) : Nat :=
  let direct := if s.dv.p % 2 = 0 then 1 else 0
  (match partnerPort s with | none => 0 | some k => if k = direct then 1 else 2)
    + 16 * (if s.fc.faultIn then (match s.fc.partnerClass with | some .c3 => 1 | some .c4 => 2 | _ => 0) else 0)
    + 256 * (match s.dv.partner with | some b => b.devstate.toNat | none => 0)
/-- The Dvorpo view, 0x0200–0x021B (R438). -/
def dvBytes (s : State) : List Byte :=
  let one (k : Nat) : List Byte := let p := getDv s k; leBytes 4 (dvPortWord p) ++ leBytes 2 p.crc.val.toNat ++ leBytes 2 p.replay.val.toNat
  one 0 ++ one 1 ++ leBytes 2 (getDv s 0).retrain.val.toNat ++ leBytes 2 (getDv s 1).retrain.val.toNat ++ leBytes 4 (dvFlags s) ++ leBytes 4 (dvPartner s)

/-- The 64 bytes of URG_SLOT (R338). -/
def urgBytes (u : Urg) : List Byte :=
  match u.slot with
  | none => List.replicate 64 0
  | some (q, r) =>
    let b := leBytes 4 q.toNat ++ leBytes 2 r.source.code.toNat ++ leBytes 1 r.cls.num
      ++ leBytes 1 (satBit r.saturated 0 + satBit r.occur.sat 1 + satBit r.fromPartner 2) ++ leBytes 8 r.first.toNat ++ leBytes 8 r.latest.toNat
      ++ leBytes 2 r.occur.val.toNat ++ [r.devstate, 0] ++ leBytes 4 r.frame.toNat ++ sub r.payload 0 28
    b ++ leBytes 4 (crc32c b).toNat
/-- The slots of a mailbox in a phase, as a bit map. -/
def phaseMap (b : Mbx) (p : SlotPhase) : Nat := satMap ((List.range 8).map (fun k => decide ((getK {} b.slots k).phase = p)))
/-- A word of a mailbox block (R329). -/
def mailboxRead (m : Mailbox) (o : Nat) (s : State) : Nat :=
  let b := getMb m s
  let urg : Bool := match m with | .lantern => true | .dispatch => false
  let k := (o - 0x1000) / 0x200
  let i := (o - 0x1000) % 0x200
  if 0x1000 ≤ o ∧ o < 0x2000 then (if i < 256 then leVal (rdN b.req (k * 256 + i) 4) else leVal (rdN b.rsp (k * 256 + (i - 256)) 4))
  else if urg = true ∧ 0xF00 ≤ o ∧ o < 0xF40 then fld (urgBytes s.urg) (o - 0xF00) 4
  else if urg = true ∧ o = 0xF44 then s.urg.pending.length
  else match o with
    | 0x00 => satBit b.service 0 + 0x10000
    | 0x08 => phaseMap b .busy
    | 0x0C => phaseMap b .done
    | 0x10 => satBit b.irqEn 0
    | 0x14 => b.bad.val.toNat
    | 0x18 => satBit b.bad.sat 0
    | _ => 0
/-- The doorbell and event block, 0x0000–0x002F (R571, R574, R575). -/
def objBlock (s : State) : List Byte :=
  List.replicate 16 0 ++ leBytes 8 s.obj.retired.toNat ++ leBytes 2 s.obj.evtLost.val.toNat ++ leBytes 2 s.obj.dbDrop.val.toNat
    ++ leBytes 4 (satBit s.obj.evtLost.sat 0 + satBit s.obj.dbDrop.sat 1)
    ++ leBytes 4 (slotsUsed s + 256 * slotsPinned s + 65536 * s.obj.dbFifo.length) ++ leBytes 4 0
    ++ leBytes 8 (satMap ((List.range 64).map (fun k => s.obj.evts.any (fun e => e.slot = k && e.armed))))
/-- A window's control block (R301). -/
def inbBytes (x : InbWin) : List Byte :=
  leBytes 4 (satBit x.bound 0 + 4 * ((x.nb - 1) % 4) + 4096 * x.bufsz) ++ leBytes 4 x.obj.toNat ++ leBytes 4 (x.rid.toNat + satBit x.filter 16)
    ++ leBytes 2 (satMap ((List.range 4).map (fun b => x.isHeld b))) ++ leBytes 2 x.seq.toNat ++ leBytes 8 x.dbLtc.toNat
    ++ leBytes 2 x.oor.val.toNat ++ leBytes 2 x.rej.val.toNat ++ leBytes 4 x.heldCnt.val.toNat
    ++ leBytes 4 (satBit x.oor.sat 0 + satBit x.rej.sat 1 + satBit x.heldCnt.sat 2)
/-- The fault collector view (R464). -/
def fcBytes (s : State) : List Byte :=
  leBytes 4 (fcStatusWord s) ++ leBytes 4 (s.fc.recovery.val.toNat + satBit s.fc.recovery.sat 8 + 65536 * s.ltn.cfg.recoveryLimit)
    ++ leBytes 4 (satBit s.fc.safeA 0 + satBit s.fc.safeBN 1 + satBit s.fc.alive 2 + satBit (pinLevel s 3) 3 + satBit s.fc.faultIn 4
        + satBit s.fc.chan0.asserting 8 + satBit s.fc.chan1.asserting 9) ++ leBytes 4 0
    ++ leBytes 8 s.fc.lastLtc.toNat ++ leBytes 4 (s.fc.lastSrc.toNat + 65536 * s.fc.lastCls.num) ++ leBytes 4 s.fc.lastInst.toNat
    ++ leBytes 4 s.ltn.cfg.defaultQuiet
/-- The trace control block (R506). -/
def traceBlock (s : State) : List Byte :=
  let t := s.trace
  leBytes 4 (satBit t.running 0 + satBit t.stopFull 1 + satBit t.full 2 + satBit t.dram 3 + 256 * t.mask.toNat) ++ leBytes 4 s.ltn.cfg.lock.toNat
    ++ leBytes 8 t.bytes.val.toNat ++ leBytes 4 t.records.val.toNat ++ leBytes 4 t.gaps.val.toNat ++ leBytes 4 t.drops.val.toNat
    ++ leBytes 4 (satBit t.bytes.sat 0 + satBit t.records.sat 1 + satBit t.gaps.sat 2 + satBit t.drops.sat 3)
/-- The attach record from 0x0004 to 0x002F (R576, R577). -/
def attachBytes (s : State) : List Byte :=
  let h := s.host
  leBytes 4 h.gen.toNat ++ leBytes 4 (h.cause.toNat + satBit h.replayed 8 + satBit h.resetSeen 9) ++ leBytes 4 0 ++ leBytes 8 h.detachLtc.toNat
    ++ leBytes 4 (h.torn.length + satBit h.tornOvf 16) ++ leBytes 4 (heldBytes h) ++ leBytes 8 h.attachLtc.toNat ++ leBytes 4 s.plans.length ++ leBytes 4 0
/-- A word of the MSI-X table and pending array (R302, R562). -/
def msixRead (o : Nat) (s : State) : Nat :=
  let e := getVec s (o / 16)
  if o < 0x400 then
    (match o % 16 / 4 with | 0 => e.addr.toNat % 2 ^ 32 | 1 => e.addr.toNat / 2 ^ 32 | 2 => e.data.toNat | _ => satBit e.masked 0)
  else if 0x8000 ≤ o ∧ o < 0x8008 then satMap ((List.range 32).map (fun k => (getVec s ((o - 0x8000) / 4 * 32 + k)).pend))
  else 0
/-- The live value of the 32-bit register at a BAR0 offset (R562); what no register holds reads 0 (R5). The parameters in TRIG_n,
whose layout no rule gives, are free values (log entry 15). -/
def regRead (off : Nat) (s : State) : W32 × State :=
  let o := off % 65536
  let v (n : Nat) : W32 × State := (BitVec.ofNat 32 n, s)
  match off / 65536 with
  | 0 => if o < 0x48 then v (fld (identityBytes s) o 4) else if 0x200 ≤ o ∧ o < 0x21C then v (fld (dvBytes s) (o - 0x200) 4) else v 0
  | 1 => v (mailboxRead .dispatch o s)
  | 2 => v (mailboxRead .lantern o s)
  | 3 => v (fld (objBlock s) o 4)
  | 4 => if o < 0x400 then v (fld (inbBytes (getInb s (o / 0x40))) (o % 0x40) 4) else v 0
  | 5 =>
    if 0x100 ≤ o ∧ o < 0x1C0 then freshBits 32 s
    else if 0x200 ≤ o ∧ o < 0x218 then v (fld (supprBytes s) (o - 0x200) 4)
    else if o = 0x220 then v s.time.domainCnt.val.toNat
    else v (fld (timeBlock s) o 4)
  | 6 => v (fld (fcBytes s) o 4)
  | 7 => v (fld (ledgerBytes s) o 4)
  | 8 => v (fld (traceBlock s) o 4)
  | 9 => if o = 0 then v s.dev.session.toNat
      else match s.dev.arLatch with
        | some ws => v (ws.getD (o / 4 - 1) 0).toNat
        | none => v (fld (attachBytes s) (o - 4) 4)
  | 15 => v (msixRead o s)
  | _ => v 0

/-- The low half of a 64-bit register (R217, R282, R301, R464, R506, R565, R571, R576). -/
def lowHalf (off : Nat) : Bool :=
  let o := off % 65536
  match off / 65536 with
  | 0 => o = 0x30 || o = 0x38
  | 3 => o = 0x10 || o = 0x28
  | 4 => decide (o < 0x400) && decide (o % 0x40 = 0x10)
  | 5 => [0x00, 0x08, 0x10, 0x20, 0x30, 0x40, 0x78].contains o
  | 6 => o = 0x10
  | 7 => decide (o ≤ 0x80) && decide (o % 8 = 0)
  | 8 => o = 0x08
  | 9 => o = 0x10 || o = 0x20
  | _ => false
/-- Keep a word for the next read of an offset. -/
def latch (off : Nat) (v : W32) (s : State) : State := { s with dev := { s.dev with hiLatch := putK none s.dev.hiLatch off (some v) } }
/-- Latch what the register at an offset reads now. -/
def latchNow (off : Nat) (s : State) : State := let r := regRead off s; latch off r.1 r.2
/-- The answer of a 32-bit read. -/
def bar0Reply (off : Nat) (v : W32) (s : State) : State := emit (.bar0 off (v.setWidth 64)) s
/-- A read of LTC_LO (R7, R282): LTC_HI, PTC_SEC and PTC_NS are latched from the same tick. -/
def ltcLoRead (s : State) : State :=
  let r := regRead 0x50000 s
  bar0Reply 0x50000 r.1 ([0x50004, 0x50010, 0x50014, 0x50018].foldl (fun (s : State) (o : Nat) => latchNow o s)
    { s with dev := { s.dev with hiLatch := [0x50004, 0x50010, 0x50014, 0x50018].foldl (fun (m : SMap (Option W32)) (o : Nat) => putK none m o none) s.dev.hiLatch } })
/-- A read of AR_SESSION (R578): it latches offsets 0x0004 to 0x002F. -/
def arSessionRead (s : State) : State :=
  let b := attachBytes s
  bar0Reply 0x90000 s.dev.session
    { s with dev := { s.dev with arLatch := some ((List.range 11).map (fun k => BitVec.ofNat 32 (fld b (4 * k) 4))) } }
/-- A 32-bit read (R5, R7, R563): a latched word is returned once; a low half latches its high half. -/
def lowHalfRead (off : Nat) (s : State) : State :=
  let off := off / 4 * 4
  if off = 0x50000 then ltcLoRead s
  else if off = 0x90000 then arSessionRead s
  else match getK none s.dev.hiLatch off with
    | some v => bar0Reply off v { s with dev := { s.dev with hiLatch := putK none s.dev.hiLatch off none } }
    | none =>
      let r := regRead off s
      let s := if lowHalf off then latchNow (off + 4) r.2 else r.2
      bar0Reply off r.1 s
/-- LOW_HALF_READ. -/
def execLowHalfRead (off : Nat) (s : State) : Res := .next (lowHalfRead off s)
/-- LTC_LO_READ. -/
def execLtcLoRead (s : State) : Res := .next (ltcLoRead s)
/-- AR_SESSION_READ. -/
def execArSessionRead (s : State) : Res := .next (arSessionRead s)

/-! Writes. -/

/-- TIME_EVENT (R282, R283): each 1 bit clears its cause. -/
def timeEventClear (v : W32) (s : State) : State := { s with time := { s.time with event := s.time.event &&& ~~~(v.setWidth 6) } }
/-- LEDGER_FLAGS (R217): each 1 bit clears its flag and counter. -/
def ledgerFlags (v : W32) (s : State) : State :=
  let e := s.energy
  { s with energy := { e with
      rungFrames := (List.range 6).foldl (fun (m : SMap (Stick 32)) (n : Nat) => if v.getLsbD (23 + n) then putK {} m n {} else m) e.rungFrames
      writeoff := if v.getLsbD 29 then {} else e.writeoff
      ceilingCnt := if v.getLsbD 30 then {} else e.ceilingCnt
      overdraft := if v.getLsbD 31 then {} else e.overdraft } }
/-- OBJ_FLAGS (R574). -/
def objFlags (v : W32) (s : State) : State :=
  { s with obj := { s.obj with evtLost := if v.getLsbD 0 then {} else s.obj.evtLost, dbDrop := if v.getLsbD 1 then {} else s.obj.dbDrop } }
/-- TRC_FLAGS (R506). -/
def trcFlags (v : W32) (s : State) : State :=
  let t := s.trace
  { s with trace := { t with bytes := if v.getLsbD 0 then {} else t.bytes, records := if v.getLsbD 1 then {} else t.records,
                             gaps := if v.getLsbD 2 then {} else t.gaps, drops := if v.getLsbD 3 then {} else t.drops } }
/-- TIME_EVENT. -/
def execTimeEvent (v : W32) (s : State) : Res := .next (timeEventClear v s)
/-- LEDGER_FLAGS. -/
def execLedgerFlags (v : W32) (s : State) : Res := .next (ledgerFlags v s)
/-- OBJ_FLAGS. -/
def execObjFlags (v : W32) (s : State) : Res := .next (objFlags v s)
/-- TRC_FLAGS. -/
def execTrcFlags (v : W32) (s : State) : Res := .next (trcFlags v s)

/-- DV_FLAGS (R416, R438): each 1 bit clears its flag and counter. -/
def dvFlagsClear (v : W32) (s : State) : State :=
  let one (k : Nat) (s : State) : State :=
    let p := getDv s k
    setDv k { p with crc := if v.getLsbD (3 * k) then {} else p.crc, replay := if v.getLsbD (3 * k + 1) then {} else p.replay,
                     retrain := if v.getLsbD (3 * k + 2) then {} else p.retrain } s
  one 1 (one 0 s)
/-- INB_FLAGS (R301). -/
def inbFlagsClear (w : Nat) (v : W32) (s : State) : State :=
  let x := getInb s w
  setInb w { x with oor := if v.getLsbD 0 then {} else x.oor, rej := if v.getLsbD 1 then {} else x.rej, heldCnt := if v.getLsbD 2 then {} else x.heldCnt } s
/-- TXTS_FLAGS (R282). -/
def txtsFlagsClear (v : W32) (s : State) : State :=
  (List.range 4).foldl (fun (s : State) (k : Nat) => if v.getLsbD k then setPtp k { getPtp s k with ovf := false } s else s) s
/-- Host bytes for a request area (R329, R330): accepted while the slot is FREE, else discarded and counted. -/
def reqWrite (m : Mailbox) (slot i : Nat) (v : W32) (s : State) : State :=
  let b := getMb m s
  if (getK {} b.slots slot).phase = .free then setMb m { b with req := wrN b.req (slot * 256 + i) (leBytes 4 v.toNat) } s
  else setMb m { b with bad := b.bad.inc } s
/-- A 32-bit write to a mailbox block (R329). -/
def mailboxWrite (m : Mailbox) (o : Nat) (v : W32) (s : State) : State :=
  let k := (o - 0x1000) / 0x200
  let i := (o - 0x1000) % 0x200
  if 0x1000 ≤ o ∧ o < 0x2000 then (if i < 256 then reqWrite m k i v s else s)
  else match o, m with
    | 0x04, _ => mbDoorbell m v s
    | 0x0C, _ => mbDone m v s
    | 0x10, _ => setMb m { getMb m s with irqEn := v.getLsbD 0 } s
    | 0x18, _ => mbBadSat m v s
    | 0xF40, .lantern => urgAck v s
    | _, _ => s
/-- A 32-bit write to the MSI-X table (R302). -/
def msixWrite (o : Nat) (v : W32) (s : State) : State :=
  if 0x400 ≤ o then s
  else
    let k := o / 16
    let e := getVec s k
    let e := match o % 16 / 4 with
      | 0 => { e with addr := (e.addr >>> 32).setWidth 32 ++ v }
      | 1 => { e with addr := v ++ e.addr.setWidth 32 }
      | 2 => { e with data := v }
      | _ => { e with masked := v.getLsbD 0 }
    flushMsix { s with host := { s.host with msix := putK {} s.host.msix k e } }
/-- The C0 note of a write that is discarded, which names the offset (R6, R563). -/
def discardNote (off : Nat) (s : State) : State := note 0 ([5, 0, 0, 0] ++ leBytes 4 off) s
/-- An aligned 32-bit write (R4–R6). -/
def regWrite32 (off : Nat) (v : W32) (rid : W16) (s : State) : State :=
  let o := off % 65536
  match off / 65536, o with
  | 0, 0x44 => { s with dev := { s.dev with scratch := v } }
  | 0, 0x214 => dvFlagsClear v s
  | 1, _ => mailboxWrite .dispatch o v s
  | 2, _ => mailboxWrite .lantern o v s
  | 3, 0x00 => queueDb (.low rid v) s
  | 3, 0x04 => queueDb (.high rid v) s
  | 3, 0x08 => evtRearm v s
  | 3, 0x1C => objFlags v s
  | 4, _ => if o < 0x400 ∧ o % 0x40 = 0x20 then inbFlagsClear (o / 0x40) v s else s
  | 5, 0x38 => timeEventClear v s
  | 5, 0x3C => txtsFlagsClear v s
  | 5, 0x48 => clearTimeSat v.toNat s
  | 7, 0x94 => discardNote off s
  | 7, 0xA8 => ledgerFlags v s
  | 8, 0x1C => trcFlags v s
  | 15, _ => msixWrite o v s
  | _, _ => s
/-- A write (R563, R564): aligned 32-bit or 64-bit; anything else is discarded with a note. -/
def registerWrite (off : Nat) (w : AccW) (v : W64) (rid : W16) (s : State) : State :=
  match w with
  | .b8 | .b16 => discardNote off s
  | .b32 => if off % 4 = 0 then regWrite32 off (v.setWidth 32) rid s else discardNote off s
  | .b64 =>
    if off % 8 ≠ 0 then discardNote off s
    else if off = 0x30000 then queueDb (.whole v) s
    else regWrite32 (off + 4) ((v >>> 32).setWidth 32) rid (regWrite32 off (v.setWidth 32) rid s)
/-- REGISTER_WRITE. -/
def execRegisterWrite (off : Nat) (w : AccW) (v : W64) (rid : W16) (s : State) : Res := .next (registerWrite off w v rid s)

end Sys2Proof.Machine
end

