-- ==== Sys2Proof/Machine/Vector.lean ====
section
/-! DEFINITION. VECTOR instructions: arithmetic, compare, select, conversion, transcendentals, accumulator and state access,
RESCALE and SCLLOAD (R66–R68, R72–R74, R142, R143, R170, R173–R178). -/

namespace Sys2Proof.Machine

/-- The accumulator entry behind a lane of a row pair: lanes 0–31 in the even row, 32–63 in the odd one (log entry 20). -/
def pairRow (pair : BitVec 4) (lane : Nat) : Nat := 2 * pair.toNat + lane / 32
/-- A lane's accumulator entry. -/
def pairEntry (c : Core) (bank : Bool) (pair : BitVec 4) (lane : Nat) : W32 := getA c bank (pairRow pair lane) (lane % 32)

/-- Write the enabled lanes of a vector register. -/
def setLanes (vd : Nat) (pred : BitVec 64) (g : Nat → W32) (c : Core) : Core :=
  setV vd (fun l => if pred.getLsbD l then g l else getV c vd l) c

/-- The conversion of one lane's elements (R74, R169): as many as both formats hold, right-aligned (log entry 20). -/
def convElems (src dst : Nat) (w : W32) : List (Nat × Bool) :=
  ((unpack src w).take (32 / fmtBits dst)).map (fun e => convTo dst (viaFp32 (elemNum src e)))

/-- The vector format of an A1 state format (R66, R75 AFMT). -/
def afmtCode (a : Nat) : Nat := match a with | 0 => 1 | 1 => 2 | 2 => 4 | _ => 5

/-- One state element written (R175): scaled by ρ_d for an integer format, then converted. -/
def stateConv (c : Core) (afmt sbase d : Nat) (v : W32) : Nat × Bool :=
  let x := if 2 ≤ afmt then fpMul fp32 v.toNat (getScl c (sbase + 32 + d)).toNat else v.toNat
  convTo (afmtCode afmt) (decodeFp fp32 x)
/-- One state element read as FP32 (R143): exact, an integer times σ_d. -/
def stateVal (c : Core) (afmt sbase d : Nat) (e : W32) : W32 :=
  let x := encodeFp fp32 (elemNum (afmtCode afmt) e.toNat)
  BitVec.ofNat 32 (if 2 ≤ afmt then fpMul fp32 x (getScl c (sbase + d)).toNat else x)

/-- The clip events a converting instruction counts, on one counter (R174, R176): elements of enabled lanes in order. -/
def laneCounts (pred : BitVec 64) (k : Nat → Nat) (r : Nat → List (Nat × Bool)) : List (Nat × Bool) :=
  (List.range 64).flatMap (fun l => if pred.getLsbD l then (r l).map (fun x => (k l, x.2)) else [])

/-- The format checks of VECTOR at issue (R74, R66). -/
def vecFmtBad (op : VecOp) (fmt : Nat) (st : Bool) : Bool :=
  match op with
  | .stateWrite _ _ => !st
  | .stateRead _ _ => !st
  | .convert _ => false
  | .trans _ => false
  | .accRead _ _ => false
  | _ => decide (6 ≤ fmt)

/-- Earlier array operations that the instruction must wait for (R65, R142). -/
def vecWaits (op : VecOp) (c : Core) : Bool :=
  match op with
  | .accRead bank _ => c.mat.any (fun m => m.bank = bank)
  | .stateWrite _ _ => c.mat.any (fun m => m.feed)
  | _ => false

/-- VECTOR (R67, R68, R72–R74, R143, R174, R175). -/
def vectorStep (n : Node) (op : VecOp) (f : Field) (c : Core) (s : State) : State :=
  let vd := bits f 53 49
  let va (l : Nat) : W32 := getV c (bits f 48 44) l
  let vb (l : Nat) : W32 := getV c (bits f 43 39) l
  let vc (l : Nat) : W32 := getV c (bits f 38 34) l
  let fmt := bits f 29 27
  let sat := f.getLsbD 26
  let clidx := bits f 8 0
  let st := c.status.getLsbD 17
  let afmt := c.status.toNat / 2 ^ 18 % 4
  match op, predOf c (bits f 33 30) with
  | .undefinedOp, _ => coreFault n .coreIllegalOp 0 0 s
  | _, none => coreFault n .coreIllegalOp 0 0 s
  | op, some pred =>
    if vecFmtBad op fmt st then coreFault n .coreIllegalFormat 0 0 s
    else if vecWaits op c then coreWait n .operands s
    else match op with
      | .cmp r =>
        if 8 ≤ vd then coreFault n .coreIllegalOp 0 0 s
        else
          let old := getP c vd
          let bit (l : Nat) : Bool := if pred.getLsbD l then laneCmp r fmt (va l) (vb l) else old.getLsbD l
          retireWith n (setP vd (BitVec.ofNat 64 (bitsToNat ((List.range 64).map bit))) c) s
      | .select =>
        retireWith n (setV vd (fun l => if pred.getLsbD l then va l else vb l) c) s
      | .convert dst =>
        let r (l : Nat) : List (Nat × Bool) := convElems fmt dst.toNat (va l)
        let c := if sat ∧ dst ≠ 0 then countConvs (laneCounts pred (fun _ => clidx) r) c else c
        retireWith n (setLanes vd pred (fun l => pack dst.toNat ((r l).map (·.1))) c) s
      | .trans fn => retireWith n (setLanes vd pred (fun l => transFn fn (va l)) c) s
      | .accRead bank pair => retireWith n (setLanes vd pred (fun l => pairEntry c bank pair l) c) s
      | .stateWrite pair sbase =>
        let r (l : Nat) : Nat × Bool := stateConv c afmt sbase.toNat (pairRow pair l) (va l)
        let c' := if sat then countConvs (laneCounts pred (fun _ => clidx) (fun l => [r l])) c else c
        let new (k : Nat) : W32 :=
          let l := k - 64 * pair.toNat
          if 64 * pair.toNat ≤ k ∧ l < 64 ∧ pred.getLsbD l then BitVec.ofNat 32 (r l).1 else getK 0 c.a1 k
        retireWith n (setBank true new c') s
      | .stateRead pair sbase =>
        retireWith n (setLanes vd pred (fun l => stateVal c afmt sbase.toNat (pairRow pair l) (pairEntry c true pair l)) c) s
      | op => retireWith n (setLanes vd pred (fun l => laneOp op fmt (va l) (vb l) (vc l)) c) s
/-- VECTOR. -/
def execVector (n : Node) (op : VecOp) (f : Field) (s : State) : Res := .next (issue n (vectorStep n op f) s)

/-- The activation of RESCALE (R173 step 3). -/
def rescaleAct (act : Nat) (limit t : W32) : W32 :=
  match act with
  | 0 => t
  | 1 => BitVec.ofNat 32 (fpMax fp32 t.toNat 0)
  | _ => BitVec.ofNat 32 (fpMin fp32 (fpMax fp32 t.toNat 0) limit.toNat)

/-- RESCALE of one entry of channel k (R173 steps 1 to 4). -/
def rescaleEntry (c : Core) (act fmt k : Nat) (isFp : Bool) (acc : W32) : Nat × Bool :=
  let x := if isFp then acc.toNat else encodeFp fp32 (ofInt acc.toInt)
  let t := BitVec.ofNat 32 (fpFma fp32 x (getScl c (2 * k)).toNat (getScl c (2 * k + 1)).toNat)
  convTo fmt (decodeFp fp32 (rescaleAct act (getScl c 1023) t).toNat)

/-- RESCALE (R173, R174): an accumulator row pair, or FP32 values of a vector register, by channel b + row. -/
def rescaleStep (n : Node) (sel : RescaleSel) (f : Field) (c : Core) (s : State) : State :=
  let act := bits f 19 18
  let fmt := bits f 29 27
  match predOf c (bits f 33 30) with
  | none => coreFault n .coreIllegalOp 0 0 s
  | some pred =>
    let chan (l : Nat) : Nat := (sel.base.toNat + pairRow sel.pair l) % 512
    if act = 3 ∨ (act = 2 ∧ (List.range 64).any (fun l => pred.getLsbD l && decide (chan l = 511))) then
      coreFault n .coreIllegalOp 0 0 s
    else if ¬sel.fromVector ∧ c.mat.any (fun m => m.bank = sel.bank) then coreWait n .operands s
    else
      let isFp := sel.fromVector || (if sel.bank then c.fp1 else c.fp0)
      let src (l : Nat) : W32 := if sel.fromVector then getV c (bits f 48 44) l else pairEntry c sel.bank sel.pair l
      let r (l : Nat) : Nat × Bool := rescaleEntry c act fmt (chan l) isFp (src l)
      let c' := if f.getLsbD 26 ∧ fmt ≠ 0 then countConvs (laneCounts pred chan (fun l => [r l])) c else c
      retireWith n (setLanes (bits f 53 49) pred (fun l => BitVec.ofNat 32 (r l).1) c') s
/-- RESCALE. -/
def execRescale (n : Node) (sel : RescaleSel) (f : Field) (s : State) : Res := .next (issue n (rescaleStep n sel f) s)

/-- SCLLOAD (R170): 64 consecutive SCL entries from one vector register; entries of disabled lanes stay. -/
def sclloadStep (n : Node) (base : BitVec 10) (f : Field) (c : Core) (s : State) : State :=
  match predOf c (bits f 33 30) with
  | none => coreFault n .coreIllegalOp 0 0 s
  | some pred =>
    let put (m : SMap W32) (l : Nat) : SMap W32 :=
      if pred.getLsbD l then putK 0 m ((base.toNat + l) % 1024) (getV c (bits f 48 44) l) else m
    retireWith n { c with scl := (List.range 64).foldl put c.scl } s
/-- SCLLOAD. -/
def execSclload (n : Node) (base : BitVec 10) (f : Field) (s : State) : Res := .next (issue n (sclloadStep n base f) s)

end Sys2Proof.Machine
end

