-- ==== Sys2Proof/Machine/Dispatch.lean ====
section
/-! DEFINITION. The effect of every command: one arm per row of the opcode table. -/
namespace Sys2Proof.Machine

/-- The effect of a command on everything but the queue. -/
def exec (i : Instr) (s : State) : Host.Outcome State Fault Refusal :=
  match i with
  | .registerWrite off w v rid => Sys2Proof.Machine.execRegisterWrite off w v rid s
  | .lowHalfRead off => Sys2Proof.Machine.execLowHalfRead off s
  | .ltcLoRead => Sys2Proof.Machine.execLtcLoRead s
  | .arSessionRead => Sys2Proof.Machine.execArSessionRead s
  | .timeEvent v => Sys2Proof.Machine.execTimeEvent v s
  | .ledgerFlags v => Sys2Proof.Machine.execLedgerFlags v s
  | .objFlags v => Sys2Proof.Machine.execObjFlags v s
  | .trcFlags v => Sys2Proof.Machine.execTrcFlags v s
  | .mbBadSat mb v => Sys2Proof.Machine.execMbBadSat mb v s
  | .mbDoorbell mb v => Sys2Proof.Machine.execMbDoorbell mb v s
  | .mbDone mb v => Sys2Proof.Machine.execMbDone mb v s
  | .mbLate mb slot => Sys2Proof.Machine.execMbLate mb slot s
  | .urgAck v => Sys2Proof.Machine.execUrgAck v s
  | .queueDb w => Sys2Proof.Machine.execQueueDb w s
  | .evtRearm v => Sys2Proof.Machine.execEvtRearm v s
  | .flitTransfer f => Sys2Proof.Machine.execFlitTransfer f s
  | .fabLinkTimeout near far f => Sys2Proof.Machine.execFabLinkTimeout near far f s
  | .dataArrival m => Sys2Proof.Machine.execDataArrival m s
  | .readReq r => Sys2Proof.Machine.execReadReq r s
  | .writeReq r => Sys2Proof.Machine.execWriteReq r s
  | .reply core tag st data => Sys2Proof.Machine.execReply core tag st data s
  | .credit core route => Sys2Proof.Machine.execCredit core route s
  | .nackIslandDown core what => Sys2Proof.Machine.execNackIslandDown core what s
  | .fabReplyTimeout core tag => Sys2Proof.Machine.execFabReplyTimeout core tag s
  | .quiesce node limitNs => Sys2Proof.Machine.execQuiesce node limitNs s
  | .quiesced node => Sys2Proof.Machine.execQuiesced node s
  | .fabQuiesceTimeout node => Sys2Proof.Machine.execFabQuiesceTimeout node s
  | .quiescedReceived node act => Sys2Proof.Machine.execQuiescedReceived node act s
  | .readmit node => Sys2Proof.Machine.execReadmit node s
  | .scrubSlot core m word ecc => Sys2Proof.Machine.execScrubSlot core m word ecc s
  | .frequencyTarget core units => Sys2Proof.Machine.execFrequencyTarget core units s
  | .frequencyChange core => Sys2Proof.Machine.execFrequencyChange core s
  | .coreClkRange core mhz => Sys2Proof.Machine.execCoreClkRange core mhz s
  | .controlStart core => Sys2Proof.Machine.execControlStart core s
  | .trailStart core => Sys2Proof.Machine.execTrailStart core s
  | .pace core count => Sys2Proof.Machine.execPace core count s
  | .waitRestart core => Sys2Proof.Machine.execWaitRestart core s
  | .coreWaitLimit core => Sys2Proof.Machine.execCoreWaitLimit core s
  | .scalar core op f => Sys2Proof.Machine.execScalar core op f s
  | .branch core op f => Sys2Proof.Machine.execBranch core op f s
  | .scalarLoad core f => Sys2Proof.Machine.execScalarLoad core f s
  | .scalarStore core f => Sys2Proof.Machine.execScalarStore core f s
  | .fetchAdd core f => Sys2Proof.Machine.execFetchAdd core f s
  | .compareAndSwap core f => Sys2Proof.Machine.execCompareAndSwap core f s
  | .matrix core f => Sys2Proof.Machine.execMatrix core f s
  | .vector core op f => Sys2Proof.Machine.execVector core op f s
  | .rescale core sel f => Sys2Proof.Machine.execRescale core sel f s
  | .sclload core base f => Sys2Proof.Machine.execSclload core base f s
  | .vectorLoad core f => Sys2Proof.Machine.execVectorLoad core f s
  | .vectorStore core f => Sys2Proof.Machine.execVectorStore core f s
  | .ldload core f => Sys2Proof.Machine.execLdload core f s
  | .bind core f => Sys2Proof.Machine.execBind core f s
  | .agenStart core f => Sys2Proof.Machine.execAgenStart core f s
  | .agAccess core ag data => Sys2Proof.Machine.execAgAccess core ag data s
  | .agRunEnd core ag => Sys2Proof.Machine.execAgRunEnd core ag s
  | .agenWait core f => Sys2Proof.Machine.execAgenWait core f s
  | .send core f => Sys2Proof.Machine.execSend core f s
  | .sends core f => Sys2Proof.Machine.execSends core f s
  | .recv core f => Sys2Proof.Machine.execRecv core f s
  | .release core f => Sys2Proof.Machine.execRelease core f s
  | .poll core f => Sys2Proof.Machine.execPoll core f s
  | .get core f => Sys2Proof.Machine.execGet core f s
  | .put core f => Sys2Proof.Machine.execPut core f s
  | .waitt core f => Sys2Proof.Machine.execWaitt core f s
  | .end_ core f => Sys2Proof.Machine.execEnd core f s
  | .nop core f => Sys2Proof.Machine.execNop core f s
  | .fence core f => Sys2Proof.Machine.execFence core f s
  | .a1mode core f => Sys2Proof.Machine.execA1mode core f s
  | .sigmark core f => Sys2Proof.Machine.execSigmark core f s
  | .tracemark core f => Sys2Proof.Machine.execTracemark core f s
  | .clrflag core f => Sys2Proof.Machine.execClrflag core f s
  | .status core f => Sys2Proof.Machine.execStatus core f s
  | .chamberScrub staging addr ecc => Sys2Proof.Machine.execChamberScrub staging addr ecc s
  | .patrolScrub chan line ecc => Sys2Proof.Machine.execPatrolScrub chan line ecc s
  | .phyLockLoss chan => Sys2Proof.Machine.execPhyLockLoss chan s
  | .phyRetrainTimeout chan => Sys2Proof.Machine.execPhyRetrainTimeout chan s
  | .migrationComplete => Sys2Proof.Machine.execMigrationComplete s
  | .kvFetch core body => Sys2Proof.Machine.execKvFetch core body s
  | .kvPlace core => Sys2Proof.Machine.execKvPlace core s
  | .kvSeal core body => Sys2Proof.Machine.execKvSeal core body s
  | .sumpPageArrival seq page data => Sys2Proof.Machine.execSumpPageArrival seq page data s
  | .pageWriteComplete seq page => Sys2Proof.Machine.execPageWriteComplete seq page s
  | .demotionWritesAccepted seq page => Sys2Proof.Machine.execDemotionWritesAccepted seq page s
  | .adaptRun => Sys2Proof.Machine.execAdaptRun s
  | .epochEnd fit => Sys2Proof.Machine.execEpochEnd fit s
  | .recalibrationComplete r => Sys2Proof.Machine.execRecalibrationComplete r s
  | .frameStart shapes => Sys2Proof.Machine.execFrameStart shapes s
  | .frameEnd outs => Sys2Proof.Machine.execFrameEnd outs s
  | .resultGateOpen => Sys2Proof.Machine.execResultGateOpen s
  | .retirePoint => Sys2Proof.Machine.execRetirePoint s
  | .decisionPoint => Sys2Proof.Machine.execDecisionPoint s
  | .ceilingInterval uj => Sys2Proof.Machine.execCeilingInterval uj s
  | .meterTrim scale => Sys2Proof.Machine.execMeterTrim scale s
  | .loopHeatExpiry => Sys2Proof.Machine.execLoopHeatExpiry s
  | .coolantSample v => Sys2Proof.Machine.execCoolantSample v s
  | .junctionSample temps => Sys2Proof.Machine.execJunctionSample temps s
  | .railCurrentSample ma => Sys2Proof.Machine.execRailCurrentSample ma s
  | .railRange rail => Sys2Proof.Machine.execRailRange rail s
  | .clkRefRange => Sys2Proof.Machine.execClkRefRange s
  | .csiPacket port pkt => Sys2Proof.Machine.execCsiPacket port pkt s
  | .csiLaneOrder port perm => Sys2Proof.Machine.execCsiLaneOrder port perm s
  | .ethFrame mac f => Sys2Proof.Machine.execEthFrame mac f s
  | .rtpReorderExpiry stream => Sys2Proof.Machine.execRtpReorderExpiry stream s
  | .pictureDecoded stream pic => Sys2Proof.Machine.execPictureDecoded stream pic s
  | .lossTimeout stream => Sys2Proof.Machine.execLossTimeout stream s
  | .recordDecode set file rec => Sys2Proof.Machine.execRecordDecode set file rec s
  | .intakeDone stream => Sys2Proof.Machine.execIntakeDone stream s
  | .focusSeal src stream copyB target => Sys2Proof.Machine.execFocusSeal src stream copyB target s
  | .prismUtilSample util => Sys2Proof.Machine.execPrismUtilSample util s
  | .sync port m => Sys2Proof.Machine.execSync port m s
  | .announce port domain gm => Sys2Proof.Machine.execAnnounce port domain gm s
  | .pdelayReq port domain seqId rxNs txNs => Sys2Proof.Machine.execPdelayReq port domain seqId rxNs txNs s
  | .pdelayResp port seqId t1 t2 t3 t4 => Sys2Proof.Machine.execPdelayResp port seqId t1 t2 t3 t4 s
  | .pdelayReqSend port txNs => Sys2Proof.Machine.execPdelayReqSend port txNs s
  | .syncReceiptTimeout port => Sys2Proof.Machine.execSyncReceiptTimeout port s
  | .announceReceiptTimeout port => Sys2Proof.Machine.execAnnounceReceiptTimeout port s
  | .timeStepApply => Sys2Proof.Machine.execTimeStepApply s
  | .trigEdge n => Sys2Proof.Machine.execTrigEdge n s
  | .trigPulseEnd n => Sys2Proof.Machine.execTrigPulseEnd n s
  | .dlDown => Sys2Proof.Machine.execDlDown s
  | .dlUp cxl width rate => Sys2Proof.Machine.execDlUp cxl width rate s
  | .perstN => Sys2Proof.Machine.execPerstN s
  | .perstNDeassert => Sys2Proof.Machine.execPerstNDeassert s
  | .hotReset => Sys2Proof.Machine.execHotReset s
  | .flr => Sys2Proof.Machine.execFlr s
  | .d3hot => Sys2Proof.Machine.execD3hot s
  | .busMasterEnableClear => Sys2Proof.Machine.execBusMasterEnableClear s
  | .holdLimit => Sys2Proof.Machine.execHoldLimit s
  | .msixUnmask enable vec addr data => Sys2Proof.Machine.execMsixUnmask enable vec addr data s
  | .bar2Access addr op => Sys2Proof.Machine.execBar2Access addr op s
  | .bar2ReadTimeout => Sys2Proof.Machine.execBar2ReadTimeout s
  | .inboundWrite w off data ep rid => Sys2Proof.Machine.execInboundWrite w off data ep rid s
  | .inboundDoorbell w v rid => Sys2Proof.Machine.execInboundDoorbell w v rid s
  | .inbRelease w buf => Sys2Proof.Machine.execInbRelease w buf s
  | .hostCompletion tag st data => Sys2Proof.Machine.execHostCompletion tag st data s
  | .hostCompletionTimeout tag => Sys2Proof.Machine.execHostCompletionTimeout tag s
  | .queueEntry queue entry => Sys2Proof.Machine.execQueueEntry queue entry s
  | .doorbellFifoRelease => Sys2Proof.Machine.execDoorbellFifoRelease s
  | .slotFaultServed f got => Sys2Proof.Machine.execSlotFaultServed f got s
  | .invalidateComplete id => Sys2Proof.Machine.execInvalidateComplete id s
  | .signature cmp1 m => Sys2Proof.Machine.execSignature cmp1 m s
  | .comparatorTimeout cmp1 pair trail window => Sys2Proof.Machine.execComparatorTimeout cmp1 pair trail window s
  | .verdict pair cmp1 window v => Sys2Proof.Machine.execVerdict pair cmp1 window v s
  | .verdictTimeout pair window => Sys2Proof.Machine.execVerdictTimeout pair window s
  | .mirWindowLong core => Sys2Proof.Machine.execMirWindowLong core s
  | .retryRestart pair => Sys2Proof.Machine.execRetryRestart pair s
  | .linkTraining port lanes farGood far => Sys2Proof.Machine.execLinkTraining port lanes farGood far s
  | .trainingRetry port => Sys2Proof.Machine.execTrainingRetry port s
  | .laneLockLoss port lane => Sys2Proof.Machine.execLaneLockLoss port lane s
  | .flitReceive port bytes => Sys2Proof.Machine.execFlitReceive port bytes s
  | .replayTimeout port => Sys2Proof.Machine.execReplayTimeout port s
  | .dvLinkDown port => Sys2Proof.Machine.execDvLinkDown port s
  | .frameSig m => Sys2Proof.Machine.execFrameSig m s
  | .frameSigWaitExpiry => Sys2Proof.Machine.execFrameSigWaitExpiry s
  | .timeReqInterval => Sys2Proof.Machine.execTimeReqInterval s
  | .timeReq t1 corr => Sys2Proof.Machine.execTimeReq t1 corr s
  | .timeResp m => Sys2Proof.Machine.execTimeResp m s
  | .timeReport m => Sys2Proof.Machine.execTimeReport m s
  | .exchangeHold => Sys2Proof.Machine.execExchangeHold s
  | .heartbeatInterval => Sys2Proof.Machine.execHeartbeatInterval s
  | .heartbeat b => Sys2Proof.Machine.execHeartbeat b s
  | .faultState fromPartner b src => Sys2Proof.Machine.execFaultState fromPartner b src s
  | .planCheck m => Sys2Proof.Machine.execPlanCheck m s
  | .loopPropose e frame running => Sys2Proof.Machine.execLoopPropose e frame running s
  | .rungEnergy rung frame => Sys2Proof.Machine.execRungEnergy rung frame s
  | .rungFloor floor frame => Sys2Proof.Machine.execRungFloor floor frame s
  | .splitMove stream toHost frame => Sys2Proof.Machine.execSplitMove stream toHost frame s
  | .realignEnter frame d => Sys2Proof.Machine.execRealignEnter frame d s
  | .realignExit frame => Sys2Proof.Machine.execRealignExit frame s
  | .sidebandTest phase result => Sys2Proof.Machine.execSidebandTest phase result s
  | .dataMessage transfer off data last => Sys2Proof.Machine.execDataMessage transfer off data last s
  | .partnerLost => Sys2Proof.Machine.execPartnerLost s
  | .faultIn => Sys2Proof.Machine.execFaultIn s
  | .faultInClassify pulse => Sys2Proof.Machine.execFaultInClassify pulse s
  | .dvFaultPin => Sys2Proof.Machine.execDvFaultPin s
  | .faultRaise src where_ detail => Sys2Proof.Machine.execFaultRaise src where_ detail s
  | .colChannelDiffer => Sys2Proof.Machine.execColChannelDiffer s
  | .torchStart => Sys2Proof.Machine.execTorchStart s
  | .torchStartFail => Sys2Proof.Machine.execTorchStartFail s
  | .torchFrameStart => Sys2Proof.Machine.execTorchFrameStart s
  | .quietPeriodExpiry src where_ => Sys2Proof.Machine.execQuietPeriodExpiry src where_ s
  | .aliveToggle => Sys2Proof.Machine.execAliveToggle s
  | .watchdogRefresh => Sys2Proof.Machine.execWatchdogRefresh s
  | .ltnWatchdog => Sys2Proof.Machine.execLtnWatchdog s
  | .sioSample pins => Sys2Proof.Machine.execSioSample pins s
  | .powerOn flash => Sys2Proof.Machine.execPowerOn flash s
  | .bootComplete env => Sys2Proof.Machine.execBootComplete env s
  | .warmReset flash => Sys2Proof.Machine.execWarmReset flash s
  | .powerCycle => Sys2Proof.Machine.execPowerCycle s
  | .canWake ident => Sys2Proof.Machine.execCanWake ident s
  | .parkedChargingExpiry => Sys2Proof.Machine.execParkedChargingExpiry s
  | .domainPowerUp domain => Sys2Proof.Machine.execDomainPowerUp domain s
  | .domainGate domain => Sys2Proof.Machine.execDomainGate domain s
  | .voltageStep gallery => Sys2Proof.Machine.execVoltageStep gallery s
  | .pmbusPoll reg word => Sys2Proof.Machine.execPmbusPoll reg word s
  | .i3cRead sensor v => Sys2Proof.Machine.execI3cRead sensor v s
  | .logFlush => Sys2Proof.Machine.execLogFlush s
  | .spiTransaction mosi edges => Sys2Proof.Machine.execSpiTransaction mosi edges s
  | .spiStatus => Sys2Proof.Machine.execSpiStatus s
  | .guardQuery => Sys2Proof.Machine.execGuardQuery s
  | .endorse payload => Sys2Proof.Machine.execEndorse payload s
  | .spiVeto id => Sys2Proof.Machine.execSpiVeto id s
  | .parkedCharging on => Sys2Proof.Machine.execParkedCharging on s
  | .standby => Sys2Proof.Machine.execStandby s
  | .wake => Sys2Proof.Machine.execWake s
  | .spiReset payload => Sys2Proof.Machine.execSpiReset payload s
  | .logRead seq => Sys2Proof.Machine.execLogRead seq s
  | .spiSilence => Sys2Proof.Machine.execSpiSilence s
  | .configWriteDone ok => Sys2Proof.Machine.execConfigWriteDone ok s
  | .proposalExpiry => Sys2Proof.Machine.execProposalExpiry s
  | .fwStageDone img writeOk => Sys2Proof.Machine.execFwStageDone img writeOk s
  | .reconcileRound dsp => Sys2Proof.Machine.execReconcileRound dsp s
  | .partnerCheckTimeout => Sys2Proof.Machine.execPartnerCheckTimeout s
  | .dapAccess core op => Sys2Proof.Machine.execDapAccess core op s
  | .jtagInstruction ji => Sys2Proof.Machine.execJtagInstruction ji s
  | .attach man atomicEn => Sys2Proof.Machine.execAttach man atomicEn s
  | .detach => Sys2Proof.Machine.execDetach s
  | .tornRead => Sys2Proof.Machine.execTornRead s
  | .identify => Sys2Proof.Machine.execIdentify s
  | .objQuery => Sys2Proof.Machine.execObjQuery s
  | .invalidate => Sys2Proof.Machine.execInvalidate s
  | .evtQuery => Sys2Proof.Machine.execEvtQuery s
  | .inboundBind desc => Sys2Proof.Machine.execInboundBind desc s
  | .inboundUnbind => Sys2Proof.Machine.execInboundUnbind s
  | .planLoad ctx img objs => Sys2Proof.Machine.execPlanLoad ctx img objs s
  | .planUnload => Sys2Proof.Machine.execPlanUnload s
  | .loopStart => Sys2Proof.Machine.execLoopStart s
  | .loopStop => Sys2Proof.Machine.execLoopStop s
  | .adaptEnter => Sys2Proof.Machine.execAdaptEnter s
  | .adaptResult => Sys2Proof.Machine.execAdaptResult s
  | .adaptExit => Sys2Proof.Machine.execAdaptExit s
  | .clipRead => Sys2Proof.Machine.execClipRead s
  | .memStatus => Sys2Proof.Machine.execMemStatus s
  | .coreStatus => Sys2Proof.Machine.execCoreStatus s
  | .streamStatus => Sys2Proof.Machine.execStreamStatus s
  | .recordOpen file => Sys2Proof.Machine.execRecordOpen file s
  | .recordClose => Sys2Proof.Machine.execRecordClose s
  | .intakeCounters => Sys2Proof.Machine.execIntakeCounters s
  | .splitStatus => Sys2Proof.Machine.execSplitStatus s
  | .prismStatus => Sys2Proof.Machine.execPrismStatus s
  | .timeStatus => Sys2Proof.Machine.execTimeStatus s
  | .timeStep => Sys2Proof.Machine.execTimeStep s
  | .timeConfig => Sys2Proof.Machine.execTimeConfig s
  | .trigSet => Sys2Proof.Machine.execTrigSet s
  | .trigStop => Sys2Proof.Machine.execTrigStop s
  | .energyBudget => Sys2Proof.Machine.execEnergyBudget s
  | .energyLoop => Sys2Proof.Machine.execEnergyLoop s
  | .energyStatus => Sys2Proof.Machine.execEnergyStatus s
  | .energyThresh => Sys2Proof.Machine.execEnergyThresh s
  | .propose staged => Sys2Proof.Machine.execPropose staged s
  | .veto => Sys2Proof.Machine.execVeto s
  | .guardStatus => Sys2Proof.Machine.execGuardStatus s
  | .recover => Sys2Proof.Machine.execRecover s
  | .faultRead => Sys2Proof.Machine.execFaultRead s
  | .spareSubstitute => Sys2Proof.Machine.execSpareSubstitute s
  | .retireClear => Sys2Proof.Machine.execRetireClear s
  | .fwStage version rollback => Sys2Proof.Machine.execFwStage version rollback s
  | .fwActivate => Sys2Proof.Machine.execFwActivate s
  | .fwStatus => Sys2Proof.Machine.execFwStatus s
  | .bootMeasure => Sys2Proof.Machine.execBootMeasure s
  | .traceConfig => Sys2Proof.Machine.execTraceConfig s
  | .traceStart => Sys2Proof.Machine.execTraceStart s
  | .traceStop => Sys2Proof.Machine.execTraceStop s
  | .traceStatus => Sys2Proof.Machine.execTraceStatus s
  | .faultInLow => Sys2Proof.Machine.execFaultInLow s
  | .hostSnoop obj line => Sys2Proof.Machine.execHostSnoop obj line s
  | .phyLockRegain chan => Sys2Proof.Machine.execPhyLockRegain chan s
  | .meterThreshold m => Sys2Proof.Machine.execMeterThreshold m s
  | .followUp port domain seqId originNs cumRatePpb => Sys2Proof.Machine.execFollowUp port domain seqId originNs cumRatePpb s
  | .txtsConsume port => Sys2Proof.Machine.execTxtsConsume port s
  | .dispatchRestart ok => Sys2Proof.Machine.execDispatchRestart ok s

end Sys2Proof.Machine
end

