-- ==== Sys2Proof/Safety.lean ====
section
/-! DEFINITION. What counts as a safe change of the machine, in the terms the claims use: the rules of the spec that no command
may break, as a relation between the state before and the state after, and as an invariant. -/

namespace Sys2Proof.Machine

/-- LTC_INC lies within ±200 ppm of its nominal 2^33 (R263). -/
def IncOk (inc : W64) : Prop := 8589934592 - 1717986 ≤ inc.toNat ∧ inc.toNat ≤ 8589934592 + 1717986

/-- Session values are nonzero and none was issued twice (R376), as long as fewer than 2^32 − 2 sessions were opened: a 32-bit
value that is never reused runs out after that. -/
def SessOk (l : List W32) : Prop := l.length ≤ 2 ^ 32 - 2 → l.Nodup ∧ (0 : W32) ∉ l

/-- The canonical form of a byte memory: addresses strictly rising, and no listed byte equal to what an unlisted address reads as. -/
def Memory.wf (m : Mem) : Bool := wfK 0 m

/-- Chambers, staging and DRAM are in canonical form. -/
structure TierOk (m : MemT) : Prop where
  chamber : Memory.wf m.chamber = true
  staging : Memory.wf m.staging = true
  dram : Memory.wf m.dram = true

/-- A mailbox's request and response memories are in canonical form. -/
structure MbOk (b : Mbx) : Prop where
  req : Memory.wf b.req = true
  rsp : Memory.wf b.rsp = true

/-- The addressed memories that all agents share are in canonical form. -/
structure MemOk (s : State) : Prop where
  tier : TierOk s.mem
  mbD : MbOk s.mbD
  mbL : MbOk s.mbL

/-- The rules no command may break save POWER_ON and POWER_CYCLE: nothing writes the LTC (R262), an LTC_INC within range stays
within range (R263), the LOCKED latch stays set (R460), the OTP anti-rollback count does not fall (R479), session values stay
distinct and nonzero (R376); and, of the model, the queue of waiting commands is left alone, the record of outputs only grows, and the
shared memories keep their canonical form. -/
structure Steady (s t : State) : Prop where
  acc : t.time.acc = s.time.acc
  pending : t.pending = s.pending
  sent : s.sent <+: t.sent
  latch : s.dev.lockedLatch = true → t.dev.lockedLatch = true
  otp : s.ltn.otpSteps ≤ t.ltn.otpSteps
  inc : IncOk s.time.inc → IncOk t.time.inc
  sess : SessOk s.dev.sessions → SessOk t.dev.sessions
  mem : MemOk s → MemOk t

/-- The core at `n` is `c` and may issue its next instruction (R389, R390), whose word is no uncorrectable one (R57), with no
single step asked for (R512). -/
structure Ready (s : State) (n : Node) (c : Core) : Prop where
  core : getCore s n = c
  issues : canIssue c = true
  fetch : c.imemBad.contains c.pc.toNat = false
  free : c.stepOne = false

/-- What R72 asks of a SCALAR operation's result, on the numbers its operands stand for. A shift by 32 or more gives a value that
the spec does not state (log entry 13). -/
def ScalarGives (op : ScalarOp) (a b v : W32) : Prop :=
  match op with
  | .add => v.toNat = (a.toNat + b.toNat) % 2 ^ 32
  | .sub => v.toInt = (a.toInt - b.toInt).bmod (2 ^ 32)
  | .and => ∀ i < 32, v.getLsbD i = (a.getLsbD i && b.getLsbD i)
  | .or => ∀ i < 32, v.getLsbD i = (a.getLsbD i || b.getLsbD i)
  | .xor => ∀ i < 32, v.getLsbD i = (a.getLsbD i != b.getLsbD i)
  | .shl => b.toNat < 32 → v.toNat = a.toNat * 2 ^ b.toNat % 2 ^ 32
  | .shr => b.toNat < 32 → v.toNat = a.toNat / 2 ^ b.toNat
  | .sar => b.toNat < 32 → v.toInt = a.toInt / 2 ^ b.toNat
  | .mulLo => v.toNat = a.toNat * b.toNat % 2 ^ 32
  | .mulHi => v.toInt = a.toInt * b.toInt / 2 ^ 32
  | .mulHiU => v.toNat = a.toNat * b.toNat / 2 ^ 32
  | .min => v.toInt = min a.toInt b.toInt
  | .max => v.toInt = max a.toInt b.toInt
  | .minU => v.toNat = min a.toNat b.toNat
  | .maxU => v.toNat = max a.toNat b.toNat
  | .setEq => v.toNat = if a = b then 1 else 0
  | .setNe => v.toNat = if a = b then 0 else 1
  | .setLt => v.toNat = if a.toInt < b.toInt then 1 else 0
  | .setGe => v.toNat = if b.toInt ≤ a.toInt then 1 else 0
  | .setLtU => v.toNat = if a.toNat < b.toNat then 1 else 0
  | .setGeU => v.toNat = if b.toNat ≤ a.toNat then 1 else 0
  | .movImm => v = b
  | .undefinedOp => True

/-- The condition codes of BRANCH (R73), on the numbers the registers hold. -/
def BranchTaken (k : Nat) (a b : W32) : Prop :=
  (k = 0 ∧ a = b) ∨ (k = 1 ∧ a ≠ b) ∨ (k = 2 ∧ a.toInt < b.toInt) ∨ (k = 3 ∧ b.toInt ≤ a.toInt) ∨
  (k = 4 ∧ a.toNat < b.toNat) ∨ (k = 5 ∧ b.toNat ≤ a.toNat) ∨ k = 6

/-- The mailbox once the request at its head is taken, `ks` still waiting (R334). -/
def taken (m : Mailbox) (ks : List Nat) (s : State) : State := setMb m { getMb m s with fifo := ks } s

/-- The request `r` in slot `k` is at the head of mailbox `m`, `ks` wait behind it, it names the command `op`, and it passes the
checks that come before a command's own (R333). -/
structure Asked (m : Mailbox) (op : Nat) (k : Nat) (ks : List Nat) (r : Req) (s : State) : Prop where
  service : (getMb m s).service = true
  fifo : (getMb m s).fifo = k :: ks
  req : r = readReqOf m k s
  op : r.op = op
  judged : judge m r (taken m ks s) = none

/-- The request in slot `k` is answered OK with these results, and requests at the head that no command of the mailbox serves
are answered after it (R332, R333). -/
def answered (m : Mailbox) (k : Nat) (results : List Byte) (s : State) : State := settle 8 m (respond m k 0 0 results s)

/-- The request `r` is answered with a status other than OK, and requests at the head that no command serves after it (R333). -/
def declined (m : Mailbox) (r : Req) (st detail : W16) (results : List Byte) (s : State) : State := settle 8 m (refuse m r st detail results s)

/-- The invariant of every state that a run reaches: LTC_INC is in range (R263), session values are distinct (R376), and the
shared memories are in canonical form. -/
structure Inv (s : State) : Prop where
  inc : IncOk s.time.inc
  sess : SessOk s.dev.sessions
  mem : MemOk s

end Sys2Proof.Machine
end

