-- ==== Sys2Proof/Certificates/Slice0/Obligations.lean ====
section
/-! DEFINITION. The statements for the provers. A statement on a command says what state the machine is in after it; where the
whole state is written out, what is not named is unchanged. -/

open Sys2Proof Sys2Proof.Machine


/-- A step takes the command at the front of the queue and runs it with the queue's rest (the model's form of a block; log entry 6). -/
def Obligations.StepRunsFront : Prop :=
  ∀ (c : Instr) (cs : List Instr) (s : State), step { s with pending := c :: cs } = exec c { s with pending := cs }

/-- A step on an empty queue is one tick (R262, R264); that an idle step is a tick is the model's choice, log entry 6. -/
def Obligations.TickAdvances : Prop :=
  (∀ s : State, s.pending = [] → step s = .next { s with time := { s.time with
      acc := s.time.acc + s.time.inc.setWidth 96
      ptc := (s.time.ptc + s.time.rate + s.time.slew) % (2 ^ 48 * 1000000000 * 2 ^ 32) } }) ∧
  (∀ s : State, now s = s.time.acc.extractLsb' 32 64)

/-- The state right after power-on reset: the values the spec gives (R361, R366, R262, R330); the values it does not give are log entry 1 and stand in no clause here. -/
def Obligations.ResetValues : Prop :=
  let s := State.reset
  s.dev.state = .booting ∧ s.dev.prior = none ∧ s.dev.stateSeq = 0 ∧ s.dev.lockedLatch = false ∧ s.dev.session = 0 ∧
  s.host.attached = false ∧ s.plans = [] ∧ s.pending = [] ∧ now s = 0 ∧ s.time.status = .unset ∧
  (∀ m k, (getK {} (getMb m s).slots k).phase = .free) ∧ (∀ m, (getMb m s).fifo = []) ∧ s.fc.active = [] ∧
  (∀ a, rd s.mem.dram a = 0 ∧ rd s.mem.chamber a = 0 ∧ rd s.mem.staging a = 0) ∧ s.log.ring = []

/-- R262, whole: the LTC's accumulator is advanced by a tick alone, starts at 0 at power-on reset, and no command but power-on writes it. -/
def Obligations.NothingWritesTheLtc : Prop :=
  (∀ s : State, now s = s.time.acc.extractLsb' 32 64) ∧
  (∀ s : State, s.pending = [] → ∃ t, step s = .next t ∧ t.time.acc = s.time.acc + s.time.inc.setWidth 96) ∧
  State.reset.time.acc = 0 ∧ State.reset.time.inc = 0x200000000 ∧
  (∀ (f : FlashEnv) (s t : State), exec (.powerOn f) s = .next t → t.time.acc = 0) ∧
  (∀ s t : State, exec .powerCycle s = .next t → t.time.acc = 0) ∧
  (∀ (i : Instr) (s t : State), (∀ f, i ≠ .powerOn f) → i ≠ .powerCycle → exec i s = .next t → t.time.acc = s.time.acc)

/-- The invariant Inv (R263, R376, and the canonical form of the shared memories) is kept by every step from every state that meets it. What the clauses take beyond the rules is the model's choice: log entry 6. -/
def Obligations.StepKeepsInv : Prop := ∀ s t : State, Inv s → step s = .next t → Inv t

/-- The invariant holds right after reset. -/
def Obligations.ResetMeetsInv : Prop := Inv State.reset

/-- Whole-machine rules over all commands: R460 (the latch), R479 (the count), R376 (sessions), and the frame of the queue and the outputs. -/
def Obligations.MonotoneMachine : Prop :=
  (∀ (i : Instr) (s t : State), (∀ f, i ≠ .powerOn f) → i ≠ .powerCycle → exec i s = .next t →
    (s.dev.lockedLatch = true → t.dev.lockedLatch = true) ∧ s.ltn.otpSteps ≤ t.ltn.otpSteps ∧
    (SessOk s.dev.sessions → SessOk t.dev.sessions) ∧ t.pending = s.pending ∧ s.sent <+: t.sent) ∧
  (∀ (f : FlashEnv) (s t : State), s.dev.lockedLatch = true → exec (.powerOn f) s = .next t → t.dev.lockedLatch = true)

/-- Policy STICK (R8), for a counter of any width and any number of events. -/
def Obligations.StickHolds : Prop :=
  ∀ (w : Nat) (c : Stick w) (n : Nat),
    (Nat.repeat Stick.inc n c).val.toNat = min (c.val.toNat + n) (2 ^ w - 1) ∧
    (Nat.repeat Stick.inc n c).sat = (c.sat || decide (2 ^ w ≤ c.val.toNat + n)) ∧
    c.add n = Nat.repeat Stick.inc n c

/-- Byte memory: the store and the load of bytes, little-endian (R3), with the frame of every other address. -/
def Obligations.MemoryReadAfterWrite : Prop :=
  (∀ (m : Mem) (a : Nat) (bs : List Byte), Memory.wf m = true → Memory.wf (wrN m a bs) = true ∧
    ∀ j, rd (wrN m a bs) j = if a ≤ j ∧ j < a + bs.length then bs.getD (j - a) 0 else rd m j) ∧
  (∀ (m : Mem) (a n v : Nat), Memory.wf m = true → leVal (rdN (wrN m a (leBytes n v)) a n) = v % 2 ^ (8 * n))

/-- The answer of a command (R330, R332): the header and results in RSP_s, the slot DONE, the interrupt after it; all else unchanged. -/
def Obligations.MailboxAnswer : Prop :=
  ∀ (m : Mailbox) (k : Nat) (st detail : W16) (results : List Byte) (s : State), k < 8 → MbOk (getMb m s) →
    wfK ({} : Slot) (getMb m s).slots = true → results.length ≤ 240 →
    let t := respond m k st detail results s
    t = (if (getMb m s).irqEn then msix (match m with | .dispatch => 1 | .lantern => 2) (setMb m (getMb m t) s) else setMb m (getMb m t) s) ∧
    getMb m t = { getMb m s with rsp := (getMb m t).rsp, slots := (getMb m t).slots } ∧
    (∀ j, getK ({} : Slot) (getMb m t).slots j =
      if j = k then { getK {} (getMb m s).slots k with phase := .done } else getK {} (getMb m s).slots j) ∧
    (∀ a, rd (getMb m t).rsp a =
      if k * 256 ≤ a ∧ a < k * 256 + 256 then
        (rdN (getMb m s).req (k * 256) 4 ++ leBytes 2 st.toNat ++ leBytes 2 results.length ++ [devByte s.dev, 0] ++ leBytes 2 detail.toNat
          ++ leBytes 4 (frameNo s).toNat ++ results).getD (a - k * 256) 0
      else rd (getMb m s).rsp a)

/-- Issue (R389, R390, R512) and retirement (R390, R91) of an instruction; the frame of every register-only instruction. -/
def Obligations.IssueAndRetire : Prop :=
  (∀ (n : Node) (body : Core → State → State) (s : State), canIssue (getCore s n) = false → issue n body s = s) ∧
  (∀ (n : Node) (body : Core → State → State) (s : State), canIssue (getCore s n) = true → (getCore s n).imemBad.contains (getCore s n).pc.toNat = true →
    issue n body s = coreFault n .coreImemUe 0 0 s) ∧
  (∀ (n : Node) (body : Core → State → State) (s : State), canIssue (getCore s n) = true →
    (getCore s n).imemBad.contains (getCore s n).pc.toNat = false → (getCore s n).stepOne = true →
    issue n body s = body { getCore s n with stepOne := false } (setCore n { getCore s n with stepOne := false } s)) ∧
  (∀ (c : Core), canIssue c = true ↔ c.run = .run ∧ c.skewHold = false ∧ (c.halted = false ∨ c.stepOne = true) ∧
    (c.sig.pair = none ∨ c.sig.trail = false ∨ c.retired.toNat + 1 ≤ c.pace.toNat)) ∧
  (∀ (n : Node) (c : Core) (s : State), wfK ({} : Core) s.cores = true → c.nacked = none → c.sig.pair = none ∨ c.sig.trail = true →
    let t := retireWith n c s
    t = { s with cores := t.cores } ∧ getCore t n = { c with pc := c.pc + 1, retired := c.retired + 1 } ∧
      ∀ k, k ≠ n → getCore t k = getCore s k) ∧
  (∀ (n : Node) (c : Core) (r : Nat) (s : State), wfK ({} : Core) s.cores = true → c.nacked = some r → c.sig.pair = none ∨ c.sig.trail = true →
    ∃ t, getCore t n = { c with pc := c.pc + 1, retired := c.retired + 1 } ∧
      retireWith n c s = coreFaultRec n .destAbsent { pcFault := c.pc, pcLast := c.pc, index := r, off := 0, node := n } t)

/-- SCALAR (R72, R73): the result on integers; what retiring changes is Obligations.IssueAndRetire. What the clauses take beyond the rules is the model's choice: log entry 13. -/
def Obligations.ScalarInstructions : Prop :=
  (∀ (s : State) (n : Node) (c : Core) (op : ScalarOp) (f : Field), Ready s n c → op ≠ .undefinedOp → bits f 37 32 = 0 →
    ∃ v, ScalarGives op (getS c (bits f 48 44))
        (if bits f 38 38 = 1 ∨ op = .movImm then BitVec.ofNat 32 (bits f 31 0) else getS c (bits f 43 39)) v ∧
      exec (.scalar n op f) s = .next (retireWith n (setS (bits f 53 49) v c) s)) ∧
  (∀ (s : State) (n : Node) (c : Core) (op : ScalarOp) (f : Field), Ready s n c → op = .undefinedOp ∨ bits f 37 32 ≠ 0 →
    exec (.scalar n op f) s = .next (coreFault n .coreIllegalOp 0 0 s))

/-- BRANCH (R72, R73): the condition on integers, the target, and the illegal forms. -/
def Obligations.BranchInstructions : Prop :=
  (∀ (s : State) (n : Node) (c : Core) (op : BranchOp) (f : Field), Ready s n c → op ≠ .undefinedOp → bits f 39 13 = 0 →
    op = .cond → bits f 43 40 ≤ 6 →
    (BranchTaken (bits f 43 40) (getS c (bits f 53 49)) (getS c (bits f 48 44)) →
      exec (.branch n op f) s = .next (retireTo n (BitVec.ofNat 13 (bits f 12 0))
        (traceRec n 0x01 0 (leBytes 2 c.pc.toNat ++ leBytes 2 (bits f 12 0)) s))) ∧
    (¬BranchTaken (bits f 43 40) (getS c (bits f 53 49)) (getS c (bits f 48 44)) →
      exec (.branch n op f) s = .next (retireTo n (c.pc + 1) s))) ∧
  (∀ (s : State) (n : Node) (c : Core) (f : Field), Ready s n c → bits f 39 13 = 0 →
    exec (.branch n .jump f) s = .next (retireTo n (BitVec.ofNat 13 (bits f 12 0))
        (traceRec n 0x01 0 (leBytes 2 c.pc.toNat ++ leBytes 2 (bits f 12 0)) s)) ∧
    exec (.branch n .jumpReg f) s = .next (retireTo n ((getS c (bits f 53 49)).setWidth 13)
        (traceRec n 0x01 0 (leBytes 2 c.pc.toNat ++ leBytes 2 ((getS c (bits f 53 49)).setWidth 13).toNat) s))) ∧
  (∀ (s : State) (n : Node) (c : Core) (op : BranchOp) (f : Field), Ready s n c → op = .undefinedOp ∨ bits f 39 13 ≠ 0 →
    exec (.branch n op f) s = .next (coreFault n .coreIllegalOp 0 0 s)) ∧
  (∀ (s : State) (n : Node) (c : Core) (f : Field), Ready s n c → bits f 39 13 = 0 →
    6 < bits f 43 40 → exec (.branch n .cond f) s = .next (coreFault n .coreIllegalOp 0 0 s))

/-- The SYSTEM class (R73, R75, R84, R66, R99, R394, R502): the effect of each OP and the reserved bits. What the clauses take beyond the rules is the model's choice: log entry 16. -/
def Obligations.SystemInstructions : Prop :=
  (∀ (s : State) (n : Node) (c : Core), Ready s n c →
    (c.pend = [] → c.mat = [] → c.ag.any (fun e => e.2.running) = false →
      exec (.end_ n 0) s = .next (changeCore n (fun c => { c with run := .done, retired := c.retired + 1 }) (sendPace n true (sigClose n s)))) ∧
    (c.pend ≠ [] → exec (.end_ n 0) s = .next (changeCore n (fun c => { c with run := .wait, wait := .drain, waitAt := now s }) s)) ∧
    exec (.nop n 0) s = .next (retire n s)) ∧
  (∀ (s : State) (n : Node) (c : Core) (f : Field), Ready s n c → f &&& ~~~0x3F = 0 →
    (c.pend.any (fun p => p.isWrite && f.getLsbD (spaceCode p.space)) = false → exec (.fence n f) s = .next (retire n s)) ∧
    (c.pend.any (fun p => p.isWrite && f.getLsbD (spaceCode p.space)) = true →
      exec (.fence n f) s = .next (changeCore n (fun c => { c with run := .wait, wait := .fence, waitAt := now s }) s))) ∧
  (∀ (s : State) (n : Node) (c : Core) (f : Field), Ready s n c → f &&& ~~~0x38000000000000 = 0 → c.mat = [] →
    ∃ st : W32, exec (.a1mode n f) s = .next (retireWith n { c with status := st } s) ∧
      (∀ i < 17, st.getLsbD i = c.status.getLsbD i) ∧ st.getLsbD 17 = f.getLsbD 53 ∧
      st.getLsbD 18 = (f.getLsbD 53 && f.getLsbD 51) ∧ st.getLsbD 19 = (f.getLsbD 53 && f.getLsbD 52) ∧
      ∀ i, 20 ≤ i → st.getLsbD i = c.status.getLsbD i) ∧
  (∀ (s : State) (n : Node) (c : Core) (f : Field), Ready s n c → f &&& ~~~0xFFFF = 0 →
    exec (.sigmark n f) s = .next (retire n (sigClose n (setCore n (sigFold (now s) 8 0 0 3 (leBytes 2 f.toNat) c) s))) ∧
    exec (.tracemark n f) s = .next (retire n (traceRec n 0x04 2 (leBytes 2 f.toNat ++ leBytes 2 c.pc.toNat) s))) ∧
  (∀ (s : State) (n : Node) (c : Core) (f : Field), Ready s n c → f &&& ~~~0x1F = 0 → c.mat = [] → c.pend = [] →
    ∃ st : W32, exec (.clrflag n f) s = .next (retireWith n { c with status := st } s) ∧
      ∀ i < 32, st.getLsbD i = (c.status.getLsbD i && !(decide (i ≤ 4) && f.getLsbD i) && !(decide (8 ≤ i) && decide (i ≤ 16) && f.getLsbD 4))) ∧
  (∀ (s : State) (n : Node) (c : Core) (f : Field), Ready s n c → f &&& ~~~0x3E000000000000 = 0 → c.mat = [] → c.pend = [] →
    exec (.status n f) s = .next (retireWith n (setS (bits f 53 49) c.status c) s)) ∧
  (∀ (s : State) (n : Node) (c : Core) (f : Field), Ready s n c →
    (f ≠ 0 → exec (.end_ n f) s = .next (coreFault n .coreIllegalOp 0 0 s) ∧ exec (.nop n f) s = .next (coreFault n .coreIllegalOp 0 0 s)) ∧
    (f &&& ~~~0x3F ≠ 0 → exec (.fence n f) s = .next (coreFault n .coreIllegalOp 0 0 s)) ∧
    (f &&& ~~~0x38000000000000 ≠ 0 → exec (.a1mode n f) s = .next (coreFault n .coreIllegalOp 0 0 s)) ∧
    (f &&& ~~~0xFFFF ≠ 0 → exec (.sigmark n f) s = .next (coreFault n .coreIllegalOp 0 0 s) ∧
      exec (.tracemark n f) s = .next (coreFault n .coreIllegalOp 0 0 s)) ∧
    (f &&& ~~~0x1F ≠ 0 → exec (.clrflag n f) s = .next (coreFault n .coreIllegalOp 0 0 s)) ∧
    (f &&& ~~~0x3E000000000000 ≠ 0 → exec (.status n f) s = .next (coreFault n .coreIllegalOp 0 0 s)))

/-- Loads (R73, R78–R82, R101, R102): the LOCAL result, the request of a remote load, and the faults. -/
def Obligations.Loads : Prop :=
  (∀ (s : State) (n : Node) (c : Core) (f : Field) (w : Window) (off : Nat), Ready s n c → bits f 36 32 = 0 →
    (bits f 39 38 = 3 → bits f 53 49 % 2 = 0) → off = ((getS c (bits f 48 44)).toNat + bits f 31 0) % 2 ^ 33 →
    getWin c (bits f 43 40) = some w → w.r = true → off + 2 ^ bits f 39 38 ≤ w.length →
    (w.base + BitVec.ofNat 64 off).toNat % 2 ^ bits f 39 38 = 0 →
    (w.space = .lcl → memClean c (localAddr (winAddr w off)) (2 ^ bits f 39 38) = true →
      ∃ v : Nat, v = leVal (rdN c.mem (localAddr (winAddr w off)) (2 ^ bits f 39 38)) ∧
        exec (.scalarLoad n f) s = .next (retireWith n
          (if bits f 39 38 = 3 then setS2 (bits f 53 49) (BitVec.ofNat 64 v) c
           else setS (bits f 53 49) (if bits f 39 38 = 0 ∧ bits f 37 37 = 1 then (BitVec.ofNat 8 v).signExtend 32
             else if bits f 39 38 = 1 ∧ bits f 37 37 = 1 then (BitVec.ofNat 16 v).signExtend 32 else BitVec.ofNat 32 v) c) s)) ∧
    (w.space = .lcl → memClean c (localAddr (winAddr w off)) (2 ^ bits f 39 38) = false →
      exec (.scalarLoad n f) s = .next (coreFault n .coreMemUe (bits f 43 40) off s)) ∧
    (w.space ≠ .lcl → c.pend.length < 16 → writesTo c (endpointOf n w.space (winAddr w off)) = false →
      (w.space = .host → residentAt s n w.obj (winAddr w off) = true) →
      exec (.scalarLoad n f) s = .next (coreWait n (.reply c.nextTag)
        (sendReq n (.load (bits f 53 49) (bits f 39 38) (decide (bits f 37 37 = 1))) (bits f 43 40) off w (2 ^ bits f 39 38) [] [] none true s)))) ∧
  (∀ (s : State) (n : Node) (c : Core) (f : Field) (off : Nat), Ready s n c → bits f 36 32 = 0 →
    (bits f 39 38 = 3 → bits f 53 49 % 2 = 0) → off = ((getS c (bits f 48 44)).toNat + bits f 31 0) % 2 ^ 33 →
    (∀ w, getWin c (bits f 43 40) = some w → w.r = false ∨ w.length < off + 2 ^ bits f 39 38) →
    exec (.scalarLoad n f) s = .next (coreFault n .resourceOverflow (bits f 43 40) off s)) ∧
  (∀ (s : State) (n : Node) (c : Core) (f : Field) (w : Window) (off : Nat), Ready s n c → bits f 36 32 = 0 →
    (bits f 39 38 = 3 → bits f 53 49 % 2 = 0) → off = ((getS c (bits f 48 44)).toNat + bits f 31 0) % 2 ^ 33 →
    getWin c (bits f 43 40) = some w → w.r = true → off + 2 ^ bits f 39 38 ≤ w.length →
    (w.base + BitVec.ofNat 64 off).toNat % 2 ^ bits f 39 38 ≠ 0 →
    exec (.scalarLoad n f) s = .next (coreFault n .coreAlign (bits f 43 40) off s)) ∧
  (∀ (s : State) (n : Node) (c : Core) (f : Field) (w : Window) (off : Nat) (pred : BitVec 64), Ready s n c → bits f 35 32 = 0 →
    predOf c (bits f 39 36) = some pred → off = ((getS c (bits f 48 44)).toNat + bits f 31 0) % 2 ^ 33 →
    getWin c (bits f 43 40) = some w → w.r = true → off + 256 ≤ w.length → (w.base + BitVec.ofNat 64 off).toNat % 64 = 0 →
    (w.space = .lcl → memClean c (localAddr (winAddr w off)) 256 = true →
      exec (.vectorLoad n f) s = .next (retireWith n (setV (bits f 53 49) (fun l =>
        if pred.getLsbD l then BitVec.ofNat 32 (leVal (rdN c.mem (localAddr (winAddr w off) + 4 * l) 4)) else getV c (bits f 53 49) l) c) s)) ∧
    (w.space ≠ .lcl → c.pend.length < 16 → writesTo c (endpointOf n w.space (winAddr w off)) = false →
      (w.space = .host → residentAt s n w.obj (winAddr w off) = true) →
      exec (.vectorLoad n f) s = .next (coreWait n (.reply c.nextTag)
        (sendReq n (.vload (bits f 53 49) pred) (bits f 43 40) off w 256 [] [] none true s)))) ∧
  (∀ (s : State) (n : Node) (c : Core) (f : Field) (w : Window) (off : Nat), Ready s n c → bits f 38 32 = 0 → bits f 51 48 % 2 = 0 →
    bits f 53 52 ≠ 3 → off = ((getS c (bits f 43 39)).toNat + bits f 31 0) % 2 ^ 33 →
    getWin c (bits f 47 44) = some w → w.r = true → off + 64 ≤ w.length → off % 64 = 0 →
    (w.space = .lcl → memClean c (localAddr (winAddr w off)) 64 = true →
      exec (.ldload n f) s = .next (retireWith n { c with ld := putsK 0 c.ld (8 * bits f 51 48) ((List.range 16).map (fun i => BitVec.ofNat 32 (fld (rdN c.mem (localAddr (winAddr w off)) 64) (4 * i) 4))) } s)) ∧
    (w.space ≠ .lcl → c.pend.length < 16 → writesTo c (endpointOf n w.space (winAddr w off)) = false →
      (w.space = .host → residentAt s n w.obj (winAddr w off) = true) →
      exec (.ldload n f) s = .next (coreWait n (.reply c.nextTag)
        (sendReq n (.ld (bits f 51 48)) (bits f 47 44) off w 64 [] [] none true s))))

/-- Stores (R73, R78, R79, R82, R83) with their signature fold (R392), suppression (R388) and trace record (R502); the frame of core memory. What the clauses take beyond the rules is the model's choice: log entry 17. -/
def Obligations.Stores : Prop :=
  (∀ (s : State) (n : Node) (c : Core) (f : Field) (w : Window) (off : Nat) (bs : List Byte), Ready s n c → bits f 36 32 = 0 →
    (bits f 39 38 = 3 → bits f 53 49 % 2 = 0) → off = ((getS c (bits f 48 44)).toNat + bits f 31 0) % 2 ^ 33 →
    getWin c (bits f 43 40) = some w → w.w = true → off + 2 ^ bits f 39 38 ≤ w.length →
    (w.base + BitVec.ofNat 64 off).toNat % 2 ^ bits f 39 38 = 0 →
    bs = leBytes (2 ^ bits f 39 38) (if bits f 39 38 = 3 then (getS2 c (bits f 53 49)).toNat else (getS c (bits f 53 49)).toNat) →
    let t := traceData n (bits f 43 40) off bs s
    let d := sigFold (now s) 1 (bits f 43 40) off (enMask bs.length []) bs (getCore t n)
    (w.space = .lcl → suppressed c (bits f 43 40) = false →
      exec (.scalarStore n f) s = .next (retireWith n (coreWrite (localAddr (winAddr w off)) bs [] d) t)) ∧
    (suppressed c (bits f 43 40) = true → exec (.scalarStore n f) s = .next (retireWith n d t)) ∧
    (w.space ≠ .lcl → suppressed c (bits f 43 40) = false → c.pend.length < 16 → (w.space = .host → residentAt s n w.obj (winAddr w off) = true) →
      exec (.scalarStore n f) s = .next (retire n (sendReq n .store (bits f 43 40) off w bs.length bs [] none false (setCore n d t))))) ∧
  (∀ (s : State) (n : Node) (c : Core) (f : Field) (w : Window) (off : Nat) (pred : BitVec 64) (bs : List Byte) (en : List Bool),
    Ready s n c → bits f 35 32 = 0 → predOf c (bits f 39 36) = some pred → off = ((getS c (bits f 48 44)).toNat + bits f 31 0) % 2 ^ 33 →
    getWin c (bits f 43 40) = some w → w.w = true → (∀ l < 64, pred.getLsbD l = true → off + 4 * l + 4 ≤ w.length) →
    off ≤ w.length → (w.base + BitVec.ofNat 64 off).toNat % 64 = 0 →
    bs = (List.range 64).flatMap (fun l => leBytes 4 (getV c (bits f 53 49) l).toNat) →
    en = (if pred = BitVec.allOnes 64 then [] else (List.range 256).map (fun b => pred.getLsbD (b / 4))) →
    let t := traceData n (bits f 43 40) off (foldData bs en) s
    let d := sigFold (now s) 2 (bits f 43 40) off (enMask 256 en) (foldData bs en) (getCore t n)
    (w.space = .lcl → suppressed c (bits f 43 40) = false →
      exec (.vectorStore n f) s = .next (retireWith n (coreWrite (localAddr (winAddr w off)) bs en d) t)) ∧
    (suppressed c (bits f 43 40) = true → exec (.vectorStore n f) s = .next (retireWith n d t)) ∧
    (w.space ≠ .lcl → suppressed c (bits f 43 40) = false → c.pend.length < 16 → (w.space = .host → residentAt s n w.obj (winAddr w off) = true) →
      exec (.vectorStore n f) s = .next (retire n (sendReq n .store (bits f 43 40) off w 256 bs en none false (setCore n d t))))) ∧
  (∀ (c : Core) (a : Nat) (bs : List Byte) (en : List Bool), Memory.wf c.mem = true → en = [] ∨ en.length = bs.length →
    coreWrite a bs en c = { c with mem := (coreWrite a bs en c).mem, memBad := (coreWrite a bs en c).memBad } ∧
    ∀ j, rd (coreWrite a bs en c).mem j =
      if a ≤ j ∧ j < a + bs.length ∧ en.getD (j - a) true = true then bs.getD (j - a) 0 else rd c.mem j) ∧
  (∀ (s : State) (n : Node) (c : Core) (f : Field) (off : Nat), Ready s n c → bits f 36 32 = 0 →
    (bits f 39 38 = 3 → bits f 53 49 % 2 = 0) → off = ((getS c (bits f 48 44)).toNat + bits f 31 0) % 2 ^ 33 →
    (∀ w, getWin c (bits f 43 40) = some w → w.w = false ∨ w.length < off + 2 ^ bits f 39 38) →
    exec (.scalarStore n f) s = .next (coreFault n .resourceOverflow (bits f 43 40) off s)) ∧
  (∀ (s : State) (n : Node) (c : Core) (f : Field) (w : Window) (off : Nat), Ready s n c → bits f 36 32 = 0 →
    (bits f 39 38 = 3 → bits f 53 49 % 2 = 0) → off = ((getS c (bits f 48 44)).toNat + bits f 31 0) % 2 ^ 33 →
    getWin c (bits f 43 40) = some w → w.w = true → off + 2 ^ bits f 39 38 ≤ w.length →
    (w.base + BitVec.ofNat 64 off).toNat % 2 ^ bits f 39 38 ≠ 0 →
    exec (.scalarStore n f) s = .next (coreFault n .coreAlign (bits f 43 40) off s))

/-- Atomics (R85): operands, request and wait, the suppressed form, and the illegal spaces. What the clauses take beyond the rules is the model's choice: log entry 48. -/
def Obligations.Atomics : Prop :=
  (∀ (s : State) (n : Node) (c : Core) (f : Field) (w : Window) (off : Nat) (bs : List Byte) (cas : Bool), Ready s n c → bits f 36 32 = 0 →
    2 ≤ bits f 39 38 → (bits f 39 38 = 3 → bits f 53 49 % (if cas then 4 else 2) = 0) →
    off = ((getS c (bits f 48 44)).toNat + bits f 31 0) % 2 ^ 33 → getWin c (bits f 43 40) = some w → w.a = true →
    w.space ≠ .lcl → w.space ≠ .peer → off + 2 ^ bits f 39 38 ≤ w.length → (w.base + BitVec.ofNat 64 off).toNat % 2 ^ bits f 39 38 = 0 →
    bs = (if bits f 39 38 = 3 then
        (if cas then leBytes 8 (getS2 c (bits f 53 49)).toNat ++ leBytes 8 (getS2 c (bits f 53 49 + 2)).toNat else leBytes 8 (getS2 c (bits f 53 49)).toNat)
      else (if cas then leBytes 4 (getS c (bits f 53 49)).toNat ++ leBytes 4 (getS c (bits f 53 49 + 1)).toNat else leBytes 4 (getS c (bits f 53 49)).toNat)) →
    let i : Instr := if cas then .compareAndSwap n f else .fetchAdd n f
    let d := sigFold (now s) 5 (bits f 43 40) off (enMask bs.length []) bs c
    (suppressed c (bits f 43 40) = true →
      exec i s = .next (retireWith n (loadDest (bits f 53 49) (bits f 39 38) false (List.replicate (2 ^ bits f 39 38) 0) d) s)) ∧
    (suppressed c (bits f 43 40) = false → c.pend.length < 16 → writesTo c (endpointOf n w.space (winAddr w off)) = false →
      (w.space = .host → residentAt s n w.obj (winAddr w off) = true) →
      exec i s = .next (coreWait n (.reply c.nextTag) (sendReq n (.atomic (bits f 53 49) (bits f 39 38)) (bits f 43 40) off w
        (2 ^ bits f 39 38) bs [] (some (if cas then .cas else .fetchAdd)) false (setCore n d s))))) ∧
  (∀ (s : State) (n : Node) (c : Core) (f : Field) (w : Window), Ready s n c → getWin c (bits f 43 40) = some w →
    w.space = .lcl ∨ w.space = .peer →
    exec (.fetchAdd n f) s = .next (coreFault n .coreIllegalOp (bits f 43 40) (effOff (getS c (bits f 48 44)).toNat (bits f 31 0)) s) ∧
    exec (.compareAndSwap n f) s = .next (coreFault n .coreIllegalOp (bits f 43 40) (effOff (getS c (bits f 48 44)).toNat (bits f 31 0)) s))

/-- Transfers (R82, R83, R392): GET, PUT, and WAITT. What the clauses take beyond the rules is the model's choice: log entry 49. -/
def Obligations.Transfers : Prop :=
  (∀ (s : State) (n : Node) (c : Core) (f : Field) (w l : Window), Ready s n c → bits f 18 16 = 0 → 1 ≤ bits f 31 19 → bits f 31 19 ≤ 4096 →
    getWin c (bits f 43 40) = some w → w.space ≠ .lcl → getWin c (bits f 39 36) = some l → l.space = .lcl →
    (getS c (bits f 53 49)).toNat + bits f 31 19 ≤ w.length → (getS c (bits f 48 44)).toNat + bits f 31 19 ≤ l.length → c.pend.length < 16 →
    (w.space = .host → residentAt s n w.obj (winAddr w (getS c (bits f 53 49)).toNat) = true) →
    (w.r = true → l.w = true → writesTo c (endpointOf n w.space (winAddr w (getS c (bits f 53 49)).toNat)) = false →
      exec (.get n f) s = .next (retire n (sendReq n (.get (bits f 35 32) (localAddr (winAddr l (getS c (bits f 48 44)).toNat)) (bits f 31 19))
        (bits f 43 40) (getS c (bits f 53 49)).toNat w (bits f 31 19) [] [] none true s))) ∧
    (w.w = true → l.r = true → suppressed c (bits f 43 40) = false →
      memClean c (localAddr (winAddr l (getS c (bits f 48 44)).toNat)) (bits f 31 19) = true →
      let bs := rdN c.mem (localAddr (winAddr l (getS c (bits f 48 44)).toNat)) (bits f 31 19)
      let t := traceData n (bits f 43 40) (getS c (bits f 53 49)).toNat bs s
      let d := sigFold (now t) 4 (bits f 43 40) (getS c (bits f 53 49)).toNat (enMask (bits f 31 19) []) bs (getCore t n)
      exec (.put n f) s = .next (retire n (sendReq n (.put (bits f 35 32)) (bits f 43 40) (getS c (bits f 53 49)).toNat w
        (bits f 31 19) bs [] none false (setCore n d t)))) ∧
    (w.w = true → l.r = true → memClean c (localAddr (winAddr l (getS c (bits f 48 44)).toNat)) (bits f 31 19) = false →
      exec (.put n f) s = .next (coreFault n .coreMemUe (bits f 39 36) (getS c (bits f 48 44)).toNat s))) ∧
  (∀ (s : State) (n : Node) (c : Core) (f : Field), Ready s n c → bits f 18 16 ≠ 0 ∨ bits f 31 19 = 0 ∨ 4096 < bits f 31 19 →
    exec (.get n f) s = .next (coreFault n .coreIllegalOp (bits f 43 40) (getS c (bits f 53 49)).toNat s) ∧
    exec (.put n f) s = .next (coreFault n .coreIllegalOp (bits f 43 40) (getS c (bits f 53 49)).toNat s)) ∧
  (∀ (s : State) (n : Node) (c : Core) (f : Field), Ready s n c → bits f 18 16 = 0 →
    ((∀ p ∈ c.pend, ∀ g, p.group = some g → f.getLsbD g = false) → exec (.waitt n f) s = .next (retire n s)) ∧
    ((∃ p ∈ c.pend, ∃ g, p.group = some g ∧ f.getLsbD g = true) → exec (.waitt n f) s = .next (coreWait n .groups s)))

/-- MATRIX (R61–R63, R66, R73, R111): issue, and the integer depth step on exact integers. -/
def Obligations.MatrixArray : Prop :=
  (∀ (s : State) (n : Node) (c : Core) (f : Field), Ready s n c → bits f 44 16 = 0 → f.getLsbD 45 = false →
    pairingOk (bits f 51 49) (bits f 48 46) = true → (c.status.getLsbD 17 = true → f.getLsbD 53 = false) →
    (∀ k, (k = 0 ∨ k = 1) → (getAg c k).desc ≠ [] ∧
      (((getAg c k).desc.getD 9 0).toNat / 2 ^ 22 % 4, ((getAg c k).desc.getD 9 0).toNat / 2 ^ 24 % 4)
        = fmtAcc (if k = 0 then bits f 51 49 else bits f 48 46)) →
    exec (.matrix n f) s = .next (retireWith n (drainMat { c with mat := c.mat ++ [{
      bank := f.getLsbD 53, fmtA := bits f 51 49, fmtB := bits f 48 46, feed := false, clr := f.getLsbD 52,
      left := if bits f 15 0 = 0 then none else some (bits f 15 0), pc := c.pc }] }) s)) ∧
  (∀ (s : State) (n : Node) (c : Core) (f : Field) (b : Nat), Ready s n c → bits f 44 16 = 0 → f.getLsbD 45 = true → f.getLsbD 53 = false →
    1 ≤ bits f 15 0 → bits f 15 0 ≤ 32 → c.status.getLsbD 17 = true →
    b = c.status.toNat / 2 ^ 18 % 4 → (b = 3 ∧ bits f 51 49 = 0 ∧ bits f 48 46 = 0) ∨ (b = 1 ∧ bits f 51 49 = 4 ∧ bits f 48 46 = 4) →
    (getAg c 0).desc ≠ [] → (((getAg c 0).desc.getD 9 0).toNat / 2 ^ 22 % 4, ((getAg c 0).desc.getD 9 0).toNat / 2 ^ 24 % 4) = fmtAcc (bits f 51 49) →
    exec (.matrix n f) s = .next (retireWith n (drainMat { c with mat := c.mat ++ [{
      bank := false, fmtA := bits f 51 49, fmtB := bits f 48 46, feed := true, clr := f.getLsbD 52, left := some (bits f 15 0), pc := c.pc }] }) s)) ∧
  (∀ (s : State) (n : Node) (c : Core) (f : Field), Ready s n c →
    bits f 44 16 ≠ 0 ∨ (f.getLsbD 45 = true ∧ (bits f 15 0 = 0 ∨ 32 < bits f 15 0)) →
    exec (.matrix n f) s = .next (coreFault n .coreIllegalOp 0 0 s)) ∧
  (∀ (s : State) (n : Node) (c : Core) (f : Field), Ready s n c → bits f 44 16 = 0 → f.getLsbD 45 = false →
    pairingOk (bits f 51 49) (bits f 48 46) = false ∨ (c.status.getLsbD 17 = true ∧ f.getLsbD 53 = true) ∨ (getAg c 0).desc = [] →
    exec (.matrix n f) s = .next (coreFault n .coreIllegalFormat 0 0 s)) ∧
  (∀ (m : MatOp) (a b : List W32) (c : Core) (i j : Nat), m.fmtA < 2 → i < 32 → j < 32 →
    let bank (c : Core) : SMap W32 := if m.bank then c.a1 else c.a0
    let exact : Int := (if m.clr then 0 else (getK 0 (bank c) (32 * i + j)).toInt) + matInt m.fmtA (a.getD i 0).toNat * matInt m.fmtB (b.getD j 0).toNat
    (getK 0 (bank (depthStep m a b c)) (32 * i + j)).toInt = max (-2147483648) (min 2147483647 exact)) ∧
  (∀ (m : MatOp) (a b : List W32) (c : Core),
    let d := depthStep m a b c
    d = { c with a0 := d.a0, a1 := d.a1, fp0 := d.fp0, fp1 := d.fp1, status := d.status } ∧
    (m.bank = true → (depthStep m a b c).a0 = c.a0) ∧ (m.bank = false → (depthStep m a b c).a1 = c.a1) ∧
    ∀ k, k ≠ (if m.bank then 1 else 0) → (depthStep m a b c).status.getLsbD k = c.status.getLsbD k)

/-- VECTOR (R67, R68, R72–R74, R143, R170, R173–R175): the destination of each operation and the illegal forms. What the clauses take beyond the rules is the model's choice: log entries 3, 11, 13, 20, 48. -/
def Obligations.VectorInstructions : Prop :=
  (∀ (s : State) (n : Node) (c : Core) (f : Field) (op : VecOp) (pred : BitVec 64), Ready s n c → predOf c (bits f 33 30) = some pred →
    op ∈ [VecOp.add, .sub, .mul, .fma, .min, .max, .addSat, .subSat] → bits f 29 27 < 6 →
    exec (.vector n op f) s = .next (retireWith n (setV (bits f 53 49) (fun l => if pred.getLsbD l then
      laneOp op (bits f 29 27) (getV c (bits f 48 44) l) (getV c (bits f 43 39) l) (getV c (bits f 38 34) l) else getV c (bits f 53 49) l) c) s)) ∧
  (∀ (s : State) (n : Node) (c : Core) (f : Field) (pred : BitVec 64) (fn : TransFn) (bank : Bool) (pair : BitVec 4), Ready s n c →
    predOf c (bits f 33 30) = some pred →
    (bits f 29 27 < 6 → exec (.vector n .select f) s = .next (retireWith n (setV (bits f 53 49) (fun l => if pred.getLsbD l then
      getV c (bits f 48 44) l else getV c (bits f 43 39) l) c) s)) ∧
    exec (.vector n (.trans fn) f) s = .next (retireWith n (setV (bits f 53 49) (fun l => if pred.getLsbD l then
      transFn fn (getV c (bits f 48 44) l) else getV c (bits f 53 49) l) c) s) ∧
    (c.mat.any (fun m => m.bank = bank) = false → exec (.vector n (.accRead bank pair) f) s =
      .next (retireWith n (setV (bits f 53 49) (fun l => if pred.getLsbD l then
        getA c bank (2 * pair.toNat + l / 32) (l % 32) else getV c (bits f 53 49) l) c) s))) ∧
  (∀ (s : State) (n : Node) (c : Core) (f : Field) (r : VRel) (pred : BitVec 64), Ready s n c → predOf c (bits f 33 30) = some pred →
    bits f 29 27 < 6 → bits f 53 49 < 8 → ∃ v : BitVec 64, exec (.vector n (.cmp r) f) s = .next (retireWith n (setP (bits f 53 49) v c) s) ∧
      ∀ l < 64, v.getLsbD l = if pred.getLsbD l then laneCmp r (bits f 29 27) (getV c (bits f 48 44) l) (getV c (bits f 43 39) l)
        else (getP c (bits f 53 49)).getLsbD l) ∧
  (∀ (s : State) (n : Node) (c : Core) (f : Field) (dst : BitVec 3) (pred : BitVec 64), Ready s n c → predOf c (bits f 33 30) = some pred →
    ∃ d : Core, exec (.vector n (.convert dst) f) s = .next (retireWith n d s) ∧
      d = { c with v := d.v, clips := d.clips, status := d.status } ∧ (f.getLsbD 26 = false → d.clips = c.clips ∧ d.status = c.status) ∧
      ∀ l < 64, wfK 0 c.v = true → getV d (bits f 53 49) l = if pred.getLsbD l then
        pack dst.toNat ((convElems (bits f 29 27) dst.toNat (getV c (bits f 48 44) l)).map (·.1)) else getV c (bits f 53 49) l) ∧
  (∀ (s : State) (n : Node) (c : Core) (f : Field) (pair : BitVec 4) (sb : BitVec 10) (pred : BitVec 64), Ready s n c →
    predOf c (bits f 33 30) = some pred → c.status.getLsbD 17 = true → c.mat = [] →
    exec (.vector n (.stateRead pair sb) f) s = .next (retireWith n (setV (bits f 53 49) (fun l => if pred.getLsbD l then
      stateVal c (c.status.toNat / 2 ^ 18 % 4) sb.toNat (2 * pair.toNat + l / 32) (getA c true (2 * pair.toNat + l / 32) (l % 32))
      else getV c (bits f 53 49) l) c) s) ∧
    (f.getLsbD 26 = false → ∃ d : Core, exec (.vector n (.stateWrite pair sb) f) s = .next (retireWith n d s) ∧ d = { c with a1 := d.a1 } ∧
      ∀ k < 1024, getK 0 d.a1 k = if 64 * pair.toNat ≤ k ∧ k < 64 * pair.toNat + 64 ∧ pred.getLsbD (k - 64 * pair.toNat) then
        BitVec.ofNat 32 (stateConv c (c.status.toNat / 2 ^ 18 % 4) sb.toNat (k / 32) (getV c (bits f 48 44) (k - 64 * pair.toNat))).1
        else getK 0 c.a1 k)) ∧
  (∀ (s : State) (n : Node) (c : Core) (f : Field) (sel : RescaleSel) (pred : BitVec 64), Ready s n c → predOf c (bits f 33 30) = some pred →
    bits f 19 18 < 2 → c.mat = [] → f.getLsbD 26 = false →
    exec (.rescale n sel f) s = .next (retireWith n (setV (bits f 53 49) (fun l => if pred.getLsbD l then
      BitVec.ofNat 32 (rescaleEntry c (bits f 19 18) (bits f 29 27) ((sel.base.toNat + 2 * sel.pair.toNat + l / 32) % 512)
        (sel.fromVector || (if sel.bank then c.fp1 else c.fp0))
        (if sel.fromVector then getV c (bits f 48 44) l else getA c sel.bank (2 * sel.pair.toNat + l / 32) (l % 32))).1
      else getV c (bits f 53 49) l) c) s)) ∧
  (∀ (s : State) (n : Node) (c : Core) (f : Field) (base : BitVec 10) (pred : BitVec 64), Ready s n c → predOf c (bits f 33 30) = some pred →
    wfK 0 c.scl = true → ∃ d : Core, exec (.sclload n base f) s = .next (retireWith n d s) ∧ d = { c with scl := d.scl } ∧
      (∀ l < 64, getScl d (base.toNat + l) = if pred.getLsbD l then getV c (bits f 48 44) l else getScl c (base.toNat + l)) ∧
      (∀ k < 1024, (∀ l < 64, k ≠ (base.toNat + l) % 1024) → getScl d k = getScl c k)) ∧
  (∀ (s : State) (n : Node) (c : Core) (f : Field) (op : VecOp) (sel : RescaleSel) (base : BitVec 10), Ready s n c →
    (op = .undefinedOp ∨ (1 ≤ bits f 33 30 ∧ bits f 33 30 < 8) → exec (.vector n op f) s = .next (coreFault n .coreIllegalOp 0 0 s)) ∧
    ((1 ≤ bits f 33 30 ∧ bits f 33 30 < 8) ∨ bits f 19 18 = 3 → exec (.rescale n sel f) s = .next (coreFault n .coreIllegalOp 0 0 s)) ∧
    (1 ≤ bits f 33 30 ∧ bits f 33 30 < 8 → exec (.sclload n base f) s = .next (coreFault n .coreIllegalOp 0 0 s)) ∧
    (op ∈ [VecOp.add, .sub, .mul, .fma, .min, .max, .addSat, .subSat, .select] → bits f 33 30 = 0 → 6 ≤ bits f 29 27 →
      exec (.vector n op f) s = .next (coreFault n .coreIllegalFormat 0 0 s)) ∧
    (∀ r, bits f 33 30 = 0 → bits f 29 27 < 6 → 8 ≤ bits f 53 49 → exec (.vector n (.cmp r) f) s = .next (coreFault n .coreIllegalOp 0 0 s))) ∧
  (∀ a b c : W32, laneOp .add 3 a b c = a + b ∧
    laneOp .addSat 4 a b c = (BitVec.ofInt 16 (max (-32768) (min 32767 ((a.extractLsb' 16 16).toInt + (b.extractLsb' 16 16).toInt)))) ++
      (BitVec.ofInt 16 (max (-32768) (min 32767 ((a.extractLsb' 0 16).toInt + (b.extractLsb' 0 16).toInt)))))

/-- The address generators (R102–R105, R109–R112). What the clauses take beyond the rules is the model's choice: log entry 18. -/
def Obligations.AddressGenerators : Prop :=
  (∀ (s : State) (n : Node) (c : Core) (f : Field), Ready s n c → bits f 38 32 = 0 → bits f 51 48 % 2 = 0 → bits f 53 52 ≠ 3 →
    exec (.bind n f) s = .next (retireWith n (setAg (bits f 53 52) { getAg c (bits f 53 52) with
      slot := bits f 51 48, win := bits f 47 44, base := ((getS c (bits f 43 39)).toNat + bits f 31 0) % 2 ^ 33 } c) s)) ∧
  (∀ (s : State) (n : Node) (c : Core) (f : Field) (g : AddrGen) (d : List W32), Ready s n c → bits f 38 32 = 0 → bits f 51 48 % 2 = 0 →
    bits f 53 52 ≠ 3 → g = getAg c (bits f 53 52) → d = (List.range 16).map (fun i => getK 0 c.ld (8 * g.slot + i)) →
    (g.running = false → descBad (bits f 53 52) d = false →
      let t := traceRec n 0x06 4 (leBytes 1 (bits f 53 52) ++ leBytes 1 g.slot ++ [0, 0] ++ leBytes 2 c.pc.toNat) s
      exec (.agenStart n f) s = .next (retireWith n (setAg (bits f 53 52) { g with
        running := true, desc := d, pos := [0, 0, 0, 0, 0, 0], exhausted := false, startPc := c.pc,
        maskN := 0, rowMask := 0, colMask := 0, out := [], late := [] } (getCore t n)) t)) ∧
    (g.running = false → descBad (bits f 53 52) d = true → exec (.agenStart n f) s = .next (coreFault n .agBadDescriptor g.win g.base s)) ∧
    (g.running = true → exec (.agenStart n f) s = .next (coreWait n (.agen (bits f 53 52)) s) ∧
      exec (.agenWait n f) s = .next (coreWait n (.agen (bits f 53 52)) s)) ∧
    (g.running = false → exec (.agenWait n f) s = .next (retire n s))) ∧
  (∀ (s : State) (n : Node) (k : Nat) (bs : List Byte), (getAg (getCore s n) k).running = false →
    exec (.agAccess n k bs) s = .next s ∧ exec (.agRunEnd n k) s = .next s) ∧
  (∀ (s : State) (n : Node) (k : Nat) (bs : List Byte) (g : AddrGen) (w : Window), g = getAg (getCore s n) k → k < 2 → g.running = true →
    g.exhausted = false → db g.desc 9 21 20 = 0 → (visitOff g).2 = false → 0 < dLanes g.desc → getWin (getCore s n) g.win = some w → w.r = true →
    w.space = .lcl → 0 ≤ (visitOff g).1 → (visitOff g).1.toNat + dAcc g.desc ≤ w.length → 8 ≤ dLane g.desc →
    (winAddr w (visitOff g).1.toNat).toNat % (dLane g.desc / 8) = 0 →
    memCleanEn (getCore s n) (localAddr (winAddr w (visitOff g).1.toNat)) (List.replicate (dAcc g.desc) true) = true →
    exec (.agAccess n k bs) s = .next (setCore n (drainMat (setAg k (agFlush { g with
      pos := (nextPos g.desc g.pos 6).1, exhausted := (nextPos g.desc g.pos 6).2,
      late := g.late ++ [(0, some (lanesOf (dLane g.desc) (rdN (getCore s n).mem (localAddr (winAddr w (visitOff g).1.toNat)) (dAcc g.desc))
        (List.replicate (dLanes g.desc) true)))] }) (getCore s n))) s)) ∧
  (∀ (s : State) (n : Node) (k : Nat) (g : AddrGen), g = getAg (getCore s n) k → g.running = true → g.exhausted = true → g.late = [] →
    let t := traceRec n 0x06 4 (leBytes 1 k ++ leBytes 1 g.slot ++ [1, 0] ++ leBytes 2 g.startPc.toNat) s
    exec (.agRunEnd n k) s = .next (setCore n (drainMat (setAg k { g with running := false } (getCore t n))) t))

/-- The message port (R39, R89, R90, R97). What the clauses take beyond the rules is the model's choice: log entry 49. -/
def Obligations.CoreMessages : Prop :=
  (∀ (s : State) (n : Node) (c : Core) (f : Field) (x : Route) (w : Window) (r len a off : Nat), Ready s n c →
    r = (if f.getLsbD 48 then (getS c (bits f 42 38)).toNat % 32 else bits f 53 49) → len = bits f 25 13 → 1 ≤ len → len ≤ 4096 →
    getRoute c r = some x → getWin c (bits f 37 34) = some w → w.space = .lcl → w.r = true →
    off = ((getS c (bits f 47 43)).toNat + bits f 12 0) % 2 ^ 33 → off + len ≤ w.length → a = localAddr (winAddr w off) →
    let t := setCore n (sigFold (now s) 6 r 0 (enMask len []) (rdN c.mem a len) c) s
    (x.credits ≠ 0 → memClean c a len = true → exec (.send n f) s = .next (retire n (sendData n r x (rdN c.mem a len) false t))) ∧
    (x.credits ≠ 0 → memClean c a len = false → exec (.send n f) s = .next (coreFault n .coreMemUe (bits f 37 34) off (sendData n r x (rdN c.mem a len) true t))) ∧
    (x.credits = 0 → exec (.send n f) s = .next (coreWait n (.credit r) s))) ∧
  (∀ (s : State) (n : Node) (c : Core) (f : Field) (x : Route) (r len : Nat) (bs : List Byte), Ready s n c →
    r = (if f.getLsbD 48 then (getS c (bits f 42 38)).toNat % 32 else bits f 53 49) → len = bits f 25 13 → 4 ≤ len → len ≤ 32 → len % 4 = 0 →
    getRoute c r = some x → bs = (List.range (len / 4)).flatMap (fun k => leBytes 4 (getS c (bits f 47 43 + k)).toNat) →
    (x.credits ≠ 0 → exec (.sends n f) s = .next (retire n (sendData n r x bs false (setCore n (sigFold (now s) 7 r 0 (enMask len []) bs c) s)))) ∧
    (x.credits = 0 → exec (.sends n f) s = .next (coreWait n (.credit r) s))) ∧
  (∀ (s : State) (n : Node) (r : Nat) (x : Route) (bs : List Byte) (p : Bool), s.trace.running = false → wfK ({} : Core) s.cores = true →
    let t := sendData n r x bs p s
    t = { s with cores := t.cores, sent := s.sent ++ [.fab (.data { src := n, dst := x.node, chan := x.chan, poison := p, data := bs })] } ∧
    getCore t n = setRoute r { x with credits := x.credits - 1 } (getCore s n) ∧ ∀ k, k ≠ n → getCore t k = getCore s k) ∧
  (∀ (s : State) (n : Node) (c : Core) (f : Field) (ch : Chan), Ready s n c → bits f 30 26 % 2 = 0 →
    getChan c (bits f 33 31) = some ch →
    (∀ m, ch.msgs.find? (fun m => !m.received) = some m → exec (.recv n f) s = .next (retire n (traceRec n 0x03 1
      (leBytes 1 (bits f 33 31) ++ [0] ++ leBytes 2 m.len ++ leBytes 2 m.src.toNat) (setCore n
      (setChan (bits f 33 31) { ch with msgs := markReceived ch.msgs }
        ((if m.poison then setStatus 2 else id) (setS (bits f 30 26 + 1) (BitVec.ofNat 32 (m.src.toNat * 65536 + m.len))
          (setS (bits f 30 26) (BitVec.ofNat 32 (ch.base + m.slot * ch.slotSize)) c)))) s)))) ∧
    (ch.msgs.find? (fun m => !m.received) = none → exec (.recv n f) s = .next (coreWait n (.recv (bits f 33 31)) s)) ∧
    (∀ m, ch.msgs.find? (·.received) = some m → exec (.release n f) s = .next (retire n (returnCredit m.src n (bits f 33 31)
      (setCore n (setChan (bits f 33 31) { ch with msgs := ch.msgs.erase m } c) s)))) ∧
    (ch.msgs.find? (·.received) = none → exec (.release n f) s = .next (coreFault n .coreIllegalOp 0 0 s)) ∧
    exec (.poll n f) s = .next (retireWith n (setS (bits f 30 26) (BitVec.ofNat 32 (ch.msgs.filter (fun m => !m.received)).length) c) s)) ∧
  (∀ (s : State) (n : Node) (c : Core) (f : Field), Ready s n c → f.getLsbD 48 = false → getRoute c (bits f 53 49) = none →
    (4 ≤ bits f 25 13 → bits f 25 13 ≤ 32 → bits f 25 13 % 4 = 0 →
      exec (.sends n f) s = .next (coreFault n .coreRouteUndeclared (bits f 53 49) 0 s)) ∧
    (1 ≤ bits f 25 13 → bits f 25 13 ≤ 4096 → (∀ w, getWin c (bits f 37 34) = some w → w.space = .lcl) →
      exec (.send n f) s = .next (coreFault n .coreRouteUndeclared (bits f 53 49) 0 s)))

/-- Messages and replies to a core (R39, R44, R46, R82, R86, R88, R91). What the clauses take beyond the rules is the model's choice: log entry 47. -/
def Obligations.CoreArrivals : Prop :=
  (∀ (s : State) (m : DataMsg) (ch : Chan) (k : Nat), accepts s m.dst = true → isCore m.dst = true →
    getChan (getCore s m.dst) m.chan.toNat = some ch → m.data.length ≤ ch.slotSize → k < ch.slots → (∀ x ∈ ch.msgs, x.slot ≠ k) →
    (∀ j < k, ∃ x ∈ ch.msgs, x.slot = j) →
    exec (.dataArrival m) s = .next (setCore m.dst (setChan m.chan.toNat { ch with msgs := ch.msgs ++ [{
      slot := k, src := m.src, len := m.data.length, poison := m.poison }] }
      (coreWrite (ch.base + k * ch.slotSize) m.data [] (getCore s m.dst))) s)) ∧
  (∀ (s : State) (m : DataMsg), accepts s m.dst = false →
    exec (.dataArrival m) s = .next { s with sent := s.sent ++ [.fab (.nack m.src (.route (BitVec.ofNat 5 (routeTo s m.src m.dst m.chan.toNat))))] }) ∧
  (∀ (s : State) (m : DataMsg), accepts s m.dst = true → isCore m.dst = true →
    (∀ ch, getChan (getCore s m.dst) m.chan.toNat = some ch → ch.slotSize < m.data.length) →
    exec (.dataArrival m) s = .next (raise .coreMsgOversize { node := m.dst } [] (returnCredit m.src m.dst m.chan.toNat s))) ∧
  (∀ (s : State) (n : Node) (r : Nat) (x : Route), getRoute (getCore s n) r = some x →
    exec (.credit n r) s = .next (setCore n (setRoute r { x with credits := min (x.credits + 1) x.share } (getCore s n)) s)) ∧
  (∀ (s : State) (n : Node) (tag : W16) (st : FabStatus) (bs : List Byte), (getCore s n).pend.find? (fun p => p.tag = tag) = none →
    exec (.reply n tag st bs) s = .next s ∧ exec (.fabReplyTimeout n tag) s = .next s ∧ exec (.nackIslandDown n (.entry tag)) s = .next s) ∧
  (∀ (s : State) (n : Node) (tag : W16) (bs : List Byte) (p : Pend), (getCore s n).pend.find? (fun p => p.tag = tag) = some p →
    exec (.reply n tag .ok bs) s = .next (setCore n ((if p.returnsData then landData p bs else id)
      { getCore s n with pend := (getCore s n).pend.filter (fun q => q.tag ≠ p.tag) }) s) ∧
    (p.returnsData = true → (∃ w, getWin (getCore s n) p.win = some w ∧ w.tolerant = true) → ∀ st, st ≠ .ok →
      exec (.reply n tag st bs) s = .next (setCore n (setStatus 2 (landData p []
        { getCore s n with pend := (getCore s n).pend.filter (fun q => q.tag ≠ p.tag) })) s)) ∧
    (p.returnsData = false → ∃ t, t = raise .fabReplyTimeout { node := n } [] s ∧
      exec (.fabReplyTimeout n tag) s = .next (setCore n { getCore t n with pend := (getCore t n).pend.filter (fun q => q.tag ≠ p.tag) } t))) ∧
  (∀ (s : State) (n : Node) (r : BitVec 5) (x : Route), wfK ({} : Core) s.cores = true → getRoute (getCore s n) r.toNat = some x → x.optional = true →
    ∃ t, exec (.nackIslandDown n (.route r)) s = .next t ∧ t = { s with cores := t.cores } ∧
      getCore t n = setStatus 3 { setRoute r.toNat { x with credits := min (x.credits + 1) x.share } (getCore s n) with
        destAbsent := (getCore s n).destAbsent.inc } ∧ ∀ k, k ≠ n → getCore t k = getCore s k)

/-- Control of a core from outside its program (R59, R69, R70, R93, R99, R389, R390). What the clauses take beyond the rules is the model's choice: log entry 47. -/
def Obligations.CoreControl : Prop :=
  (∀ (s : State) (n : Node), (getCore s n).run = .idle ∨ (getCore s n).run = .done → (getCore s n).heldStop = false →
    (getCore s n).resident = false ∨ (getCore s n).started = false → (getCore s n).sig.pair = none → s.trace.running = false → wfK ({} : Core) s.cores = true →
    ∃ t, exec (.controlStart n) s = .next t ∧ t = { s with cores := t.cores } ∧ (getCore t n).run = .run ∧ (getCore t n).pc = (getCore s n).entry ∧
      (getCore t n).retired = 0 ∧ (getCore t n).started = true ∧ (∀ r, getS (getCore t n) r = getS (getCore s n) r) ∧
      (getCore t n).mem = (getCore s n).mem ∧ ∀ k, k ≠ n → getCore t k = getCore s k) ∧
  (∀ (s : State) (n : Node), (getCore s n).heldStop = true ∨ ((getCore s n).resident = true ∧ (getCore s n).started = true) ∨
      ((getCore s n).run ≠ .idle ∧ (getCore s n).run ≠ .done) → exec (.controlStart n) s = .next s) ∧
  (∀ (s : State) (n : Node) (k : W32), exec (.trailStart n) s = .next (setCore n { getCore s n with skewHold := false } s) ∧
    exec (.pace n k) s = .next (setCore n { getCore s n with pace := k } s)) ∧
  (∀ (s : State) (n : Node), (getCore s n).run ≠ .wait → exec (.waitRestart n) s = .next s ∧ exec (.coreWaitLimit n) s = .next s) ∧
  (∀ (s : State) (n : Node), (getCore s n).run = .wait →
    (∀ tag, (getCore s n).wait = .reply tag → (∀ p ∈ (getCore s n).pend, p.tag ≠ tag) →
      exec (.waitRestart n) s = .next (retire n (changeCore n (fun c => { c with run := .run, wait := .none }) s))) ∧
    ((getCore s n).wait = .fence ∨ (getCore s n).wait = .groups ∨ (getCore s n).wait = .operands →
      exec (.waitRestart n) s = .next (changeCore n (fun c => { c with run := .run, wait := .none }) s)) ∧
    exec (.coreWaitLimit n) s = .next (coreFault n .coreWaitLimit 0 0 s)) ∧
  (∀ (s : State) (n : Node) (u : Nat), (40 ≤ u ∧ u ≤ 125 ∧ freqAllowed s n u = true →
      exec (.frequencyTarget n u) s = .next (setCore n { getCore s n with freqNext := some u } s)) ∧
    (u < 40 ∨ 125 < u ∨ freqAllowed s n u = false → exec (.frequencyTarget n u) s = .next s) ∧
    ((getCore s n).freqNext = some u → (getCore s n).run ≠ .wait →
      exec (.frequencyChange n) s = .next (setCore n { getCore s n with freq := u, freqNext := none } s)) ∧
    ((getCore s n).freqNext = none → exec (.frequencyChange n) s = .next s)) ∧
  (∀ (s : State) (n : Node) (mhz : Nat), (mhz < 380 ∨ 1300 < mhz → exec (.coreClkRange n mhz) s = .next (raise .coreClkRange { node := n } (leBytes 4 mhz) s)) ∧
    (380 ≤ mhz ∧ mhz ≤ 1300 → exec (.coreClkRange n mhz) s = .next s)) ∧
  (∀ (s : State) (n : Node) (m : CoreMem) (w : Nat), ((getCore s n).run = .off → ∀ e, exec (.scrubSlot n m w e) s = .next s) ∧
    exec (.scrubSlot n m w .clean) s = .next s ∧
    ((getCore s n).run ≠ .off →
      exec (.scrubSlot n .cmem w .corrected) s = .next (raise .coreMemCe { node := n } (leBytes 4 w) s) ∧
      exec (.scrubSlot n .imem w .corrected) s = .next (raise .coreImemCe { node := n } (leBytes 4 w) s) ∧
      exec (.scrubSlot n .cmem w .uncorrectable) s = .next (raise .coreMemUe { node := n } (leBytes 4 w)
        (setCore n { getCore s n with memBad := (getCore s n).memBad.erase w ++ [w] } s)) ∧
      exec (.scrubSlot n .imem w .uncorrectable) s = .next (raise .coreImemUe { node := n } (leBytes 4 w)
        (setCore n { getCore s n with imemBad := (getCore s n).imemBad.erase w ++ [w] } s))))

/-- FLIT_TRANSFER (R31, R37, R43) and FAB_LINK_TIMEOUT (R32). -/
def Obligations.FabricFlits : Prop :=
  (∀ (s : State) (f : Flit) (x : Transit), getK none s.fab.transit f.id = some x → x.discarded = false →
    let put (y : Option Transit) : State := { s with fab := { s.fab with transit := putK none s.fab.transit f.id y } }
    let more (y : Transit) : Option Transit := if 1 + (f.payload + 31) / 32 ≤ x.flits + 1 then none else some { y with flits := x.flits + 1 }
    (f.ecc = .clean → exec (.flitTransfer f) s = .next (put (more x))) ∧
    (f.ecc = .corrected → exec (.flitTransfer f) s = .next (raise .fabCe { node := f.dst } (leBytes 2 f.src.toNat) (put (more x)))) ∧
    (f.ecc = .uncorrectable → f.head = false → exec (.flitTransfer f) s = .next (put (more { x with poison := true }))) ∧
    (f.ecc = .uncorrectable → f.head = true → exec (.flitTransfer f) s = .next (raise .fabHdrUe { node := f.dst } (leBytes 2 f.src.toNat) (put (if 1 + (f.payload + 31) / 32 ≤ x.flits + 1 then none else some { x with flits := x.flits + 1, discarded := true }))))) ∧
  (∀ (s : State) (near far : Node) (f : Flit),
    exec (.fabLinkTimeout near far f) s
      = exec (.flitTransfer { f with ecc := .uncorrectable }) (raise .fabLinkTimeout { node := near } (leBytes 2 far.toNat) s))

/-- READ_REQ and WRITE_REQ (R40, R46, R83, R85, R188). What the clauses take beyond the rules is the model's choice: log entries 4, 21. -/
def Obligations.EndpointRequests : Prop :=
  (∀ (s : State) (r : FabReq), accepts s r.dst = false →
    exec (.readReq r) s = .next { s with sent := s.sent ++ [.fab (.nack r.src (.entry r.tag))] } ∧
    exec (.writeReq r) s = .next { s with sent := s.sent ++ [.fab (.nack r.src (.entry r.tag))] }) ∧
  (∀ (s : State) (r : FabReq), accepts s r.dst = true → r.space = .staging → r.atomic = none →
    let a := r.addr.toNat % 2 ^ 23
    (wordsClean s.mem.stagingBad a r.len = true →
      exec (.readReq r) s = .next { s with sent := s.sent ++ [.fab (.reply r.src r.tag .ok (rdN s.mem.staging a r.len))] }) ∧
    (wordsClean s.mem.stagingBad a r.len = false →
      exec (.readReq r) s = .next { s with sent := s.sent ++ [.fab (.reply r.src r.tag .poison [])] }) ∧
    (Memory.wf s.mem.staging = true → r.en = [] → ∃ t, exec (.writeReq r) s = .next t ∧
      t = { s with mem := { s.mem with staging := t.mem.staging, stagingBad := t.mem.stagingBad }, sent := s.sent ++ [.fab (.reply r.src r.tag .ok [])] } ∧
      (∀ w ∈ t.mem.stagingBad, w ∈ s.mem.stagingBad) ∧
      ∀ j, rd t.mem.staging j = if a ≤ j ∧ j < a + r.data.length then r.data.getD (j - a) 0 else rd s.mem.staging j)) ∧
  (∀ (s : State) (r : FabReq) (op : AtomicOp), accepts s r.dst = true → r.space = .staging → r.atomic = some op → Memory.wf s.mem.staging = true →
    let a := r.addr.toNat % 2 ^ 23
    let old := leVal (rdN s.mem.staging a r.len)
    let x := leVal (sub r.data 0 r.len)
    let new : Option Nat := match op with
      | .fetchAdd => some ((old + x) % 2 ^ (8 * r.len))
      | .cas => if old = x then some (leVal (sub r.data r.len r.len)) else none
    wordsClean s.mem.stagingBad a r.len = true → ∃ t, exec (.writeReq r) s = .next t ∧
      t = { s with mem := { s.mem with staging := t.mem.staging, stagingBad := t.mem.stagingBad }
                   sent := s.sent ++ [.fab (.reply r.src r.tag .ok (rdN s.mem.staging a r.len))] } ∧
      leVal (rdN t.mem.staging a r.len) = new.getD old ∧
      ∀ j, j < a ∨ a + r.len ≤ j → rd t.mem.staging j = rd s.mem.staging j) ∧
  (∀ (s : State) (r : FabReq), accepts s r.dst = true → r.atomic = none → r.space = .chamber → r.addr.getLsbD 26 = false →
    (wordsClean s.mem.chamberBad (r.addr.toNat % 2 ^ 26) r.len = true →
      exec (.readReq r) s = .next { s with sent := s.sent ++ [.fab (.reply r.src r.tag .ok (rdN s.mem.chamber (r.addr.toNat % 2 ^ 26) r.len))] }) ∧
    exec (.writeReq r) s = .next { s with
      mem := { s.mem with chamber := wrEn s.mem.chamber (r.addr.toNat % 2 ^ 26) r.data r.en
                          chamberBad := wordsAfter s.mem.chamberBad (r.addr.toNat % 2 ^ 26) r.data.length r.en }
      sent := s.sent ++ [.fab (.reply r.src r.tag .ok [])] }) ∧
  (∀ (s : State) (r : FabReq), accepts s r.dst = true → r.atomic = none → r.space = .peer →
    exec (.writeReq r) s = .next (emitFab (.reply r.src r.tag .ok []) (setCore r.dst (coreWrite (r.addr.toNat % 2 ^ 19) r.data r.en (getCore s r.dst)) s)) ∧
    (memClean (getCore s r.dst) (r.addr.toNat % 2 ^ 19) r.len = true →
      exec (.readReq r) s = .next (emitFab (.reply r.src r.tag .ok (rdN (getCore s r.dst).mem (r.addr.toNat % 2 ^ 19) r.len)) s))) ∧
  (∀ (s : State) (r : FabReq), accepts s r.dst = true → r.atomic = none → r.space = .dram → s.mem.halted = false → s.mem.stalled = [] → r.data = [] →
    let t := (charge r r.len s).2
    t = { s with mem := { s.mem with bytes := t.mem.bytes, buckets := t.mem.buckets, overrun := t.mem.overrun } } ∧
    exec (.readReq r) s = .next (emitFab (if dramBacked s r.addr.toNat r.len ∧ ∀ l ∈ dramLines s.mem r.addr.toNat r.len, l.1 ∉ s.mem.dramBad
      then .reply r.src r.tag .ok (dramGets s.mem r.addr.toNat r.len) else .reply r.src r.tag .poison []) t))

/-- QUIESCE, QUIESCED, FAB_QUIESCE_TIMEOUT, QUIESCED_RECEIVED and ADMIT (R45, R48). What the clauses take beyond the rules is the model's choice: log entry 49. -/
def Obligations.QuiesceProtocol : Prop :=
  (∀ (s : State) (n : Node) (l : Nat), (getIsland s n).closed = true ∨ powered s n = false → exec (.quiesce n l) s = .next s) ∧
  (∀ (s : State) (n : Node) (l : Nat), (getIsland s n).closed = false → powered s n = true → isCore n = false → wfK ({} : Core) s.cores = true →
    wfK ({} : Island) s.fab.islands = true → ∃ t, exec (.quiesce n l) s = .next t ∧
      (getIsland t n).closed = true ∧ (getIsland t n).drained = false ∧ (getIsland t n).poisoned = 0 ∧ (getIsland t n).abandoned = 0 ∧
      (getIsland t n).limit = now s + BitVec.ofNat 64 (max 2000 (min l 200000))) ∧
  (∀ (s : State) (n : Node), (getIsland s n).closed = true → (getIsland s n).drained = false → (getIsland s n).accepted = [] → (getCore s n).pend = [] →
    exec (.quiesced n) s = .next (emitFab (.control n 0x200 (.quiesced (getIsland s n).discarded (getIsland s n).poisoned (getIsland s n).abandoned))
      (setIsland n { getIsland s n with drained := true } s))) ∧
  (∀ (s : State) (n : Node), (getIsland s n).closed = false ∨ (getIsland s n).drained = true ∨ (getIsland s n).accepted ≠ [] ∨ (getCore s n).pend ≠ [] →
    exec (.quiesced n) s = .next s) ∧
  (∀ (s : State) (n : Node) (who : Node) (tag : W16), (getIsland s n).closed = true → (getIsland s n).drained = false →
    (getIsland s n).accepted = [(who, tag)] → (getCore s n).pend = [] →
    exec (.fabQuiesceTimeout n) s = .next (raise .fabQuiesceTimeout { node := n } [] (setIsland n { getIsland s n with
      accepted := [], poisoned := (getIsland s n).poisoned + 1 } (emitFab (.reply who tag .poison []) s)))) ∧
  (∀ (s : State) (n : Node), (getIsland s n).accepted = [] → (getCore s n).pend = [] → exec (.fabQuiesceTimeout n) s = .next s) ∧
  (∀ (s : State) (n : Node) (act : QAction), ((getIsland s n).drained = false → exec (.quiescedReceived n act) s = .next s) ∧
    ((getIsland s n).drained = true → act ≠ .reset → exec (.quiescedReceived n act) s = .next (setIsland n { getIsland s n with known := true } s))) ∧
  (∀ (s : State) (n : Node), ((getIsland s n).closed = false ∨ powered s n = false → exec (.readmit n) s = .next s) ∧
    ((getIsland s n).closed = true → powered s n = true → isCore n = false → exec (.readmit n) s = .next (setIsland n {} s)))

/-- CHAMBER_SCRUB (R188), PATROL_SCRUB (R191), PHY_LOCK_LOSS, PHY_LOCK_REGAIN, PHY_RETRAIN_TIMEOUT (R193), MIGRATION_COMPLETE (R194). -/
def Obligations.MemoryTiers : Prop :=
  (∀ (s : State) (b : Bool) (a : Nat), exec (.chamberScrub b a .clean) s = .next s ∧
    exec (.chamberScrub true a .corrected) s = .next (raise .stgCe { node := 0x230 } (leBytes 4 a) s) ∧
    exec (.chamberScrub false a .corrected) s = .next (raise .chmCe (chamberInst a) (leBytes 4 a) s) ∧
    exec (.chamberScrub true a .uncorrectable) s = .next (raise .stgUe { node := 0x230 } (leBytes 4 a)
      { s with mem := { s.mem with stagingBad := s.mem.stagingBad.erase (a / 8) ++ [a / 8] } }) ∧
    exec (.chamberScrub false a .uncorrectable) s = .next (raise .chmUe (chamberInst a) (leBytes 4 a)
      { s with mem := { s.mem with chamberBad := s.mem.chamberBad.erase (a / 8) ++ [a / 8] } })) ∧
  (∀ (s : State) (k l : Nat), (outOfService s k = true → (∀ e, exec (.patrolScrub k l e) s = .next s) ∧ exec (.phyLockLoss k) s = .next s) ∧
    exec (.patrolScrub k l .clean) s = .next s ∧
    (outOfService s k = false →
      exec (.patrolScrub k l .corrected) s = .next (raise .dramCe { node := BitVec.ofNat 10 (0x218 + k % 4), sub := BitVec.ofNat 8 k } (leBytes 8 (dramAddr s.mem k (l * 64)))
        { s with mem := { s.mem with chan := putK {} s.mem.chan k { getK {} s.mem.chan k with ce := (getK {} s.mem.chan k).ce.inc } } }) ∧
      exec (.phyLockLoss k) s = .next { s with mem := { s.mem with chan := putK {} s.mem.chan k { getK {} s.mem.chan k with lockLost := some (now s) } } } ∧
      ∃ t : State, t.mem.dramBad = s.mem.dramBad.erase (k * 2 ^ 34 + l) ++ [k * 2 ^ 34 + l] ∧
        exec (.patrolScrub k l .uncorrectable) s = .next (dramUe k (dramAddr s.mem k (l * 64)) t) ∧ t = { s with mem := { s.mem with dramBad := t.mem.dramBad } })) ∧
  (∀ (s : State) (k : Nat), exec (.phyLockRegain k) s = .next { s with mem := { s.mem with
      chan := putK {} s.mem.chan k { getK {} s.mem.chan k with lockLost := none } } } ∧
    ((getK {} s.mem.chan k).lockLost = none → exec (.phyRetrainTimeout k) s = .next s) ∧
    (∀ t, (getK {} s.mem.chan k).lockLost = some t → exec (.phyRetrainTimeout k) s = .next (retirePair (k / 2) { s with mem := { s.mem with
      chan := putK {} s.mem.chan k { getK {} s.mem.chan k with lockLost := none } } }))) ∧
  (∀ (s : State) (p : Nat), p ∈ s.mem.retired → retirePair p s = s) ∧
  (∀ s : State, s.mem.migrating = false → exec .migrationComplete s = .next s) ∧
  (∀ s : State, s.mem.migrating = true → s.mem.stalled = [] → s.host.bar2Held = [] →
    exec .migrationComplete s = .next { s with mem := { finishCopy s.mem with migrating := false, copied := [], halted := false, bulk := 65536, stalled := [] }
                                               host := { s.host with bar2Held := [] } })

/-- DOMAIN_POWER_UP, DOMAIN_GATE (R537–R539), VOLTAGE_STEP, PMBUS_POLL (R467, R536), I3C_READ (R468). What the clauses take beyond the rules is the model's choice: log entries 4, 68. -/
def Obligations.DomainsAndRails : Prop :=
  (∀ (s : State) (d : Nat), 16 ≤ d ∨ d ∉ s.fab.gated → exec (.domainPowerUp d) s = .next s) ∧
  (∀ (s : State) (d : Nat), d < 8 → d ∈ s.fab.gated → s.trace.gated = [] → s.trace.running = false → ∃ t, exec (.domainPowerUp d) s = .next t ∧
    t.fab.gated = s.fab.gated.filter (fun x => x ≠ d) ∧ t.cores = s.cores ∧ t.mem = s.mem) ∧
  (∀ (s : State) (d : Nat), 16 ≤ d ∨ gateRefused s d = true ∨ d ∈ s.fab.gated → exec (.domainGate d) s = .next s) ∧
  (∀ (s : State) (d : Nat), 1 ≤ d → d < 8 → gateRefused s d = false → d ∉ s.fab.gated → s.trace.running = false → ∃ t, exec (.domainGate d) s = .next t ∧
    t.fab.gated = s.fab.gated ++ [d] ∧ t.cores = s.cores ∧ t.mem = gateMem d s.mem) ∧
  (∀ (s : State) (g : Nat), let v := getK 0 s.ltn.vout g
    (4 ≤ g ∨ v = 0 ∨ s.ltn.pmbusFrozen = true ∨ (now s - getK 0 s.ltn.voutAt g).toNat < 200000 → exec (.voltageStep g) s = .next s) ∧
    (g < 4 → ltnHeld s = false → v ≠ 0 → s.ltn.pmbusFrozen = false → 200000 ≤ (now s - getK 0 s.ltn.voutAt g).toNat → railTarget s g ≠ v →
      let v' := if v < railTarget s g then min (railTarget s g) (v + 10) else max (railTarget s g) (v - 10)
      exec (.voltageStep g) s = .next { s with
        ltn := { s.ltn with vout := putK 0 s.ltn.vout g v', voutAt := putK 0 s.ltn.voutAt g (now s) }
        sent := s.sent ++ [.pmbus g v'] })) ∧
  (∀ (s : State) (k : Nat), k < 8 → ltnHeld s = false →
    exec (.pmbusPoll k (some 0)) s = .next { s with ltn := { s.ltn with pmFail := putK 0 s.ltn.pmFail k 0, pmStatus := putK 0 s.ltn.pmStatus k 0 } } ∧
    (getK 0 s.ltn.pmFail k < 2 → exec (.pmbusPoll k none) s = .next { s with ltn := { s.ltn with pmFail := putK 0 s.ltn.pmFail k (getK 0 s.ltn.pmFail k + 1) } }) ∧
    (2 ≤ getK 0 s.ltn.pmFail k → exec (.pmbusPoll k none) s = .next (logRec 7 0 2 (leBytes 1 k)
      { s with ltn := { s.ltn with pmFail := putK 0 s.ltn.pmFail k 0, pmbusFrozen := true } })) ∧
    (∀ v, exec (.i3cRead k v) s = .next (logRec 9 0 1 (leBytes 1 k ++ leBytes 2 v.toNat) { s with ltn := { s.ltn with i3c := putK 0 s.ltn.i3c k v } })))

/-- KV_FETCH, KV_PLACE (R156, R157, R162), KV_SEAL (R153), SUMP_PAGE_ARRIVAL and PAGE_WRITE_COMPLETE (R160), DEMOTION_WRITES_ACCEPTED (R161). What the clauses take beyond the rules is the model's choice: log entries 22, 26. -/
def Obligations.KvManager : Prop :=
  (∀ (s : State) (n : Node) (b : List Byte), (getK ({} : KvSeq) s.kv.seqs (fld b 0 2)).preempted = true → fld b 3 1 % 2 = 0 → s.kv.answered = [] →
    exec (.kvFetch n b) s = .next { s with kv := { s.kv with reqs := s.kv.reqs ++ [{
      core := n, seq := fld b 0 2, pages := (List.range (fld b 2 1)).map (fun i => fld b (6 + 2 * i) 2),
      frame := BitVec.ofNat 16 (fld b 4 2), status := 2 }] } }) ∧
  (∀ (s : State) (n : Node) (b : List Byte) (ps : List Nat), (getK ({} : KvSeq) s.kv.seqs (fld b 0 2)).preempted = false → fld b 3 1 % 2 = 0 →
    s.kv.reqs = [] → s.kv.answered = [] → ps = (List.range (fld b 2 1)).map (fun i => fld b (6 + 2 * i) 2) →
    (∀ p ∈ ps, ∃ x, s.kv.pages.find? (fun x => x.seq = fld b 0 2 ∧ x.page = p) = some x ∧ ((∃ g f, x.tier = .chamber g f) ∨ ∃ f, x.tier = .dram f)) →
    ∃ t, exec (.kvFetch n b) s = .next t ∧ t = { s with kv := t.kv } ∧ t.kv.seqs = s.kv.seqs ∧
      t.kv.reqs = [{ core := n, seq := fld b 0 2, pages := ps, frame := BitVec.ofNat 16 (fld b 4 2), status := 0 }] ∧
      t.kv.pages = s.kv.pages.map (fun x => if x.seq = fld b 0 2 ∧ x.page ∈ ps then { x with
        pins := if n ∈ x.pins then x.pins else x.pins ++ [n]
        twice := decide (x.sel + 1 = frameNo s) || (decide (x.sel = frameNo s) && x.twice), sel := frameNo s } else x)) ∧
  (∀ (s : State) (n : Node), (∀ r ∈ s.kv.reqs, r.core ≠ n) → exec (.kvPlace n) s = .next s) ∧
  (∀ (s : State) (n : Node) (r : KvReq), s.kv.reqs.find? (fun r => r.core = n) = some r →
    (r.status = 2 → s.kv.answered = [] → exec (.kvPlace n) s = .next (emitFab (.control 0x200 n (.kvPlace (leBytes 2 r.seq ++ [0, 2])))
      { s with kv := { s.kv with reqs := s.kv.reqs.erase r, answered := s.kv.answered ++ [(n, r.seq, r.pages, r.frame, leBytes 2 r.seq ++ [0, 2])] } })) ∧
    (r.status ≠ 2 → s.kv.answered = [] → (∃ p ∈ r.pages, ∃ x, s.kv.pages.find? (fun x => x.seq = r.seq ∧ x.page = p) = some x ∧ ∃ f c, x.tier = .moving f c) →
      exec (.kvPlace n) s = .next s)) ∧
  (∀ (s : State) (n : Node) (b : List Byte), s.kv.pages.find? (fun x => x.seq = fld b 0 2 ∧ x.page = fld b 2 2) = none → exec (.kvSeal n b) s = .next s) ∧
  (∀ (s : State) (n : Node) (b : List Byte) (x : KvPage), s.kv.pages.find? (fun x => x.seq = fld b 0 2 ∧ x.page = fld b 2 2) = some x →
    (getK ({} : KvSeq) s.kv.seqs x.seq).tail = x.page → x.closed = false → ∃ t, exec (.kvSeal n b) s = .next t ∧
      let o := openTail (fld b 0 2) (setPage { x with closed := true } s)
      (o.1 = true → t = o.2) ∧ (o.1 = false → t = { o.2 with kv := { o.2.kv with seqs := putK {} o.2.kv.seqs (fld b 0 2) { getK {} o.2.kv.seqs (fld b 0 2) with due := true } } })) ∧
  (∀ (s : State) (q p : Nat) (bs : List Byte) (x : KvPage) (f c : Nat), s.kv.pages.find? (fun x => x.seq = q ∧ x.page = p) = some x → x.tier = .moving f c →
    exec (.sumpPageArrival q p bs) s = .next (setPage { x with arrived := true }
      { s with mem := countBytes (kvClass s q) ((kvPools s).dram.2 + f * 32768) 32768 (dramStore ((kvPools s).dram.2 + f * 32768) (sub bs 0 32768) s.mem) }) ∧
    (x.arrived = true → s.kv.reqs = [] → exec (.pageWriteComplete q p) s = .next (setPage { x with tier := .dram f, copy := some c, arrived := false } s)) ∧
    (x.arrived = false → exec (.pageWriteComplete q p) s = .next s)) ∧
  (∀ (s : State) (q p : Nat) (x : KvPage) (f c : Nat), s.kv.pages.find? (fun x => x.seq = q ∧ x.page = p) = some x → x.tier = .toSump f c → s.kv.reqs = [] →
    exec (.demotionWritesAccepted q p) s = .next (setPage { x with tier := .sump c } s)) ∧
  (∀ (s : State) (q p : Nat) (bs : List Byte), s.kv.pages.find? (fun x => x.seq = q ∧ x.page = p) = none →
    exec (.sumpPageArrival q p bs) s = .next s ∧ exec (.pageWriteComplete q p) s = .next s ∧ exec (.demotionWritesAccepted q p) s = .next s)

/-- SIGNATURE and COMPARATOR_TIMEOUT (R397), VERDICT and VERDICT_TIMEOUT (R398), MIR_WINDOW_LONG (R395), RETRY_RESTART (R400). What the clauses take beyond the rules is the model's choice: log entries 47, 54. -/
def Obligations.MirroredExecution : Prop :=
  (∀ (s : State) (m : SigMsg) (p : Pair) (x : PendSig), getPair s m.pair.toNat = some p →
    s.mir.cmp0.find? (fun x => x.pair = m.pair.toNat && x.trail != m.trail && x.attempt == m.attempt && decide (x.frame = m.frame) && decide (x.window = m.window)) = some x →
    exec (.signature false m) s = .next { s with
      mir := { s.mir with cmp0 := s.mir.cmp0.erase x }
      sent := s.sent ++ [.fab (.control p.map.cmp0 0x209 (.verdict (BitVec.ofNat 8 p.map.pair) false m.window (if x.sig = m.sig then .equal else .unequal)))] }) ∧
  (∀ (s : State) (m : SigMsg) (p : Pair), getPair s m.pair.toNat = some p →
    s.mir.cmp1.find? (fun x => x.pair = m.pair.toNat && x.trail != m.trail && x.attempt == m.attempt && decide (x.frame = m.frame) && decide (x.window = m.window)) = none →
    (s.mir.cmp1.filter (fun x => x.pair = m.pair.toNat)).length < 8 →
    exec (.signature true m) s = .next { s with mir := { s.mir with cmp1 := s.mir.cmp1 ++ [{
      pair := m.pair.toNat, trail := m.trail, attempt := m.attempt, frame := m.frame, window := m.window, sig := m.sig, at_ := now s }] } }) ∧
  (∀ (s : State) (m : SigMsg) (p : Pair) (o : PendSig), getPair s m.pair.toNat = some p →
    s.mir.cmp1.find? (fun x => x.pair = m.pair.toNat && x.trail != m.trail && x.attempt == m.attempt && decide (x.frame = m.frame) && decide (x.window = m.window)) = none →
    8 ≤ (s.mir.cmp1.filter (fun x => x.pair = m.pair.toNat)).length → (s.mir.cmp1.filter (fun x => x.pair = m.pair.toNat)).head? = some o →
    ∃ t, exec (.signature true m) s = .next t ∧
      t.sent = s.sent ++ [.fab (.control p.map.cmp1 0x209 (.verdict (BitVec.ofNat 8 p.map.pair) true o.window .overrun))]) ∧
  (∀ (s : State) (k : Nat) (tr : Bool) (w : W32) (p : Pair) (x : PendSig), getPair s k = some p →
    s.mir.cmp0.find? (fun x => x.pair = k && x.trail == tr && decide (x.window = w)) = some x →
    exec (.comparatorTimeout false k tr w) s = .next { s with
      mir := { s.mir with cmp0 := s.mir.cmp0.erase x }
      sent := s.sent ++ [.fab (.control p.map.cmp0 0x209 (.verdict (BitVec.ofNat 8 p.map.pair) false w .timeout))] }) ∧
  (∀ (s : State) (k : Nat) (c1 : Bool) (w : W32) (v : CmpVerdict) (p : Pair), getPair s k = some p →
    (s.mir.verdicts.find? (fun x => x.pair = k && x.cmp1 != c1 && decide (x.window = w)) = none →
      exec (.verdict k c1 w v) s = .next { s with mir := { s.mir with verdicts := s.mir.verdicts ++ [{ pair := k, cmp1 := c1, window := w, verdict := v, at_ := now s }] } }) ∧
    (∀ x, s.mir.verdicts.find? (fun x => x.pair = k && x.cmp1 != c1 && decide (x.window = w)) = some x →
      let t := { s with mir := { s.mir with verdicts := s.mir.verdicts.erase x } }
      (x.verdict = .equal → v = .equal → exec (.verdict k c1 w v) s = .next t) ∧
      (x.verdict ≠ .equal → v ≠ .equal → exec (.verdict k c1 w v) s = .next (mismatch p (mirDetail k w
        (some (if c1 then x.verdict else v)) (some (if c1 then v else x.verdict))) t)) ∧
      (¬(x.verdict = .equal ↔ v = .equal) → exec (.verdict k c1 w v) s = .next (raiseAs .mirVerdictDiffer (sub_ p.map.lead p.map.pair) .c3 false
        (mirDetail p.map.pair w (some (if c1 then x.verdict else v)) (some (if c1 then v else x.verdict))) t)))) ∧
  (∀ (s : State) (k : Nat) (w : W32) (p : Pair) (x : PendVer), getPair s k = some p →
    s.mir.verdicts.find? (fun x => x.pair = k && decide (x.window = w)) = some x →
    exec (.verdictTimeout k w) s = .next (raiseAs .mirVerdictDiffer (sub_ p.map.lead p.map.pair) .c3 false
      (mirDetail p.map.pair w (if x.cmp1 then none else some x.verdict) (if x.cmp1 then some x.verdict else none))
      { s with mir := { s.mir with verdicts := s.mir.verdicts.erase x } })) ∧
  (∀ (s : State) (n : Node), ((getCore s n).sig.first = none ∨ (getCore s n).sig.long = true → exec (.mirWindowLong n) s = .next s) ∧
    (∀ p f, (getCore s n).sig.pair = some p → (getCore s n).sig.first = some f → (getCore s n).sig.long = false →
      exec (.mirWindowLong n) s = .next (raise .mirWindowLong (sub_ n p) (leBytes 1 p ++ leBytes 4 (getCore s n).sig.window.toNat)
        (setCore n { getCore s n with sig := { (getCore s n).sig with long := true } } s)))) ∧
  (∀ (s : State) (m : SigMsg) (c1 tr : Bool) (w : W32) (v : CmpVerdict), getPair s m.pair.toNat = none →
    exec (.signature c1 m) s = .next s ∧ exec (.comparatorTimeout c1 m.pair.toNat tr w) s = .next s ∧ exec (.verdict m.pair.toNat c1 w v) s = .next s ∧
    exec (.verdictTimeout m.pair.toNat w) s = .next s ∧ exec (.retryRestart m.pair.toNat) s = .next s) ∧
  (∀ (s : State) (k : Nat) (p : Pair), getPair s k = some p → (p.restoring = none → exec (.retryRestart k) s = .next s) ∧
    (∀ x, p.restoring = some x → exec (.retryRestart k) s = .next (restartCore p.map p.map.trail (restartCore p.map p.map.lead
      (updPair k (fun q => { q with restoring := none }) s)))))

/-- SYNC, FOLLOW_UP, ANNOUNCE, PDELAY_REQ, PDELAY_RESP, PDELAY_REQ_SEND, the receipt time-outs, TIME_STEP_APPLY and TXTS_CONSUME (R267, R268, R270, R273, R277). What the clauses take beyond the rules is the model's choice: log entries 2, 23, 56. -/
def Obligations.GptpMessages : Prop :=
  (∀ (s : State) (k : Nat) (m : SyncMsg) (d : Byte) (q : W16) (a b : Int) (gm : W64), d ≠ 0 →
    let t := { s with time := { s.time with domainCnt := s.time.domainCnt.inc } }
    (m.domain = d → exec (.sync k m) s = .next t) ∧ exec (.followUp k d q a b) s = .next t ∧ exec (.announce k d gm) s = .next t ∧
    exec (.pdelayReq k d q a b) s = .next t) ∧
  (∀ (s : State) (k : Nat) (m : SyncMsg) (q : W16) (a b : Int) (gm : W64), (getPtp s k).declared = false →
    (m.domain = 0 → exec (.sync k m) s = .next s) ∧ exec (.followUp k 0 q a b) s = .next s ∧ exec (.announce k 0 gm) s = .next s ∧
    exec (.pdelayReq k 0 q a b) s = .next s ∧ exec (.pdelayReqSend k a) s = .next s) ∧
  (∀ (s : State) (k : Nat) (m : SyncMsg), (getPtp s k).declared = true → m.domain = 0 → m.twoStep = true → ∃ p, exec (.sync k m) s = .next (setPtp k p s) ∧
    p = { getPtp s k with syncAt := some (now s), syncNs := p.syncNs, twoStep := some (m.seqId, m.rxNs) } ∧
    (∀ u, (getPtp s k).syncAt = some u → p.syncNs = max 31250000 (min 1000000000 (now s - u).toNat))) ∧
  (∀ (s : State) (k : Nat) (m : SyncMsg), (getPtp s k).declared = true → m.domain = 0 → m.twoStep = false → ∃ p : PtpPort,
    p.syncAt = some (now s) ∧ p.twoStep = none ∧ exec (.sync k m) s = .next (syncAt k m.originNs m.rxNs m.cumRatePpb (setPtp k p s))) ∧
  (∀ (s : State) (k : Nat) (q : W16) (a b : Int), (getPtp s k).declared = true →
    ((getPtp s k).twoStep = none → exec (.followUp k 0 q a b) s = .next s) ∧
    (∀ q' rx, (getPtp s k).twoStep = some (q', rx) → (q' ≠ q → exec (.followUp k 0 q a b) s = .next s) ∧
      (q' = q → exec (.followUp k 0 q a b) s = .next (syncAt k a rx b (setPtp k { getPtp s k with twoStep := none } s))))) ∧
  (∀ (s : State) (k : Nat) (gm : W64), (getPtp s k).declared = true →
    let n := if (getPtp s k).announces ≠ 0 ∧ (getPtp s k).gm = gm then min ((getPtp s k).announces + 1) 2 else 1
    let t := setPtp k { getPtp s k with annAt := some (now s), gm, announces := n } s
    ((getPtp s k).gm = 0 ∨ (getPtp s k).gm = gm → exec (.announce k 0 gm) s = .next t) ∧
    ((getPtp s k).gm ≠ 0 → (getPtp s k).gm ≠ gm → exec (.announce k 0 gm) s = .next (holdover true t))) ∧
  (∀ (s : State) (k : Nat) (q : W16) (a b : Int), (getPtp s k).declared = true → (getPtp s k).txts.length < 15 → wfK ({} : PtpPort) s.time.ports = true →
    ∃ t, exec (.pdelayReq k 0 q a b) s = .next t ∧ t.sent = s.sent ++ [.gptp 1 k q, .gptp 2 k q] ∧
      (getPtp t k).txts = (getPtp s k).txts ++ [(q, 3, b + (getPtp s k).txLat), (q, 0xA, ptcNs s.time + (getPtp s k).txLat)] ∧
      ∀ j, j ≠ k → getPtp t j = getPtp s j) ∧
  (∀ (s : State) (k : Nat) (a : Int), (getPtp s k).declared = true → (getPtp s k).txts.length < 16 → wfK ({} : PtpPort) s.time.ports = true →
    ∃ t, exec (.pdelayReqSend k a) s = .next t ∧ t.sent = s.sent ++ [.gptp 0 k (getPtp s k).pdSeq] ∧
      getPtp t k = { getPtp s k with txts := (getPtp s k).txts ++ [((getPtp s k).pdSeq, 2, a + (getPtp s k).txLat)]
                                     pdelay := some ((getPtp s k).pdSeq, true), pdSeq := (getPtp s k).pdSeq + 1 }) ∧
  (∀ (s : State) (k : Nat) (q : W16) (a b c d : Int), ((getPtp s k).pdelay = none → exec (.pdelayResp k q a b c d) s = .next s) ∧
    (∀ q' kept, (getPtp s k).pdelay = some (q', kept) → (q' ≠ q → exec (.pdelayResp k q a b c d) s = .next s) ∧
      (q' = q → kept = false → exec (.pdelayResp k q a b c d) s = .next (setPtp k { getPtp s k with pdelay := none } s)) ∧
      (q' = q → kept = true → (getPtp s k).pdPrev = none → (getPtp s k).nrr = 0 → exec (.pdelayResp k q a b c d) s = .next (setPtp k { getPtp s k with
        pdelay := none, pdPrev := some (c, d - (getPtp s k).rxLat),
        delay := (((d - (getPtp s k).rxLat) - (a + (getPtp s k).txLat) - (c - b)) / 2).toNat } s)))) ∧
  (∀ (s : State) (k : Nat), s.time.slave ≠ some k →
    exec (.syncReceiptTimeout k) s = .next (setPtp k { getPtp s k with announces := 0, syncAt := none } s) ∧
    exec (.announceReceiptTimeout k) s = .next (setPtp k { getPtp s k with announces := 0, syncAt := none } s)) ∧
  (∀ (s : State) (k : Nat), s.time.slave = some k → bestPort (setPtp k { getPtp s k with announces := 0, syncAt := none } s) = none →
    exec (.syncReceiptTimeout k) s = .next (holdover false (setPtp k { getPtp s k with announces := 0, syncAt := none } s)) ∧
    exec (.announceReceiptTimeout k) s = .next (holdover false (setPtp k { getPtp s k with announces := 0, syncAt := none } s))) ∧
  (∀ (s : State) (k : Nat), exec (.txtsConsume k) s = .next (setPtp k { getPtp s k with txts := (getPtp s k).txts.tail } s)) ∧
  (∀ s : State, s.mbL.waiting = [] → exec .timeStepApply s = .next s) ∧
  (∀ (s : State) (w : Waiting) (v : Int), s.mbL.waiting.find? (fun w => decide (w.opcode = 0x0502) && decide (w.args.headD 2 = 1)) = some w →
    v = ((w.args.getD 1 0 : Int) * 1000000000 + (w.args.getD 2 0 : Int)) * 4294967296 → ∃ t, exec .timeStepApply s = .next t ∧
      t.time.ptc = v % (2 ^ 48 * 1000000000 * 2 ^ 32) ∧ t.time.slew = 0 ∧ t.time.acc = s.time.acc ∧ t.time.event.getLsbD 3 = true)

/-- TRIG_EDGE and TRIG_PULSE_END (R278–R280, R27). What the clauses take beyond the rules is the model's choice: log entry 56. -/
def Obligations.TriggerOutputs : Prop :=
  (∀ (s : State) (n : Nat), (getTrig s n).series = none ∨ trigRuns s = false ∨ s.time.status = .unset → exec (.trigEdge n) s = .next s) ∧
  (∀ (s : State) (n : Nat) (q : Series), (getTrig s n).series = some q → trigRuns s = true → s.time.status ≠ .unset →
    (q.stopping = true → exec (.trigEdge n) s = .next (setTrig n { getTrig s n with series := none } s)) ∧
    (q.stopping = false → (getTrig s n).heldInactive = true → exec (.trigEdge n) s = .next (setTrig n { getTrig s n with series := some { q with next := q.next + 1 } } s)) ∧
    (q.stopping = false → (getTrig s n).heldInactive = false →
      (∀ u, (getTrig s n).lastEdge = some u → q.period ≤ (now s - u).toNat * 8589934592) →
      exec (.trigEdge n) s = .next (emit (.trig n (!q.activeLow)) (setTrig n { getTrig s n with
        series := some { q with next := q.next + 1 }, lastEdge := some (now s), active := true } s))) ∧
    (∀ u, q.stopping = false → (getTrig s n).heldInactive = false → (getTrig s n).lastEdge = some u → (now s - u).toNat * 8589934592 < q.period →
      ∃ t, exec (.trigEdge n) s = .next t ∧ t.time.event.getLsbD 5 = true ∧
        getK {} t.time.trig n = getK {} (putK {} s.time.trig n { getTrig s n with series := some { q with next := q.next + 1 }, suppr := (getTrig s n).suppr.inc }) n)) ∧
  (∀ (s : State) (n : Nat), ((getTrig s n).active = false → exec (.trigPulseEnd n) s = .next s) ∧
    ((getTrig s n).active = true → exec (.trigPulseEnd n) s = .next (emit (.trig n ((getTrig s n).series.map (·.activeLow) == some true))
      (setTrig n { getTrig s n with active := false } s))))

/-- W1C registers (R283, R506, R574, R329): each bit written 1 clears its cause, or its flag with the counter; all else is unchanged. What the clauses take beyond the rules is the model's choice: log entry 70. -/
def Obligations.W1cRegisters : Prop :=
  (∀ (s : State) (v : W32), exec (.timeEvent v) s =
    .next { s with time := { s.time with event := s.time.event &&& ~~~(v.setWidth 6) } }) ∧
  (∀ (s : State) (v : W32), exec (.trcFlags v) s =
    .next { s with trace := { s.trace with
      bytes := if v.getLsbD 0 then {} else s.trace.bytes
      records := if v.getLsbD 1 then {} else s.trace.records
      gaps := if v.getLsbD 2 then {} else s.trace.gaps
      drops := if v.getLsbD 3 then {} else s.trace.drops } }) ∧
  (∀ (s : State) (v : W32), exec (.objFlags v) s =
    .next { s with obj := { s.obj with
      evtLost := if v.getLsbD 0 then {} else s.obj.evtLost
      dbDrop := if v.getLsbD 1 then {} else s.obj.dbDrop } }) ∧
  (∀ (s : State) (m : Mailbox) (v : W32), ∃ t, exec (.mbBadSat m v) s = .next t ∧
    (getMb m t).bad = (if v.getLsbD 0 then {} else (getMb m s).bad) ∧ (v.getLsbD 0 = false → t = s))

/-- LEDGER_FLAGS (R217): bits 23 + n, 29, 30 and 31 clear their counters; only the energy unit changes. What the clauses take beyond the rules is the model's choice: log entry 70. -/
def Obligations.LedgerFlags : Prop :=
  ∀ (s : State) (v : W32), wfK {} s.energy.rungFrames = true →
    ∃ t, exec (.ledgerFlags v) s = .next t ∧ t = { s with energy := t.energy } ∧
      (∀ n < 6, getK {} t.energy.rungFrames n = if v.getLsbD (23 + n) then {} else getK {} s.energy.rungFrames n) ∧
      t.energy.writeoff = (if v.getLsbD 29 then {} else s.energy.writeoff) ∧
      t.energy.ceilingCnt = (if v.getLsbD 30 then {} else s.energy.ceilingCnt) ∧
      t.energy.overdraft = (if v.getLsbD 31 then {} else s.energy.overdraft) ∧
      t.energy.balance = s.energy.balance ∧ t.energy.meters = s.energy.meters

/-- MB_DOORBELL (R330, R335), MB_DONE (R330), MB_LATE (R334), URG_ACK (R339). What the clauses take beyond the rules is the model's choice: log entries 7, 45. -/
def Obligations.MailboxRegisters : Prop :=
  (∀ (s : State) (m : Mailbox) (v : W32), (getK {} (getMb m s).slots (v.toNat % 8)).phase ≠ .free →
    exec (.mbDoorbell m v) s = .next (setMb m { getMb m s with bad := (getMb m s).bad.inc } s)) ∧
  (∀ (s : State) (m : Mailbox) (v : W32), (getK {} (getMb m s).slots (v.toNat % 8)).phase = .free →
    (getMb m s).service = true → (getMb m s).fifo = [] →
    (cmdInfo (readReqOf m (v.toNat % 8) s).op).map (·.1) = some m →
    exec (.mbDoorbell m v) s = .next (setMb m { getMb m s with
      slots := putK {} (getMb m s).slots (v.toNat % 8) { phase := .busy, tag := BitVec.ofNat 16 (v.toNat / 65536), ltc := now s }
      fifo := [v.toNat % 8] } s)) ∧
  (∀ (s : State) (m : Mailbox) (v : W32), (getK {} (getMb m s).slots (v.toNat % 8)).phase = .free →
    (getMb m s).service = false →
    exec (.mbDoorbell m v) s = .next (respond m (v.toNat % 8)
      (if s.dev.state = .booting ∨ s.dev.state = .locked then 9 else 6) (if s.dev.state = .booting ∨ s.dev.state = .locked then 0 else 10) []
      (setMb m { getMb m s with
        slots := putK {} (getMb m s).slots (v.toNat % 8) { phase := .busy, tag := BitVec.ofNat 16 (v.toNat / 65536), ltc := now s } } s))) ∧
  (∀ (s : State) (m : Mailbox) (v : W32), wfK ({} : Slot) (getMb m s).slots = true →
    ∃ t, exec (.mbDone m v) s = .next t ∧ t = setMb m { getMb m s with slots := (getMb m t).slots } s ∧
      ∀ k < 8, getK {} (getMb m t).slots k =
        if v.getLsbD k = true ∧ (getK ({} : Slot) (getMb m s).slots k).phase = .done then {} else getK {} (getMb m s).slots k) ∧
  (∀ (s : State) (m : Mailbox) (k : Nat), (getK {} (getMb m s).slots k).phase = .busy → (getK {} (getMb m s).slots k).late = false →
    exec (.mbLate m k) s = .next (raise .mbLate (sub_ 0x200 (match m with | .dispatch => 0 | .lantern => 1)) []
      (setMb m { getMb m s with slots := putK {} (getMb m s).slots k { getK {} (getMb m s).slots k with late := true } } s))) ∧
  (∀ (s : State) (q : W32) (r : Report), s.urg.slot = some (q, r) →
    exec (.urgAck q) s = .next (loadUrgent { s with urg := { s.urg with slot := none } })) ∧
  (∀ (s : State) (v : W32), s.urg.slot.map (·.1) ≠ some v →
    exec (.urgAck v) s = .next { s with mbL := { s.mbL with bad := s.mbL.bad.inc } })

/-- LOW_HALF_READ (R5, R7), LTC_LO_READ (R7, R282) and AR_SESSION_READ (R578). What the clauses take beyond the rules is the model's choice: log entry 15. -/
def Obligations.Reads : Prop :=
  (∀ (s : State) (off : Nat), off % 4 = 0 → off ≠ 0x50000 → off ≠ 0x90000 → getK none s.dev.hiLatch off = none → lowHalf off = false →
    exec (.lowHalfRead off) s = .next (emit (.bar0 off ((regRead off s).1.setWidth 64)) (regRead off s).2)) ∧
  (∀ (s : State) (off : Nat) (v : W32), off % 4 = 0 → off ≠ 0x50000 → off ≠ 0x90000 → getK none s.dev.hiLatch off = some v →
    exec (.lowHalfRead off) s = .next (emit (.bar0 off (v.setWidth 64)) { s with dev := { s.dev with hiLatch := putK none s.dev.hiLatch off none } })) ∧
  (∀ (s : State) (off : Nat), off % 4 = 0 → off ≠ 0x50000 → off ≠ 0x90000 → wfK none s.dev.hiLatch = true →
    getK none s.dev.hiLatch off = none → lowHalf off = true →
    ∃ t, exec (.lowHalfRead off) s = .next t ∧ t.sent = s.sent ++ [.bar0 off ((regRead off s).1.setWidth 64)] ∧
      getK none t.dev.hiLatch (off + 4) = some (regRead (off + 4) s).1) ∧
  (∀ (s : State), wfK none s.dev.hiLatch = true →
    ∃ t, exec .ltcLoRead s = .next t ∧ t = { s with dev := t.dev, sent := s.sent ++ [.bar0 0x50000 (((now s).setWidth 32).setWidth 64)] } ∧
      ∀ τ : TimeU, ∃ u, exec (.lowHalfRead 0x50004) { t with time := τ } = .next u ∧
        u.sent = t.sent ++ [.bar0 0x50004 (((now s) >>> 32).setWidth 32 |>.setWidth 64)]) ∧
  (∀ (s : State), exec .arSessionRead s = .next (emit (.bar0 0x90000 (s.dev.session.setWidth 64))
    { s with dev := { s.dev with arLatch := some ((List.range 11).map (fun k => BitVec.ofNat 32 (fld (attachBytes s) (4 * k) 4))) } })) ∧
  (∀ (s : State), getK none s.dev.hiLatch 0xA0000 = none → exec (.lowHalfRead 0xA0000) s = .next (emit (.bar0 0xA0000 0) s))

/-- REGISTER_WRITE (R4, R5, R563, R570): SCRATCH is set; narrow and unaligned writes are discarded with a note; a read-only register keeps its value. What the clauses take beyond the rules is the model's choice: log entries 37, 70. -/
def Obligations.RegisterWrites : Prop :=
  (∀ (s : State) (v : W64) (rid : W16), exec (.registerWrite 0x44 .b32 v rid) s =
    .next { s with dev := { s.dev with scratch := v.setWidth 32 } }) ∧
  (∀ (s : State) (off : Nat) (w : AccW) (v : W64) (rid : W16), w = .b8 ∨ w = .b16 ∨ (w = .b32 ∧ off % 4 ≠ 0) ∨ (w = .b64 ∧ off % 8 ≠ 0) →
    exec (.registerWrite off w v rid) s = .next (note 0 ([5, 0, 0, 0] ++ leBytes 4 off) s)) ∧
  (∀ (s : State) (v : W64) (rid : W16), exec (.registerWrite 0 .b32 v rid) s = .next s)

/-- QUEUE_DB (R572): the four discards, and the TAIL of a resident queue. What the clauses take beyond the rules is the model's choice: log entry 46. -/
def Obligations.QueueDoorbell : Prop :=
  (∀ (s : State) (v : W64), v.toNat / 16384 % 262144 ≠ 0 ∨ s.obj.queueTab.count ≤ v.toNat % 16384 →
    exec (.queueDb (.whole v)) s = .next { s with obj := { s.obj with dbDrop := s.obj.dbDrop.inc } }) ∧
  (∀ (s : State) (rid : W16) (v : W32), getK none s.dev.qdbLow rid.toNat = none →
    exec (.queueDb (.high rid v)) s = .next { s with obj := { s.obj with dbDrop := s.obj.dbDrop.inc } }) ∧
  (∀ (s : State) (rid : W16) (lo hi : W32), wfK none s.dev.qdbLow = true →
    ∃ t, exec (.queueDb (.low rid lo)) s = .next t ∧ t = { s with dev := { s.dev with qdbLow := t.dev.qdbLow } } ∧
      exec (.queueDb (.high rid hi)) t = exec (.queueDb (.whole (hi ++ lo))) { t with dev := { t.dev with qdbLow := putK none t.dev.qdbLow rid.toNat none } }) ∧
  (∀ (s : State) (v : W64) (x : QueueSlot), v.toNat / 16384 % 262144 = 0 → v.toNat % 16384 < s.obj.queueTab.count →
    s.obj.queues.find? (fun y => y.id = v.toNat % 16384) = some x → x.entries < (BitVec.ofNat 32 (v.toNat / 2 ^ 32) - x.head).toNat →
    exec (.queueDb (.whole v)) s = .next { s with obj := { s.obj with dbDrop := s.obj.dbDrop.inc } }) ∧
  (∀ (s : State) (v : W64) (x : QueueSlot), v.toNat / 16384 % 262144 = 0 → v.toNat % 16384 < s.obj.queueTab.count →
    s.obj.queues.find? (fun y => y.id = v.toNat % 16384) = some x → (BitVec.ofNat 32 (v.toNat / 2 ^ 32) - x.head).toNat ≤ x.entries →
    exec (.queueDb (.whole v)) s = .next (setQueue { x with
      used := now s
      tail := if (x.tail - x.head).toNat < (BitVec.ofNat 32 (v.toNat / 2 ^ 32) - x.head).toNat then BitVec.ofNat 32 (v.toNat / 2 ^ 32) else x.tail } s))

/-- QUEUE_ENTRY (R312), DOORBELL_FIFO_RELEASE (R315), EVT_REARM (R318, R573) and SLOT_FAULT_SERVED (R314, R316). What the clauses take beyond the rules is the model's choice: log entries 26, 31, 37, 46. -/
def Obligations.QueueEntriesAndFetches : Prop :=
  (∀ (s : State) (q : Nat) (entry : List Byte) (x : QueueSlot), s.obj.queues.find? (fun y => y.id = q) = some x → x.head ≠ x.tail →
    fld entry 0 2 = 0 →
    exec (.queueEntry q entry) s = .next
      (postWrite { obj := none, addr := s.obj.queueTab.base + BitVec.ofNat 64 (q * 64 + 16), data := leBytes 4 (x.head + 1).toNat }
        (setQueue { x with head := x.head + 1, used := now s } s))) ∧
  (∀ (s : State) (q : Nat) (entry : List Byte) (x : QueueSlot), s.obj.queues.find? (fun y => y.id = q) = some x → x.head ≠ x.tail →
    fld entry 0 2 = 1 →
    exec (.queueEntry q entry) s = .next (postEvent x.event (Config.evtKind 20) (leBytes 2 q ++ [0, 0] ++ sub entry 4 4)
      (postWrite { obj := none, addr := s.obj.queueTab.base + BitVec.ofNat 64 (q * 64 + 16), data := leBytes 4 (x.head + 1).toNat }
        (setQueue { x with head := x.head + 1, used := now s } s)))) ∧
  (∀ (s : State) (q : Nat) (tail : W32) (rest : List (Nat × W32)), s.obj.dbFifo = (q, tail) :: rest → slotsUsed s < 48 →
    exec .doorbellFifoRelease s = .next (doorbell q tail { s with obj := { s.obj with dbFifo := rest } })) ∧
  (∀ (s : State) (v : W32), v.toNat < 65535 →
    exec (.evtRearm v) s = .next { s with obj := { s.obj with
      evts := s.obj.evts.map (fun e => if e.id = v.toNat then { e with armed := true } else e) } }) ∧
  (∀ (s : State) (v : W32), 65536 ≤ v.toNat → exec (.evtRearm v) s = .next s) ∧
  (∀ (s : State) (f : SlotFaultOf) (got : Fetched), s.host.inbWait = [] → s.obj.faults.contains f = false → exec (.slotFaultServed f got) s = .next s) ∧
  (∀ (s : State) (f : SlotFaultOf), s.host.inbWait = [] → s.obj.faults.contains f = true →
    exec (.slotFaultServed f .poison) s = .next { s with
      obj := { s.obj with faults := s.obj.faults.erase f }
      host := { s.host with reqs := s.host.reqs.filter (fun r => r.what ≠ .table f) } }) ∧
  (∀ (s : State) (h : Handle) (page : Nat) (bs : List Byte) (d : ObjDesc), s.host.inbWait = [] → s.obj.faults.contains (.object h page none) = true →
    parseObj bs = some d → d.length ≠ 0 → s.obj.notices = [] → s.plans = [] →
    ∃ t, exec (.slotFaultServed (.object h page none) (.bytes bs)) s = .next t ∧
      t = { s with obj := t.obj, host := { s.host with reqs := s.host.reqs.filter (fun r => r.what ≠ .table (.object h page none)) } } ∧
      (h, d) ∈ t.obj.descs ∧ ({ obj := h, page, base := pageBase d bs } : TransEnt) ∈ t.obj.trans) ∧
  (∀ (s : State) (id : Nat) (bs : List Byte), s.host.inbWait = [] → s.obj.faults.contains (.context id) = true → parseCtx id bs = none →
    exec (.slotFaultServed (.context id) (.bytes bs)) s = .next (replayInbound (raise .objInvalid (sub_ 0x200 0) []
      (note Source.objInvalid.code (leBytes 1 0 ++ [0, 0, 0] ++ leBytes 4 id) (endFault (.context id) s)))))

/-- DL_DOWN, D3HOT, BUS_MASTER_ENABLE_CLEAR, PERST_N, HOT_RESET, FLR (R303, R306), PERST_N_DEASSERT (R368), DL_UP and HOLD_LIMIT (R304), MSIX_UNMASK (R302), BAR2_READ_TIMEOUT (R290). What the clauses take beyond the rules is the model's choice: log entries 7, 35. -/
def Obligations.HostLinkLossAndReturn : Prop :=
  (∀ s : State, s.host.attached = true →
    let d (cause : BitVec 4) (up d3 bme : Bool) : State := raise .hostLinkDown { node := 0x220 } [] { s with host := { s.host with
      up, d3, bme, attached := false, gen := s.host.gen + 1, cause, detachLtc := now s, holdEnded := false, overflowed := false } }
    exec .dlDown s = .next (d 1 false s.host.d3 s.host.bme) ∧ exec .d3hot s = .next (d 5 s.host.up true s.host.bme) ∧
    exec .busMasterEnableClear s = .next (d 6 s.host.up s.host.d3 false)) ∧
  (∀ s : State, s.host.attached = false →
    exec .dlDown s = .next { s with host := { s.host with up := false } } ∧ exec .d3hot s = .next { s with host := { s.host with d3 := true } } ∧
    exec .busMasterEnableClear s = .next { s with host := { s.host with bme := false } }) ∧
  (∀ (s : State) (i : Instr), i ∈ [Instr.perstN, .hotReset, .flr] → ∃ t, exec i s = .next t ∧
    t.host.bme = false ∧ t.host.atomicEn = false ∧ t.host.msixEn = false ∧ t.host.d3 = false ∧ t.host.needAttach = true) ∧
  (∀ s : State, s.host.attached = false → s.host.held = [] → (kvPools s).sumpObj = none →
    let d (up perst detect : Bool) (t : State) : Prop := ∃ m, t = { s with host := { s.host with
      up, perst, detect, holdEnded := true, needAttach := true, resetSeen := true, bme := false, atomicEn := false, msixEn := false, d3 := false, msix := m } }
    (∃ t, exec .perstN s = .next t ∧ d false true false t) ∧
    (∃ t, exec .hotReset s = .next t ∧ d false s.host.perst (s.host.enabled && !s.host.perst) t) ∧
    (∃ t, exec .flr s = .next t ∧ d s.host.up s.host.perst s.host.detect t)) ∧
  (∀ s : State, exec .perstNDeassert s = .next { s with host := { s.host with perst := false, detect := s.host.enabled } }) ∧
  (∀ (s : State) (cxl : Bool) (w r : Nat), s.host.enabled = false ∨ s.host.perst = true → exec (.dlUp cxl w r) s = .next s) ∧
  (∀ (s : State) (w r : Nat), s.host.enabled = true → s.host.perst = false → s.host.cxl = false → s.host.msixEn = false →
    s.host.attached = true ∨ s.host.needAttach = true ∨ s.host.holdEnded = true ∨ s.host.bme = false →
    exec (.dlUp false w r) s = .next { s with host := { s.host with up := true, detect := false, width := w, rate := r } }) ∧
  (∀ (s : State) (cxl : Bool) (w r : Nat), s.host.enabled = true → s.host.perst = false → s.host.attached = false → s.host.holdEnded = false →
    s.host.needAttach = false → s.host.bme = true → s.host.d3 = false → s.host.msixEn = false →
    ∃ t, exec (.dlUp cxl w r) s = .next t ∧ t.host.attached = true ∧ t.host.held = [] ∧ t.sent = s.sent ++ s.host.held.map Out.hostWrite ∧
      (t.host.cxl = true ↔ cxl = true ∧ r = 5 ∧ (w = 8 ∨ w = 4)) ∧ (t.host.cxl ≠ s.host.cxl → t.host.lines = [])) ∧
  (∀ s : State, (s.host.attached = true ∨ s.host.holdEnded = true → exec .holdLimit s = .next s) ∧
    (s.host.attached = false → s.host.holdEnded = false → s.host.held = [] → (kvPools s).sumpObj = none →
      exec .holdLimit s = .next { s with host := { s.host with holdEnded := true } })) ∧
  (∀ (s : State) (v : Nat) (a : W64) (d : W32) (en : Bool), v < 64 → en = false ∨ s.host.up = false →
    exec (.msixUnmask en v a d) s = .next { s with host := { s.host with msixEn := en, msix := putK {} s.host.msix v { addr := a, data := d, masked := false, pend := (getVec s v).pend } } }) ∧
  (∀ (s : State) (v : Nat) (a : W64) (d : W32) (e : MsixVec), v < 64 → s.host.up = true → s.host.msix = [(v, e)] → e.pend = true →
    exec (.msixUnmask true v a d) s = .next { s with
      sent := s.sent ++ [.msix v]
      host := { s.host with msixEn := true, msix := [(v, { addr := a, data := d, masked := false, pend := false })] } }) ∧
  (∀ (s : State) (x : Nat × Nat × W64) (rest : List (Nat × Nat × W64)), (s.host.bar2Held = [] → exec .bar2ReadTimeout s = .next s) ∧
    (s.host.bar2Held = x :: rest → exec .bar2ReadTimeout s = .next { s with sent := s.sent ++ [.completion [] false false true], host := { s.host with bar2Held := rest } }))

/-- BAR2_ACCESS (R289), INBOUND_WRITE, INBOUND_DOORBELL and INB_RELEASE (R298–R300), HOST_COMPLETION and HOST_COMPLETION_TIMEOUT (R296), HOST_SNOOP (R292), INVALIDATE_COMPLETE (R325). What the clauses take beyond the rules is the model's choice: log entries 21, 37, 71. -/
def Obligations.HostAccesses : Prop :=
  (∀ (s : State) (a n : Nat), 0x808800000 ≤ a → 0 < n → exec (.bar2Access a (.read n)) s = .next { s with sent := s.sent ++ [.completion (List.replicate n 0) false false false] }) ∧
  (∀ (s : State) (o n : Nat), o + n ≤ 0x800000 → exec (.bar2Access (0x808000000 + o) (.read n)) s = .next { s with
    sent := s.sent ++ [.completion (rdN s.mem.staging o n) (!wordsClean s.mem.stagingBad o n) false false] }) ∧
  (∀ (s : State) (a : Nat) (bs : List Byte) (ep : Bool), (0x808000000 ≤ a ∧ a < 0x808200000 ∧ a + bs.length ≤ 0x808800000) ∨ (0x808800000 ≤ a ∧ 0 < bs.length) →
    exec (.bar2Access a (.write bs ep)) s = .next (note 0 ([3, 0, 0, 0] ++ leBytes 8 a) s)) ∧
  (∀ (s : State) (o : Nat) (bs : List Byte), 0x200000 ≤ o → o + bs.length ≤ 0x800000 → Memory.wf s.mem.staging = true →
    ∃ t, exec (.bar2Access (0x808000000 + o) (.write bs false)) s = .next t ∧ (∀ i < bs.length, rd t.mem.staging (o + i) = bs.getD i 0) ∧
      (∀ a, a < o ∨ o + bs.length ≤ a → rd t.mem.staging a = rd s.mem.staging a) ∧
      t = { s with mem := { s.mem with staging := t.mem.staging, stagingBad := t.mem.stagingBad } }) ∧
  (∀ (s : State) (a : Nat) (op : AtomicOp) (wide : Bool) (x y : W64), 0x800000000 ≤ a → a < 0x804000000 →
    exec (.bar2Access a (.atomic op wide x y)) s = .next { s with sent := s.sent ++ [.completion [] false true false] }) ∧
  (∀ (s : State) (w off : Nat) (data : List Byte) (ep : Bool) (rid : W16), w < 16 →
    (getInb s w).bound = false ∨ ((getInb s w).nb * ((getInb s w).bufsz * 4096) ≤ off ∧ 0 < (getInb s w).bufsz ∧ off < 0x3FFF000) →
    exec (.inboundWrite w off data ep rid) s = .next (setInb w { getInb s w with oor := (getInb s w).oor.inc } s)) ∧
  (∀ (s : State) (w b j : Nat) (data : List Byte) (ep : Bool) (rid : W16), w < 16 → (getInb s w).bound = true → b < (getInb s w).nb →
    j + data.length ≤ (getInb s w).bufsz * 4096 → j < (getInb s w).bufsz * 4096 → b * ((getInb s w).bufsz * 4096) + j < 0x3FFF000 →
    let off := b * ((getInb s w).bufsz * 4096) + j
    ((getInb s w).filter = true → (getInb s w).rid ≠ rid → exec (.inboundWrite w off data ep rid) s = .next (setInb w { getInb s w with rej := (getInb s w).rej.inc } s)) ∧
    ((getInb s w).filter = false → (getInb s w).isHeld b = true → ∃ l, b ∈ l ∧
      exec (.inboundWrite w off data ep rid) s = .next (setInb w { getInb s w with heldCnt := (getInb s w).heldCnt.inc, corrupt := l } s)) ∧
    (∀ d, (getInb s w).filter = false → (getInb s w).isHeld b = false → s.obj.descs.find? (fun d => d.1 = (getInb s w).obj) = some d → d.2.length ≠ 0 → s.host.inbWait = [] →
      exec (.inboundWrite w off data ep rid) s = .next (inbPut (objectAt s d.2 off data.length) data ep s))) ∧
  (∀ (s : State) (w : Nat) (v : W32) (rid : W16), w < 16 → (getInb s w).bound = true → (getInb s w).filter = false → v.toNat / 4 % 16384 = 0 →
    ((getInb s w).nb ≤ v.toNat % 4 → exec (.inboundDoorbell w v rid) s = .next (setInb w { getInb s w with oor := (getInb s w).oor.inc } s)) ∧
    (v.toNat % 4 < (getInb s w).nb → s.host.inbWait = [] → (getInb s w).stream = 0xFF → ∃ x : InbWin, x.seq = BitVec.ofNat 16 (v.toNat / 65536) ∧ x.dbLtc = now s ∧
      x.isHeld (v.toNat % 4) = true ∧ x = { getInb s w with seq := x.seq, dbLtc := x.dbLtc, held := x.held, corrupt := (getInb s w).corrupt.erase (v.toNat % 4) } ∧
      exec (.inboundDoorbell w v rid) s = .next (postEvent (getInb s w).event (Config.evtKind 4)
        (leBytes 1 w ++ leBytes 1 (v.toNat % 4) ++ leBytes 2 (v.toNat / 65536) ++ [0, 0, 0, 0] ++ leBytes 8 (now s).toNat) (setInb w x s)))) ∧
  (∀ (s : State) (w b : Nat), ((getInb s w).stream = 0xFF →
      exec (.inbRelease w b) s = .next (setInb w { getInb s w with held := (getInb s w).held.filter (fun e => ¬(e.1 = b)) } s)) ∧
    ((getInb s w).stream ≠ 0xFF → exec (.inbRelease w b) s = .next s)) ∧
  (∀ (s : State) (tag : Nat) (st : CplStatus) (data : List Byte), s.host.reqs.find? (fun r => r.tag = tag) = none →
    exec (.hostCompletion tag st data) s = .next s ∧ exec (.hostCompletionTimeout tag) s = .next s) ∧
  (∀ (s : State) (tag : Nat) (st : CplStatus) (data : List Byte) (q : HReq) (core : Node) (tg : W16) (o : Handle) (a : W64) (len : Nat),
    s.host.reqs.find? (fun r => r.tag = tag) = some q → q.what = .coreReq core tg o a len →
    let t := { s with host := { s.host with reqs := s.host.reqs.filter (fun r => r.tag ≠ tag) } }
    (len = 0 → exec (.hostCompletion tag .success data) s = .next (emitFab (.reply core tg .ok data) t)) ∧
    (st ≠ .success → len ≠ 0 ∨ st ≠ .unsupportedRequest → exec (.hostCompletion tag st data) s = .next (emitFab (.reply core tg .poison []) t)) ∧
    exec (.hostCompletionTimeout tag) s = .next t) ∧
  (∀ (s : State) (h : Handle) (l : Nat), exec (.hostSnoop h l) s = .next { s with host := { s.host with lines := s.host.lines.filter (fun x => ¬(x.1 = h ∧ x.2.1 = l)) } }) ∧
  (∀ (s : State) (id : W32), ((∀ x ∈ s.obj.invals, x.id ≠ id) → exec (.invalidateComplete id) s = .next s) ∧
    (∀ x, s.obj.invals.find? (fun x => x.id = id) = some x → x.applied = true → exec (.invalidateComplete id) s = .next (postEvent x.event (Config.evtKind 23)
      (leBytes 4 id.toNat) { s with obj := { s.obj with invals := s.obj.invals.filter (fun y => y.id ≠ id) } })))

/-- CEILING_INTERVAL (R202, R203, R215), METER_TRIM (R202), DECISION_POINT (R211), METER_THRESHOLD (R218), LOOP_HEAT_EXPIRY (R208), COOLANT_SAMPLE (R209, R528), JUNCTION_SAMPLE, RAIL_CURRENT_SAMPLE, RAIL_RANGE (R466) and CLK_REF_RANGE (R555). What the clauses take beyond the rules is the model's choice: log entries 7, 23, 26. -/
def Obligations.EnergyAndSensors : Prop :=
  (∀ (s : State) (uj : List Nat), s.dev.state ≠ .aonOnly →
    let m := countMeters 0 (uj.take 16) s
    let sum := ((List.range 16).map (fun k => (getK 0 m.energy.meters k - getK 0 s.energy.meters k).toNat)).sum
    (wfK 0 s.energy.meters = true → ∀ k < (uj.take 16).length, meter m k = meter s k + BitVec.ofNat 64 (uj.getD k 0 * getK 65536 s.energy.trim k / 65536)) ∧
    (sum * 10 ≤ s.ltn.cfg.ceiling → s.energy.capped = false → exec (.ceilingInterval uj) s = .next m) ∧
    (s.ltn.cfg.ceiling < sum * 10 → s.energy.capped = false → exec (.ceilingInterval uj) s = .next (raise .pwrCeiling dev [] { m with
      energy := { m.energy with capped := true, below := 0, ceilingCnt := s.energy.ceilingCnt.inc }
      cores := s.cores.map (fun e => if e.2.run = .off ∨ e.2.safety = true then e else (e.1, { e.2 with freqNext := some 40 })) })) ∧
    (s.ltn.cfg.ceiling < sum * 10 → s.energy.capped = true → exec (.ceilingInterval uj) s = .next { m with
      energy := { m.energy with below := 0 }
      cores := s.cores.map (fun e => if e.2.run = .off ∨ e.2.safety = false then e
        else (e.1, { e.2 with freqNext := some (max 40 (min 125 (e.2.freqNext.getD e.2.freq - 5))) })) })) ∧
  (∀ (s : State) (m k : Nat), m < 16 → exec (.meterTrim [(m, k)]) s = .next { s with energy := { s.energy with trim := putK 65536 s.energy.trim m k } }) ∧
  (∀ s : State, curPlan s = none ∨ torchOn s = true → exec .decisionPoint s = .next s) ∧
  (∀ (s : State) (p : Loaded), curPlan s = some p → torchOn s = false → s.dv.twin = false →
    exec .decisionPoint s = .next { s with energy := { s.energy with nextRung := some (chooseRung s p) } } ∧
    (s.energy.rung = 0 → nextWindow s p = none → ∀ i < 6, ePred s p i * 1000000 ≤ min (allowance s) s.ltn.cfg.ceiling * p.period.toNat →
      (chooseRung s p).1 ≤ i ∧ ePred s p (chooseRung s p).1 * 1000000 ≤ min (allowance s) s.ltn.cfg.ceiling * p.period.toNat ∧ (chooseRung s p).2 = false)) ∧
  (∀ (s : State) (m : Nat),
    let body := leBytes 1 m ++ List.replicate 7 0 ++ leBytes 8 (meter s m).toNat
    let e := s.energy
    (m ∈ e.wrapped → exec (.meterThreshold m) s = .next (ledgerEvent 4 body { s with energy := { e with wrapped := e.wrapped.erase m } })) ∧
    (m ∉ e.wrapped → getK 0 e.thresh m ≠ 0 → (getK 0 e.thresh m).toNat ≤ (meter s m).toNat → m ∉ e.crossed →
      exec (.meterThreshold m) s = .next (ledgerEvent 4 body { s with energy := { e with crossed := e.crossed ++ [m] } })) ∧
    (m ∉ e.wrapped → getK 0 e.thresh m = 0 ∨ (meter s m).toNat < (getK 0 e.thresh m).toNat ∨ m ∈ e.crossed → exec (.meterThreshold m) s = .next s)) ∧
  (∀ s : State, exec .loopHeatExpiry s = .next { s with energy := { s.energy with heat := none } }) ∧
  (∀ (s : State) (v : Nat), 98 * 65536 < v * 100 ∨ v * 100 < 2 * 65536 →
    let t := { s with energy := { s.energy with coolT := s.energy.tTop, coolInvalid := true } }
    (raisedNow s .coolantSensor = true → exec (.coolantSample v) s = .next t) ∧
    (raisedNow s .coolantSensor = false → exec (.coolantSample v) s = .next (raise .coolantSensor dev [] t))) ∧
  (∀ (s : State) (v : Nat), s.energy.coolant = [] → s.energy.coolHist = [] → -3000 ≤ ntcTemp v → ntcTemp v ≤ 6000 → 2 * 65536 ≤ v * 100 → v * 100 ≤ 98 * 65536 →
    exec (.coolantSample v) s = .next (clearLevel .coolantRange dev (clearLevel .coolantSensor dev { s with energy := { s.energy with
      coolant := [ntcTemp v], coolHist := [ntcTemp v], coolT := ntcTemp v, coolInvalid := false } }))) ∧
  (∀ (s : State) (k : Nat) (t : Int),
    (t ≤ 12500 → ∃ u, exec (.junctionSample [(k, t)]) s = .next u ∧ u.ltn.tj = putK 0 s.ltn.tj k t ∧ u.ltn.tjHot = s.ltn.tjHot.erase k ∧ ∀ e ∈ u.ltn.tj, e.2 ≤ u.energy.tj) ∧
    (12500 < t → k ∉ s.ltn.tjHot → ∃ x, exec (.junctionSample [(k, t)]) s = .next { s with
      ltn := { s.ltn with tj := putK 0 s.ltn.tj k t, tjHot := s.ltn.tjHot ++ [k] }, energy := { s.energy with tj := x } }) ∧
    (12500 < t → k ∈ s.ltn.tjHot → (∀ e ∈ s.fc.active, e.is .tjHigh (sub_ 0x3FF k) = false) →
      let r := raise .tjHigh (sub_ 0x3FF k) [] { s with ltn := { s.ltn with tj := putK 0 s.ltn.tj k t } }
      ∃ x, exec (.junctionSample [(k, t)]) s = .next { r with energy := { r.energy with tj := x } })) ∧
  (∀ (s : State) (k ma : Nat), exec (.railCurrentSample [(k, ma)]) s = .next { s with ltn := { s.ltn with railMa := putK 0 s.ltn.railMa k ma } } ∧
    exec (.railRange k) s = .next (raise .railRange (sub_ 0x3FF k) [] s) ∧ exec .clkRefRange s = .next (raise .clkRefRange dev [] s))

/-- FRAME_START (R204, R211, R276) and FRAME_END (R364, R404, R449, R451). What the clauses take beyond the rules is the model's choice: log entries 27, 44. -/
def Obligations.FrameStartAndEnd : Prop :=
  (∀ (s : State) (sh : List DynShape), s.loop.ctx = none → exec (.frameStart sh) s = .next s) ∧
  (∀ (s : State) (sh : List DynShape) (c : Nat) (p : Loaded), s.loop.ctx = some c → planOf s c = some p → s.loop.cur = none →
    exec (.frameStart sh) s = .next (beginFrame false sh p s)) ∧
  (∀ (s : State) (p : Loaded), s.loop.ctx = some p.ctx → planOf s p.ctx = some p → s.loop.cur = none → s.fc.active = [] → s.mir.pairs = [] → s.obj.invals = [] →
    s.host.inb = [] → s.intake.streams = [] → s.intake.splitNext = [] → s.mbD.waiting = [] → s.dv.compare = false → s.dv.twin = false → s.dev.state = .running →
    s.energy.noBudget = true → s.energy.grant = none → s.energy.newGrant = none → s.energy.nextRung = none → s.mem.retired = [] → s.mem.floor = 0 →
    s.mem.halted = false → s.mem.stalled = [] →
    s.ltn.guard.written = false → p.img.cores = [] → p.img.seqs = [] →
    ∃ t, exec (.frameStart []) s = .next t ∧ t.loop.next = s.loop.next + 1 ∧ t.loop.started = s.loop.started + 1 ∧ t.energy.latched = s.energy.meters ∧
      t.energy.force = s.energy.rung ∧ t.time.stamp.n = s.loop.next ∧ t.time.stamp.ltc = now s ∧
      t.loop.cur = some { n := s.loop.next, recs := p.img.outputs.map (fun o => { obj := o.obj }), rung := s.energy.rung, stamp := t.time.stamp, absent := s.dv.absent }) ∧
  (∀ (s : State) (outs : List OutData), s.loop.cur = none ∨ curPlan s = none → exec (.frameEnd outs) s = .next s) ∧
  (∀ (s : State) (outs : List OutData) (f : Frame) (p : Loaded), s.loop.cur = some f → curPlan s = some p → f.torch = false → s.dv.twin = false → s.loop.stopAt = none →
    ∃ t x, exec (.frameEnd outs) s = .next t ∧ t.loop.cur = none ∧ t.loop.past = s.loop.past ++ [x] ∧ x.n = f.n ∧ x.stamp = f.stamp ∧ x.ended = true ∧ x.endLtc = now s ∧ x.verdict = 4 ∧
      (s.dev.state = .running → s.fc.c3 = false → s.fc.c4 = false → s.fc.active = [] → t.fc.safeA = false ∧ t.fc.safeBN = true))

/-- RESULT_GATE_OPEN (R449, R452), RETIRE_POINT (R320), EPOCH_END (R181, R182, R258) and RECALIBRATION_COMPLETE (R183). What the clauses take beyond the rules is the model's choice: log entries 2, 26, 60. -/
def Obligations.DeliveryAndRecalibration : Prop :=
  (∀ s : State, s.loop.past.find? (fun f => f.ended && !f.gated) = none → exec .resultGateOpen s = .next s) ∧
  (∀ (s : State) (f : Frame), s.loop.past.find? (fun f => f.ended && !f.gated) = some f → windowsJudged s f = false → exec .resultGateOpen s = .next s) ∧
  (∀ (s : State) (f : Frame), s.loop.past.find? (fun f => f.ended && !f.gated) = some f → windowsJudged s f = true → s.dv.twin = false →
    ∃ t, exec .resultGateOpen s = .next t ∧ t.loop.past = (s.loop.past.map (fun x => if x.n = f.n ∧ x.torch = f.torch ∧ ¬x.gated then
      { f with verdict := 4, gated := true } else x)).filter (fun x => !(x.gated && x.retired && decide (x.verdict ≠ 0)))) ∧
  (∀ (s : State) (f : Frame), (s.loop.past.find? (fun f => f.ended && !f.retired) = none → exec .retirePoint s = .next s) ∧
    (s.loop.past.find? (fun f => f.ended && !f.retired) = some f → ∃ t, exec .retirePoint s = .next t ∧
      t = { s with obj := { s.obj with retired := s.obj.retired + 1 }, loop := { s.loop with past := t.loop.past } } ∧
      t.loop.past = (s.loop.past.map (fun x => if x.n = f.n ∧ x.torch = f.torch ∧ ¬x.retired then { x with retired := true } else x)).filter
        (fun x => !(x.gated && x.retired && decide (x.verdict ≠ 0))))) ∧
  (∀ (s : State) (fit : List FitChannel) (x : RecalFigures), s.adapt.run = none → exec (.epochEnd fit) s = .next s ∧ exec (.recalibrationComplete x) s = .next s) ∧
  (∀ (s : State) (a : AdaptRun) (fit : List FitChannel), s.adapt.run = some a → a.epochs ≤ a.epoch → exec (.epochEnd fit) s = .next s) ∧
  (∀ (s : State) (a : AdaptRun), s.adapt.run = some a →
    (a.epoch + 1 < a.epochs → exec (.epochEnd []) s = .next (rewind a.scene { s with adapt := { s.adapt with run := some { a with
      epoch := a.epoch + 1, order := epochOrder s a.scene a.seed (a.epoch + 1) } } })) ∧
    (a.epoch + 1 = a.epochs → exec (.epochEnd []) s = .next (rewind a.valid { s with adapt := { s.adapt with run := some { a with epoch := a.epochs, order := [] } } }))) ∧
  (∀ (s : State) (a : AdaptRun) (p : Loaded) (c : FitChannel) (k : Nat), s.adapt.run = some a → a.epoch + 1 = a.epochs → a.scales = [] → recalPlan s = some p →
    p.img.adaptable.contains (c.core, c.counter) = true →
    let x := getK {} (getCore s (servedBy s c.core)).clips c.counter
    let t (j : Int) : State := rewind a.valid { s with adapt := { s.adapt with run := some { a with epoch := a.epochs, order := [], scales := [(c.core.toNat * 512 + c.counter, j)] } } }
    (x.clip.sat = true ∨ x.conv.sat = true → exec (.epochEnd [c]) s = .next (t 0)) ∧
    (x.clip.sat = false → x.conv.sat = false → k < 17 → c.predicted.getD k false = true → (∀ i < k, c.predicted.getD i false = false) →
      exec (.epochEnd [c]) s = .next (t ((k : Int) - 8)))) ∧
  (∀ (s : State) (a : AdaptRun) (x : RecalFigures), s.adapt.run = some a → a.epochs ≤ a.epoch → s.adapt.ctxs = none →
    (x.leadDigest ≠ x.trailDigest → exec (.recalibrationComplete x) s = .next (endRun a { id := a.id, verdict := 2, corrupt := corruptCount s a } s)) ∧
    (x.leadDigest = x.trailDigest → x.entriesNormal = true → x.clipOk = true → x.headOk = true → x.winogradOk = true → a.faulted = false →
      exec (.recalibrationComplete x) s = .next (endRun a { id := a.id, verdict := 1, corrupt := corruptCount s a, candidate := sub x.leadDigest 0 32, worstClip := x.worstClip, worstHead := x.worstHead, worstWino := x.worstWino } s)))

/-- CSI_PACKET (R225, R227), CSI_LANE_ORDER (R226), ETH_FRAME (R229–R231), RTP_REORDER_EXPIRY (R234), PICTURE_DECODED (R236), LOSS_TIMEOUT (R224). What the clauses take beyond the rules is the model's choice: log entries 25, 55. -/
def Obligations.SensorIntake : Prop :=
  (∀ (s : State) (n : Nat) (p : CsiPkt) (e : EthFrame), s.dev.state = .adapting →
    exec (.csiPacket n p) s = .next s ∧ exec (.ethFrame n e) s = .next s ∧ exec (.lossTimeout n) s = .next s) ∧
  (∀ (s : State) (n : Nat) (p : CsiPkt), s.dev.state ≠ .adapting → p.hdr = .uncorrectable →
    exec (.csiPacket n p) s = .next (raise .csiHdrUe (sub_ prismNode n) [] (spoilPort n (updPort n (fun c =>
      { c with hdrUe := c.hdrUe.inc, failSince := some (c.failSince.getD (now s)) }) s)))) ∧
  (∀ (s : State) (n : Nat) (p : CsiPkt), s.dev.state ≠ .adapting → p.hdr = .clean → vcStreams s n p.vc = [] →
    exec (.csiPacket n p) s = .next (undeclared (n, p.vc.toNat, p.dt.toNat) (updPort n (fun c => { c with failSince := none }) s))) ∧
  (∀ (s : State) (n : Nat) (p : CsiPkt) (t : Stream), s.dev.state ≠ .adapting → p.hdr = .clean → vcStreams s n p.vc = [t] → getStream s t.decl.id = some t → wfK none s.intake.streams = true →
    let u := updPort n (fun c => { c with failSince := none }) s
    (p.dt = 0 → t.open_ = none → exec (.csiPacket n p) s = .next (setStream { t with open_ := some { dt := t.decl.dt.toNat } } u)) ∧
    (p.dt = 1 → ∀ o, t.open_ = some o → exec (.csiPacket n p) s = .next (completeUnit t.decl.id (o.corrupt || decide (o.lines.length ≠ t.decl.height)) (.csi o.dt o.lines)
      (setStream { t with open_ := none } u))) ∧
    (4 ≤ p.dt.toNat → t.decl.dt = p.dt → ∀ o, t.open_ = some o → o.dropping = false → p.overflow = false → p.data.length * 8 = t.decl.width * dtBits p.dt.toNat →
      (p.crcOk = true → ∃ v, exec (.csiPacket n p) s = .next v ∧ getStream v t.decl.id = some { t with open_ := some { o with lines := o.lines ++ [p.data] } } ∧ v = { s with intake := v.intake }) ∧
      (p.crcOk = false → ∃ v, exec (.csiPacket n p) s = .next (raise .csiCrc (sub_ prismNode n) [] v) ∧
        getStream v t.decl.id = some { t with open_ := some { o with lines := o.lines ++ [p.data], corrupt := true } } ∧ v = { s with intake := v.intake }))) ∧
  (∀ (s : State) (n : Nat) (perm : List Nat), ((getPort s n).failSince = none → exec (.csiLaneOrder n (some perm)) s = .next s) ∧
    (∀ u, (getPort s n).failSince = some u → exec (.csiLaneOrder n (some perm)) s = .next (note Source.csiLaneOrder.code (leBytes 1 n ++ perm.map (BitVec.ofNat 8))
      (raise .csiLaneOrder (sub_ prismNode n) [] s)))) ∧
  (∀ (s : State) (m : Nat) (e : EthFrame), s.dev.state ≠ .adapting →
    (e.len < 64 ∨ 9022 < e.len → exec (.ethFrame m e) s = .next (updMac m (fun c => { c with len := c.len.inc }) s)) ∧
    (64 ≤ e.len → e.len ≤ 9022 → (e.fcsOk = false → exec (.ethFrame m e) s = .next (updMac m (fun c => { c with fcs := c.fcs.inc }) s)) ∧
      (e.fcsOk = true → (e.ethertype = 0x88F7 → exec (.ethFrame m e) s = .next s) ∧
        (∀ p, e.ethertype ≠ 0x88F7 → e.ip = some p →
          (macTakes s m e = false → exec (.ethFrame m e) s = .next (undeclared (16 + m, p.src.toNat, p.dport.toNat) s)) ∧
          (macTakes s m e = true → p.unsupported = true → exec (.ethFrame m e) s = .next (updMac m (fun c => { c with proto := c.proto.inc }) s)) ∧
          (macTakes s m e = true → p.unsupported = false → sumsOk p = false → exec (.ethFrame m e) s = .next (updMac m (fun c => { c with csum := c.csum.inc }) s)) ∧
          (∀ f t, macTakes s m e = true → p.unsupported = false → sumsOk p = true → s.intake.flows = [f] → flowMatch m e p f = true → f.kind = .udpRaw →
            flowStream s m 0 = some t → getStream s t.decl.id = some t →
            exec (.ethFrame m e) s = .next (setStream { t with ring := t.ring ++ [leBytes 4 p.payload.length ++ p.payload] } s)))))) ∧
  (∀ (s : State) (t : Stream) (q r : W16) (u : W64) (bs : List Byte), getStream s t.decl.id = some t →
    (t.reorder = [] → exec (.rtpReorderExpiry t.decl.id) s = .next s) ∧
    (t.reorder = [(q, u, bs)] → t.rtpNext = some r → q ≠ r → exec (.rtpReorderExpiry t.decl.id) s = .next (spoilVideo t.decl.id (setStream { t with
      rtpLost := t.rtpLost + (q - r).toNat, rtpNext := some (q + 1), reorder := [], decode := depacket bs t.decode } s)))) ∧
  (∀ (s : State) (k : Nat) (p : Picture), getStream s k = none →
    exec (.pictureDecoded k p) s = .next s ∧ exec (.lossTimeout k) s = .next s ∧ exec (.rtpReorderExpiry k) s = .next s) ∧
  (∀ (s : State) (t : Stream) (p : Picture), getStream s t.decl.id = some t → wfK none s.intake.streams = true → p.clean = true → p.irap = true →
    ∃ v, exec (.pictureDecoded t.decl.id p) s = .next (completeUnit t.decl.id false (.picture p.depth p.y p.cb p.cr) v) ∧ v = { s with intake := v.intake } ∧
      getStream v t.decl.id = some { t with episode := false, decode := [] }) ∧
  (∀ (s : State) (t : Stream) (c : Bool) (b : UnitBody), getStream s t.decl.id = some t → t.moved = false → getProfile s t.decl.profile = none →
    completeUnit t.decl.id c b s = setStream { supersede (now s) t with
      fresh := some { stamp := now s, corrupt := c, buffer := freeBuffer t, body := b }, lastLtc := now s, lastFrame := s.loop.next } s) ∧
  (∀ (a : W64) (t : Stream), (t.fresh = none → supersede a t = t) ∧ (∀ f : SUnit, t.fresh = some f →
    (f.stamp = a → supersede a t = { t with skip := t.skip.inc }) ∧
    (f.stamp ≠ a → supersede a t = { t with prior := some f, skip := if t.prior.isSome then t.skip.inc else t.skip }))) ∧
  (∀ (s : State) (t : Stream), getStream s t.decl.id = some t → s.dev.state ≠ .adapting → wfK none s.intake.streams = true →
    (t.fresh ≠ none → exec (.lossTimeout t.decl.id) s = .next s) ∧
    (t.fresh = none → t.lost = true → exec (.lossTimeout t.decl.id) s = .next (setStream { t with last := none, open_ := none } s)) ∧
    (t.fresh = none → t.lost = false → ∃ v, exec (.lossTimeout t.decl.id) s = .next (raise .sensorLoss (streamInst t.decl.id) [] v) ∧ v = { s with intake := v.intake } ∧
      getStream v t.decl.id = some { t with last := none, open_ := none, lost := true }))

/-- RECORD_DECODE (R239, R241), INTAKE_DONE (R251), FOCUS_SEAL (R254), PRISM_UTIL_SAMPLE (R252, R260). What the clauses take beyond the rules is the model's choice: log entries 25, 60. -/
def Obligations.ScenesAndPrism : Prop :=
  (∀ (s : State) (set file : Nat) (r : MsrRec), getFile s set file = none ∨ s.dev.state ≠ .adapting ∨ (∃ f, getFile s set file = some f ∧ f.ended = true) →
    exec (.recordDecode set file r) s = .next s) ∧
  (∀ (s : State) (set file : Nat) (r : MsrRec) (f : MsrFileState), getFile s set file = some f → s.dev.state = .adapting → f.ended = false →
    (r.header.length ≠ 32 → f.frame = none → exec (.recordDecode set file r) s = .next (raise .msrCorrupt (sub_ prismNode set) []
      (setFile set file { f with abandoned := true, ended := r.atEnd || !f.indexed } s))) ∧
    (∀ k, r.header.length ≠ 32 → f.frame = some k → k ∉ f.corrupt → exec (.recordDecode set file r) s = .next (raise .msrCorrupt (sub_ prismNode set) []
      (setFile set file { f with abandoned := true, ended := r.atEnd || !f.indexed, corrupt := f.corrupt ++ [k] } s))) ∧
    (r.header.length = 32 → (crc32c (r.header.take 28)).toNat = fld r.header 28 4 → fld r.header 4 2 = 4 → fld r.header 24 4 % 2 = 0 →
      exec (.recordDecode set file r) s = .next (setFile set file { f with frame := some (fld r.header 20 4), abandoned := false, ended := r.atEnd } s))) ∧
  (∀ (s : State) (k : Nat) (t : Stream) (c : CamDecl) (f : Frame), (getStream s k = none ∨ s.loop.cur = none → exec (.intakeDone k) s = .next s) ∧
    (getStream s k = some t → getCam s k = some c → s.loop.cur = some f → (t.decl.profile = 255 → exec (.intakeDone k) s = .next s) ∧
      (∀ u, t.decl.profile ≠ 255 → t.used = some u → (∀ b, u.body ≠ .inbound b) →
        let msg := leBytes 1 k ++ leBytes 1 (flagNum t.flag) ++ leBytes 1 u.buffer ++ leBytes 1 t.focus ++ leBytes 4 f.n.toNat ++ leBytes 8 u.stamp.toNat
        exec (.intakeDone k) s = .next { s with sent := s.sent ++ (c.routes.take 8).map (fun r => .fab (.data { src := 0x210, dst := r.1, chan := r.2, data := msg })) }))) ∧
  (∀ (s : State) (n : Node) (k : Nat) (g : W32) (t : Stream), getStream s k = some t →
    exec (.focusSeal n k false g) s = .next (setStream { t with sealA := some (g, now s) } s) ∧ exec (.focusSeal n k true g) s = .next (setStream { t with sealB := some (g, now s) } s)) ∧
  (∀ (s : State) (u : Nat), s.intake.split = [] → s.intake.moved = [] → s.intake.above < 2 ^ 32 - 1 → s.intake.below < 2 ^ 32 - 1 →
    exec (.prismUtilSample u) s = .next { s with intake := { s.intake with
      util := u, utilHist := (u :: s.intake.utilHist).take 100, above := if 85 * 65536 < u * 100 then s.intake.above + 1 else 0, below := if u * 100 < 60 * 65536 then s.intake.below + 1 else 0 } }) ∧
  (∀ (s : State) (u k : Nat) (h : Option Handle) (rest : List (Nat × Option Handle)), s.intake.split = (k, h) :: rest → s.intake.moved = [] → s.intake.above = 99 → 85 * 65536 < u * 100 →
    s.intake.splitNext = [] → s.intake.splitAt = none → s.loop.ctx ≠ none → s.dv.twin = false →
    ∃ t, exec (.prismUtilSample u) s = .next t ∧ t.intake.splitNext = [(k, true, frameNo s + 2)] ∧ t = { s with intake := t.intake })

/-- LINK_TRAINING, TRAINING_RETRY (R407–R410), LANE_LOCK_LOSS (R410), REPLAY_TIMEOUT (R413), FLIT_RECEIVE (R411–R418), DV_LINK_DOWN (R417). What the clauses take beyond the rules is the model's choice: log entries 2, 41, 42, 53. -/
def Obligations.DvorpoLink : Prop :=
  (∀ (s : State) (k : Nat) (ls : List LaneState) (g : BitVec 4) (far : Option Ident), dvOn s = false ∨ (getDv s k).state = .active ∨ (getDv s k).state = .unused ∨ (getDv s k).state = .held →
    exec (.linkTraining k ls g far) s = .next s) ∧
  (∀ (s : State) (k : Nat), dvOn s = true → (getDv s k).state = .down ∨ (getDv s k).state = .training → (getDv s k).adapted = false → (getDv s k).buf = [] →
    let ls : List LaneState := [{ number := 0 }, { number := 1 }, { number := 2 }, { number := 3 }]
    let q := { getDv s k with good := 15, inverted := 0, reversed := false, width := 4 }
    exec (.linkTraining k ls 15 none) s = .next (setDv k { q with state := .training } s) ∧
    (∀ f : Ident, wrongFar s k f.p.toNat = true → exec (.linkTraining k ls 15 (some f)) s = .next (raise .dvMiswire (at_ (portNode k)) []
      (setDv k { q with state := .held, far := f.p.toNat, wait := [] } s))) ∧
    (∀ f : Ident, wrongFar s k f.p.toNat = false → wfK {} s.dv.ports = true → exec (.linkTraining k ls 15 (some f)) s = .next (dvSend k 2 f.p.toNat (identBytes s)
      (setDv k { q with state := .active, far := f.p.toNat, adapted := true, txSeq := 0, rxSeq := 0xFFF, nak := false } s)))) ∧
  (∀ (s : State) (k : Nat), (dvOn s = true → (getDv s k).state = .down → exec (.trainingRetry k) s = .next (setDv k { getDv s k with state := .training } s)) ∧
    (dvOn s = false ∨ (getDv s k).state ≠ .down → exec (.trainingRetry k) s = .next s)) ∧
  (∀ (s : State) (k l : Nat), ((getDv s k).state ≠ .active → exec (.laneLockLoss k l) s = .next s ∧ exec (.replayTimeout k) s = .next s) ∧
    ((getDv s k).state = .active → exec (.laneLockLoss k l) s = .next (raise .dvRetrain (at_ (portNode k)) []
      (setDv k { getDv s k with state := .training, retrain := (getDv s k).retrain.inc } s)))) ∧
  (∀ (s : State) (k : Nat), (getDv s k).state = .active → wfK {} s.dv.ports = true →
    ((getDv s k).buf = [] → exec (.replayTimeout k) s = .next s) ∧
    (∀ f fs, (getDv s k).buf = f :: fs → f.replays < 4 → ∃ t, exec (.replayTimeout k) s = .next t ∧
      t.sent = s.sent ++ (f :: fs).map (fun f => .dv k f.seq f.chan f.src f.dst f.hops f.msgId f.corr f.first f.last f.payload) ∧
      getDv t k = { getDv s k with replay := (getDv s k).replay.inc, buf := (f :: fs).map (fun x => { x with replays := x.replays + 1, at_ := now s }) }) ∧
    (∀ f fs, (getDv s k).buf = f :: fs → 4 ≤ f.replays → ∃ u, exec (.replayTimeout k) s = .next (raise .dvRetrain (at_ (portNode k)) [] u) ∧
      getDv u k = { getDv s k with state := .training, retrain := (getDv s k).retrain.inc, buf := (f :: fs).map (fun x => { x with replays := 0 }) } ∧ u = { s with dv := u.dv })) ∧
  (∀ (s : State) (k : Nat) (b : List Byte), k < 2 → (getDv s k).state ≠ .active ∨ dvOn s = false ∨ b.length ≠ 256 → exec (.flitReceive k b) s = .next s) ∧
  (∀ (s : State) (k : Nat) (b : List Byte), k < 2 → (getDv s k).state = .active → dvOn s = true → b.length = 256 →
    (crc64 0xFFFFFFFFFFFFFFFF (b.take 248) ≠ BitVec.ofNat 64 (fld b 248 8) → (getDv s k).crcAt.length < 1000 →
      exec (.flitReceive k b) s = .next (emit (.dvAck k true (getDv s k).rxSeq) (setDv k { getDv s k with
        crc := (getDv s k).crc.inc, nak := true, crcAt := now s :: (getDv s k).crcAt.filter (fun t => decide ((now s - t).toNat ≤ 1000000)) } s))) ∧
    (crc64 0xFFFFFFFFFFFFFFFF (b.take 248) = BitVec.ofNat 64 (fld b 248 8) → fld b 2 2 / 4096 % 4 = 0 →
      (fld b 0 2 / 4096 ≠ 0 → exec (.flitReceive k b) s = .next s) ∧
      (fld b 0 2 / 4096 = 0 → BitVec.ofNat 12 (fld b 0 2) = (getDv s k).rxSeq + 1 →
        let u := emit (.dvAck k false (BitVec.ofNat 12 (fld b 0 2))) (setDv k { getDv s k with rxSeq := BitVec.ofNat 12 (fld b 0 2), nak := false } s)
        (fld b 5 1 / 8 % 8 ≠ s.dv.p → s.dv.n ≤ fld b 6 1 + 1 → exec (.flitReceive k b) s = .next u) ∧
        (fld b 5 1 / 8 % 8 = s.dv.p → fld b 5 1 % 8 ≠ partnerPos s → fld b 4 1 % 16 = 7 →
          (∀ e ∈ s.dv.seen, e ≠ (fld b 5 1 % 8, 3, BitVec.ofNat 16 (fld b 8 2))) →
          let fr := s.dv.frags.filter (fun e => !(e.1 = fld b 5 1 % 8 && e.2.1 = BitVec.ofNat 16 (fld b 8 2))) ++
            [(fld b 5 1 % 8, BitVec.ofNat 16 (fld b 8 2), sub b 16 (min (fld b 10 2) 232))]
          exec (.flitReceive k b) s = .next { u with dv := { u.dv with frags := fr } })))) ∧
  (∀ (s : State) (k : Nat), k < 2 → ((getDv s k).state ≠ .active → (getDv s k).state ≠ .training → exec (.dvLinkDown k) s = .next s) ∧
    ((getDv s k).state = .active → (getDv s k).adapted = true → (getDv s k).buf = [] → (getDv s k).wait = [] →
      let u := raise .dvLinkDown (at_ (portNode k)) [] (setDv k { getDv s k with state := .down, width := 0, adapted := false } s)
      exec (.dvLinkDown k) s = .next (if (partnerPort u).isNone then losePartner u else u)))

/-- FRAME_SIG and FRAME_SIG_WAIT_EXPIRY (R404, R421), TIME_REQ_INTERVAL, TIME_REQ (R422), TIME_RESP, TIME_REPORT (R281, R423), EXCHANGE_HOLD (R424), HEARTBEAT_INTERVAL, HEARTBEAT, FAULT_STATE (R425, R426). What the clauses take beyond the rules is the model's choice: log entries 23, 42. -/
def Obligations.PartnerTime : Prop :=
  (∀ s : State, s.dv.lost = false → heardNow s = { s with dv := { s.dv with heard := some (now s) } }) ∧
  (∀ (s : State) (m : FrameSigMsg), (s.dv.twin = false ∨ s.dv.comparing = false → exec (.frameSig m) s = .next (heardNow s)) ∧
    (s.dv.twin = true → s.dv.comparing = true → s.dv.lost = false → s.dv.sigs = [] →
      (s.loop.past = [] → exec (.frameSig m) s = .next { s with dv := { s.dv with heard := some (now s), sigs := [(now s, m)] } }) ∧
      (∀ f, s.loop.past = [f] → f.ended = true → f.torch = false → f.verdict = 0 → f.unagreed = false → f.realign = false → m.unagreed = false → m.realign = false →
        fromPartner s m.frame = f.n → m.mapped = f.n → exec (.frameSig m) s = .next (judgeFrame f.n (if m.sig = f.sig then 1 else 2)
          { s with dv := { s.dv with heard := some (now s), sigs := [] } })))) ∧
  (∀ (s : State) (f : Frame), (s.loop.past = [] → exec .frameSigWaitExpiry s = .next s) ∧
    (s.loop.past = [f] → f.ended = true → f.torch = false → f.verdict = 0 → exec .frameSigWaitExpiry s = .next (judgeFrame f.n 3 s))) ∧
  (∀ s : State, (isFollower s = true → partnerPort s ≠ none → exec .timeReqInterval s = .next (toPartner 1 ([0x10, 0, 0, 0] ++ leBytes 8 (now s).toNat)
      { s with dv := { s.dv with t1 := some (now s) } })) ∧
    (isFollower s = false ∨ partnerPort s = none → exec .timeReqInterval s = .next s)) ∧
  (∀ (s : State) (t1 : W64) (corr : W32), (s.dv.n < 2 ∨ isFollower s = true → exec (.timeReq t1 corr) s = .next (heardNow s)) ∧
    (∀ f, 2 ≤ s.dv.n → isFollower s = false → s.loop.cur = some f → exec (.timeReq t1 corr) s = .next (toPartner 1 ([0x11, 0, 0, 0] ++ leBytes 8 t1.toNat ++
      leBytes 8 (now s).toNat ++ leBytes 8 (now s).toNat ++ leBytes 4 corr.toNat ++ leBytes 4 (frameNo s).toNat ++ leBytes 8 f.stamp.ltc.toNat) (heardNow s)))) ∧
  (∀ (s : State) (m : TimeRespMsg), isFollower s = false ∨ s.dv.t1 ≠ some m.t1 → exec (.timeResp m) s = .next (heardNow s)) ∧
  (∀ (s : State) (m : TimeRespMsg), isFollower s = true → s.dv.t1 = some m.t1 →
    let a : Int := (m.t2.toNat : Int) - m.t1.toNat - m.corrReq.toNat
    let b : Int := (m.t4.toNat : Int) - m.t3.toNat - m.corrResp.toNat
    ∃ t, exec (.timeResp m) s = .next t ∧ t.dv.t1 = none ∧ t.dv.exch = some (now s) ∧ t.dv.deltas = ((now s, (a - b) / 2) :: s.dv.deltas).take 8 ∧ t.dv.delay = (a + b) / 2 ∧
      t.time.alignDev = (a - b) / 2 - s.dv.offset ∧ t.dv.holdInc = false ∧ 8589934592 - 1717986 ≤ t.time.inc.toNat ∧ t.time.inc.toNat ≤ 8589934592 + 1717986) ∧
  (∀ (s : State) (m : TimeReportMsg), (s.dv.n < 2 ∨ isFollower s = true → exec (.timeReport m) s = .next (heardNow s)) ∧
    (2 ≤ s.dv.n → isFollower s = false → s.dv.lost = false → m.realign = false → exec (.timeReport m) s = .next { s with
      dv := { s.dv with heard := some (now s), exch := some (now s), deltas := ((now s, -m.delta) :: s.dv.deltas).take 8, delay := m.delay.toNat }
      time := { s.time with alignOffset := m.dev - m.delta, alignDev := -m.dev } })) ∧
  (∀ s : State, exec .exchangeHold s = .next { s with dv := { s.dv with holdInc := true } } ∧
    (2 ≤ s.dv.n → exec .heartbeatInterval s = .next (toPartner 2 ([0x21, devByte s.dev, BitVec.ofNat 8 (highest s).num, BitVec.ofNat 8 s.energy.force] ++ leBytes 4 (frameNo s).toNat) s)) ∧
    (s.dv.n < 2 → exec .heartbeatInterval s = .next s)) ∧
  (∀ (s : State) (b : Beat) (src : W16), s.dv.lost = false →
    let t := { s with dv := { s.dv with heard := some (now s), partner := some b } }
    (b.devstate.toNat % 16 ≠ 4 ∨ s.fc.faultIn = true ∨ s.dv.lowAt = none → exec (.heartbeat b) s = .next t) ∧
    (∀ u, b.devstate.toNat % 16 = 4 → s.fc.faultIn = false → s.dv.lowAt = some u → 1000000 ≤ (now s - u).toNat →
      exec (.heartbeat b) s = .next { s with dv := { s.dv with heard := some (now s), partner := some b, uncheck := false } }) ∧
    exec (.faultState true b src) s = .next t ∧ exec (.faultState false b src) s = .next (note src [b.devstate, b.cls, b.rung] s))

/-- PLAN_CHECK, LOOP_PROPOSE (R347, R432), RUNG_ENERGY (R214), RUNG_FLOOR (R201), SPLIT_MOVE (R260), REALIGN_ENTER, REALIGN_EXIT (R433, R435), SIDEBAND_TEST (R430), DATA_MESSAGE (R427), PARTNER_LOST (R426), FAULT_IN, FAULT_IN_CLASSIFY, FAULT_IN_LOW (R429), DV_FAULT_PIN (R430). What the clauses take beyond the rules is the model's choice: log entries 40, 42, 45. -/
def Obligations.PartnerControl : Prop :=
  (∀ (s : State) (m : PlanCheckMsg) (e : W64) (n : W32) (r : Bool), s.dv.lost = false → s.loop.ctx = none → s.loop.starting = none →
    exec (.planCheck m) s = .next { s with dv := { s.dv with heard := some (now s), check := some m, checkAt := now s } } ∧
    exec (.loopPropose e n r) s = .next { s with dv := { s.dv with heard := some (now s), propose := some (e, n, r), proposeAt := now s } }) ∧
  (∀ (s : State) (m : PlanCheckMsg) (p : Loaded), s.dv.lost = false → s.loop.ctx ≠ none → curPlan s = some p → s.dv.twin = true → s.dv.comparing = false →
    let t := toPartner 2 (planCheckBytes s p) { s with dv := { s.dv with heard := some (now s), check := some m, checkAt := now s } }
    checkFails s p m = 0 → exec (.planCheck m) s = .next { t with dv := { t.dv with compare := true, absent := false } }) ∧
  (∀ (s : State) (e : W64) (n : W32), s.dv.lost = false → s.loop.ctx ≠ none →
    let t := { s with dv := { s.dv with heard := some (now s), propose := some (e, n, false), proposeAt := now s, offset := lastDelta s, mapped := true } }
    ownLtc s e ≤ ((startAt s.loop.epoch s.loop.period s.loop.started).toNat : Int) → 
      let u := toPartner 2 (proposeBytes (startAt s.loop.epoch s.loop.period s.loop.started) s.loop.next true)
        { t with time := { t.time with alignOwn := s.loop.next, alignPartner := n, alignOffset := lastDelta s } }
      exec (.loopPropose e n false) s = .next (if s.dv.p % 2 = 0 then sidebandPulse u else u)) ∧
  (∀ (s : State) (k : Nat) (f : W32), s.dv.lost = false →
    let h := { s.dv with heard := some (now s) }
    exec (.rungEnergy k f) s = .next { s with dv := h, energy := { s.energy with partnerRung := some (fromPartner s f, k) } } ∧
    exec (.rungFloor k f) s = .next { s with dv := h, mem := { s.mem with partnerFloors := (fromPartner s f, k) :: s.mem.partnerFloors } } ∧
    (s.intake.splitNext = [] → k ∉ s.intake.moved → exec (.splitMove k true f) s = .next { s with dv := h, intake := { s.intake with splitNext := [(k, true, fromPartner s f + 2)] } } ∧
      exec (.splitMove k false f) s = .next { s with dv := h })) ∧
  (∀ (s : State) (f : W32) (d : Int), s.dv.lost = false →
    (s.dv.twin = false → exec (.realignEnter f d) s = .next { s with dv := { s.dv with heard := some (now s) } }) ∧
    (s.dv.twin = true → s.dev.state = .running → exec (.realignEnter f d) s = .next (enter .realign (some .running) 0 { s with
      dv := { s.dv with heard := some (now s), entry := some (frameNo s), exitAt := none, beyond := 0, within := 0 } })) ∧
    (s.dev.state = .realign → exec (.realignExit f) s = .next { s with dv := { s.dv with heard := some (now s), exitAt := some f } }) ∧
    (s.dev.state ≠ .realign → exec (.realignExit f) s = .next { s with dv := { s.dv with heard := some (now s) } })) ∧
  (∀ (s : State) (r : Bool), s.dv.lost = false →
    let h := { s with dv := { s.dv with heard := some (now s) } }
    exec (.sidebandTest 0 r) s = .next { s with dv := { s.dv with heard := some (now s), test := 1 } } ∧ exec (.sidebandTest 1 r) s = .next h ∧
    exec (.sidebandTest 3 true) s = .next h ∧ exec (.sidebandTest 3 false) s = .next (raise .dvFaultPin dev [] h) ∧
    (partnerPort s = none → isFollower s = false →
      let u := { s with dv := { s.dv with heard := some (now s), test := 0 } }
      (s.dv.test = 2 → exec (.sidebandTest 2 r) s = .next u) ∧ (s.dv.test ≠ 2 → exec (.sidebandTest 2 r) s = .next (raise .dvFaultPin dev [] u)))) ∧
  (∀ (s : State) (id off : Nat) (bs : List Byte) (l : Bool), (sinkOf s id off bs.length = none → exec (.dataMessage id off bs l) s = .next (raise .dvDataDrop (at_ 0x228) [] s)) ∧
    (∀ k, sinkOf s id off bs.length = some k →
      let t := { s with mem := stagingPut off bs [] s.mem }
      exec (.dataMessage id off bs false) s = .next t ∧ exec (.dataMessage id off bs true) s = .next (postEvent k.event (Config.evtKind 15) (leBytes 2 id) t))) ∧
  (∀ s : State, (s.dv.n < 2 ∨ partnerPort s = none ∨ s.dv.lost = true → exec .partnerLost s = .next s) ∧
    (2 ≤ s.dv.n → partnerPort s ≠ none → s.dv.lost = false → exec .partnerLost s = .next (raise .partnerLost dev [] { s with dv := { s.dv with lost := true } }))) ∧
  (∀ s : State, (s.dv.n < 2 → exec .faultIn s = .next s) ∧
    (2 ≤ s.dv.n → s.dv.test = 1 → exec .faultIn s = .next { s with fc := { s.fc with faultIn := true, faultInAt := now s, faultInFell := false }, dv := { s.dv with lowAt := none, test := 2 } }) ∧
    (2 ≤ s.dv.n → s.dv.test ≠ 1 →
      let t := { s with fc := { s.fc with faultIn := true, faultInAt := now s, faultInFell := false, partnerClass := none }, dv := { s.dv with lowAt := none, uncheck := true } }
      exec .faultIn s = .next (raiseAs .partnerFault dev (clsOf t .partnerFault dev) true [] t))) ∧
  (∀ (s : State) (b : Bool), (s.fc.faultIn = false → exec (.faultInClassify b) s = .next s ∧ exec .faultInLow s = .next s ∧ exec .dvFaultPin s = .next s) ∧
    (s.fc.faultIn = true → 2 ≤ s.dv.n → s.dv.test = 0 → exec (.faultInClassify true) s = .next (classifyReport .c3 { s with fc := { s.fc with partnerClass := some .c3 } }) ∧
      (s.dv.twin = false → exec (.faultInClassify false) s = .next (classifyReport .c4 { s with fc := { s.fc with partnerClass := some .c4 } }))) ∧
    (s.fc.faultIn = true → exec .faultInLow s = .next (clearLevel .dvFaultPin dev { s with
      fc := { s.fc with faultIn := false, faultInFell := true, partnerClass := none }, dv := { s.dv with lowAt := some (now s) } })) ∧
    (∀ x, s.fc.faultIn = true → s.dv.partner = some x → (x.devstate.toNat % 16 = 4 → exec .dvFaultPin s = .next (raise .dvFaultPin dev [] s)) ∧
      (x.devstate.toNat % 16 ≠ 4 → exec .dvFaultPin s = .next s)))

/-- FAULT_RAISE, COL_CHANNEL_DIFFER and LTN_WATCHDOG (R439–R449, R457, R458, R462, R469). What the clauses take beyond the rules is the model's choice: log entries 12, 15, 45. -/
def Obligations.FaultReactions : Prop :=
  (∀ (s : State) (src : Source) (i : Inst) (d : List Byte), src = .coreRegPe ∨ src = .coreImemUe ∨ src = .coreMemUe → canIssue (getCore s i.node) = true →
    exec (.faultRaise src i d) s = .next (coreFault i.node src 0 0 s)) ∧
  (∀ (s : State) (src : Source) (i : Inst) (d : List Byte) (p : Pair), src.group = 0x02 → src ≠ .destAbsent → pairOf s i.node = some p →
    (src ≠ .coreRegPe ∧ src ≠ .coreImemUe ∧ src ≠ .coreMemUe) ∨ canIssue (getCore s i.node) = false →
    exec (.faultRaise src i d) s = .next (mismatch p d (register src i .c1 false d true s))) ∧
  (∀ (s : State) (src : Source) (i : Inst) (d : List Byte), src.group ≠ 0x02 ∨ src = .destAbsent ∨ pairOf s i.node = none →
    (src ≠ .coreRegPe ∧ src ≠ .coreImemUe ∧ src ≠ .coreMemUe) ∨ canIssue (getCore s i.node) = false →
    s.dv.n < 2 → s.fc.active.find? (fun e => e.is src i) = none → s.fc.active.length < 256 → ltnHeld s = false → s.log.gap = none → s.log.ring.length < 2048 →
    ∃ t, exec (.faultRaise src i d) s = .next t ∧
      (clsOf s src i = .c0 ∨ clsOf s src i = .c1 →
        (∃ e, t.fc.active = s.fc.active ++ [e] ∧ e.source = src ∧ e.inst = i ∧ e.cls = clsOf s src i ∧ e.cnt = ({} : Stick 16).inc ∧ e.first = now s ∧ e.episode = false ∧ e.cause = false) ∧
        (∃ q, t.log.ring = s.log.ring ++ [{ seq := s.log.seq, ltc := now s, kind := 1, cls := BitVec.ofNat 8 (clsOf s src i).num, code := src.code, payload := q }] ∧ q.length = 12 ∧
          q.take 10 = leBytes 4 (instWord i (isSafety s src i)).toNat ++ leBytes 2 1 ++ leBytes 4 (frameNo s).toNat) ∧
        t.dev = s.dev ∧ t.cores = s.cores ∧ t.loop = s.loop ∧ t.fc.safeA = s.fc.safeA ∧ t.fc.safeBN = s.fc.safeBN ∧ t.fc.recovery = s.fc.recovery) ∧
      (clsOf s src i = .c2 → s.fc.recovery.inc.val.toNat ≤ s.ltn.cfg.recoveryLimit →
        t.dev = s.dev ∧ t.cores = s.cores ∧ t.fc.recovery = s.fc.recovery.inc ∧ t.fc.safeA = s.fc.safeA ∧ t.loop.ctx = s.loop.ctx ∧
        ∃ e, t.fc.active = s.fc.active ++ [e] ∧ e.source = src ∧ e.inst = i ∧ e.cls = .c2 ∧ e.episode = true ∧ e.quietFrom = now s) ∧
      (clsOf s src i = .c3 → s.dev.state = .ready ∨ s.dev.state = .attached ∨ s.dev.state = .running ∨ s.dev.state = .adapting → s.ltn.guard.written = false →
        t.dev.state = .safeHold ∧ t.dev.prior = none ∧ t.dev.stateSeq = s.dev.stateSeq + 1 ∧ t.fc.c3 = true ∧ t.fc.safeA = true ∧
        (src ≠ .sioHarnessSwap → (∀ e ∈ s.fc.active, e.source ≠ .sioHarnessSwap) → t.fc.safeBN = false) ∧ t.fc.faultOut = .marked ∧
        t.loop.ctx = none ∧ t.loop.cur = none ∧ t.adapt.run = none ∧ (∀ e ∈ t.cores, e.2.torch = false → e.2.run ≠ .run ∧ e.2.run ≠ .wait ∧ e.2.run ≠ .done) ∧
        (∀ f, s.loop.cur = some f → ∃ g ∈ t.loop.past, g.n = f.n ∧ g.ended = true ∧ ∀ r ∈ g.recs, r.invalid = true)) ∧
      (clsOf s src i = .c4 → s.dev.state ≠ .locked → s.ltn.guard.written = false →
        t.dev.state = .locked ∧ t.dev.lockedLatch = true ∧ t.dev.dispatchUp = false ∧ t.fc.c4 = true ∧ t.fc.safeA = true ∧ t.fc.alive = false ∧ t.fc.aliveRun = false ∧ t.fc.faultOut = .high ∧
        t.mbD.service = false ∧ t.mbL.service = false ∧ t.loop.ctx = none ∧ t.loop.cur = none ∧ (∀ e ∈ t.cores, e.2.run ≠ .run ∧ e.2.run ≠ .wait ∧ e.2.run ≠ .done))) ∧
  (∀ s : State, exec .colChannelDiffer s = exec (.faultRaise .colChannelDiffer dev []) s ∧ clsOf s .colChannelDiffer dev = .c3 ∧
    exec .ltnWatchdog s = exec (.faultRaise .ltnWatchdog dev []) s ∧ clsOf s .ltnWatchdog dev = .c4)

/-- TORCH_START and TORCH_START_FAIL (R454), TORCH_FRAME_START (R455), QUIET_PERIOD_EXPIRY (R457), ALIVE_TOGGLE and WATCHDOG_REFRESH (R364, R447). What the clauses take beyond the rules is the model's choice: log entries 14, 44. -/
def Obligations.TorchQuietAndAlive : Prop :=
  (∀ s : State, s.dev.state ≠ .safeHold ∨ s.fc.c3 = false ∨ s.fc.torch = true → exec .torchStart s = .next s ∧ exec .torchStartFail s = .next s) ∧
  (∀ s : State, torchCheck s = .none ↔ ∃ p t, torchPlan s = some p ∧ p.img.torch = some t ∧ s.fc.c4 = false ∧ (∀ e ∈ s.fc.c3List, (entryFor s e.1).torchOk = true) ∧
    (∀ e ∈ s.fc.c3List, e.2.node ∉ t.cores ∧ (∀ q ∈ s.mir.pairs, q.map.pair ∈ t.pairs → q.map.cmp0 ≠ e.2.node ∧ q.map.cmp1 ≠ e.2.node) ∧
      (e.1.group = 0x04 → e.2.node.toNat / 128 * 32 + e.2.sub.toNat ∉ t.banks)) ∧
    (∀ k ∈ t.streams, ∀ r, getStream s k = some r → r.safety = true ∧ r.flag ≠ .missing)) ∧
  (∀ s : State, s.dev.state = .safeHold → s.fc.c3 = true → s.fc.torch = false →
    (torchCheck s ≠ .none → exec .torchStart s = .next (note 0 (4 :: leBytes 1 (torchCheck s).num) { s with fc := { s.fc with torchReason := torchCheck s } }) ∧
      exec .torchStartFail s = .next s) ∧
    (torchCheck s = .none → ∃ p u, torchPlan s = some p ∧ exec .torchStart s = .next (beginFrame true [] p u) ∧ u.dev.state = .degraded ∧ u.dev.prior = none ∧
      u.dev.stateSeq = s.dev.stateSeq + 1 ∧ u.fc.torch = true ∧ u.fc.torchReason = .none ∧ u.fc.faultOut = .marked ∧ u.fc.safeA = s.fc.safeA ∧ u.loop.torchCtx = some p.ctx ∧
      u.loop.torchNext = 0 ∧ u.loop.cur = s.loop.cur ∧ u.cores = s.cores) ∧
    (torchCheck s = .none → ∃ t, exec .torchStartFail s = .next t ∧ t.fc.torchReason = .startFail ∧
      t = { raise .torchStartFail dev [] s with fc := t.fc })) ∧
  (∀ s : State, (s.fc.torch = false → exec .torchFrameStart s = .next s) ∧
    (∀ p, s.fc.torch = true → s.loop.cur = none → curPlan s = some p → exec .torchFrameStart s = .next (beginFrame true [] p s)) ∧
    (∀ p f, s.fc.torch = true → s.loop.cur = some f → curPlan (frameEnd [] s) = some p → exec .torchFrameStart s = .next (beginFrame true [] p (frameEnd [] s)))) ∧
  (∀ (s : State) (src : Source) (i : Inst), ∃ t, exec (.quietPeriodExpiry src i) s = .next t ∧ t = { s with fc := { s.fc with active := t.fc.active } } ∧
    t.fc.active.length = s.fc.active.length ∧
    ∀ (k : Nat) (e : Active), s.fc.active[k]? = some e →
      (e.source = src → e.inst = i → e.episode = true → e.raised = false → s.loop.ctx = none → s.fc.torch = false → t.fc.active[k]? = some { e with episode := false, expired := false }) ∧
      (e.source = src → e.inst = i → e.episode = true → e.raised = false → s.loop.ctx ≠ none ∨ s.fc.torch = true → t.fc.active[k]? = some { e with expired := true }) ∧
      (e.source ≠ src ∨ e.inst ≠ i ∨ e.episode = false ∨ e.raised = true → t.fc.active[k]? = some e)) ∧
  (∀ s : State,
    (s.fc.aliveRun = true → (now s - s.ltn.wdogAt).toNat ≤ 200000 → exec .aliveToggle s = .next { s with fc := { s.fc with alive := !s.fc.alive, aliveAt := some (now s) } }) ∧
    (s.fc.aliveRun = false ∨ 200000 < (now s - s.ltn.wdogAt).toNat → exec .aliveToggle s = .next { s with fc := { s.fc with alive := false, aliveAt := if s.fc.alive then some (now s) else s.fc.aliveAt } }) ∧
    exec .watchdogRefresh s = .next { s with ltn := { s.ltn with wdogAt := now s } })

/-- SIO_SAMPLE (R522, R526, R527) with the levels of R364 and R428. What the clauses take beyond the rules is the model's choice: log entry 51. -/
def Obligations.SupervisedSamples : Prop :=
  (∀ s : State, exec (.sioSample []) s = .next s) ∧
  (∀ (s t : State) (p : PinSample) (ps : List PinSample), exec (.sioSample [p]) s = .next t → exec (.sioSample (p :: ps)) s = exec (.sioSample ps) t) ∧
  (∀ (s : State) (p : PinSample), 15 < p.pin → exec (.sioSample [p]) s = .next s) ∧
  (∀ (s : State) (p : PinSample), p.pin ≤ 15 →
    let x := getK {} s.sio p.pin
    let d := pinLevel s p.pin
    let m := sioMode s p.pin
    let c := sampleCond s p d
    let put (y : SioPin) : State := { s with sio := putK {} s.sio p.pin y }
    (∀ u, pinEdge s p.pin = some u → (now s - u).toNat < 5000 → exec (.sioSample [p]) s = .next s) ∧
    (m.openDrain = false →
      (d = true → p.level = false → p.atLimit = true → c = 1) ∧ (d = false → p.level = true → p.atLimit = true → c = 2) ∧
      (p.level ≠ d → p.atLimit = false → pinUsed s p.pin = true → c = 3) ∧
      (p.level = d → pinUsed s p.pin = true → againstLoad m d = true → p.pin ∈ [0, 1, 3] → p.legPercent < 25 ∨ 75 < p.legPercent → c = 4) ∧
      (p.level = d → pinUsed s p.pin = true → againstLoad m d = true → 25 ≤ p.legPercent → p.legPercent ≤ 75 → m.openDetect = true →
        (p.microAmp * m.rMax * 100 < 1650000 → c = 5) ∧ (1650000 ≤ p.microAmp * m.rMax * 100 → c = 0)) ∧
      (p.level = d → againstLoad m d = false → c = 0)) ∧
    ((∀ u, pinEdge s p.pin = some u → 5000 ≤ (now s - u).toNat) → c = 0 → x.count < 5 → exec (.sioSample [p]) s = .next (put { x with cond := 0, count := 0 })) ∧
    ((∀ u, pinEdge s p.pin = some u → 5000 ≤ (now s - u).toNat) → c = 0 → 5 ≤ x.count → condShows m x.cond d = true →
      exec (.sioSample [p]) s = .next (clearLevel (condSource x.cond) (sub_ 0x3FF p.pin) (put { x with cond := 0, count := 0 }))) ∧
    ((∀ u, pinEdge s p.pin = some u → 5000 ≤ (now s - u).toNat) → c ≠ 0 → c ≠ x.cond → x.count < 5 → exec (.sioSample [p]) s = .next (put { x with cond := c, count := 1 })) ∧
    ((∀ u, pinEdge s p.pin = some u → 5000 ≤ (now s - u).toNat) → c ≠ 0 → c = x.cond → x.count ≠ 4 → exec (.sioSample [p]) s = .next (put { x with count := x.count + 1 })) ∧
    ((∀ u, pinEdge s p.pin = some u → 5000 ≤ (now s - u).toNat) → c ≠ 0 → c = x.cond → x.count = 4 →
      let t := raise (condSource c) (sub_ 0x3FF p.pin) [BitVec.ofNat 8 c] (put { x with count := 5 })
      exec (.sioSample [p]) s = .next (if c = 3 ∧ p.pin = 3 then raise .dvFaultPin dev [] t else t)))

/-- POWER_CYCLE (R460), POWER_ON (R366–R372), BOOT_COMPLETE (R361, R374, R479), WARM_RESET (R366), CAN_WAKE (R384) and LOG_FLUSH (R470). The value of LTC_INC after the boot calibration is a free value within R263's range (log entry 2). What the clauses take beyond the rules is the model's choice: log entries 2, 51, 62, 63, 64. -/
def Obligations.PowerAndBoot : Prop :=
  (∀ s : State, ∃ t, exec .powerCycle s = .next t ∧
    t = { State.reset with pending := s.pending, free := s.free, sent := s.sent, log := t.log, ltn := t.ltn, host := t.host, dev := { straps := s.dev.straps } } ∧
    t.log.flash = s.log.flash ∧ t.log.ring = [] ∧ t.ltn.otpSteps = s.ltn.otpSteps ∧ (s.ltn.guard.phase ≠ .endorsed → t.ltn.cfg = s.ltn.cfg) ∧ t.host = { perst := s.host.perst }) ∧
  (∀ (s : State) (f : FlashEnv), s.dev.lockedLatch = true → ∃ t, exec (.powerOn f) s = .next t ∧ t.dev.state = .locked ∧ t.dev.lockedLatch = true ∧ t.fc.c4 = true ∧ t.mbD.service = false ∧ t.mbL.service = false ∧ t.cores = []) ∧
  (∀ (s : State) (f : FlashEnv), s.dev.lockedLatch = false →
    let otp := s.ltn.otpSteps
    let lan : FwSlots := { s.ltn.fwLantern with slotA := f.lanternA, slotB := f.lanternB }
    let dsp : FwSlots := { s.ltn.fwDispatch with slotA := f.dispatchA, slotB := f.dispatchB }
    let good (x : FwSlots) : Prop := slotCheck otp (if x.activeB then x.slotB else x.slotA) = 0
    (strapHalt f.straps ≠ 0 → ∃ t, exec (.powerOn f) s = .next t ∧ t.dev.state = .bootHalt ∧ t.dev.haltCheck = (0, 0, strapHalt f.straps) ∧ t.ltn.fw = false) ∧
    (strapHalt f.straps = 0 → slotCheck otp f.lanternA ≠ 0 → slotCheck otp f.lanternB ≠ 0 →
      ∃ t, exec (.powerOn f) s = .next t ∧ t.dev.state = .bootHalt ∧ t.dev.haltCheck = (slotCheck otp f.lanternA, slotCheck otp f.lanternB, 0) ∧ t.ltn.fw = false) ∧
    (strapHalt f.straps = 0 → good lan → f.configValid = false → ∃ t u, exec (.powerOn f) s = .next t ∧ t = calibrate (raise .ltnConfigLost dev [] u) ∧ u.ltn.fw = true ∧ t.dev.state = .locked) ∧
    (strapHalt f.straps = 0 → good lan → good dsp → f.configValid = true →
      ∃ t, exec (.powerOn f) s = .next t ∧ t.dev.state = .booting ∧ t.ltn.fw = true ∧ t.dev.dispatchUp = true ∧ t.dev.bootedAlt = false ∧ t.dev.ltnFwVer = (if lan.activeB then lan.slotB else lan.slotA).version ∧
        t.dev.dspFwVer = (if dsp.activeB then dsp.slotB else dsp.slotA).version ∧ t.mbD.service = true ∧ t.mbL.service = true ∧ t.host.enabled = true ∧ t.fab.gated.contains 1 = false ∧ t.fab.gated.contains 2 = false ∧ IncOk t.time.inc)) ∧
  (∀ (s : State) (e : BootEnv), s.dev.state ≠ .booting → exec (.bootComplete e) s = .next s) ∧
  (∀ (s : State) (sites : List Node), s.dev.state = .booting → s.ltn.fw = true → heldCause s = none →
    ∃ t, exec (.bootComplete { failedSites := sites }) s = .next t ∧ t.dev.state = .ready ∧ t.dev.prior = none ∧ t.dev.stateSeq = s.dev.stateSeq + 1 ∧ t.fc.aliveRun = true ∧ t.fc.c3 = false ∧ t.fc.faultOut = .low ∧
      t.fc.safeA = s.fc.safeA ∧ t.dev.unavailable = coreSites.filter (fun n => sites.contains n) ∧
      (s.dev.bootClean = true → t.ltn.otpSteps = max s.ltn.otpSteps (min 64 (min (if s.ltn.fwLantern.bootedB then s.ltn.fwLantern.slotB else s.ltn.fwLantern.slotA).rollback
        (if s.ltn.fwDispatch.bootedB then s.ltn.fwDispatch.slotB else s.ltn.fwDispatch.slotA).rollback))) ∧
      (s.dev.bootClean = false → t.ltn.otpSteps = s.ltn.otpSteps)) ∧
  (∀ s : State, s.dev.state = .booting → s.ltn.fw = true → s.fc.active = [] → s.fc.c4 = false → clsOf s .sioHarnessSwap dev = .c3 → (entryFor s .sioHarnessSwap).sticky = true →
    ∃ t, exec (.bootComplete { pattern := { safeAHigh := false, safeBHigh := true } }) s = .next t ∧ t.dev.state = .safeHold ∧ t.fc.c3 = true ∧ t.fc.safeA = true ∧ t.fc.safeBN = true) ∧
  (∀ (s : State) (f : FlashEnv), (s.dev.state = .locked → exec (.warmReset f) s = .next s) ∧
    (s.dev.state ≠ .locked → ∃ u, exec (.warmReset f) s = .next (bootRom (readFlash f u)) ∧ u.dev.state = .booting ∧ u.time.acc = s.time.acc ∧ u.dev.sessions = s.dev.sessions ∧ u.dev.session = 0 ∧ u.dev.straps = s.dev.straps ∧
      u.dev.lockedLatch = s.dev.lockedLatch ∧ u.ltn.otpSteps = s.ltn.otpSteps ∧ u.cores = [] ∧ u.plans = [] ∧ u.fc = State.reset.fc ∧ u.loop = State.reset.loop ∧ u.host = { perst := s.host.perst })) ∧
  (∀ (s : State) (id : BitVec 29), (id ≠ Config.wakeId ∨ s.dev.state ≠ .aonOnly → exec (.canWake id) s = .next s) ∧
    (id = Config.wakeId → s.dev.state = .aonOnly → ∃ u, exec (.canWake id) s = .next (bootTail u) ∧ u.dev.state = .booting ∧ u.dev.stateSeq = s.dev.stateSeq + 1 ∧ u.fc.recovery = {} ∧
      u.dev.unavailable = [] ∧ u.log.flash = s.log.flash ∧
      (u.ltn.cfgValid = false → bootTail u = raise .ltnConfigLost dev [] u) ∧
      (u.ltn.cfgValid = true → slotCheck u.ltn.otpSteps (if u.ltn.fwDispatch.activeB then u.ltn.fwDispatch.slotB else u.ltn.fwDispatch.slotA) = 0 →
        (bootTail u).dev.state = .booting ∧ (bootTail u).dev.dispatchUp = true ∧ (bootTail u).mbD.service = true ∧ (bootTail u).mbL.service = true ∧ (bootTail u).host.enabled = true))) ∧
  (∀ s : State,
    (s.ltn.guard.writing = true ∨ ltnHeld s = true → exec .logFlush s = .next s) ∧
    (s.ltn.guard.writing = false → ltnHeld s = false → s.log.urgentFlush = true →
      ∃ t, exec .logFlush s = .next t ∧ t = { s with log := t.log } ∧ t.log.flash = flashKeep (s.log.flash ++ unflushed s.log) ∧ t.log.ring = s.log.ring ∧
        (∀ r, (unflushed s.log).getLast? = some r → t.log.flushed = r.seq + 1)) ∧
    (s.ltn.guard.writing = false → ltnHeld s = false → s.log.urgentFlush = false → 128 ≤ (unflushed s.log).length →
      ∃ t, exec .logFlush s = .next t ∧ t = { s with log := t.log } ∧ t.log.flash = flashKeep (s.log.flash ++ (unflushed s.log).take 128)) ∧
    (s.log.urgentFlush = false → (unflushed s.log).length < 128 → exec .logFlush s = .next s))

/-- FW_STAGE_DONE (R477), DISPATCH_RESTART (R478, R482), CONFIG_WRITE_DONE and PROPOSAL_EXPIRY (R475, R486), PARTNER_CHECK_TIMEOUT (R347), RECONCILE_ROUND (R480–R482), PARKED_CHARGING_EXPIRY (R382), SPI_SILENCE (R473), JTAG_INSTRUCTION and DAP_ACCESS (R509–R512). VETOED after a failed write and the DAP's status byte are the model's choices (log entries 15 and 30). What the clauses take beyond the rules is the model's choice: log entries 15, 30, 40, 61, 62, 67. -/
def Obligations.FirmwareConfigurationAndDebug : Prop :=
  (∀ (s : State) (x : StageCheck) (w : Bool), staging s = false ∨ ltnHeld s = true ∨ s.ltn.stageImg = none → exec (.fwStageDone x w) s = .next s) ∧
  (∀ (x : StageCheck) (otp : Nat), stageFailure x otp = none ↔ x.magic = true ∧ x.stepping = true ∧ x.signature = true ∧ x.body = true ∧ otp ≤ x.rollback) ∧
  (∀ (s : State) (x : StageCheck) (w : Bool) (b : FwBody) (off len : Nat), staging s = true → ltnHeld s = false → s.ltn.stageImg = some (b, off, len) →
    (∀ st, stageFailure x s.ltn.otpSteps = some st → ∃ t, exec (.fwStageDone x w) s = .next t ∧ t.ltn.stage = .failed ∧ t.ltn.stageFail = st ∧ t.ltn.fwLantern = s.ltn.fwLantern ∧ t.ltn.fwDispatch = s.ltn.fwDispatch) ∧
    (stageFailure x s.ltn.otpSteps = none → w = false → ∃ t, exec (.fwStageDone x w) s = .next t ∧ t.ltn.stage = .failed ∧ t.ltn.stageFail = 12 ∧ t.ltn.fwLantern = s.ltn.fwLantern ∧ t.ltn.fwDispatch = s.ltn.fwDispatch) ∧
    (stageFailure x s.ltn.otpSteps = none → w = true →
      let img : SlotCheck := { wellFormed := true, signatureOk := true, rollback := x.rollback, version := x.version, digest := x.digest }
      let put (f : FwSlots) : FwSlots := if f.activeB then { f with slotA := img, staged := true } else { f with slotB := img, staged := true }
      ∃ t, exec (.fwStageDone x w) s = .next t ∧ t.ltn.stage = .done ∧ t.ltn.stageImg = none ∧
        t.ltn.fwLantern = (if b = .lantern then put s.ltn.fwLantern else s.ltn.fwLantern) ∧ t.ltn.fwDispatch = (if b = .dispatch then put s.ltn.fwDispatch else s.ltn.fwDispatch))) ∧
  (∀ s : State, (∀ up, s.ltn.restart = none → exec (.dispatchRestart up) s = .next s) ∧
    (s.ltn.restart ≠ none →
      (∃ t, exec (.dispatchRestart true) s = .next t ∧ t.dev.dispatchUp = true ∧ t.mbD.service = true ∧ t.ltn.restart = none ∧
        t.dev.dspFwVer = (if s.ltn.fwDispatch.activeB then s.ltn.fwDispatch.slotB else s.ltn.fwDispatch.slotA).version) ∧
      exec (.dispatchRestart false) s = .next (raise .dspWatchdog dev [] { s with ltn := { s.ltn with restart := none, missed := 0 } }))) ∧
  (∀ s : State, (∀ good, s.ltn.guard.writing = false ∨ ltnHeld s = true → exec (.configWriteDone good) s = .next s) ∧
    (s.ltn.guard.writing = true → ltnHeld s = false → s.ltn.guard.phase = .endorsed →
      let cfg := { s.ltn.cfg with seq := s.ltn.cfg.seq + 1 }
      let u : State := { s with ltn := { s.ltn with cfg, guard := { s.ltn.guard with writing := false, written := true } } }
      (∃ t, exec (.configWriteDone false) s = .next t ∧ t.ltn.guard.phase = .vetoed ∧ t.ltn.guard.writing = false ∧ t.ltn.cfg = s.ltn.cfg) ∧
      (loopRuns s = true → exec (.configWriteDone true) s = .next u) ∧
      (loopRuns s = false → checkChange u s.ltn.guard.change = none →
        ∃ t, exec (.configWriteDone true) s = .next t ∧ t.ltn.guard.phase = .applied ∧ t.ltn.guard.deadline = now s ∧ t.ltn.cfg = applyCfg s.ltn.guard.change cfg))) ∧
  (∀ s : State, (s.ltn.guard.phase ≠ .awaiting ∨ ltnHeld s = true → exec .proposalExpiry s = .next s) ∧
    (s.ltn.guard.phase = .awaiting → ltnHeld s = false → ∃ t, exec .proposalExpiry s = .next t ∧ t.ltn = { s.ltn with guard := { s.ltn.guard with phase := .expired } } ∧ t.dev = s.dev)) ∧
  (∀ s : State, (s.loop.starting = none ∨ s.mbD.waiting.find? (fun w => w.opcode = 0x0303) = none → exec .partnerCheckTimeout s = .next s) ∧
    (∀ (c : Nat) (e l : W64) (w : Waiting), s.loop.starting = some (c, e, l) → s.mbD.waiting.find? (fun w => w.opcode = 0x0303) = some w →
      let u : State := { s with mbD := { s.mbD with waiting := s.mbD.waiting.erase w }, loop := { s.loop with starting := none } }
      let adapting : Prop := ∃ b, s.dv.partner = some b ∧ b.devstate.toNat % 16 = 5
      (s.dev.state ≠ .attached ∨ planOf s c = none → exec .partnerCheckTimeout s = .next (respond .dispatch w.slot 9 0 [] u)) ∧
      (∀ p, s.dev.state = .attached → planOf s c = some p →
        (s.dv.twin = true → s.dv.lost = false → adapting → exec .partnerCheckTimeout s = .next (logCheckFail 1 (respond .dispatch w.slot 12 1 [] u))) ∧
        (s.dv.twin = true → s.dv.lost = true ∨ ¬adapting → exec .partnerCheckTimeout s = .next (startLoop p w.slot (if e.toNat < (now s).toNat then now s else e) true { u with dv := { s.dv with mapped := false } })) ∧
        (s.dv.twin = false → exec .partnerCheckTimeout s = .next (startLoop p w.slot (if e.toNat < (now s).toNat then now s else e)
          (s.dv.lost || s.dv.heard.isNone || (partnerPort s).isNone) { u with dv := { s.dv with mapped := false } }))))) ∧
  (∀ s : State, (∀ v, s.dev.dispatchUp = false ∨ s.ltn.restart ≠ none → exec (.reconcileRound v) s = .next s) ∧
    (s.dev.dispatchUp = true → s.ltn.restart = none →
      (s.ltn.missed ≠ 2 → exec (.reconcileRound none) s = .next { s with ltn := { s.ltn with missed := s.ltn.missed + 1 } }) ∧
      (s.ltn.missed = 2 → exec (.reconcileRound none) s = .next (raise .dspWatchdog dev [] { s with ltn := { s.ltn with missed := 3 } })) ∧
      (∀ v : List (RUnit × UnitState),
        let u : State := { s with ltn := { s.ltn with missed := 0, viewDsp := v.filter (fun e => !decide (e.2 = UnitState.up)) } }
        s.ltn.disagree = [] → (∀ x ∈ allUnits, viewsDiffer u x = true → x ∉ s.ltn.differ) →
          exec (.reconcileRound (some v)) s = .next { u with ltn := { u.ltn with differ := allUnits.filter (viewsDiffer u) } })) ∧
    (∀ (before : List RUnit) (x : RUnit), s.ltn.disagree = [] → viewsDiffer s x = true → x ∈ before →
      judgeUnit before x s = raiseUnit x (match unitNode x with | some n => quiesce n 200000 s | none => s))) ∧
  (∀ s : State, (s.ltn.parked = none → exec .parkedChargingExpiry s = .next s) ∧
    (s.ltn.parked ≠ none → s.adapt.run = none → exec .parkedChargingExpiry s = .next { s with ltn := { s.ltn with parked := none } }) ∧
    (∀ a, s.ltn.parked ≠ none → s.adapt.run = some a → ∃ t, exec .parkedChargingExpiry s = .next t ∧ t.adapt.run = none ∧ t.ltn.parked = none ∧ t.dev = s.dev)) ∧
  (∀ s : State, (s.ltn.spiLost = true ∨ s.ltn.fw = false → exec .spiSilence s = .next s) ∧
    (s.ltn.spiLost = false → s.ltn.fw = true → ∃ t, exec .spiSilence s = .next t ∧ t.ltn = { s.ltn with spiLost := true, spiLast := none } ∧ t.dev = s.dev)) ∧
  (∀ (s : State) (i : JtagInstr),
    let locked := s.ltn.cfg.lock.getLsbD 0
    let run (j : JtagInstr) : State := { s with trace := { s.trace with jtag := j } }
    (i = .bypass ∨ i = .samplePreload → exec (.jtagInstruction i) s = .next (run i)) ∧
    (i = .idcode → exec (.jtagInstruction i) s = .next (emit (.debug (leBytes 4 Config.idcode.toNat)) (run .idcode))) ∧
    (i = .extest ∨ i = .clamp ∨ i = .highz → exec (.jtagInstruction i) s = .next (run (if locked = false ∧ s.dev.state = .ready then i else .bypass))) ∧
    (i = .dap → exec (.jtagInstruction i) s = .next (run (if locked then .bypass else .dap)))) ∧
  (∀ (s : State) (n : Node) (op : DapOp), (s.trace.jtag ≠ .dap ∨ s.ltn.cfg.lock.getLsbD 0 = true → exec (.dapAccess n op) s = .next s) ∧
    (s.trace.jtag = .dap → s.ltn.cfg.lock.getLsbD 0 = false →
      (∀ a len, op = .read a len → exec (.dapAccess n op) s = .next (emit (.debug (if powered s n then 0 :: dapGet s n a len else [1])) s)) ∧
      ((∀ a len, op ≠ .read a len) → loopRuns s = true ∨ powered s n = false → exec (.dapAccess n op) s = .next (emit (.debug [1]) s)) ∧
      (loopRuns s = false → powered s n = true →
        (∀ a b, op = .write a b → exec (.dapAccess n op) s = .next (emit (.debug [0]) (dapPut n a b s))) ∧
        (op = .halt → exec (.dapAccess n op) s = .next (emit (.debug [0]) (updCore n (fun c => { c with halted := true, stepOne := false }) s))) ∧
        (op = .step → exec (.dapAccess n op) s = .next (emit (.debug [0]) (updCore n (fun c => { c with halted := true, stepOne := true }) s))) ∧
        (op = .resume → exec (.dapAccess n op) s = .next (emit (.debug [0]) (updCore n (fun c => { c with halted := false, stepOne := false }) s))))))

/-- SPI_TRANSACTION (R471, R557), STATUS, GUARD_QUERY, ENDORSE (R485), VETO (R487), PARKED_CHARGING (R381), STANDBY (R383), WAKE (R384), RESET (R366) and LOG_READ (R470), all R472. WAKE outside AON_ONLY and RESET in LOCKED answered REFUSED are the model's choices (log entry 29). What the clauses take beyond the rules is the model's choice: log entries 15, 29, 63, 65. -/
def Obligations.SafetyMcuRequests : Prop :=
  (∀ (s : State) (b : List Byte) (e : Nat) (id : W32) (on : Bool), ltnHeld s = true →
    ∀ c ∈ [Instr.spiTransaction b e, .spiStatus, .guardQuery, .endorse b, .spiVeto id, .parkedCharging on, .standby, .wake, .spiReset b, .logRead id], exec c s = .next s) ∧
  (∀ (s : State) (b : List Byte) (id : W32) (on : Bool), ltnHeld s = false →
    let reqs : List (Instr × Nat) := [(.spiStatus, 1), (.guardQuery, 2), (.endorse b, 3), (.spiVeto id, 4), (.parkedCharging on, 5), (.standby, 6), (.wake, 7), (.spiReset b, 8), (.logRead id, 9)]
    (s.dev.state = .bootHalt → ∀ c ∈ reqs, exec c.1 s = .next (setSpiNext 0x7F 0 3 (haltBytes s) s)) ∧
    (s.dev.state ≠ .bootHalt → s.ltn.fw = false → ∀ c ∈ reqs, exec c.1 s = .next (setSpiNext 0x7E 0 3 [] s))) ∧
  (∀ s : State, ltnHeld s = false → s.dev.state ≠ .bootHalt → s.ltn.fw = true →
    let h : State := { s with ltn := { s.ltn with spiLast := some (now s), spiLost := false } }
    let g := s.ltn.guard
    exec .spiStatus s = .next (setSpiNext 1 0 0 (spiStatusBytes h) h) ∧
    exec .guardQuery s = .next (setSpiNext 2 0 0 (leBytes 4 g.id.toNat ++ [g.kind] ++ leBytes 1 g.phase.num ++ [0, 0] ++ leBytes 4 g.challenge.toNat ++ leBytes 8 g.deadline.toNat
      ++ sub g.digest 0 32 ++ sub g.planDigest 0 32 ++ sub g.args 0 16) h) ∧
    (∀ first, exec (.logRead first) s = .next (setSpiNext 9 0 0 (logReadBytes first s.log) h)) ∧
    exec (.parkedCharging true) s = .next (setSpiNext 5 0 0 [] { h with ltn := { h.ltn with parked := some (now s) } }) ∧
    exec (.parkedCharging false) s = .next (setSpiNext 5 0 0 [] (parkedLost h)) ∧
    (∀ b : List Byte, ∃ t r p, exec (.endorse b) s = .next (setSpiNext 3 0 r (leBytes 4 g.id.toNat ++ leBytes 1 p ++ [0, 0, 0] ++ leBytes 8 (if r = 0 then (now s).toNat else 0)) t) ∧ p = t.ltn.guard.phase.num ∧
      (fld b 0 4 ≠ g.id.toNat ∨ g.phase ≠ .awaiting → r = 5 ∧ t = h) ∧
      (fld b 0 4 = g.id.toNat → g.phase = .awaiting →
        (g.deadline.toNat < (now s).toNat → r = 6 ∧ t.ltn.guard.phase = .expired) ∧
        ((now s).toNat ≤ g.deadline.toNat →
          (fld b 4 1 ≠ g.kind.toNat ∨ fld b 8 4 ≠ g.challenge.toNat ∨ sub b 12 32 ≠ sub g.digest 0 32 → r = 7 ∧ t.ltn.guard.phase = .vetoed ∧ t.ltn.guard.failCnt = g.failCnt.inc) ∧
          (fld b 4 1 = g.kind.toNat → fld b 8 4 = g.challenge.toNat → sub b 12 32 = sub g.digest 0 32 →
            (hmacSha256 Config.endorseKey (endorseMsg g) ≠ sub b 44 32 → r = 4 ∧ t.ltn.guard.phase = .vetoed ∧ t.ltn.guard.failCnt = g.failCnt.inc) ∧
            (hmacSha256 Config.endorseKey (endorseMsg g) = sub b 44 32 → r = 0 ∧ t.ltn.guard.phase = .endorsed ∧ t.ltn.guard.writing = true ∧ t.ltn.guard.written = false ∧ t.ltn.guard.failCnt = g.failCnt))))) ∧
    (∀ id : W32,
      (id ≠ g.id ∨ id = 0 ∨ (g.phase ≠ .awaiting ∧ g.phase ≠ .endorsed) → exec (.spiVeto id) s = .next (setSpiNext 4 0 5 (leBytes 4 id.toNat ++ leBytes 1 g.phase.num) h)) ∧
      (id = g.id → id ≠ 0 → g.phase = .awaiting ∨ g.phase = .endorsed →
        ∃ t, exec (.spiVeto id) s = .next (setSpiNext 4 0 0 (leBytes 4 id.toNat ++ leBytes 1 4) t) ∧ t.ltn.guard.phase = .vetoed)) ∧
    (s.dev.state ≠ .ready → s.dev.state ≠ .attached → s.dev.state ≠ .safeHold → exec .standby s = .next (setSpiNext 6 0 3 [] h)) ∧
    (s.dev.state = .ready ∨ s.dev.state = .attached ∨ s.dev.state = .safeHold →
      ∃ t, exec .standby s = .next (setSpiNext 6 0 0 [] t) ∧ t.dev.state = .aonOnly ∧ t.dev.session = 0 ∧ t.dev.dispatchUp = false ∧ t.mbD = {} ∧ t.mbL = {} ∧ t.plans = [] ∧ t.cores = [] ∧ t.loop = {} ∧
        t.fc.aliveRun = false ∧ t.fc.safeA = true ∧ t.time.acc = s.time.acc) ∧
    (s.dev.state ≠ .aonOnly → exec .wake s = .next (setSpiNext 7 0 3 [] h)) ∧
    (s.dev.state = .aonOnly → exec .wake s = .next (setSpiNext 7 0 0 [] (wakeUp h))) ∧
    (∀ b : List Byte,
      (sub b 0 4 = [0x52, 0x53, 0x54, 0x31] → s.dev.state ≠ .locked → exec (.spiReset b) s = .next (bootRom (warmClear h))) ∧
      (sub b 0 4 ≠ [0x52, 0x53, 0x54, 0x31] ∨ s.dev.state = .locked → exec (.spiReset b) s = .next (setSpiNext 8 0 3 [] h)))) ∧
  (∀ (s : State) (b : List Byte) (e : Nat), ltnHeld s = false →
    let soon := ∃ t, s.ltn.spiEnd = some t ∧ (now s - t).toNat < 50000
    let u : State := emit (.spi (misoNow s)) { s with ltn := { s.ltn with spiEnd := some (now s), spiNext := none } }
    let ty := BitVec.ofNat 8 (fld b 1 1)
    let seq := BitVec.ofNat 16 (fld b 2 2)
    let wrong (res : Byte) : State := setSpiNext ty seq res [] { u with ltn := { u.ltn with spiBad := s.ltn.spiBad.inc } }
    (soon → exec (.spiTransaction b e) s = .next { s with ltn := { s.ltn with spiBad := s.ltn.spiBad.inc, spiEnd := some (now s) } }) ∧
    (¬soon → s.dev.state = .bootHalt → exec (.spiTransaction b e) s = .next (setSpiNext 0x7F seq 3 (haltBytes u) u)) ∧
    (¬soon → s.dev.state ≠ .bootHalt → s.ltn.fw = false → exec (.spiTransaction b e) s = .next (setSpiNext 0x7E seq 3 [] u)) ∧
    (¬soon → s.dev.state ≠ .bootHalt → s.ltn.fw = true →
      (e ≠ 1024 ∨ b.length ≠ 128 ∨ fld b 0 1 ≠ 0x5A ∨ 112 < fld b 4 2 ∨ fld b 124 4 ≠ (crc32c (b.take 124)).toNat → exec (.spiTransaction b e) s = .next (wrong 1)) ∧
      (e = 1024 → b.length = 128 → fld b 0 1 = 0x5A → fld b 4 2 ≤ 112 → fld b 124 4 = (crc32c (b.take 124)).toNat →
        (fld b 1 1 = 0 ∨ 9 < fld b 1 1 → exec (.spiTransaction b e) s = .next (wrong 2)) ∧
        (1 ≤ fld b 1 1 → fld b 1 1 ≤ 9 → exec (.spiTransaction b e) s = .next (spiServe (fld b 1 1) seq (sub (b.drop 8) 0 (fld b 4 2)) u)))) ∧
    (misoNow s).take 2 = [0xA5, match s.ltn.spiNext with | some x => x.1 | none => if s.dev.state = .bootHalt then 0x7F else if s.ltn.fw = false then 0x7E else 1])

/-- The common checks (R331, R333) for every mailbox command; ATTACH (R306, R342, R376), DETACH (R380), TORN_READ (R305), IDENTIFY (R341), OBJ_QUERY and EVT_QUERY (R343), INVALIDATE (R325, R344), INBOUND_BIND and INBOUND_UNBIND (R297). The clause on an accepted manifest asks for a signature under the key that the device holds (R377), of which no instance can be written out. What the clauses take beyond the rules is the model's choice: log entries 2, 9, 33, 34, 35, 36, 57, 58. -/
def Obligations.MailboxAndSessions : Prop :=
  (∀ (man : Option Manifest) (at' : Bool) (desc ctx : List Byte) (img : Option PlanImage) (objs : List (Handle × List Byte)) (file : Option MsrFile) (staged : Option (List Byte)) (v w : W32),
    let d := Mailbox.dispatch
    let l := Mailbox.lantern
    ∀ c ∈ ([(.attach man at', d, 0x0101), (.detach, d, 0x0102), (.tornRead, d, 0x0103), (.identify, d, 0x0104), (.objQuery, d, 0x0201), (.invalidate, d, 0x0202), (.evtQuery, d, 0x0203),
        (.inboundBind desc, d, 0x0210), (.inboundUnbind, d, 0x0211), (.planLoad ctx img objs, d, 0x0301), (.planUnload, d, 0x0302), (.loopStart, d, 0x0303), (.loopStop, d, 0x0304), (.adaptEnter, d, 0x0305),
        (.adaptRun, d, 0x0306), (.adaptResult, d, 0x0307), (.adaptExit, d, 0x0308), (.clipRead, d, 0x0309), (.memStatus, d, 0x030A), (.coreStatus, d, 0x030B), (.streamStatus, d, 0x0401),
        (.recordOpen file, d, 0x0402), (.recordClose, d, 0x0403), (.intakeCounters, d, 0x0404), (.splitStatus, d, 0x0405), (.prismStatus, d, 0x0406), (.timeStatus, l, 0x0501), (.timeStep, l, 0x0502),
        (.timeConfig, l, 0x0503), (.trigSet, l, 0x0504), (.trigStop, l, 0x0505), (.energyBudget, d, 0x0601), (.energyLoop, d, 0x0602), (.energyStatus, d, 0x0603), (.energyThresh, d, 0x0604),
        (.propose staged, l, 0x0701), (.veto, l, 0x0702), (.guardStatus, l, 0x0703), (.recover, l, 0x0704), (.faultRead, l, 0x0705), (.spareSubstitute, l, 0x0706), (.retireClear, l, 0x0707),
        (.fwStage v w, l, 0x0801), (.fwActivate, l, 0x0802), (.fwStatus, l, 0x0803), (.bootMeasure, l, 0x0804), (.traceConfig, d, 0x0901), (.traceStart, d, 0x0902), (.traceStop, d, 0x0903),
        (.traceStatus, d, 0x0904)] : List (Instr × Mailbox × Nat)),
      ∀ s : State,
        ((getMb c.2.1 s).fifo = [] ∨ (getMb c.2.1 s).service = false ∨ (∃ k ks, (getMb c.2.1 s).fifo = k :: ks ∧ (readReqOf c.2.1 k s).op ≠ c.2.2) → exec c.1 s = .next s) ∧
        (∀ k ks st dt, (getMb c.2.1 s).service = true → (getMb c.2.1 s).fifo = k :: ks → (readReqOf c.2.1 k s).op = c.2.2 →
          judge c.2.1 (readReqOf c.2.1 k s) (taken c.2.1 ks s) = some (st, dt) → exec c.1 s = .next (declined c.2.1 (readReqOf c.2.1 k s) st dt [] (taken c.2.1 ks s)))) ∧
  (∀ (m home : Mailbox) (r : Req) (s : State) (min cf : Nat), cmdInfo r.op = some (home, min, cf) →
    (judge m r s = none ↔ home = m ∧ r.arglen ≤ 240 ∧ min ≤ r.arglen ∧ legalIn (legalOf r) (legalState s.dev) = true ∧
      (sessionFree s r = true ∨ (s.dev.session ≠ 0 ∧ r.session = s.dev.session.toNat)) ∧
      fld r.bytes 2 2 = (getK {} (getMb m s).slots r.slot).tag.toNat ∧ r.flags &&& (65535 - cf) = 0 ∧ zeros r.bytes 12 4 = true)) ∧
  (∀ (s : State) (k : Nat) (ks : List Nat) (r : Req),
    let u := taken .dispatch ks s
    let no (st dt : W16) : Host.Outcome State Fault Refusal := .next (declined .dispatch r st dt [] u)
    let yes (b : List Byte) (t : State) : Host.Outcome State Fault Refusal := .next (answered .dispatch k b t)
    (Asked .dispatch 0x0104 k ks r s → exec .identify s = yes ([0x42, 0x31, 0, 0] ++ leBytes 4 0x10000 ++ leBytes 8 s.dev.dspFwVer.toNat ++ leBytes 8 s.dev.ltnFwVer.toNat ++ leBytes 16 Config.serial.toNat
      ++ leBytes 1 s.dv.p ++ leBytes 1 s.dv.n ++ leBytes 1 (pairMode s.dv)) u) ∧
    (Asked .dispatch 0x0103 k ks r s →
      let n := r.arg 0 2
      let out := leBytes 2 (s.host.torn.take n).length ++ leBytes 2 s.host.torn.length ++ [0, 0, 0, 0] ++ (s.host.torn.take n).flatMap tornBytes
      (n < 1 ∨ 7 < n → exec .tornRead s = no 3 16) ∧
      (1 ≤ n → n ≤ 7 → exec .tornRead s = yes out (if r.flag 0 then { u with host := { s.host with torn := s.host.torn.drop n } } else u))) ∧
    (Asked .dispatch 0x0201 k ks r s →
      let h := r.arg 0 4
      let es := s.obj.trans.filter (fun t => t.obj.toNat = h)
      let torn := s.host.torn.filter (fun t => t.obj.toNat = h)
      (s.obj.objTab.count ≤ h → exec .objQuery s = no 5 16) ∧
      (h < s.obj.objTab.count → exec .objQuery s = yes (leBytes 2 es.length ++ leBytes 1 ((if es.any (fun t => t.pinned) then 1 else 0) + (if torn = [] then 0 else 2)) ++ [(0 : Byte)]
        ++ leBytes 4 (match torn.getLast? with | some t => t.gen.toNat | none => 0)) u)) ∧
    (Asked .dispatch 0x0202 k ks r s →
      let scope := r.arg 0 1
      let h := r.arg 4 4
      let t := BitVec.ofNat 32 (r.arg 8 4)
      let cur := loopFrame s
      let x (n : W32) : Inval := { id := s.obj.nextInval, scope, handle := h, target := n, event := BitVec.ofNat 16 (r.arg 12 2) }
      let put (n : W32) : State := { u with obj := { s.obj with nextInval := s.obj.nextInval + 1, invals := s.obj.invals ++ [x n] } }
      (4 < scope → exec .invalidate s = no 3 16) ∧
      (scope ≤ 4 → zeros r.args 1 3 = true →
        (scope ≠ 4 → scopeCount s scope ≤ h → exec .invalidate s = no 5 20) ∧
        (scope = 4 ∨ h < scopeCount s scope → scope ≠ 0 ∨ tornObj s h = false →
          (loopRuns s = true → t ≠ 0xFFFFFFFF → 0 < (t - cur).toNat → (t - cur).toNat ≤ 120 → exec .invalidate s = yes (leBytes 4 s.obj.nextInval.toNat ++ leBytes 4 t.toNat) (put t)) ∧
          (loopRuns s = true → t = 0xFFFFFFFF ∨ t = cur → exec .invalidate s = yes (leBytes 4 s.obj.nextInval.toNat ++ leBytes 4 (cur + 1).toNat) (put (cur + 1))) ∧
          (loopRuns s = true → t ≠ 0xFFFFFFFF → 120 < (t - cur).toNat → (t - cur).toNat < 2 ^ 31 → exec .invalidate s = no 3 24) ∧
          (loopRuns s = false → ∃ n, exec .invalidate s = yes (leBytes 4 s.obj.nextInval.toNat ++ leBytes 4 0xFFFFFFFF) (applyInval (x n) (put n)))))) ∧
    (Asked .dispatch 0x0203 k ks r s →
      let h := r.arg 0 2
      (evtValid s h = false → exec .evtQuery s = no 5 16) ∧
      (evtValid s h = true → s.obj.evts.find? (fun e => e.id = h) = none → exec .evtQuery s = yes (List.replicate 12 0) u) ∧
      (∀ e, evtValid s h = true → s.obj.evts.find? (fun e => e.id = h) = some e →
        exec .evtQuery s = yes (leBytes 1 (1 + if e.armed then 2 else 0) ++ [0, 0, 0] ++ leBytes 4 e.producer.toNat ++ leBytes 4 e.consumer.toNat) u)) ∧
    (∀ desc, Asked .dispatch 0x0210 k ks r s →
      let w := r.arg 0 1
      let nb := r.arg 1 1
      let size := r.arg 4 4
      let h := r.arg 8 4
      let st := r.arg 14 1
      (15 < w ∨ (getInb s w).bound = true → exec (.inboundBind desc) s = no 3 16) ∧
      (∀ d, w ≤ 15 → (getInb s w).bound = false → 1 ≤ nb → nb ≤ 4 → r.arg 2 2 = 0 → size ≠ 0 → nb * size ≤ 16383 → h < s.obj.objTab.count → tornObj s h = false →
        st = 255 ∨ (getStream s st).isSome = true → r.arg 15 1 ≤ 1 → descOf s [(BitVec.ofNat 18 h, desc)] (BitVec.ofNat 18 h) = some d → d.location ≠ 0 → nb * size * 4096 ≤ d.length →
        ∃ t, exec (.inboundBind desc) s = yes [] t ∧ (wfK ({} : InbWin) s.host.inb = true → getInb t w = { getInb s w with
          bound := true, nb, bufsz := size, obj := BitVec.ofNat 18 h, event := BitVec.ofNat 16 (r.arg 12 2), stream := BitVec.ofNat 8 st, filter := r.arg 15 1 = 1, rid := BitVec.ofNat 16 (r.arg 16 2),
          held := [], corrupt := [], unbinding := false }))) ∧
    (Asked .dispatch 0x0211 k ks r s →
      let w := r.arg 0 1
      let v := setInb w { getInb s w with unbinding := true } u
      (15 < w ∨ (getInb s w).bound = false → exec .inboundUnbind s = no 5 16) ∧
      (w ≤ 15 → (getInb s w).bound = true → loopRuns s = true → exec .inboundUnbind s = yes [] v) ∧
      (w ≤ 15 → (getInb s w).bound = true → loopRuns s = false → exec .inboundUnbind s = yes [] (inbBoundary v))) ∧
    (∀ man on, Asked .dispatch 0x0101 k ks r s → s.trace.jtag ≠ .extest → s.trace.jtag ≠ .clamp → s.trace.jtag ≠ .highz →
      let u' : State := { u with host := { s.host with atomicEn := on } }
      let h := r.arg 56 4
      (on = false → exec (.attach man on) s = .next (declined .dispatch r 3 0 [] u')) ∧
      (on = true → r.arg 0 2 ≠ 1 → exec (.attach man on) s = .next (declined .dispatch r 3 16 [] u')) ∧
      (on = true → r.arg 0 2 = 1 → zeros r.args 4 4 = true → badTable r = none →
        (r.flag 0 = true → ∃ t, exec (.attach man on) s = yes (attachResults (if s.dev.manifestLoaded then s.dv.digest else []) s.plans.length t) t ∧ t.dev = s.dev ∧ t.plans = s.plans ∧ t.loop = s.loop ∧
          t.host.attached = true ∧ t.host.held = [] ∧ t.host.replayed = false ∧ t.mbD.slots = [] ∧ t.mbL.slots = [] ∧ t.obj.objTab = { base := BitVec.ofNat 64 (r.arg 32 8), count := r.arg 40 4 }) ∧
        (r.flag 0 = false → h = 0xFFFFFFFF → ∃ t, exec (.attach man on) s = yes (attachResults [] 0 t) t ∧ t.dev.state = .attached ∧ t.dev.prior = none ∧ t.dev.manifestLoaded = false ∧
          t.dev.sessions = s.dev.sessions ++ [t.dev.session] ∧ t.host.attached = true ∧ t.energy.grant = none ∧ t.intake.streams = [] ∧
          t.obj.ctxTab = { base := BitVec.ofNat 64 (r.arg 8 8), count := r.arg 16 4 } ∧ t.obj.evtTab = { base := BitVec.ofNat 64 (r.arg 44 8), count := r.arg 52 4 }) ∧
        (r.flag 0 = false → h ≠ 0xFFFFFFFF → h < r.arg 40 4 → tornObj s h = false →
          (∀ m, man = some m → manifestOk m.bytes m.bytes.length = false → exec (.attach man on) s = .next (declined .dispatch r 12 1 [] u')) ∧
          (∀ m, man = some m → manifestOk m.bytes m.bytes.length = true → s.ltn.cfg.manifestDigest ≠ some (sub m.bytes 32 32) → exec (.attach man on) s = .next (declined .dispatch r 12 3 [] u')) ∧
          (∀ m, man = some m → manifestOk m.bytes m.bytes.length = true → s.ltn.cfg.manifestDigest = some (sub m.bytes 32 32) → manifestBad s m = true →
            exec (.attach man on) s = .next (declined .dispatch r 3 72 [] u')) ∧
          (∀ m, man = some m → manifestOk m.bytes m.bytes.length = true → s.ltn.cfg.manifestDigest = some (sub m.bytes 32 32) → manifestBad s m = false →
            ∃ t, exec (.attach man on) s = yes (attachResults (sub m.bytes 32 32) 0 t) t ∧ t.dev.state = .attached ∧ t.dev.manifestLoaded = true ∧ t.dev.sessions = s.dev.sessions ++ [t.dev.session] ∧
              t.dv.n = m.n ∧ t.dv.p = m.p ∧ t.dv.digest = sub m.bytes 32 32 ∧ (∀ d ∈ m.streams, ∃ x, getStream t d.id = some x ∧ x.decl = d) ∧ t.intake.flows = m.flows ∧ t.ltn.sioMask = m.sioMask)))) ∧
    (Asked .dispatch 0x0102 k ks r s → ∃ t, exec .detach s = yes (leBytes 4 s.plans.length) t ∧ t.dev.state = .ready ∧ t.dev.prior = none ∧ t.dev.session = 0 ∧ t.dev.manifestLoaded = false ∧ t.plans = [] ∧
      t.host.attached = false ∧ t.intake.streams = [] ∧ t.obj.retired = s.obj.retired + 1 ∧ (wfK ({} : InbWin) s.host.inb = true → ∀ w, (getInb t w).bound = false)))

/-- PLAN_LOAD and PLAN_UNLOAD (R345, R346, R357), LOOP_START (R276, R347), LOOP_STOP (R345, R365), ADAPT_ENTER, ADAPT_RUN, ADAPT_RESULT and ADAPT_EXIT (R345, R381, R382), CLIP_READ (R178), MEM_STATUS and CORE_STATUS (R345). The clause on a plan that passes every check asks for a signature under the key that the device holds (R357). What the clauses take beyond the rules is the model's choice: log entries 9, 34, 40, 43, 60. -/
def Obligations.PlansLoopsAndRecalibration : Prop :=
  ∀ (s : State) (k : Nat) (ks : List Nat) (r : Req),
    let u := taken .dispatch ks s
    let no (st dt : W16) : Host.Outcome State Fault Refusal := .next (declined .dispatch r st dt [] u)
    let yes (b : List Byte) (t : State) : Host.Outcome State Fault Refusal := .next (answered .dispatch k b t)
    (∀ ctx img objs, Asked .dispatch 0x0301 k ks r s →
      let n := r.arg 0 2
      let so := r.arg 4 4
      let slot := match s.obj.ctxs.find? (fun c => c.id = n) with | some c => some c | none => parseCtx n ctx
      (s.obj.ctxTab.count ≤ n → exec (.planLoad ctx img objs) s = no 5 16) ∧
      (n < s.obj.ctxTab.count → (planOf s n).isSome = true → exec (.planLoad ctx img objs) s = no 3 16) ∧
      (∀ c p d, n < s.obj.ctxTab.count → planOf s n = none → r.arg 2 2 = 0 → so = 0xFFFFFFFF ∨ (so < s.obj.objTab.count ∧ tornObj s so = false) → slot = some c → img = some p → descOf s objs c.plan = some d →
        (∀ e, planChecks u n d.length p objs = some e →
          exec (.planLoad ctx img objs) s = .next (declined .dispatch r e.status e.detail (leBytes 2 e.check ++ leBytes 1 e.rung ++ leBytes 1 e.sub_ ++ leBytes 4 e.offset) u)) ∧
        (planChecks u n d.length p objs = none → ∃ rest t l, exec (.planLoad ctx img objs) s = yes (planDigest p ++ rest) t ∧ t.plans = s.plans ++ [l] ∧ l.ctx = c.id ∧ l.digest = planDigest p ∧
          l.img = physImage u p ∧ t.dev.state = s.dev.state ∧
          (wfK ({} : Core) s.cores = true → ∀ x ∈ (physImage u p).cores, (getCore t x.site).run = .idle ∧ (getCore t x.site).retired = 0)))) ∧
    (Asked .dispatch 0x0302 k ks r s →
      (planOf s (r.arg 0 2) = none → exec .planUnload s = no 5 16) ∧
      (∀ l, planOf s (r.arg 0 2) = some l → ∃ t, exec .planUnload s = yes (leBytes 8 t.obj.retired.toNat) t ∧ t.plans = s.plans.filter (fun p => p.ctx ≠ l.ctx) ∧ t.obj.retired = s.obj.retired + 1 ∧ t.dev = s.dev)) ∧
    (Asked .dispatch 0x0303 k ks r s →
      let lead := r.arg 4 4
      let e := now s + BitVec.ofNat 64 (lead * 1000)
      (r.arg 2 2 ≠ 0 → exec .loopStart s = no 3 18) ∧
      (r.arg 2 2 = 0 → lead < 1000 ∨ 1000000 < lead → exec .loopStart s = no 3 20) ∧
      (r.arg 2 2 = 0 → 1000 ≤ lead → lead ≤ 1000000 →
        (planOf s (r.arg 0 2) = none → exec .loopStart s = no 5 16) ∧
        (∀ p, planOf s (r.arg 0 2) = some p → s.loop.starting ≠ none → exec .loopStart s = no 6 (Config.suggestedWait 0)) ∧
        (∀ p, planOf s (r.arg 0 2) = some p → s.loop.starting = none → s.dv.n < 2 → ∃ t, exec .loopStart s = .next (settle 8 .dispatch t) ∧ t = startLoop p k e false u ∧
          t.dev.state = .running ∧ t.dev.prior = none ∧ t.dev.stateSeq = s.dev.stateSeq + 1 ∧ t.loop.ctx = some p.ctx ∧ t.loop.epoch = e ∧ t.loop.period = p.period ∧ t.loop.next = 0 ∧ t.loop.started = 0 ∧ t.loop.cur = none ∧
          t.mir.pairs = pairsFor p ∧ t.fc.safeA = s.fc.safeA) ∧
        (∀ p, planOf s (r.arg 0 2) = some p → s.loop.starting = none → s.dev.state = .attached → 2 ≤ s.dv.n → s.dv.twin = true → s.dv.check = none → ∃ t, exec .loopStart s = .next (settle 8 .dispatch t) ∧
          t.loop = { s.loop with starting := some (p.ctx, e, now s + 100000000) } ∧ t.dev = s.dev ∧
          t.mbD.waiting = s.mbD.waiting ++ [{ slot := k, opcode := 0x0303, args := [p.ctx], limit := now s + 100000000 }]))) ∧
    (Asked .dispatch 0x0304 k ks r s →
      let v := r.arg 0 4
      let cur : W32 := if s.loop.started = 0 then 0xFFFFFFFF else s.loop.next - 1
      let target := if v = 0xFFFFFFFF then cur else BitVec.ofNat 32 v
      let w : State := { u with mbD := { u.mbD with waiting := s.mbD.waiting ++ [{ slot := k, opcode := 0x0304, args := [target.toNat], limit := 0 }] } }
      (torchOn s = true → s.ltn.guard.written = false → ∃ t, exec .loopStop s = yes (leBytes 4 (frameNo s).toNat) t ∧ t.dev.state = .safeHold ∧ t.fc.torch = false ∧ t.loop.cur = none) ∧
      (torchOn s = false → 2 ^ 31 ≤ (target - cur).toNat → exec .loopStop s = no 3 16) ∧
      (torchOn s = false → (target - cur).toNat < 2 ^ 31 →
        (target = cur → s.loop.cur = none → ∃ t, exec .loopStop s = .next (settle 8 .dispatch t) ∧ t = finishStop target w ∧ t.dev.state = .attached ∧ t.loop.ctx = none ∧ t.loop.stopAt = none ∧ t.fc.safeA = true) ∧
        (target ≠ cur ∨ s.loop.cur ≠ none → exec .loopStop s = .next (settle 8 .dispatch { w with loop := { s.loop with stopAt := some target } })))) ∧
    (Asked .dispatch 0x0305 k ks r s →
      (planOf s (r.arg 0 2) = none → exec .adaptEnter s = no 5 16) ∧
      (∀ c p, planOf s (r.arg 0 2) = some c → planOf s (r.arg 2 2) = some p →
        (c.flags.getLsbD 4 = false ∨ c.recalFor ≠ sub p.digest 0 32 → exec .adaptEnter s = no 3 16) ∧
        (c.flags.getLsbD 4 = true → c.recalFor = sub p.digest 0 32 →
          (parkedFresh s = false ∨ s.energy.coolInvalid = true → exec .adaptEnter s = no 6 1000) ∧
          (parkedFresh s = true → s.energy.coolInvalid = false → ∃ t, exec .adaptEnter s = yes [] t ∧ t.dev.state = .adapting ∧ t.dev.prior = none ∧ t.adapt.ctxs = some (c.ctx, p.ctx) ∧ t.fc.safeA = true ∧
            t.fab.gated.contains 4 = false)))) ∧
    (Asked .dispatch 0x0306 k ks r s →
      let scene := r.arg 0 1
      let valid := r.arg 1 1
      let e := r.arg 12 1
      (3 < scene → exec .adaptRun s = no 3 16) ∧
      (scene ≤ 3 → valid ≤ 3 → valid ≠ scene → getK [] s.intake.sets scene ≠ [] → getK [] s.intake.sets valid ≠ [] → 0 < setFrames s scene → setFrames s scene < 2 ^ 32 → 1 ≤ e → e ≤ 64 →
        (s.adapt.run ≠ none → exec .adaptRun s = no 6 (Config.suggestedWait 2)) ∧
        (s.adapt.run = none → ∃ t, exec .adaptRun s = yes (leBytes 4 s.adapt.nextId.toNat) t ∧ t.adapt.recs = [] ∧ t.adapt.nextId = s.adapt.nextId + 1 ∧ t.dev = s.dev ∧
          t.adapt.run = some { id := s.adapt.nextId, scene, valid, event := BitVec.ofNat 16 (r.arg 2 2), seed := BitVec.ofNat 64 (r.arg 4 8), epochs := e, order := epochOrder s scene (BitVec.ofNat 64 (r.arg 4 8)) 0 }))) ∧
    (Asked .dispatch 0x0307 k ks r s →
      (∀ a, s.adapt.run = some a → a.id.toNat = r.arg 0 4 → exec .adaptResult s = yes (List.replicate 48 0) u) ∧
      (∀ a, s.adapt.run = some a → a.id.toNat ≠ r.arg 0 4 → exec .adaptResult s = no 5 16) ∧
      (s.adapt.run = none → s.adapt.recs.find? (fun x => x.id.toNat = r.arg 0 4) = none → exec .adaptResult s = no 5 16) ∧
      (∀ x, s.adapt.run = none → s.adapt.recs.find? (fun x => x.id.toNat = r.arg 0 4) = some x → exec .adaptResult s = yes (leBytes 1 x.verdict ++ leBytes 1 x.first ++ leBytes 2 x.corrupt ++ sub x.candidate 0 32
        ++ leBytes 4 x.worstClip.toNat ++ leBytes 4 x.worstHead.toNat ++ leBytes 4 x.worstWino.toNat) u)) ∧
    (Asked .dispatch 0x0308 k ks r s → ∃ v t, exec .adaptExit s = yes (leBytes 1 v) t ∧ t.dev.state = .attached ∧ t.dev.prior = none ∧ t.adapt.run = none ∧ t.adapt.ctxs = none ∧ t.intake.sets = [] ∧
      (s.adapt.run ≠ none → v = 3) ∧ (∀ x, s.adapt.run = none → s.adapt.recs.getLast? = some x → v = x.verdict)) ∧
    (Asked .dispatch 0x0309 k ks r s →
      let first := r.arg 2 2
      let count := r.arg 4 1
      let n := servedBy s (BitVec.ofNat 10 (r.arg 0 2))
      (isLogical (r.arg 0 2) = false → exec .clipRead s = no 3 16) ∧
      (isLogical (r.arg 0 2) = true → 511 < first → exec .clipRead s = no 3 18) ∧
      (isLogical (r.arg 0 2) = true → first ≤ 511 → count = 0 ∨ 28 < count ∨ 512 < first + count → exec .clipRead s = no 3 20) ∧
      (isLogical (r.arg 0 2) = true → first ≤ 511 → 1 ≤ count → count ≤ 28 → first + count ≤ 512 →
        (r.flag 1 = true → exec .clipRead s = yes (clipResults n first count s) u) ∧
        (r.flag 1 = false → loopRuns s = false → exec .clipRead s = yes (clipResults n first count (snapClips n (r.flag 0) s)) (snapClips n (r.flag 0) u)) ∧
        (r.flag 1 = false → loopRuns s = true → exec .clipRead s = .next (settle 8 .dispatch { u with mbD := { u.mbD with
          waiting := s.mbD.waiting ++ [{ slot := k, opcode := 0x0309, args := [n.toNat, first, count, if r.flag 0 then 1 else 0], limit := 0 }] } })))) ∧
    (Asked .dispatch 0x030A k ks r s → ∃ b t, exec .memStatus s = yes b t ∧ b.take 4 = leBytes 4 (plannable s) ∧
      (b.drop 12).take 16 = (List.range 4).flatMap (fun c => leBytes 2 (getK {} s.mem.chan c).ce.val.toNat ++ leBytes 2 (getK {} s.mem.chan c).ue.val.toNat) ∧
      (r.flag 0 = false → t = u) ∧ (r.flag 0 = true → t = { u with mem := { s.mem with bytes := [], overrun := [], chan := t.mem.chan } } ∧
        (wfK ({} : Channel) s.mem.chan = true → ∀ c < 4, (getK {} t.mem.chan c).ce = {} ∧ (getK {} t.mem.chan c).ue = {}))) ∧
    (Asked .dispatch 0x030B k ks r s →
      let n := servedBy s (BitVec.ofNat 10 (r.arg 0 2))
      let c := getCore s n
      (isLogical (r.arg 0 2) = false → exec .coreStatus s = no 3 16) ∧
      (isLogical (r.arg 0 2) = true → exec .coreStatus s = yes (leBytes 1 c.run.code ++ [0] ++ leBytes 2 n.toNat ++ leBytes 4 c.status.toNat ++ faultRecBytes c) u))

/-- The commands of the sensors and intake, time, and energy groups (R348, R349, R351) and the rules they own. What the clauses take beyond the rules is the model's choice: log entries 2, 52, 59. -/
def Obligations.SensorTimeEnergyCommands : Prop :=
  ∀ (s : State) (k : Nat) (ks : List Nat) (r : Req),
    let u := taken .dispatch ks s
    let ul := taken .lantern ks s
    let no (st dt : W16) : Host.Outcome State Fault Refusal := .next (declined .dispatch r st dt [] u)
    let nol (st dt : W16) : Host.Outcome State Fault Refusal := .next (declined .lantern r st dt [] ul)
    let yes (b : List Byte) (t : State) : Host.Outcome State Fault Refusal := .next (answered .dispatch k b t)
    let yesl (b : List Byte) (t : State) : Host.Outcome State Fault Refusal := .next (answered .lantern k b t)
    (Asked .dispatch 0x0401 k ks r s →
      let id := r.arg 0 1
      (getStream s id = none → exec .streamStatus s = no 5 16) ∧
      (∀ x, getStream s id = some x → ∃ b t, exec .streamStatus s = yes b t ∧
        b.take 16 = leBytes 1 (flagNum x.flag) ++ leBytes 1 (kindNum x.decl.kind) ++ [0, 0] ++ leBytes 4 x.lastFrame.toNat ++ leBytes 8 x.lastLtc.toNat ∧ (b.drop 16).take 4 = leBytes 4 x.skip.val.toNat ∧
        (r.flag 0 = false → t = u) ∧
        (r.flag 0 = true → x.decl.id = id → wfK none s.intake.streams = true →
          getStream t id = some { x with skip := {}, short := {}, ovf := {}, gap := {}, preClip := {}, focusDrop := {} } ∧ t.dev = s.dev))) ∧
    (∀ file, Asked .dispatch 0x0402 k ks r s →
      let set := r.arg 0 1
      let h := r.arg 4 4
      let files := getK [] s.intake.sets set
      (3 < set → exec (.recordOpen file) s = no 3 16) ∧
      (set ≤ 3 → zeros r.args 1 3 = true → h ≠ 0xFFFFFFFF → s.obj.objTab.count ≤ h → exec (.recordOpen file) s = no 5 20) ∧
      (∀ f, set ≤ 3 → zeros r.args 1 3 = true → h = 0xFFFFFFFF ∧ r.arg 8 8 + r.arg 16 8 ≤ dramU s ∨ h ≠ 0xFFFFFFFF ∧ h < s.obj.objTab.count ∧ tornObj s h = false → 64 ≤ r.arg 16 8 → files.length < 64 → file = some f →
        (msrHeaderOk f.header = false → exec (.recordOpen file) s = no 3 20) ∧
        (msrHeaderOk f.header = true → (crc32c (f.header.take 60)).toNat ≠ fld f.header 60 4 → exec (.recordOpen file) s = no 12 1) ∧
        (msrHeaderOk f.header = true → (crc32c (f.header.take 60)).toNat = fld f.header 60 4 →
          exec (.recordOpen file) s = yes (leBytes 4 f.sceneFrames ++ leBytes 1 (if f.indexValid then 1 else 0) ++ [0, 0, 0] ++ leBytes 4 files.length)
            { u with intake := { s.intake with sets := putK [] s.intake.sets set (files ++ [{ frames := f.sceneFrames, indexed := f.indexValid }]) } }))) ∧
    (Asked .dispatch 0x0403 k ks r s →
      let set := r.arg 0 1
      (3 < set → exec .recordClose s = no 3 16) ∧
      (set ≤ 3 → getK [] s.intake.sets set = [] → exec .recordClose s = no 5 16) ∧
      (∀ a, set ≤ 3 → getK [] s.intake.sets set ≠ [] → s.adapt.run = some a → a.scene = set ∨ a.valid = set → exec .recordClose s = no 6 (Config.suggestedWait 4)) ∧
      (set ≤ 3 → getK [] s.intake.sets set ≠ [] → s.adapt.run = none → exec .recordClose s = yes [] { u with intake := { s.intake with sets := putK [] s.intake.sets set [] } })) ∧
    (Asked .dispatch 0x0404 k ks r s → ∃ b t, exec .intakeCounters s = yes b t ∧ b.take 4 = leBytes 4 s.intake.undecl.val.toNat ∧ (r.flag 0 = false → t = u) ∧
      (r.flag 0 = true → t = { u with intake := { s.intake with undecl := {}, macs := s.intake.macs.map (fun e => (e.1, { e.2 with fcs := {}, len := {}, proto := {}, csum := {} })) } })) ∧
    (Asked .dispatch 0x0405 k ks r s → exec .splitStatus s = yes (leBytes 1 s.intake.moved.length ++ sub (s.intake.moved.flatMap (fun k => leBytes 1 k)) 0 8 ++ [0, 0, 0] ++ leBytes 4 s.intake.splitFrame.toNat) u) ∧
    (Asked .dispatch 0x0406 k ks r s → exec .prismStatus s = yes (leBytes 2 s.intake.util ++ leBytes 2 (s.intake.utilHist.foldl max 0) ++ leBytes 4 s.intake.above ++ leBytes 4 s.intake.below) u) ∧
    (Asked .lantern 0x0501 k ks r s → ∃ t, exec .timeStatus s = yesl (timeBlock s ++ supprBytes s ++ leBytes 2 s.time.domainCnt.val.toNat) t ∧ (timeBlock s).take 8 = leBytes 8 (now s).toNat ∧ (r.flag 0 = false → t = ul) ∧
      (r.flag 0 = true → t = { ul with time := { s.time with ports := t.time.ports, trig := t.time.trig, domainCnt := {} } } ∧
        (wfK ({} : Trig) s.time.trig = true → ∀ n < 12, (getTrig t n).suppr = {}) ∧ (wfK ({} : PtpPort) s.time.ports = true → ∀ n < 4, (getPtp t n).drop = {}))) ∧
    (Asked .lantern 0x0502 k ks r s →
      let t := r.arg 24 8
      let n := (now s).toNat
      let wait (args : List Nat) : Host.Outcome State Fault Refusal := .next (settle 8 .lantern { ul with mbL := { ul.mbL with
        waiting := s.mbL.waiting ++ [{ slot := k, opcode := 0x0502, args, limit := BitVec.ofNat 64 t }] } })
      (1 < r.arg 0 1 → exec .timeStep s = nol 3 16) ∧
      (r.arg 0 1 ≤ 1 → zeros r.args 1 7 = true →
        (s.mbL.waiting.any (fun w => w.opcode = 0x0502) = true → exec .timeStep s = nol 6 (Config.suggestedWait 3)) ∧
        (s.mbL.waiting.any (fun w => w.opcode = 0x0502) = false →
          (r.arg 0 1 = 0 → masterQualified s = true → exec .timeStep s = wait [0]) ∧ (r.arg 0 1 = 0 → masterQualified s = false → exec .timeStep s = nol 5 16) ∧
          (r.arg 0 1 = 1 → zeros r.args 14 2 = true → r.arg 16 4 < 1000000000 → t < n + 100000 ∨ n + 1000000000 < t → exec .timeStep s = nol 3 40) ∧
          (r.arg 0 1 = 1 → zeros r.args 14 2 = true → r.arg 16 4 < 1000000000 → n + 100000 ≤ t → t ≤ n + 1000000000 → exec .timeStep s = wait [1, r.arg 8 6, r.arg 16 4, t])))) ∧
    (Asked .lantern 0x0503 k ks r s →
      let lim := r.arg 0 2
      (lim < 50 ∨ 500 < lim → exec .timeConfig s = nol 3 16) ∧ (50 ≤ lim → lim ≤ 500 → 15 < r.arg 2 1 → exec .timeConfig s = nol 3 18) ∧
      (50 ≤ lim → lim ≤ 500 → r.arg 2 1 ≤ 15 → r.arg 3 1 = 0 → ∃ t, exec .timeConfig s = yesl [] t ∧ t = { ul with time := { s.time with slewLimit := lim, ports := t.time.ports } } ∧
        (wfK ({} : PtpPort) s.time.ports = true → ∀ n < 4,
          getPtp t n = if r.arg 2 1 / 2 ^ n % 2 = 1 then { getPtp s n with rxLat := r.arg (4 + 4 * n) 2, txLat := r.arg (6 + 4 * n) 2 } else getPtp s n))) ∧
    (Asked .lantern 0x0504 k ks r s →
      let n := r.arg 0 1
      let x := getTrig s n
      let p := r.arg 16 8
      let w := r.arg 24 4
      let start := r.arg 4 6 * 1000000000 + r.arg 12 4
      (11 < n ∨ x.declared = false → exec .trigSet s = nol 3 16) ∧
      (n ≤ 11 → x.declared = true → x.heldInactive = true → s.dv.takeover.contains n = false → exec .trigSet s = nol 3 16) ∧
      (n ≤ 11 → x.declared = true → x.heldInactive = false ∨ s.dv.takeover.contains n = true → r.arg 1 1 ≤ 1 → r.arg 2 2 = 0 → r.arg 10 2 = 0 → r.arg 12 4 < 1000000000 →
        (p < 1000000 * 2 ^ 32 ∨ 2000000000 * 2 ^ 32 < p → exec .trigSet s = nol 3 32) ∧
        (1000000 * 2 ^ 32 ≤ p → p ≤ 2000000000 * 2 ^ 32 → w < 1000 ∨ p < 2 * w * 2 ^ 32 ∨ w % 2 = 1 → exec .trigSet s = nol 3 40) ∧
        (1000000 * 2 ^ 32 ≤ p → p ≤ 2000000000 * 2 ^ 32 → 1000 ≤ w → 2 * w * 2 ^ 32 ≤ p → w % 2 = 0 → ∃ i, exec .trigSet s = yesl (leBytes 8 i)
            (setTrig n { x with series := some { start, period := p, width := w, activeLow := r.arg 1 1 = 1, next := i } } ul) ∧
          (ptcNs s.time < (start : Int) → i = 0) ∧ ((start : Int) ≤ ptcNs s.time → ptcNs s.time < (start : Int) + (i * p / 4294967296 : Nat))))) ∧
    (Asked .lantern 0x0505 k ks r s →
      let n := r.arg 0 1
      let x := getTrig s n
      (11 < n → exec .trigStop s = nol 3 16) ∧ (n ≤ 11 → x.series = none → exec .trigStop s = nol 5 16) ∧
      (∀ q, n ≤ 11 → x.series = some q → exec .trigStop s = yesl (leBytes 8 (match x.lastEdge with | some t => t.toNat | none => 0)) (setTrig n { x with series := some { q with stopping := true } } ul))) ∧
    (Asked .dispatch 0x0601 k ks r s →
      let w := r.arg 0 4
      let e := r.arg 8 8
      let n : W32 := if s.loop.ctx = none then 0 else if s.energy.nextRung = none then s.loop.next else s.loop.next + 1
      (w < 1 ∨ 1200 < w → exec .energyBudget s = no 3 16) ∧ (1 ≤ w → w ≤ 1200 → r.arg 4 4 ≠ 0 → exec .energyBudget s = no 3 20) ∧
      (1 ≤ w → w ≤ 1200 → r.arg 4 4 = 0 → e ≠ 0 → (∃ x ∈ floorEnergies s, e < w * x) → exec .energyBudget s = no 3 24) ∧
      (1 ≤ w → w ≤ 1200 → r.arg 4 4 = 0 → e = 0 ∨ (∀ x ∈ floorEnergies s, w * x ≤ e) → exec .energyBudget s = yes (leBytes 4 n.toNat) { u with energy := { s.energy with newGrant := some (w, e, n) } })) ∧
    (Asked .dispatch 0x0602 k ks r s → exec .energyLoop s = yes (leBytes 8 (now s + 1000000000).toNat) { u with energy := { s.energy with heat := some (r.arg 0 4, now s + 1000000000) } }) ∧
    (Asked .dispatch 0x0603 k ks r s →
      (loopRuns s = true → exec .energyStatus s = .next (settle 8 .dispatch { u with mbD := { u.mbD with waiting := s.mbD.waiting ++ [{ slot := k, opcode := 0x0603, args := [if r.flag 0 then 1 else 0], limit := 0 }] } })) ∧
      (loopRuns s = false → exec .energyStatus s = yes (ledgerBytes s)
        (if r.flag 0 then { u with energy := { s.energy with overdraft := {}, ceilingCnt := {}, writeoff := {}, rungFrames := [] } } else u))) ∧
    (Asked .dispatch 0x0604 k ks r s →
      ((∃ n < 5, r.arg (2 * n) 2 ≠ 0xFFFF ∧ evtValid s (r.arg (2 * n) 2) = false) → ∃ n < 5, exec .energyThresh s = no 5 (BitVec.ofNat 16 (16 + 2 * n)) ∧ evtValid s (r.arg (2 * n) 2) = false) ∧
      ((∀ n < 5, r.arg (2 * n) 2 = 0xFFFF ∨ evtValid s (r.arg (2 * n) 2) = true) → zeros r.args 11 5 = true → ∃ t, exec .energyThresh s = yes [] t ∧
        t = { u with energy := { s.energy with events := t.energy.events, lowFrac := r.arg 10 1, thresh := t.energy.thresh, crossed := [] } } ∧
        (∀ n < 5, t.energy.events[n]? = some (BitVec.ofNat 16 (r.arg (2 * n) 2))) ∧ (∀ n < 16, getK 0 t.energy.thresh n = BitVec.ofNat 64 (r.arg (16 + 8 * n) 8))))

/-- The commands of the guard and fault group (R352, R353), the firmware group (R354) and the trace group (R355). What the clauses take beyond the rules is the model's choice: log entries 2, 15, 30, 37. -/
def Obligations.GuardFirmwareTraceCommands : Prop :=
  (∀ (s : State) (r : Req) (kind : Byte) (dg plan : List Byte) (c : GChange),
    (∀ st d, checkChange s c = some (st, d) → newProposal r kind dg plan c s = refuse .lantern r st d [] s) ∧
    (checkChange s c = none → ∃ t, newProposal r kind dg plan c s =
        ok .lantern r (leBytes 4 t.ltn.guard.id.toNat ++ leBytes 4 t.ltn.guard.challenge.toNat ++ leBytes 8 (now s + 500000000).toNat ++ sub dg 0 32) t ∧
      t.ltn = { s.ltn with guard := t.ltn.guard } ∧ t.ltn.guard.phase = .awaiting ∧ t.ltn.guard.kind = kind ∧ t.ltn.guard.digest = dg ∧ t.ltn.guard.planDigest = plan ∧ t.ltn.guard.args = r.argBytes 0 16 ∧
      t.ltn.guard.deadline = now s + 500000000 ∧ t.ltn.guard.drawn = s.ltn.guard.drawn + 1 ∧ t.ltn.guard.change = c ∧ t.ltn.guard.written = false ∧ t.ltn.guard.failCnt = s.ltn.guard.failCnt ∧
      t.ltn.guard.id ≠ 0 ∧ t.ltn.guard.challenge ≠ 0 ∧ (s.ltn.guard.id + 1 ≠ 0 → t.ltn.guard.id = s.ltn.guard.id + 1) ∧ t.dev = s.dev)) ∧
  (∀ s : State, proposeBlocked s = none ↔ s.ltn.guard.phase ≠ .awaiting ∧ s.ltn.guard.phase ≠ .endorsed ∧ ∃ t, s.ltn.spiLast = some t ∧ (now s - t).toNat ≤ 100000000) ∧
  (∀ (s : State) (k : Nat) (ks : List Nat) (r : Req),
    let u := taken .dispatch ks s
    let ul := taken .lantern ks s
    let no (st dt : W16) : Host.Outcome State Fault Refusal := .next (declined .dispatch r st dt [] u)
    let nol (st dt : W16) : Host.Outcome State Fault Refusal := .next (declined .lantern r st dt [] ul)
    let yes (b : List Byte) (t : State) : Host.Outcome State Fault Refusal := .next (answered .dispatch k b t)
    let yesl (b : List Byte) (t : State) : Host.Outcome State Fault Refusal := .next (answered .lantern k b t)
    let new (kind : Byte) (dg plan : List Byte) (c : GChange) (t : State) : Host.Outcome State Fault Refusal := .next (settle 8 .lantern (newProposal r kind dg plan c t))
    (∀ staged, Asked .lantern 0x0701 k ks r s →
      let kind := r.arg 0 1
      let given := r.argBytes 16 32
      let plan := r.argBytes 48 32
      (∀ st d, proposeBlocked s = some (st, d) → exec (.propose staged) s = nol st d) ∧
      (proposeBlocked s = none → kind = 0 ∨ 6 < kind → exec (.propose staged) s = nol 3 16) ∧
      (proposeBlocked s = none → zeros r.args 1 3 = true →
        (kind = 3 → exec (.propose staged) s = new 3 given plan (.scaleCommit plan given) ul) ∧
        (∀ x, kind = 4 → scaleRec s.ltn.cfg plan = some x → x.previous ≠ [] → x.previous = given → exec (.propose staged) s = new 4 given plan (.scaleRevert plan given) ul) ∧
        (kind = 4 → scaleRec s.ltn.cfg plan = none → exec (.propose staged) s = nol 5 64) ∧
        (kind = 5 ∨ kind = 6 → zeros r.args 48 32 = true →
          (sha256 (r.argBytes 0 16) ≠ given → exec (.propose staged) s = nol 3 32) ∧
          (sha256 (r.argBytes 0 16) = given → exec (.propose staged) s = new (BitVec.ofNat 8 kind) given [] (if kind = 5 then .ceiling (r.arg 8 8) else .debugUnlock (r.arg 8 8)) ul)) ∧
        (∀ b, kind = 1 ∨ kind = 2 → r.arg 4 4 < s.obj.objTab.count → tornObj s (r.arg 4 4) = false → zeros r.args 48 32 = true → staged = some b → b.length ≤ (if kind = 1 then 262144 else 1048576) →
          (sha256 b ≠ given → exec (.propose staged) s = .next (declined .lantern r 3 32 [] (stageCopy b ul))) ∧
          (sha256 b = given → kind = 1 → exec (.propose staged) s = new 1 given [] (.config b) (stageCopy b ul)) ∧
          (sha256 b = given → kind = 2 → manifestOk b b.length = true → exec (.propose staged) s = new 2 given [] (.manifest (sub b 32 32)) (stageCopy b ul)) ∧
          (sha256 b = given → kind = 2 → manifestOk b b.length = false → exec (.propose staged) s = .next (declined .lantern r 12 1 [] (stageCopy b ul)))))) ∧
    (Asked .lantern 0x0706 k ks r s →
      (∀ st d, proposeBlocked s = some (st, d) → exec .spareSubstitute s = nol st d) ∧
      (proposeBlocked s = none → 3 < r.arg 0 1 → exec .spareSubstitute s = nol 3 16) ∧
      (proposeBlocked s = none → r.arg 0 1 ≤ 3 → r.arg 1 1 ≤ 6 → r.arg 2 1 ≤ 5 → r.arg 3 1 ≤ 1 → r.arg 4 1 ≤ 1 → zeros r.args 5 11 = true → exec .spareSubstitute s = new 7 (sha256 (r.argBytes 0 16)) []
        (.spare { gallery := BitVec.ofNat 2 (r.arg 0 1), column := BitVec.ofNat 3 (r.arg 1 1), row := BitVec.ofNat 3 (r.arg 2 1), spare := r.arg 3 1 } (r.arg 4 1 = 1)) ul)) ∧
    (Asked .lantern 0x0707 k ks r s →
      (∀ st d, proposeBlocked s = some (st, d) → exec .retireClear s = nol st d) ∧
      (proposeBlocked s = none → zeros r.args 1 15 = true → exec .retireClear s = new 8 (sha256 (r.argBytes 0 16)) [] (.retireClear (r.arg 0 1)) ul)) ∧
    (Asked .lantern 0x0702 k ks r s →
      let id := BitVec.ofNat 32 (r.arg 0 4)
      let g := s.ltn.guard
      (id ≠ g.id ∨ id = 0 ∨ (g.phase ≠ .awaiting ∧ g.phase ≠ .endorsed) → exec .veto s = nol 5 16) ∧
      (id = g.id → id ≠ 0 → g.phase = .awaiting ∨ g.phase = .endorsed → ∃ t, exec .veto s = yesl [] t ∧ t.ltn.guard.phase = .vetoed ∧ t.ltn.guard.id = g.id ∧ t.dev = s.dev)) ∧
    (Asked .lantern 0x0703 k ks r s → exec .guardStatus s = yesl (leBytes 4 s.ltn.guard.id.toNat ++ leBytes 1 s.ltn.guard.phase.num ++ [s.ltn.guard.kind, 0, 0] ++ sub s.ltn.guard.digest 0 32
      ++ leBytes 8 s.ltn.guard.deadline.toNat) ul) ∧
    (Asked .lantern 0x0704 k ks r s →
      (∀ e, heldCause s = some e → exec .recover s = nol 6 e.source.code) ∧
      (heldCause s = none → ∃ t, exec .recover s = yesl [devByte t.dev] t ∧ t.dev.state = .attached ∧ t.dev.prior = none ∧ t.dev.stateSeq = s.dev.stateSeq + 1 ∧ t.fc.c3 = false ∧ t.fc.c3List = [] ∧ t.fc.torch = false ∧
        t.fc.torchReason = .none ∧ t.fc.safeA = true ∧ t.fc.faultOut = .low ∧ t.loop.cur = none ∧ t.loop.reload = true)) ∧
    (Asked .lantern 0x0705 k ks r s →
      let first := r.arg 0 2
      let n := r.arg 2 1
      let es := (s.fc.active.drop first).take n
      (n = 0 ∨ 6 < n → exec .faultRead s = nol 3 18) ∧
      (1 ≤ n → n ≤ 6 → ∃ t, exec .faultRead s = yesl (leBytes 1 es.length ++ List.replicate 7 0 ++ es.flatMap activeBytes) t ∧ t = { ul with fc := { s.fc with active := t.fc.active } } ∧
        (∀ i : Nat, t.fc.active[i]? = (s.fc.active[i]?).map (fun e => if r.flag 0 = true ∧ first ≤ i ∧ i < first + n then { e with cnt := {} } else e)))) ∧
    (∀ v w, Asked .lantern 0x0801 k ks r s →
      let b : FwBody := if r.arg 0 1 = 1 then .lantern else .dispatch
      let off := r.arg 4 8
      let len := r.arg 12 4
      let limit := if r.arg 0 1 = 1 then 393216 else 4194304
      (1 < r.arg 0 1 → exec (.fwStage v w) s = nol 3 16) ∧
      (r.arg 0 1 ≤ 1 → zeros r.args 1 3 = true →
        (dramU s < off + len → exec (.fwStage v w) s = nol 3 20) ∧ (off + len ≤ dramU s → len < 256 ∨ limit < len → exec (.fwStage v w) s = nol 3 28) ∧
        (off + len ≤ dramU s → 256 ≤ len → len ≤ limit → staging s = true → exec (.fwStage v w) s = nol 6 (Config.suggestedWait 5)) ∧
        (off + len ≤ dramU s → 256 ≤ len → len ≤ limit → staging s = false → ∃ t, exec (.fwStage v w) s = yesl (leBytes 4 v.toNat ++ leBytes 4 w.toNat) t ∧ t.ltn.stage = .verifying ∧ t.ltn.stageImg = some (b, off, len) ∧
          t.ltn.stageFail = 0 ∧ t.dev = s.dev ∧ t.ltn.fwLantern = (if b = .lantern then { s.ltn.fwLantern with staged := false } else s.ltn.fwLantern) ∧
          t.ltn.fwDispatch = (if b = .dispatch then { s.ltn.fwDispatch with staged := false } else s.ltn.fwDispatch)))) ∧
    (Asked .lantern 0x0802 k ks r s →
      let flip (f : FwSlots) : FwSlots := { f with activeB := !f.activeB, staged := false }
      (1 < r.arg 0 1 → exec .fwActivate s = nol 3 16) ∧
      (r.arg 0 1 = 0 → s.ltn.fwDispatch.staged = false → exec .fwActivate s = nol 3 16) ∧ (r.arg 0 1 = 1 → s.ltn.fwLantern.staged = false → exec .fwActivate s = nol 3 16) ∧
      (r.arg 0 1 = 0 → s.ltn.fwDispatch.staged = true → ∃ t, exec .fwActivate s = yesl [if s.ltn.fwDispatch.activeB then 0 else 1] t ∧ t.ltn.fwDispatch = flip s.ltn.fwDispatch ∧ t.ltn.fwLantern = s.ltn.fwLantern ∧
        t.ltn.bootSeq = s.ltn.bootSeq + 1 ∧ t.dev.dispatchUp = false ∧ t.mbD.service = false ∧ t.ltn.restart = some (now s)) ∧
      (r.arg 0 1 = 1 → s.ltn.fwLantern.staged = true → ∃ t, exec .fwActivate s = yesl [if s.ltn.fwLantern.activeB then 0 else 1] t ∧ t.ltn.fwLantern = flip s.ltn.fwLantern ∧ t.ltn.fwDispatch = s.ltn.fwDispatch ∧
        t.ltn.bootSeq = s.ltn.bootSeq + 1 ∧ t.dev = s.dev ∧ t.ltn.restart = s.ltn.restart)) ∧
    (Asked .lantern 0x0803 k ks r s → ∃ b, exec .fwStatus s = yesl b { ul with free := s.free + 1 } ∧ b.take 1 = leBytes 1 (stageNum s.ltn.stage) ∧ (b.drop 2).take 2 = leBytes 2 s.ltn.stageFail.toNat ∧ (b.drop 36).take 1 = leBytes 1 s.ltn.otpSteps ∧
      (staging s = false → s.ltn.stage = .done → (b.drop 1).take 1 = [100])) ∧
    (Asked .lantern 0x0804 k ks r s →
      let es := (((0 : W32), s.ltn.chain) :: s.ltn.meas).drop (r.arg 0 1) |>.take 6
      exec .bootMeasure s = yesl (leBytes 1 es.length ++ [0, 0, 0] ++ es.flatMap (fun e => leBytes 4 e.1.toNat ++ sub e.2 0 32)) ul) ∧
    (Asked .dispatch 0x0901 k ks r s →
      let mask := r.arg 20 1
      let dst := r.arg 21 1
      let off := r.arg 24 8
      let size := r.arg 32 4
      (s.trace.running = true → exec .traceConfig s = no 6 (Config.suggestedWait 6)) ∧
      (s.trace.running = false → 128 ≤ mask → exec .traceConfig s = no 3 36) ∧
      (s.trace.running = false → mask < 128 →
        (64 ≤ mask → s.ltn.cfg.lock.getLsbD 1 = true → exec .traceConfig s = no 8 6) ∧
        (mask < 64 ∨ s.ltn.cfg.lock.getLsbD 1 = false →
          (1 < dst → exec .traceConfig s = no 3 37) ∧
          (∀ n, zeros r.args 22 2 = true → dst = 0 ∧ n = 262144 ∨ dst = 1 ∧ n = size ∧ off % 4096 = 0 ∧ off + size ≤ dramU s ∧ size % 4096 = 0 ∧ 65536 ≤ size ∧ size ≤ 1073741824 →
            ∃ t, exec .traceConfig s = yes [] t ∧ t = { u with trace := { s.trace with enabled := t.trace.enabled, mask := BitVec.ofNat 8 mask, dram := dst = 1, off := if dst = 1 then off else 0, size := n, stopFull := r.flag 0 } } ∧
              ∀ i < 160, ∀ x, logicalCores[i]? = some x → (x ∈ t.trace.enabled ↔ (r.arg 0 20).testBit i = true))))) ∧
    (Asked .dispatch 0x0902 k ks r s →
      let t : State := { u with trace := { s.trace with running := true, full := false, bytes := {}, records := {}, gaps := {}, drops := {}, aon := none } }
      (s.trace.aon = none → exec .traceStart s = yes (leBytes 8 (now s).toNat) t) ∧
      (∀ a b, s.trace.aon = some (a, b) → exec .traceStart s = yes (leBytes 8 (now s).toNat) (traceFunnel 0x10 0xFF (leBytes 8 a.toNat ++ leBytes 8 b.toNat) { t with trace := { t.trace with gaps := ({} : Stick 32).inc } }))) ∧
    (Asked .dispatch 0x0903 k ks r s → exec .traceStop s = yes (leBytes 8 (now s).toNat) { u with trace := { s.trace with running := false } }) ∧
    (Asked .dispatch 0x0904 k ks r s → exec .traceStatus s = yes (leBytes 8 s.trace.bytes.val.toNat ++ leBytes 4 s.trace.records.val.toNat ++ leBytes 4 s.trace.gaps.val.toNat ++ leBytes 4 s.trace.drops.val.toNat) u))
end

