-- ==== Sys2Proof/Laws/Map.lean ====
section
/-! SUPPORT. Laws of sparse tables and byte memory: the canonical form is kept by every operation that writes, a read after a
write gives what was written, and every other place reads as before. -/

namespace Sys2Proof.Machine

variable {α : Type} [DecidableEq α]

/-! Canonical form. -/

theorem wfFrom_mono (d : α) (m : SMap α) (a b : Nat) (h : wfFrom d b m = true) (k : a ≤ b) : wfFrom d a m = true := by
  cases m with
  | nil => rfl
  | cons e m =>
    simp only [wfFrom, Bool.and_eq_true, decide_eq_true_eq] at h ⊢
    exact ⟨⟨by omega, h.1.2⟩, h.2⟩

theorem wfFrom_putK (d : α) (k : Nat) (v : α) (m : SMap α) (lo : Nat) (hm : wfFrom d lo m = true) (hk : lo ≤ k) :
    wfFrom d lo (putK d m k v) = true := by
  induction m generalizing lo with
  | nil =>
    simp only [putK]
    split <;> simp_all [wfFrom]
  | cons e m ih =>
    simp only [wfFrom, Bool.and_eq_true, decide_eq_true_eq] at hm
    obtain ⟨⟨h1, h2⟩, h3⟩ := hm
    simp only [putK]
    split
    · split
      · simp [wfFrom, h1, h2, h3]
      · rename_i h4 h5
        simp [wfFrom, hk, h5, Nat.succ_le_of_lt h4, h2, h3]
    · split
      · rename_i h4 h5
        subst h5
        split
        · exact wfFrom_mono d m _ _ h3 (by omega)
        · rename_i h6
          simp [wfFrom, h1, h6, h3]
      · rename_i h4 h5
        simp [wfFrom, h1, h2, ih _ h3 (by omega)]

theorem wfFrom_filter (d : α) (p : Nat × α → Bool) (m : SMap α) (lo : Nat) (hm : wfFrom d lo m = true) : wfFrom d lo (m.filter p) = true := by
  induction m generalizing lo with
  | nil => rfl
  | cons e m ih =>
    simp only [wfFrom, Bool.and_eq_true, decide_eq_true_eq] at hm
    obtain ⟨⟨h1, h2⟩, h3⟩ := hm
    simp only [List.filter]
    split
    · simp [wfFrom, h1, h2, ih _ h3]
    · exact ih _ (wfFrom_mono d m _ _ h3 (by omega))

theorem wfK_putK (d : α) (k : Nat) (v : α) {m : SMap α} (h : wfK d m = true) : wfK d (putK d m k v) = true :=
  wfFrom_putK d k v m 0 h (Nat.zero_le _)

theorem wfK_putsK (d : α) (k : Nat) (vs : List α) {m : SMap α} (h : wfK d m = true) : wfK d (putsK d m k vs) = true := by
  induction vs generalizing m k with
  | nil => exact h
  | cons v vs ih => exact ih _ (wfK_putK d k v h)

/-- Dropping entries, as a gated bank does, keeps the canonical form. -/
theorem Memory.wf_filter (p : Nat × Byte → Bool) {m : Mem} (h : Memory.wf m = true) : Memory.wf (m.filter p) = true :=
  wfFrom_filter 0 p m 0 h

theorem Memory.wf_putK (k : Nat) (v : Byte) {m : Mem} (h : Memory.wf m = true) : Memory.wf (putK 0 m k v) = true := wfK_putK 0 k v h

theorem Memory.wf_wrN (a : Nat) (bs : List Byte) {m : Mem} (h : Memory.wf m = true) : Memory.wf (wrN m a bs) = true := wfK_putsK 0 a bs h

theorem Memory.wf_wrEn (a : Nat) (bs : List Byte) (en : List Bool) {m : Mem} (h : Memory.wf m = true) : Memory.wf (wrEn m a bs en) = true := by
  induction bs generalizing m a en with
  | nil => exact h
  | cons b bs ih =>
    cases en with
    | nil => exact ih _ _ (wf_putK _ _ h)
    | cons e es =>
      simp only [wrEn]
      split
      · exact ih _ _ (wf_putK _ _ h)
      · exact ih _ _ h

/-! Reading after writing. -/

theorem getK_of_lt (d : α) (m : SMap α) (lo k : Nat) (h : wfFrom d lo m = true) (hk : k < lo) : getK d m k = d := by
  induction m generalizing lo with
  | nil => rfl
  | cons e m ih =>
    simp only [wfFrom, Bool.and_eq_true, decide_eq_true_eq] at h
    simp only [getK]
    rw [if_neg (by omega)]
    exact ih _ h.2 (by omega)

theorem getK_putK_from (d : α) (m : SMap α) (lo k j : Nat) (v : α) (h : wfFrom d lo m = true) :
    getK d (putK d m k v) j = if j = k then v else getK d m j := by
  induction m generalizing lo with
  | nil =>
    simp only [putK]
    split
    · rename_i e
      subst e
      simp [getK]
    · simp only [getK]
      split <;> split <;> simp_all
  | cons e m ih =>
    simp only [wfFrom, Bool.and_eq_true, decide_eq_true_eq] at h
    obtain ⟨⟨h1, h2⟩, h3⟩ := h
    simp only [putK]
    split
    · rename_i hk
      split
      · rename_i hv
        subst hv
        split
        · rename_i hj
          subst hj
          exact getK_of_lt v (e :: m) e.1 j (by simp [wfFrom, h2, h3]) hk
        · rfl
      · simp only [getK]
        by_cases hj : j = k
        · rw [if_pos hj, if_pos hj.symm]
        · rw [if_neg hj, if_neg (fun x => hj x.symm)]
    · split
      · rename_i hk he
        subst he
        split
        · rename_i hv
          subst hv
          split
          · rename_i hj
            subst hj
            exact getK_of_lt v m (e.1 + 1) _ h3 (by omega)
          · rename_i hj
            simp only [getK]
            rw [if_neg (fun x => hj x.symm)]
        · simp only [getK]
          by_cases hj : j = e.1
          · rw [if_pos hj, if_pos hj.symm]
          · rw [if_neg hj, if_neg (fun x => hj x.symm), if_neg (fun x => hj x.symm)]
      · simp only [getK]
        split
        · rename_i hk he hj
          rw [if_neg (by omega)]
        · exact ih _ h3

/-- A table read after a write. -/
theorem getK_putK (d : α) {m : SMap α} (h : wfK d m = true) (k j : Nat) (v : α) :
    getK d (putK d m k v) j = if j = k then v else getK d m j := getK_putK_from d m 0 k j v h

theorem rd_wrN (m : Mem) (h : Memory.wf m = true) (a : Nat) (bs : List Byte) (j : Nat) :
    rd (wrN m a bs) j = if a ≤ j ∧ j < a + bs.length then bs.getD (j - a) 0 else rd m j := by
  induction bs generalizing m a with
  | nil =>
    simp only [wrN, putsK, List.length_nil]
    rw [if_neg (by omega)]
  | cons b bs ih =>
    have step : wrN m a (b :: bs) = wrN (putK 0 m a b) (a + 1) bs := rfl
    rw [step, ih _ (Memory.wf_putK a b h)]
    simp only [List.length_cons]
    by_cases h1 : a + 1 ≤ j ∧ j < a + 1 + bs.length
    · rw [if_pos h1, if_pos (by omega)]
      obtain ⟨n, hn⟩ : ∃ n, j - a = n + 1 := ⟨j - a - 1, by omega⟩
      have : j - (a + 1) = n := by omega
      rw [this, hn, List.getD_cons_succ]
    · rw [if_neg h1]
      unfold rd
      rw [getK_putK 0 h]
      by_cases h2 : j = a
      · subst h2
        simp
      · rw [if_neg h2, if_neg (by omega)]

/-! Bytes. -/

@[simp] theorem length_leBytes (n v : Nat) : (leBytes n v).length = n := by
  induction n generalizing v with
  | zero => rfl
  | succ n ih => simp [leBytes, ih]

theorem leVal_leBytes (n v : Nat) : leVal (leBytes n v) = v % 2 ^ (8 * n) := by
  induction n generalizing v with
  | zero => simp [leBytes, leVal, Nat.mod_one]
  | succ n ih =>
    simp only [leBytes, leVal, ih, BitVec.toNat_ofNat]
    have : (2 : Nat) ^ (8 * (n + 1)) = 256 * 2 ^ (8 * n) := by rw [Nat.mul_succ, Nat.pow_add]; omega
    rw [this, Nat.mod_mul]

@[simp] theorem length_sub (bs : List Byte) (off n : Nat) : (sub bs off n).length = n := by
  unfold sub
  have := List.length_take_le n (bs.drop off)
  simp only [List.length_append, List.length_replicate]
  omega

end Sys2Proof.Machine
end

