-- ==== Sys2Proof/Laws/State.lean ====
section
/-! SUPPORT. What each named update of the state leaves as it was, field by field. -/

namespace Sys2Proof.Machine

variable (s : State)

@[simp] theorem emit_pending (o : Out) : (emit o s).pending = s.pending := rfl
@[simp] theorem emit_free (o : Out) : (emit o s).free = s.free := rfl
@[simp] theorem emit_dev (o : Out) : (emit o s).dev = s.dev := rfl
@[simp] theorem emit_mbD (o : Out) : (emit o s).mbD = s.mbD := rfl
@[simp] theorem emit_mbL (o : Out) : (emit o s).mbL = s.mbL := rfl
@[simp] theorem emit_urg (o : Out) : (emit o s).urg = s.urg := rfl
@[simp] theorem emit_fc (o : Out) : (emit o s).fc = s.fc := rfl
@[simp] theorem emit_log (o : Out) : (emit o s).log = s.log := rfl
@[simp] theorem emit_ltn (o : Out) : (emit o s).ltn = s.ltn := rfl
@[simp] theorem emit_time (o : Out) : (emit o s).time = s.time := rfl
@[simp] theorem emit_energy (o : Out) : (emit o s).energy = s.energy := rfl
@[simp] theorem emit_mem (o : Out) : (emit o s).mem = s.mem := rfl
@[simp] theorem emit_kv (o : Out) : (emit o s).kv = s.kv := rfl
@[simp] theorem emit_fab (o : Out) : (emit o s).fab = s.fab := rfl
@[simp] theorem emit_cores (o : Out) : (emit o s).cores = s.cores := rfl
@[simp] theorem emit_mir (o : Out) : (emit o s).mir = s.mir := rfl
@[simp] theorem emit_host (o : Out) : (emit o s).host = s.host := rfl
@[simp] theorem emit_obj (o : Out) : (emit o s).obj = s.obj := rfl
@[simp] theorem emit_loop (o : Out) : (emit o s).loop = s.loop := rfl
@[simp] theorem emit_plans (o : Out) : (emit o s).plans = s.plans := rfl
@[simp] theorem emit_intake (o : Out) : (emit o s).intake = s.intake := rfl
@[simp] theorem emit_dv (o : Out) : (emit o s).dv = s.dv := rfl
@[simp] theorem emit_adapt (o : Out) : (emit o s).adapt = s.adapt := rfl
@[simp] theorem emit_trace (o : Out) : (emit o s).trace = s.trace := rfl
@[simp] theorem emit_sio (o : Out) : (emit o s).sio = s.sio := rfl

@[simp] theorem emitFab_pending (m : FabMsg) : (emitFab m s).pending = s.pending := rfl
@[simp] theorem emitFab_free (m : FabMsg) : (emitFab m s).free = s.free := rfl
@[simp] theorem emitFab_dev (m : FabMsg) : (emitFab m s).dev = s.dev := rfl
@[simp] theorem emitFab_mbD (m : FabMsg) : (emitFab m s).mbD = s.mbD := rfl
@[simp] theorem emitFab_mbL (m : FabMsg) : (emitFab m s).mbL = s.mbL := rfl
@[simp] theorem emitFab_urg (m : FabMsg) : (emitFab m s).urg = s.urg := rfl
@[simp] theorem emitFab_fc (m : FabMsg) : (emitFab m s).fc = s.fc := rfl
@[simp] theorem emitFab_log (m : FabMsg) : (emitFab m s).log = s.log := rfl
@[simp] theorem emitFab_ltn (m : FabMsg) : (emitFab m s).ltn = s.ltn := rfl
@[simp] theorem emitFab_time (m : FabMsg) : (emitFab m s).time = s.time := rfl
@[simp] theorem emitFab_energy (m : FabMsg) : (emitFab m s).energy = s.energy := rfl
@[simp] theorem emitFab_mem (m : FabMsg) : (emitFab m s).mem = s.mem := rfl
@[simp] theorem emitFab_kv (m : FabMsg) : (emitFab m s).kv = s.kv := rfl
@[simp] theorem emitFab_fab (m : FabMsg) : (emitFab m s).fab = s.fab := rfl
@[simp] theorem emitFab_cores (m : FabMsg) : (emitFab m s).cores = s.cores := rfl
@[simp] theorem emitFab_mir (m : FabMsg) : (emitFab m s).mir = s.mir := rfl
@[simp] theorem emitFab_host (m : FabMsg) : (emitFab m s).host = s.host := rfl
@[simp] theorem emitFab_obj (m : FabMsg) : (emitFab m s).obj = s.obj := rfl
@[simp] theorem emitFab_loop (m : FabMsg) : (emitFab m s).loop = s.loop := rfl
@[simp] theorem emitFab_plans (m : FabMsg) : (emitFab m s).plans = s.plans := rfl
@[simp] theorem emitFab_intake (m : FabMsg) : (emitFab m s).intake = s.intake := rfl
@[simp] theorem emitFab_dv (m : FabMsg) : (emitFab m s).dv = s.dv := rfl
@[simp] theorem emitFab_adapt (m : FabMsg) : (emitFab m s).adapt = s.adapt := rfl
@[simp] theorem emitFab_trace (m : FabMsg) : (emitFab m s).trace = s.trace := rfl
@[simp] theorem emitFab_sio (m : FabMsg) : (emitFab m s).sio = s.sio := rfl

@[simp] theorem setCore_pending (n : Node) (c : Core) : (setCore n c s).pending = s.pending := rfl
@[simp] theorem setCore_free (n : Node) (c : Core) : (setCore n c s).free = s.free := rfl
@[simp] theorem setCore_sent (n : Node) (c : Core) : (setCore n c s).sent = s.sent := rfl
@[simp] theorem setCore_dev (n : Node) (c : Core) : (setCore n c s).dev = s.dev := rfl
@[simp] theorem setCore_mbD (n : Node) (c : Core) : (setCore n c s).mbD = s.mbD := rfl
@[simp] theorem setCore_mbL (n : Node) (c : Core) : (setCore n c s).mbL = s.mbL := rfl
@[simp] theorem setCore_urg (n : Node) (c : Core) : (setCore n c s).urg = s.urg := rfl
@[simp] theorem setCore_fc (n : Node) (c : Core) : (setCore n c s).fc = s.fc := rfl
@[simp] theorem setCore_log (n : Node) (c : Core) : (setCore n c s).log = s.log := rfl
@[simp] theorem setCore_ltn (n : Node) (c : Core) : (setCore n c s).ltn = s.ltn := rfl
@[simp] theorem setCore_time (n : Node) (c : Core) : (setCore n c s).time = s.time := rfl
@[simp] theorem setCore_energy (n : Node) (c : Core) : (setCore n c s).energy = s.energy := rfl
@[simp] theorem setCore_mem (n : Node) (c : Core) : (setCore n c s).mem = s.mem := rfl
@[simp] theorem setCore_kv (n : Node) (c : Core) : (setCore n c s).kv = s.kv := rfl
@[simp] theorem setCore_fab (n : Node) (c : Core) : (setCore n c s).fab = s.fab := rfl
@[simp] theorem setCore_mir (n : Node) (c : Core) : (setCore n c s).mir = s.mir := rfl
@[simp] theorem setCore_host (n : Node) (c : Core) : (setCore n c s).host = s.host := rfl
@[simp] theorem setCore_obj (n : Node) (c : Core) : (setCore n c s).obj = s.obj := rfl
@[simp] theorem setCore_loop (n : Node) (c : Core) : (setCore n c s).loop = s.loop := rfl
@[simp] theorem setCore_plans (n : Node) (c : Core) : (setCore n c s).plans = s.plans := rfl
@[simp] theorem setCore_intake (n : Node) (c : Core) : (setCore n c s).intake = s.intake := rfl
@[simp] theorem setCore_dv (n : Node) (c : Core) : (setCore n c s).dv = s.dv := rfl
@[simp] theorem setCore_adapt (n : Node) (c : Core) : (setCore n c s).adapt = s.adapt := rfl
@[simp] theorem setCore_trace (n : Node) (c : Core) : (setCore n c s).trace = s.trace := rfl
@[simp] theorem setCore_sio (n : Node) (c : Core) : (setCore n c s).sio = s.sio := rfl

@[simp] theorem updCore_pending (n : Node) (f : Core → Core) : (updCore n f s).pending = s.pending := rfl
@[simp] theorem updCore_free (n : Node) (f : Core → Core) : (updCore n f s).free = s.free := rfl
@[simp] theorem updCore_sent (n : Node) (f : Core → Core) : (updCore n f s).sent = s.sent := rfl
@[simp] theorem updCore_dev (n : Node) (f : Core → Core) : (updCore n f s).dev = s.dev := rfl
@[simp] theorem updCore_mbD (n : Node) (f : Core → Core) : (updCore n f s).mbD = s.mbD := rfl
@[simp] theorem updCore_mbL (n : Node) (f : Core → Core) : (updCore n f s).mbL = s.mbL := rfl
@[simp] theorem updCore_urg (n : Node) (f : Core → Core) : (updCore n f s).urg = s.urg := rfl
@[simp] theorem updCore_fc (n : Node) (f : Core → Core) : (updCore n f s).fc = s.fc := rfl
@[simp] theorem updCore_log (n : Node) (f : Core → Core) : (updCore n f s).log = s.log := rfl
@[simp] theorem updCore_ltn (n : Node) (f : Core → Core) : (updCore n f s).ltn = s.ltn := rfl
@[simp] theorem updCore_time (n : Node) (f : Core → Core) : (updCore n f s).time = s.time := rfl
@[simp] theorem updCore_energy (n : Node) (f : Core → Core) : (updCore n f s).energy = s.energy := rfl
@[simp] theorem updCore_mem (n : Node) (f : Core → Core) : (updCore n f s).mem = s.mem := rfl
@[simp] theorem updCore_kv (n : Node) (f : Core → Core) : (updCore n f s).kv = s.kv := rfl
@[simp] theorem updCore_fab (n : Node) (f : Core → Core) : (updCore n f s).fab = s.fab := rfl
@[simp] theorem updCore_mir (n : Node) (f : Core → Core) : (updCore n f s).mir = s.mir := rfl
@[simp] theorem updCore_host (n : Node) (f : Core → Core) : (updCore n f s).host = s.host := rfl
@[simp] theorem updCore_obj (n : Node) (f : Core → Core) : (updCore n f s).obj = s.obj := rfl
@[simp] theorem updCore_loop (n : Node) (f : Core → Core) : (updCore n f s).loop = s.loop := rfl
@[simp] theorem updCore_plans (n : Node) (f : Core → Core) : (updCore n f s).plans = s.plans := rfl
@[simp] theorem updCore_intake (n : Node) (f : Core → Core) : (updCore n f s).intake = s.intake := rfl
@[simp] theorem updCore_dv (n : Node) (f : Core → Core) : (updCore n f s).dv = s.dv := rfl
@[simp] theorem updCore_adapt (n : Node) (f : Core → Core) : (updCore n f s).adapt = s.adapt := rfl
@[simp] theorem updCore_trace (n : Node) (f : Core → Core) : (updCore n f s).trace = s.trace := rfl
@[simp] theorem updCore_sio (n : Node) (f : Core → Core) : (updCore n f s).sio = s.sio := rfl

@[simp] theorem setIsland_pending (n : Node) (i : Island) : (setIsland n i s).pending = s.pending := rfl
@[simp] theorem setIsland_free (n : Node) (i : Island) : (setIsland n i s).free = s.free := rfl
@[simp] theorem setIsland_sent (n : Node) (i : Island) : (setIsland n i s).sent = s.sent := rfl
@[simp] theorem setIsland_dev (n : Node) (i : Island) : (setIsland n i s).dev = s.dev := rfl
@[simp] theorem setIsland_mbD (n : Node) (i : Island) : (setIsland n i s).mbD = s.mbD := rfl
@[simp] theorem setIsland_mbL (n : Node) (i : Island) : (setIsland n i s).mbL = s.mbL := rfl
@[simp] theorem setIsland_urg (n : Node) (i : Island) : (setIsland n i s).urg = s.urg := rfl
@[simp] theorem setIsland_fc (n : Node) (i : Island) : (setIsland n i s).fc = s.fc := rfl
@[simp] theorem setIsland_log (n : Node) (i : Island) : (setIsland n i s).log = s.log := rfl
@[simp] theorem setIsland_ltn (n : Node) (i : Island) : (setIsland n i s).ltn = s.ltn := rfl
@[simp] theorem setIsland_time (n : Node) (i : Island) : (setIsland n i s).time = s.time := rfl
@[simp] theorem setIsland_energy (n : Node) (i : Island) : (setIsland n i s).energy = s.energy := rfl
@[simp] theorem setIsland_mem (n : Node) (i : Island) : (setIsland n i s).mem = s.mem := rfl
@[simp] theorem setIsland_kv (n : Node) (i : Island) : (setIsland n i s).kv = s.kv := rfl
@[simp] theorem setIsland_cores (n : Node) (i : Island) : (setIsland n i s).cores = s.cores := rfl
@[simp] theorem setIsland_mir (n : Node) (i : Island) : (setIsland n i s).mir = s.mir := rfl
@[simp] theorem setIsland_host (n : Node) (i : Island) : (setIsland n i s).host = s.host := rfl
@[simp] theorem setIsland_obj (n : Node) (i : Island) : (setIsland n i s).obj = s.obj := rfl
@[simp] theorem setIsland_loop (n : Node) (i : Island) : (setIsland n i s).loop = s.loop := rfl
@[simp] theorem setIsland_plans (n : Node) (i : Island) : (setIsland n i s).plans = s.plans := rfl
@[simp] theorem setIsland_intake (n : Node) (i : Island) : (setIsland n i s).intake = s.intake := rfl
@[simp] theorem setIsland_dv (n : Node) (i : Island) : (setIsland n i s).dv = s.dv := rfl
@[simp] theorem setIsland_adapt (n : Node) (i : Island) : (setIsland n i s).adapt = s.adapt := rfl
@[simp] theorem setIsland_trace (n : Node) (i : Island) : (setIsland n i s).trace = s.trace := rfl
@[simp] theorem setIsland_sio (n : Node) (i : Island) : (setIsland n i s).sio = s.sio := rfl

@[simp] theorem setEvt_pending (e : EvtSlot) : (setEvt e s).pending = s.pending := rfl
@[simp] theorem setEvt_free (e : EvtSlot) : (setEvt e s).free = s.free := rfl
@[simp] theorem setEvt_sent (e : EvtSlot) : (setEvt e s).sent = s.sent := rfl
@[simp] theorem setEvt_dev (e : EvtSlot) : (setEvt e s).dev = s.dev := rfl
@[simp] theorem setEvt_mbD (e : EvtSlot) : (setEvt e s).mbD = s.mbD := rfl
@[simp] theorem setEvt_mbL (e : EvtSlot) : (setEvt e s).mbL = s.mbL := rfl
@[simp] theorem setEvt_urg (e : EvtSlot) : (setEvt e s).urg = s.urg := rfl
@[simp] theorem setEvt_fc (e : EvtSlot) : (setEvt e s).fc = s.fc := rfl
@[simp] theorem setEvt_log (e : EvtSlot) : (setEvt e s).log = s.log := rfl
@[simp] theorem setEvt_ltn (e : EvtSlot) : (setEvt e s).ltn = s.ltn := rfl
@[simp] theorem setEvt_time (e : EvtSlot) : (setEvt e s).time = s.time := rfl
@[simp] theorem setEvt_energy (e : EvtSlot) : (setEvt e s).energy = s.energy := rfl
@[simp] theorem setEvt_mem (e : EvtSlot) : (setEvt e s).mem = s.mem := rfl
@[simp] theorem setEvt_kv (e : EvtSlot) : (setEvt e s).kv = s.kv := rfl
@[simp] theorem setEvt_fab (e : EvtSlot) : (setEvt e s).fab = s.fab := rfl
@[simp] theorem setEvt_cores (e : EvtSlot) : (setEvt e s).cores = s.cores := rfl
@[simp] theorem setEvt_mir (e : EvtSlot) : (setEvt e s).mir = s.mir := rfl
@[simp] theorem setEvt_host (e : EvtSlot) : (setEvt e s).host = s.host := rfl
@[simp] theorem setEvt_loop (e : EvtSlot) : (setEvt e s).loop = s.loop := rfl
@[simp] theorem setEvt_plans (e : EvtSlot) : (setEvt e s).plans = s.plans := rfl
@[simp] theorem setEvt_intake (e : EvtSlot) : (setEvt e s).intake = s.intake := rfl
@[simp] theorem setEvt_dv (e : EvtSlot) : (setEvt e s).dv = s.dv := rfl
@[simp] theorem setEvt_adapt (e : EvtSlot) : (setEvt e s).adapt = s.adapt := rfl
@[simp] theorem setEvt_trace (e : EvtSlot) : (setEvt e s).trace = s.trace := rfl
@[simp] theorem setEvt_sio (e : EvtSlot) : (setEvt e s).sio = s.sio := rfl

@[simp] theorem setDv_pending (k : Nat) (p : DvPort) : (setDv k p s).pending = s.pending := rfl
@[simp] theorem setDv_free (k : Nat) (p : DvPort) : (setDv k p s).free = s.free := rfl
@[simp] theorem setDv_sent (k : Nat) (p : DvPort) : (setDv k p s).sent = s.sent := rfl
@[simp] theorem setDv_dev (k : Nat) (p : DvPort) : (setDv k p s).dev = s.dev := rfl
@[simp] theorem setDv_mbD (k : Nat) (p : DvPort) : (setDv k p s).mbD = s.mbD := rfl
@[simp] theorem setDv_mbL (k : Nat) (p : DvPort) : (setDv k p s).mbL = s.mbL := rfl
@[simp] theorem setDv_urg (k : Nat) (p : DvPort) : (setDv k p s).urg = s.urg := rfl
@[simp] theorem setDv_fc (k : Nat) (p : DvPort) : (setDv k p s).fc = s.fc := rfl
@[simp] theorem setDv_log (k : Nat) (p : DvPort) : (setDv k p s).log = s.log := rfl
@[simp] theorem setDv_ltn (k : Nat) (p : DvPort) : (setDv k p s).ltn = s.ltn := rfl
@[simp] theorem setDv_time (k : Nat) (p : DvPort) : (setDv k p s).time = s.time := rfl
@[simp] theorem setDv_energy (k : Nat) (p : DvPort) : (setDv k p s).energy = s.energy := rfl
@[simp] theorem setDv_mem (k : Nat) (p : DvPort) : (setDv k p s).mem = s.mem := rfl
@[simp] theorem setDv_kv (k : Nat) (p : DvPort) : (setDv k p s).kv = s.kv := rfl
@[simp] theorem setDv_fab (k : Nat) (p : DvPort) : (setDv k p s).fab = s.fab := rfl
@[simp] theorem setDv_cores (k : Nat) (p : DvPort) : (setDv k p s).cores = s.cores := rfl
@[simp] theorem setDv_mir (k : Nat) (p : DvPort) : (setDv k p s).mir = s.mir := rfl
@[simp] theorem setDv_host (k : Nat) (p : DvPort) : (setDv k p s).host = s.host := rfl
@[simp] theorem setDv_obj (k : Nat) (p : DvPort) : (setDv k p s).obj = s.obj := rfl
@[simp] theorem setDv_loop (k : Nat) (p : DvPort) : (setDv k p s).loop = s.loop := rfl
@[simp] theorem setDv_plans (k : Nat) (p : DvPort) : (setDv k p s).plans = s.plans := rfl
@[simp] theorem setDv_intake (k : Nat) (p : DvPort) : (setDv k p s).intake = s.intake := rfl
@[simp] theorem setDv_adapt (k : Nat) (p : DvPort) : (setDv k p s).adapt = s.adapt := rfl
@[simp] theorem setDv_trace (k : Nat) (p : DvPort) : (setDv k p s).trace = s.trace := rfl
@[simp] theorem setDv_sio (k : Nat) (p : DvPort) : (setDv k p s).sio = s.sio := rfl

@[simp] theorem setPtp_pending (k : Nat) (p : PtpPort) : (setPtp k p s).pending = s.pending := rfl
@[simp] theorem setPtp_free (k : Nat) (p : PtpPort) : (setPtp k p s).free = s.free := rfl
@[simp] theorem setPtp_sent (k : Nat) (p : PtpPort) : (setPtp k p s).sent = s.sent := rfl
@[simp] theorem setPtp_dev (k : Nat) (p : PtpPort) : (setPtp k p s).dev = s.dev := rfl
@[simp] theorem setPtp_mbD (k : Nat) (p : PtpPort) : (setPtp k p s).mbD = s.mbD := rfl
@[simp] theorem setPtp_mbL (k : Nat) (p : PtpPort) : (setPtp k p s).mbL = s.mbL := rfl
@[simp] theorem setPtp_urg (k : Nat) (p : PtpPort) : (setPtp k p s).urg = s.urg := rfl
@[simp] theorem setPtp_fc (k : Nat) (p : PtpPort) : (setPtp k p s).fc = s.fc := rfl
@[simp] theorem setPtp_log (k : Nat) (p : PtpPort) : (setPtp k p s).log = s.log := rfl
@[simp] theorem setPtp_ltn (k : Nat) (p : PtpPort) : (setPtp k p s).ltn = s.ltn := rfl
@[simp] theorem setPtp_energy (k : Nat) (p : PtpPort) : (setPtp k p s).energy = s.energy := rfl
@[simp] theorem setPtp_mem (k : Nat) (p : PtpPort) : (setPtp k p s).mem = s.mem := rfl
@[simp] theorem setPtp_kv (k : Nat) (p : PtpPort) : (setPtp k p s).kv = s.kv := rfl
@[simp] theorem setPtp_fab (k : Nat) (p : PtpPort) : (setPtp k p s).fab = s.fab := rfl
@[simp] theorem setPtp_cores (k : Nat) (p : PtpPort) : (setPtp k p s).cores = s.cores := rfl
@[simp] theorem setPtp_mir (k : Nat) (p : PtpPort) : (setPtp k p s).mir = s.mir := rfl
@[simp] theorem setPtp_host (k : Nat) (p : PtpPort) : (setPtp k p s).host = s.host := rfl
@[simp] theorem setPtp_obj (k : Nat) (p : PtpPort) : (setPtp k p s).obj = s.obj := rfl
@[simp] theorem setPtp_loop (k : Nat) (p : PtpPort) : (setPtp k p s).loop = s.loop := rfl
@[simp] theorem setPtp_plans (k : Nat) (p : PtpPort) : (setPtp k p s).plans = s.plans := rfl
@[simp] theorem setPtp_intake (k : Nat) (p : PtpPort) : (setPtp k p s).intake = s.intake := rfl
@[simp] theorem setPtp_dv (k : Nat) (p : PtpPort) : (setPtp k p s).dv = s.dv := rfl
@[simp] theorem setPtp_adapt (k : Nat) (p : PtpPort) : (setPtp k p s).adapt = s.adapt := rfl
@[simp] theorem setPtp_trace (k : Nat) (p : PtpPort) : (setPtp k p s).trace = s.trace := rfl
@[simp] theorem setPtp_sio (k : Nat) (p : PtpPort) : (setPtp k p s).sio = s.sio := rfl

@[simp] theorem setTrig_pending (n : Nat) (x : Trig) : (setTrig n x s).pending = s.pending := rfl
@[simp] theorem setTrig_free (n : Nat) (x : Trig) : (setTrig n x s).free = s.free := rfl
@[simp] theorem setTrig_sent (n : Nat) (x : Trig) : (setTrig n x s).sent = s.sent := rfl
@[simp] theorem setTrig_dev (n : Nat) (x : Trig) : (setTrig n x s).dev = s.dev := rfl
@[simp] theorem setTrig_mbD (n : Nat) (x : Trig) : (setTrig n x s).mbD = s.mbD := rfl
@[simp] theorem setTrig_mbL (n : Nat) (x : Trig) : (setTrig n x s).mbL = s.mbL := rfl
@[simp] theorem setTrig_urg (n : Nat) (x : Trig) : (setTrig n x s).urg = s.urg := rfl
@[simp] theorem setTrig_fc (n : Nat) (x : Trig) : (setTrig n x s).fc = s.fc := rfl
@[simp] theorem setTrig_log (n : Nat) (x : Trig) : (setTrig n x s).log = s.log := rfl
@[simp] theorem setTrig_ltn (n : Nat) (x : Trig) : (setTrig n x s).ltn = s.ltn := rfl
@[simp] theorem setTrig_energy (n : Nat) (x : Trig) : (setTrig n x s).energy = s.energy := rfl
@[simp] theorem setTrig_mem (n : Nat) (x : Trig) : (setTrig n x s).mem = s.mem := rfl
@[simp] theorem setTrig_kv (n : Nat) (x : Trig) : (setTrig n x s).kv = s.kv := rfl
@[simp] theorem setTrig_fab (n : Nat) (x : Trig) : (setTrig n x s).fab = s.fab := rfl
@[simp] theorem setTrig_cores (n : Nat) (x : Trig) : (setTrig n x s).cores = s.cores := rfl
@[simp] theorem setTrig_mir (n : Nat) (x : Trig) : (setTrig n x s).mir = s.mir := rfl
@[simp] theorem setTrig_host (n : Nat) (x : Trig) : (setTrig n x s).host = s.host := rfl
@[simp] theorem setTrig_obj (n : Nat) (x : Trig) : (setTrig n x s).obj = s.obj := rfl
@[simp] theorem setTrig_loop (n : Nat) (x : Trig) : (setTrig n x s).loop = s.loop := rfl
@[simp] theorem setTrig_plans (n : Nat) (x : Trig) : (setTrig n x s).plans = s.plans := rfl
@[simp] theorem setTrig_intake (n : Nat) (x : Trig) : (setTrig n x s).intake = s.intake := rfl
@[simp] theorem setTrig_dv (n : Nat) (x : Trig) : (setTrig n x s).dv = s.dv := rfl
@[simp] theorem setTrig_adapt (n : Nat) (x : Trig) : (setTrig n x s).adapt = s.adapt := rfl
@[simp] theorem setTrig_trace (n : Nat) (x : Trig) : (setTrig n x s).trace = s.trace := rfl
@[simp] theorem setTrig_sio (n : Nat) (x : Trig) : (setTrig n x s).sio = s.sio := rfl

@[simp] theorem setInb_pending (w : Nat) (x : InbWin) : (setInb w x s).pending = s.pending := rfl
@[simp] theorem setInb_free (w : Nat) (x : InbWin) : (setInb w x s).free = s.free := rfl
@[simp] theorem setInb_sent (w : Nat) (x : InbWin) : (setInb w x s).sent = s.sent := rfl
@[simp] theorem setInb_dev (w : Nat) (x : InbWin) : (setInb w x s).dev = s.dev := rfl
@[simp] theorem setInb_mbD (w : Nat) (x : InbWin) : (setInb w x s).mbD = s.mbD := rfl
@[simp] theorem setInb_mbL (w : Nat) (x : InbWin) : (setInb w x s).mbL = s.mbL := rfl
@[simp] theorem setInb_urg (w : Nat) (x : InbWin) : (setInb w x s).urg = s.urg := rfl
@[simp] theorem setInb_fc (w : Nat) (x : InbWin) : (setInb w x s).fc = s.fc := rfl
@[simp] theorem setInb_log (w : Nat) (x : InbWin) : (setInb w x s).log = s.log := rfl
@[simp] theorem setInb_ltn (w : Nat) (x : InbWin) : (setInb w x s).ltn = s.ltn := rfl
@[simp] theorem setInb_time (w : Nat) (x : InbWin) : (setInb w x s).time = s.time := rfl
@[simp] theorem setInb_energy (w : Nat) (x : InbWin) : (setInb w x s).energy = s.energy := rfl
@[simp] theorem setInb_mem (w : Nat) (x : InbWin) : (setInb w x s).mem = s.mem := rfl
@[simp] theorem setInb_kv (w : Nat) (x : InbWin) : (setInb w x s).kv = s.kv := rfl
@[simp] theorem setInb_fab (w : Nat) (x : InbWin) : (setInb w x s).fab = s.fab := rfl
@[simp] theorem setInb_cores (w : Nat) (x : InbWin) : (setInb w x s).cores = s.cores := rfl
@[simp] theorem setInb_mir (w : Nat) (x : InbWin) : (setInb w x s).mir = s.mir := rfl
@[simp] theorem setInb_obj (w : Nat) (x : InbWin) : (setInb w x s).obj = s.obj := rfl
@[simp] theorem setInb_loop (w : Nat) (x : InbWin) : (setInb w x s).loop = s.loop := rfl
@[simp] theorem setInb_plans (w : Nat) (x : InbWin) : (setInb w x s).plans = s.plans := rfl
@[simp] theorem setInb_intake (w : Nat) (x : InbWin) : (setInb w x s).intake = s.intake := rfl
@[simp] theorem setInb_dv (w : Nat) (x : InbWin) : (setInb w x s).dv = s.dv := rfl
@[simp] theorem setInb_adapt (w : Nat) (x : InbWin) : (setInb w x s).adapt = s.adapt := rfl
@[simp] theorem setInb_trace (w : Nat) (x : InbWin) : (setInb w x s).trace = s.trace := rfl
@[simp] theorem setInb_sio (w : Nat) (x : InbWin) : (setInb w x s).sio = s.sio := rfl

@[simp] theorem updGuard_pending (f : Guard → Guard) : (updGuard f s).pending = s.pending := rfl
@[simp] theorem updGuard_free (f : Guard → Guard) : (updGuard f s).free = s.free := rfl
@[simp] theorem updGuard_sent (f : Guard → Guard) : (updGuard f s).sent = s.sent := rfl
@[simp] theorem updGuard_dev (f : Guard → Guard) : (updGuard f s).dev = s.dev := rfl
@[simp] theorem updGuard_mbD (f : Guard → Guard) : (updGuard f s).mbD = s.mbD := rfl
@[simp] theorem updGuard_mbL (f : Guard → Guard) : (updGuard f s).mbL = s.mbL := rfl
@[simp] theorem updGuard_urg (f : Guard → Guard) : (updGuard f s).urg = s.urg := rfl
@[simp] theorem updGuard_fc (f : Guard → Guard) : (updGuard f s).fc = s.fc := rfl
@[simp] theorem updGuard_log (f : Guard → Guard) : (updGuard f s).log = s.log := rfl
@[simp] theorem updGuard_time (f : Guard → Guard) : (updGuard f s).time = s.time := rfl
@[simp] theorem updGuard_energy (f : Guard → Guard) : (updGuard f s).energy = s.energy := rfl
@[simp] theorem updGuard_mem (f : Guard → Guard) : (updGuard f s).mem = s.mem := rfl
@[simp] theorem updGuard_kv (f : Guard → Guard) : (updGuard f s).kv = s.kv := rfl
@[simp] theorem updGuard_fab (f : Guard → Guard) : (updGuard f s).fab = s.fab := rfl
@[simp] theorem updGuard_cores (f : Guard → Guard) : (updGuard f s).cores = s.cores := rfl
@[simp] theorem updGuard_mir (f : Guard → Guard) : (updGuard f s).mir = s.mir := rfl
@[simp] theorem updGuard_host (f : Guard → Guard) : (updGuard f s).host = s.host := rfl
@[simp] theorem updGuard_obj (f : Guard → Guard) : (updGuard f s).obj = s.obj := rfl
@[simp] theorem updGuard_loop (f : Guard → Guard) : (updGuard f s).loop = s.loop := rfl
@[simp] theorem updGuard_plans (f : Guard → Guard) : (updGuard f s).plans = s.plans := rfl
@[simp] theorem updGuard_intake (f : Guard → Guard) : (updGuard f s).intake = s.intake := rfl
@[simp] theorem updGuard_dv (f : Guard → Guard) : (updGuard f s).dv = s.dv := rfl
@[simp] theorem updGuard_adapt (f : Guard → Guard) : (updGuard f s).adapt = s.adapt := rfl
@[simp] theorem updGuard_trace (f : Guard → Guard) : (updGuard f s).trace = s.trace := rfl
@[simp] theorem updGuard_sio (f : Guard → Guard) : (updGuard f s).sio = s.sio := rfl

@[simp] theorem updCfg_pending (f : CfgArea → CfgArea) : (updCfg f s).pending = s.pending := rfl
@[simp] theorem updCfg_free (f : CfgArea → CfgArea) : (updCfg f s).free = s.free := rfl
@[simp] theorem updCfg_sent (f : CfgArea → CfgArea) : (updCfg f s).sent = s.sent := rfl
@[simp] theorem updCfg_dev (f : CfgArea → CfgArea) : (updCfg f s).dev = s.dev := rfl
@[simp] theorem updCfg_mbD (f : CfgArea → CfgArea) : (updCfg f s).mbD = s.mbD := rfl
@[simp] theorem updCfg_mbL (f : CfgArea → CfgArea) : (updCfg f s).mbL = s.mbL := rfl
@[simp] theorem updCfg_urg (f : CfgArea → CfgArea) : (updCfg f s).urg = s.urg := rfl
@[simp] theorem updCfg_fc (f : CfgArea → CfgArea) : (updCfg f s).fc = s.fc := rfl
@[simp] theorem updCfg_log (f : CfgArea → CfgArea) : (updCfg f s).log = s.log := rfl
@[simp] theorem updCfg_time (f : CfgArea → CfgArea) : (updCfg f s).time = s.time := rfl
@[simp] theorem updCfg_energy (f : CfgArea → CfgArea) : (updCfg f s).energy = s.energy := rfl
@[simp] theorem updCfg_mem (f : CfgArea → CfgArea) : (updCfg f s).mem = s.mem := rfl
@[simp] theorem updCfg_kv (f : CfgArea → CfgArea) : (updCfg f s).kv = s.kv := rfl
@[simp] theorem updCfg_fab (f : CfgArea → CfgArea) : (updCfg f s).fab = s.fab := rfl
@[simp] theorem updCfg_cores (f : CfgArea → CfgArea) : (updCfg f s).cores = s.cores := rfl
@[simp] theorem updCfg_mir (f : CfgArea → CfgArea) : (updCfg f s).mir = s.mir := rfl
@[simp] theorem updCfg_host (f : CfgArea → CfgArea) : (updCfg f s).host = s.host := rfl
@[simp] theorem updCfg_obj (f : CfgArea → CfgArea) : (updCfg f s).obj = s.obj := rfl
@[simp] theorem updCfg_loop (f : CfgArea → CfgArea) : (updCfg f s).loop = s.loop := rfl
@[simp] theorem updCfg_plans (f : CfgArea → CfgArea) : (updCfg f s).plans = s.plans := rfl
@[simp] theorem updCfg_intake (f : CfgArea → CfgArea) : (updCfg f s).intake = s.intake := rfl
@[simp] theorem updCfg_dv (f : CfgArea → CfgArea) : (updCfg f s).dv = s.dv := rfl
@[simp] theorem updCfg_adapt (f : CfgArea → CfgArea) : (updCfg f s).adapt = s.adapt := rfl
@[simp] theorem updCfg_trace (f : CfgArea → CfgArea) : (updCfg f s).trace = s.trace := rfl
@[simp] theorem updCfg_sio (f : CfgArea → CfgArea) : (updCfg f s).sio = s.sio := rfl

@[simp] theorem setStream_pending (t : Stream) : (setStream t s).pending = s.pending := rfl
@[simp] theorem setStream_free (t : Stream) : (setStream t s).free = s.free := rfl
@[simp] theorem setStream_sent (t : Stream) : (setStream t s).sent = s.sent := rfl
@[simp] theorem setStream_dev (t : Stream) : (setStream t s).dev = s.dev := rfl
@[simp] theorem setStream_mbD (t : Stream) : (setStream t s).mbD = s.mbD := rfl
@[simp] theorem setStream_mbL (t : Stream) : (setStream t s).mbL = s.mbL := rfl
@[simp] theorem setStream_urg (t : Stream) : (setStream t s).urg = s.urg := rfl
@[simp] theorem setStream_fc (t : Stream) : (setStream t s).fc = s.fc := rfl
@[simp] theorem setStream_log (t : Stream) : (setStream t s).log = s.log := rfl
@[simp] theorem setStream_ltn (t : Stream) : (setStream t s).ltn = s.ltn := rfl
@[simp] theorem setStream_time (t : Stream) : (setStream t s).time = s.time := rfl
@[simp] theorem setStream_energy (t : Stream) : (setStream t s).energy = s.energy := rfl
@[simp] theorem setStream_mem (t : Stream) : (setStream t s).mem = s.mem := rfl
@[simp] theorem setStream_kv (t : Stream) : (setStream t s).kv = s.kv := rfl
@[simp] theorem setStream_fab (t : Stream) : (setStream t s).fab = s.fab := rfl
@[simp] theorem setStream_cores (t : Stream) : (setStream t s).cores = s.cores := rfl
@[simp] theorem setStream_mir (t : Stream) : (setStream t s).mir = s.mir := rfl
@[simp] theorem setStream_host (t : Stream) : (setStream t s).host = s.host := rfl
@[simp] theorem setStream_obj (t : Stream) : (setStream t s).obj = s.obj := rfl
@[simp] theorem setStream_loop (t : Stream) : (setStream t s).loop = s.loop := rfl
@[simp] theorem setStream_plans (t : Stream) : (setStream t s).plans = s.plans := rfl
@[simp] theorem setStream_dv (t : Stream) : (setStream t s).dv = s.dv := rfl
@[simp] theorem setStream_adapt (t : Stream) : (setStream t s).adapt = s.adapt := rfl
@[simp] theorem setStream_trace (t : Stream) : (setStream t s).trace = s.trace := rfl
@[simp] theorem setStream_sio (t : Stream) : (setStream t s).sio = s.sio := rfl

@[simp] theorem setSpiNext_pending (ty : Byte) (seq : W16) (r : Byte) (p : List Byte) : (setSpiNext ty seq r p s).pending = s.pending := rfl
@[simp] theorem setSpiNext_free (ty : Byte) (seq : W16) (r : Byte) (p : List Byte) : (setSpiNext ty seq r p s).free = s.free := rfl
@[simp] theorem setSpiNext_sent (ty : Byte) (seq : W16) (r : Byte) (p : List Byte) : (setSpiNext ty seq r p s).sent = s.sent := rfl
@[simp] theorem setSpiNext_dev (ty : Byte) (seq : W16) (r : Byte) (p : List Byte) : (setSpiNext ty seq r p s).dev = s.dev := rfl
@[simp] theorem setSpiNext_mbD (ty : Byte) (seq : W16) (r : Byte) (p : List Byte) : (setSpiNext ty seq r p s).mbD = s.mbD := rfl
@[simp] theorem setSpiNext_mbL (ty : Byte) (seq : W16) (r : Byte) (p : List Byte) : (setSpiNext ty seq r p s).mbL = s.mbL := rfl
@[simp] theorem setSpiNext_urg (ty : Byte) (seq : W16) (r : Byte) (p : List Byte) : (setSpiNext ty seq r p s).urg = s.urg := rfl
@[simp] theorem setSpiNext_fc (ty : Byte) (seq : W16) (r : Byte) (p : List Byte) : (setSpiNext ty seq r p s).fc = s.fc := rfl
@[simp] theorem setSpiNext_log (ty : Byte) (seq : W16) (r : Byte) (p : List Byte) : (setSpiNext ty seq r p s).log = s.log := rfl
@[simp] theorem setSpiNext_time (ty : Byte) (seq : W16) (r : Byte) (p : List Byte) : (setSpiNext ty seq r p s).time = s.time := rfl
@[simp] theorem setSpiNext_energy (ty : Byte) (seq : W16) (r : Byte) (p : List Byte) : (setSpiNext ty seq r p s).energy = s.energy := rfl
@[simp] theorem setSpiNext_mem (ty : Byte) (seq : W16) (r : Byte) (p : List Byte) : (setSpiNext ty seq r p s).mem = s.mem := rfl
@[simp] theorem setSpiNext_kv (ty : Byte) (seq : W16) (r : Byte) (p : List Byte) : (setSpiNext ty seq r p s).kv = s.kv := rfl
@[simp] theorem setSpiNext_fab (ty : Byte) (seq : W16) (r : Byte) (p : List Byte) : (setSpiNext ty seq r p s).fab = s.fab := rfl
@[simp] theorem setSpiNext_cores (ty : Byte) (seq : W16) (r : Byte) (p : List Byte) : (setSpiNext ty seq r p s).cores = s.cores := rfl
@[simp] theorem setSpiNext_mir (ty : Byte) (seq : W16) (r : Byte) (p : List Byte) : (setSpiNext ty seq r p s).mir = s.mir := rfl
@[simp] theorem setSpiNext_host (ty : Byte) (seq : W16) (r : Byte) (p : List Byte) : (setSpiNext ty seq r p s).host = s.host := rfl
@[simp] theorem setSpiNext_obj (ty : Byte) (seq : W16) (r : Byte) (p : List Byte) : (setSpiNext ty seq r p s).obj = s.obj := rfl
@[simp] theorem setSpiNext_loop (ty : Byte) (seq : W16) (r : Byte) (p : List Byte) : (setSpiNext ty seq r p s).loop = s.loop := rfl
@[simp] theorem setSpiNext_plans (ty : Byte) (seq : W16) (r : Byte) (p : List Byte) : (setSpiNext ty seq r p s).plans = s.plans := rfl
@[simp] theorem setSpiNext_intake (ty : Byte) (seq : W16) (r : Byte) (p : List Byte) : (setSpiNext ty seq r p s).intake = s.intake := rfl
@[simp] theorem setSpiNext_dv (ty : Byte) (seq : W16) (r : Byte) (p : List Byte) : (setSpiNext ty seq r p s).dv = s.dv := rfl
@[simp] theorem setSpiNext_adapt (ty : Byte) (seq : W16) (r : Byte) (p : List Byte) : (setSpiNext ty seq r p s).adapt = s.adapt := rfl
@[simp] theorem setSpiNext_trace (ty : Byte) (seq : W16) (r : Byte) (p : List Byte) : (setSpiNext ty seq r p s).trace = s.trace := rfl
@[simp] theorem setSpiNext_sio (ty : Byte) (seq : W16) (r : Byte) (p : List Byte) : (setSpiNext ty seq r p s).sio = s.sio := rfl

@[simp] theorem setMb_pending (m : Mailbox) (b : Mbx) : (setMb m b s).pending = s.pending := by cases m <;> rfl
@[simp] theorem setMb_free (m : Mailbox) (b : Mbx) : (setMb m b s).free = s.free := by cases m <;> rfl
@[simp] theorem setMb_sent (m : Mailbox) (b : Mbx) : (setMb m b s).sent = s.sent := by cases m <;> rfl
@[simp] theorem setMb_dev (m : Mailbox) (b : Mbx) : (setMb m b s).dev = s.dev := by cases m <;> rfl
@[simp] theorem setMb_urg (m : Mailbox) (b : Mbx) : (setMb m b s).urg = s.urg := by cases m <;> rfl
@[simp] theorem setMb_fc (m : Mailbox) (b : Mbx) : (setMb m b s).fc = s.fc := by cases m <;> rfl
@[simp] theorem setMb_log (m : Mailbox) (b : Mbx) : (setMb m b s).log = s.log := by cases m <;> rfl
@[simp] theorem setMb_ltn (m : Mailbox) (b : Mbx) : (setMb m b s).ltn = s.ltn := by cases m <;> rfl
@[simp] theorem setMb_time (m : Mailbox) (b : Mbx) : (setMb m b s).time = s.time := by cases m <;> rfl
@[simp] theorem setMb_energy (m : Mailbox) (b : Mbx) : (setMb m b s).energy = s.energy := by cases m <;> rfl
@[simp] theorem setMb_mem (m : Mailbox) (b : Mbx) : (setMb m b s).mem = s.mem := by cases m <;> rfl
@[simp] theorem setMb_kv (m : Mailbox) (b : Mbx) : (setMb m b s).kv = s.kv := by cases m <;> rfl
@[simp] theorem setMb_fab (m : Mailbox) (b : Mbx) : (setMb m b s).fab = s.fab := by cases m <;> rfl
@[simp] theorem setMb_cores (m : Mailbox) (b : Mbx) : (setMb m b s).cores = s.cores := by cases m <;> rfl
@[simp] theorem setMb_mir (m : Mailbox) (b : Mbx) : (setMb m b s).mir = s.mir := by cases m <;> rfl
@[simp] theorem setMb_host (m : Mailbox) (b : Mbx) : (setMb m b s).host = s.host := by cases m <;> rfl
@[simp] theorem setMb_obj (m : Mailbox) (b : Mbx) : (setMb m b s).obj = s.obj := by cases m <;> rfl
@[simp] theorem setMb_loop (m : Mailbox) (b : Mbx) : (setMb m b s).loop = s.loop := by cases m <;> rfl
@[simp] theorem setMb_plans (m : Mailbox) (b : Mbx) : (setMb m b s).plans = s.plans := by cases m <;> rfl
@[simp] theorem setMb_intake (m : Mailbox) (b : Mbx) : (setMb m b s).intake = s.intake := by cases m <;> rfl
@[simp] theorem setMb_dv (m : Mailbox) (b : Mbx) : (setMb m b s).dv = s.dv := by cases m <;> rfl
@[simp] theorem setMb_adapt (m : Mailbox) (b : Mbx) : (setMb m b s).adapt = s.adapt := by cases m <;> rfl
@[simp] theorem setMb_trace (m : Mailbox) (b : Mbx) : (setMb m b s).trace = s.trace := by cases m <;> rfl
@[simp] theorem setMb_sio (m : Mailbox) (b : Mbx) : (setMb m b s).sio = s.sio := by cases m <;> rfl
@[simp] theorem getMb_setMb (m : Mailbox) (b : Mbx) : getMb m (setMb m b s) = b := by cases m <;> rfl
@[simp] theorem emit_sent (o : Out) : (emit o s).sent = s.sent ++ [o] := rfl

end Sys2Proof.Machine
end

