-- ==== Sys2Proof/Laws/Ops.lean ====
section
/-! SUPPORT. What the shared operations can do, said once: issuing an instruction, serving a command, windows and waits, registers
read in halves, and the operations that do nothing when there is nothing to do. -/

open Sys2Proof Sys2Proof.Machine
namespace Sys2Proof.Laws

/-- An instruction of a core that is ready has its body as its effect. -/
theorem issue_ready {s : State} {n : Node} {c : Core} (h : Ready s n c) (body : Core → State → State) : issue n body s = body c s := by
  unfold issue
  rw [h.core]
  dsimp only
  rw [if_neg (by simp [h.issues]), if_neg (by rw [h.fetch]; simp), if_neg (by simp [h.free])]

/-- The same of the outcome. -/
theorem issued {s : State} {n : Node} {c : Core} (h : Ready s n c) (body : Core → State → State) : (.next (issue n body s) : Res) = .next (body c s) := by
  rw [issue_ready h]

/-- A command that passes the common checks has its body as its effect, then the mailbox settles. -/
theorem serve_asked {m : Mailbox} {op k : Nat} {ks : List Nat} {r : Req} {s : State} (h : Asked m op k ks r s) (body : Req → State → State) :
    serveCmd m op body s = settle 8 m (body r (taken m ks s)) := by
  unfold serveCmd
  dsimp only
  rw [h.fifo]
  dsimp only
  rw [← h.req, if_neg (by simp [h.op, h.service])]
  have j := h.judged
  unfold taken at j
  rw [j]
  rfl

/-- A mailbox whose head is no such command serves nothing. -/
theorem serve_none {m : Mailbox} {op : Nat} {s : State} (body : Req → State → State)
    (h : (getMb m s).fifo = [] ∨ (getMb m s).service = false ∨ (∃ k ks, (getMb m s).fifo = k :: ks ∧ (readReqOf m k s).op ≠ op)) : serveCmd m op body s = s := by
  unfold serveCmd; dsimp only
  rcases h with h | h | ⟨k, ks, h, h1⟩
  · rw [h]
  · cases hf : (getMb m s).fifo with
    | nil => rfl
    | cons k ks => dsimp only; rw [if_pos (by simp [h])]
  · rw [h]; dsimp only; rw [if_pos (Or.inl h1)]

/-- A command that fails a common check is refused, and its body does not run. -/
theorem serve_declined {m : Mailbox} {op : Nat} {s : State} (body : Req → State → State) {k : Nat} {ks : List Nat} {st dt : W16}
    (h : (getMb m s).service = true) (h1 : (getMb m s).fifo = k :: ks) (h2 : (readReqOf m k s).op = op)
    (h3 : judge m (readReqOf m k s) (taken m ks s) = some (st, dt)) : serveCmd m op body s = declined m (readReqOf m k s) st dt [] (taken m ks s) := by
  unfold serveCmd; dsimp only
  rw [h1]; dsimp only
  rw [if_neg (by simp [h, h2])]
  unfold taken at h3
  rw [h3]
  rfl

/-- The request served lies in the slot at the head of the queue. -/
theorem asked_slot {m : Mailbox} {op k : Nat} {ks : List Nat} {r : Req} {s : State} (h : Asked m op k ks r s) : r.slot = k := by rw [h.req]; rfl

/-- A core read after a core is set. -/
theorem getCore_setCore {s : State} (h : wfK ({} : Core) s.cores = true) (n k : Node) (c : Core) :
    getCore (setCore n c s) k = if k = n then c else getCore s k := by
  unfold getCore setCore
  show getK ({} : Core) (putK {} s.cores n.toNat c) k.toNat = _
  rw [getK_putK _ h]
  simp [BitVec.toNat_inj]

/-- Only a LEAD of a pair sends PACE. -/
theorem sendPace_id {n : Node} {s : State} (h : (getCore s n).sig.pair = none ∨ (getCore s n).sig.trail = true) : sendPace n false s = s := by
  unfold sendPace
  dsimp only
  rw [if_neg]
  intro x
  rcases h with h | h <;> simp [h] at x

/-- A STICK counter counts to its top and stays there. -/
theorem stick_inc (w : Nat) (c : Stick w) : c.inc.val.toNat = min (c.val.toNat + 1) (2 ^ w - 1) ∧
    c.inc.sat = (c.sat || decide (2 ^ w ≤ c.val.toNat + 1)) := by
  have hl := c.val.isLt
  unfold Stick.inc
  split
  · rename_i h
    have : c.val.toNat = 2 ^ w - 1 := by rw [h]; simp
    have p := Nat.two_pow_pos w
    constructor
    · simp; omega
    · simp; omega
  · rename_i h
    have h1 : c.val.toNat ≠ 2 ^ w - 1 := by
      intro e; exact h (BitVec.eq_of_toNat_eq (by simp [e]))
    have : (c.val + 1#w).toNat = c.val.toNat + 1 := by
      rw [BitVec.toNat_add]; simp
      apply Nat.mod_eq_of_lt; omega
    simp only [this]
    refine ⟨by rw [Nat.min_def]; split <;> omega, ?_⟩
    have : ¬ (2 ^ w ≤ c.val.toNat + 1) := by omega
    simp [this]

/-- A byte of a part of a string. -/
theorem getD_sub (bs : List Byte) (n i : Nat) (h : i < n) : (sub bs 0 n).getD i 0 = bs.getD i 0 := by
  unfold sub
  simp only [List.drop_zero, List.getD_eq_getElem?_getD]
  rw [List.getElem?_append]
  split
  · rename_i h1
    rw [List.getElem?_take_of_lt h]
  · rename_i h1
    rw [List.getElem?_replicate]
    simp at h1
    rw [List.getElem?_eq_none (l := bs) (by omega)]
    split <;> simp

/-- An MSI-X message leaves the mailboxes alone. -/
theorem getMb_msix (m : Mailbox) (v : Nat) (s : State) : getMb m (msix v s) = getMb m s := by
  unfold msix; dsimp only; split <;> cases m <;> rfl

/-- An access inside a window that grants it. -/
theorem winOk_some {w : Option Window} {x : Window} {acc : Window → Bool} {off len : Nat} (h : w = some x) (h1 : acc x = true) (h2 : off + len ≤ x.length) :
    winOk w acc off len = some x := by subst h; simp [winOk, h1, h2]

/-- An access that has room and no earlier write to the same endpoint does not wait. -/
theorem accessWait_none {c : Core} {n : Node} {w : Window} {off : Nat} {s : State} (h1 : c.pend.length < 16)
    (h2 : writesTo c (endpointOf n w.space (winAddr w off)) = false) (h3 : w.space = .host → residentAt s n w.obj (winAddr w off) = true) (b : Bool) :
    accessWait c n w off b s = none := by
  unfold accessWait
  dsimp only
  rw [if_neg (by omega), if_neg (by simp [h2]), if_neg (by rintro ⟨a, b⟩; exact b (h3 a))]

/-- The wait test does not read what a trace writes. -/
theorem accessWait_st {c : Core} {n : Node} {w : Window} {off : Nat} {s : State} (h1 : c.pend.length < 16)
    (h3 : w.space = .host → residentAt s n w.obj (winAddr w off) = true) : accessWait c n w off false s = none := by
  unfold accessWait
  dsimp only
  rw [if_neg (by omega), if_neg (by simp), if_neg (by rintro ⟨a, b⟩; exact b (h3 a))]

/-- No trace record while the trace is stopped. -/
theorem traceRec_off {s : State} (h : s.trace.running = false) (n : Node) (k b : Nat) (p : List Byte) : traceRec n k b p s = s := by
  unfold traceRec
  simp [h]

/-- No KV request, nothing to advance. -/
theorem kvAdvance_nil {s : State} (h : s.kv.reqs = []) : kvAdvance s = s := by unfold kvAdvance; rw [h]; rfl

/-- A mailbox settles at once when its head is a command that it serves. -/
theorem settle_home {m : Mailbox} {k : Nat} {ks : List Nat} {s : State} (hf : (getMb m s).fifo = k :: ks)
    (h : (cmdInfo (readReqOf m k s).op).map (·.1) = some m) : settle 8 m s = s := by
  obtain ⟨⟨a, b, c⟩, h1, h2⟩ := Option.map_eq_some_iff.mp h
  simp only at h2
  subst h2
  simp [settle, hf, h1]

/-- A register read outside the shared block has no side effect. -/
theorem regRead_pair (off : Nat) (s : State) (h : off / 65536 ≠ 5 ∨ ¬(0x100 ≤ off % 65536 ∧ off % 65536 < 0x1C0)) : (regRead off s).2 = s := by
  unfold regRead
  dsimp only
  split
  all_goals try (rename_i e)
  all_goals try (first | rfl | (split <;> rfl) | (split <;> first | rfl | (split <;> rfl)))
  · rcases h with h | h
    · exact absurd e h
    · rw [if_neg h]
      split
      · rfl
      · split <;> rfl

/-- The two halves of a 64-bit register are read without a side effect. -/
theorem low_pair (off : Nat) (s : State) (h : lowHalf off = true) : (regRead off s).2 = s ∧ (regRead (off + 4) s).2 = s := by
  by_cases e : off / 65536 = 5
  · have ho : off % 65536 ≤ 0x78 := by
      unfold lowHalf at h
      simp only [e] at h
      simp at h
      omega
    constructor <;> apply regRead_pair <;> right <;> omega
  · constructor
    · exact regRead_pair _ _ (.inl e)
    · apply regRead_pair
      by_cases e2 : (off + 4) / 65536 = 5
      · right; omega
      · left; exact e2

/-- The latch read back. -/
theorem latch_get (s : State) (off : Nat) (v : W32) (h : wfK none s.dev.hiLatch = true) (j : Nat) :
    getK none (latch off v s).dev.hiLatch j = if j = off then some v else getK none s.dev.hiLatch j := by
  unfold latch
  exact getK_putK none h _ _ _

/-- The low half of an 8-byte value. -/
theorem le8_lo (v : Nat) (r : List Byte) : fld (leBytes 8 v ++ r) 0 4 = v % 2 ^ 32 := by
  simp [fld, leBytes, leVal]; omega

/-- The high half. -/
theorem le8_hi (v : Nat) (r : List Byte) : fld (leBytes 8 v ++ r) 4 4 = v / 2 ^ 32 % 2 ^ 32 := by
  simp [fld, leBytes, leVal]; omega

/-- Nothing waits, nothing is replayed. -/
theorem replayInbound_id {s : State} (h : s.host.inbWait = []) : replayInbound s = s := by
  unfold replayInbound
  split
  · rfl
  · rw [h, List.foldl_nil, ← h]

/-- No notice to clear. -/
theorem notices_id {t : State} (h : t.obj.notices = []) : { t with obj := { t.obj with notices := [] } } = t := by
  rw [← h]

/-- What a function reset clears. -/
theorem functionReset_flags (s : State) : (functionReset s).host.bme = false ∧ (functionReset s).host.atomicEn = false ∧ (functionReset s).host.msixEn = false ∧
  (functionReset s).host.d3 = false ∧ (functionReset s).host.needAttach = s.host.needAttach := ⟨rfl, rfl, rfl, rfl, rfl⟩

/-- No sump object, nothing of the KV pages is torn. -/
theorem kvTorn_none {s : State} (h : (kvPools s).sumpObj = none) : kvTorn s = s := by
  unfold kvTorn; rw [h]

/-- Posted writes sent one after another. -/
theorem emits (ws : List Posted) (t : State) : ws.foldl (fun (s : State) (w : Posted) => emit (.hostWrite w) s) t = { t with sent := t.sent ++ ws.map Out.hostWrite } := by
  induction ws generalizing t with
  | nil => simp
  | cons w ws ih => rw [List.foldl_cons, ih]; simp [emit]

/-- Counting meters changes the ledger alone. -/
theorem countMeters_frame (us : List Nat) (m : Nat) (s : State) : ∃ e, countMeters m us s = { s with energy := e } ∧ e.capped = s.energy.capped ∧ e.ceilingCnt = s.energy.ceilingCnt := by
  induction us generalizing m s with
  | nil => exact ⟨_, rfl, rfl, rfl⟩
  | cons u us ih =>
    unfold countMeters
    split
    · exact ih _ _
    · obtain ⟨e, h, h1, h2⟩ := ih (m + 1) (countMeter m u s)
      exact ⟨e, h, h1, h2⟩

/-- The series at zero. -/
theorem artanhSum_zero (n k : Nat) : artanhSum n k 0 0 = 0 := by
  induction n generalizing k with
  | zero => rfl
  | succ n ih => simp [artanhSum, ih]

end Sys2Proof.Laws
end

