-- ==== Sys2Proof/Laws/Tier.lean ====
section
/-! SUPPORT. The memory operations keep the memories' canonical form. -/

namespace Sys2Proof.Machine

theorem dramSet_ok {m : MemT} {x : Mem} {c b : List Nat} (h : TierOk m) (hx : Memory.wf x = true) :
    TierOk { m with dram := x, copied := c, dramBad := b } := ⟨h.chamber, h.staging, hx⟩

theorem copyGranule_ok {a : Nat} {m : MemT} (h : TierOk m) : TierOk (copyGranule a m) := by
  unfold copyGranule
  exact dramSet_ok h (Memory.wf_wrN _ _ h.dram)

theorem dramPut_ok {a : Nat} {b : Byte} {m : MemT} (h : TierOk m) : TierOk (dramPut a b m) := by
  have key : TierOk (if uncopied m a then copyGranule a m else m) := by
    split
    · exact copyGranule_ok h
    · exact h
  unfold dramPut
  generalize (if uncopied m a then copyGranule a m else m) = n at key
  exact ⟨key.chamber, key.staging, Memory.wf_putK _ _ key.dram⟩

theorem dramPuts_ok {a : Nat} {bs : List Byte} {en : List Bool} {m : MemT} (h : TierOk m) : TierOk (dramPuts a bs en m) := by
  induction bs generalizing a en m with
  | nil => cases en <;> exact h
  | cons b bs ih =>
    cases en with
    | nil => exact ih (dramPut_ok h)
    | cons e es =>
      simp only [dramPuts]
      split
      · exact ih (dramPut_ok h)
      · exact ih h

theorem countBytes_ok {c : BwClass} {a n : Nat} {m : MemT} (h : TierOk m) : TierOk (countBytes c a n m) := ⟨h.chamber, h.staging, h.dram⟩

theorem dramFold_ok {f : Nat × Byte → Nat} {l : List (Nat × Byte)} {d : Mem} (h : Memory.wf d = true) :
    Memory.wf (l.foldl (fun d e => putK 0 d (f e) e.2) d) = true := by
  induction l generalizing d with
  | nil => exact h
  | cons x xs ih => exact ih (Memory.wf_putK _ _ h)

theorem finishCopy_ok {m : MemT} (h : TierOk m) : TierOk (finishCopy m) := by
  unfold finishCopy
  split
  · exact h
  · exact ⟨h.chamber, h.staging, dramFold_ok (Memory.wf_filter _ h.dram)⟩

@[simp] theorem finishCopy_stalled (m : MemT) : (finishCopy m).stalled = m.stalled := by
  unfold finishCopy
  split <;> rfl

theorem dramStore_ok {a : Nat} {bs : List Byte} {m : MemT} (h : TierOk m) : TierOk (dramStore a bs m) :=
  ⟨(dramPuts_ok h).1, (dramPuts_ok h).2, (dramPuts_ok h).3⟩

theorem chamberPut_ok {a : Nat} {bs : List Byte} {en : List Bool} {m : MemT} (h : TierOk m) : TierOk (chamberPut a bs en m) :=
  ⟨Memory.wf_wrEn _ _ _ h.chamber, h.staging, h.dram⟩

theorem badDram_ok {l : List Nat} {m : MemT} (h : TierOk m) : TierOk { m with dramBad := l } := ⟨h.chamber, h.staging, h.dram⟩

theorem badChamber_ok {l : List Nat} {m : MemT} (h : TierOk m) : TierOk { m with chamberBad := l } := ⟨h.chamber, h.staging, h.dram⟩

theorem pageToDram_ok {c : BwClass} {a k : Nat} {m : MemT} (h : TierOk m) : TierOk (pageToDram c a k m) := by
  unfold pageToDram
  with_reducible exact badDram_ok (countBytes_ok (dramStore_ok h))

theorem pageToChamber_ok {c : BwClass} {a k : Nat} {m : MemT} (h : TierOk m) : TierOk (pageToChamber c a k m) := by
  unfold pageToChamber
  with_reducible exact badChamber_ok (chamberPut_ok (countBytes_ok h))

theorem stagingPut_ok {a : Nat} {bs : List Byte} {en : List Bool} {m : MemT} (h : TierOk m) : TierOk (stagingPut a bs en m) :=
  ⟨h.chamber, Memory.wf_wrEn _ _ _ h.staging, h.dram⟩

theorem setRegion_ok {r : CmpRegion} {m : MemT} (h : TierOk m) : TierOk (setRegion r m) := ⟨h.chamber, h.staging, h.dram⟩

theorem blockPut_ok {r : CmpRegion} {blk : Nat} {bs : List Byte} {m : MemT} (h : TierOk m) : TierOk (blockPut r blk bs m).1 := by
  unfold blockPut
  dsimp only
  split
  · exact setRegion_ok (chamberPut_ok h)
  · split
    · exact setRegion_ok h
    · exact setRegion_ok (chamberPut_ok (chamberPut_ok h))

theorem foldFst_ok {α β : Type} {f : MemT × β → α → MemT × β} {l : List α} {a : MemT × β} (ha : TierOk a.1)
    (hf : ∀ a x, TierOk a.1 → TierOk (f a x).1) : TierOk (l.foldl f a).1 := by
  induction l generalizing a with
  | nil => exact ha
  | cons x xs ih => exact ih (hf a x ha)

theorem fold_ok {α : Type} {f : MemT → α → MemT} {l : List α} {a : MemT} (ha : TierOk a)
    (hf : ∀ a x, TierOk a → TierOk (f a x)) : TierOk (l.foldl f a) := by
  induction l generalizing a with
  | nil => exact ha
  | cons x xs ih => exact ih (hf a x ha)

theorem iteFst_ok {β : Type} {c : Prop} {d : Decidable c} {a b : MemT × β} (ha : TierOk a.1) (hb : TierOk b.1) :
    TierOk (if c then a else b).1 := by
  split <;> assumption

theorem cropAll_ok {pr : Profile} {chans uw uh setAt : Nat} {ps : List Plane} {rs : List Roi} {m : MemT} (h : TierOk m) :
    TierOk (cropAll pr chans uw uh setAt ps rs m).1 := by
  unfold cropAll
  refine chamberPut_ok (foldFst_ok h ?_)
  intro a x ha
  exact iteFst_ok (chamberPut_ok ha) ha

theorem gateMem_ok {d : Nat} {m : MemT} (h : TierOk m) : TierOk (gateMem d m) := by
  unfold gateMem
  split
  · exact ⟨h.chamber, rfl, h.dram⟩
  · split
    · exact ⟨h.chamber, h.staging, rfl⟩
    · split
      · exact h
      · exact ⟨Memory.wf_filter _ h.chamber, h.staging, h.dram⟩

theorem freeSlots_ok {b : Mbx} (h : MbOk b) : MbOk (freeSlots b) := ⟨h.req, rfl⟩

theorem mbx_ok {s : State} (h : MemOk s) (m : Mailbox) : MbOk (getMb m s) := by
  cases m
  · exact h.mbD
  · exact h.mbL

end Sys2Proof.Machine
end

