-- ==== Sys2Proof/Laws/SteadyBase.lean ====
section
/-! SUPPORT. How `Steady` (Safety.lean) composes: over record updates, choices, matches and folds, and the steps that change a
field it watches. The files SteadyOps, SteadyCores, SteadyUnits, SteadyPlans and SteadyService hold one lemma for each operation. -/

namespace Sys2Proof.Machine

theorem Steady.refl (s : State) : Steady s s := ⟨rfl, rfl, List.prefix_refl _, id, Nat.le_refl _, id, id, id⟩

theorem Steady.trans {a b c : State} (h : Steady a b) (k : Steady b c) : Steady a c :=
  ⟨k.acc.trans h.acc, k.pending.trans h.pending, h.sent.trans k.sent, k.latch ∘ h.latch, Nat.le_trans h.otp k.otp, k.inc ∘ h.inc, k.sess ∘ h.sess,
    k.mem ∘ h.mem⟩

/-- A record update over a state that leaves the watched fields as they were. -/
theorem Steady.build {s0 E : State} (h : Steady s0 E) {free : Nat} {dev : Dev} {mbD mbL : Mbx} {urg : Urg} {fc : Fc} {log : Log} {ltn : Ltn}
    {time : TimeU} {energy : Energy} {mem : MemT} {kv : Kv} {fab : Fabric} {cores : SMap Core} {mir : Mir} {host : HostLink} {obj : Obj}
    {loop : Loop} {plans : List Loaded} {intake : Intake} {dv : Dv} {adapt : Adapt} {trace : TraceU} {sio : SMap SioPin}
    (ha : time.acc = E.time.acc) (hi : time.inc = E.time.inc) (hl : dev.lockedLatch = E.dev.lockedLatch)
    (hs : dev.sessions = E.dev.sessions) (ho : ltn.otpSteps = E.ltn.otpSteps)
    (hm : TierOk E.mem → TierOk mem) (hd : MbOk E.mbD → MbOk mbD) (hL : MbOk E.mbL → MbOk mbL) :
    Steady s0 (State.mk E.pending free E.sent dev mbD mbL urg fc log ltn time energy mem kv fab cores mir host obj loop plans intake dv
      adapt trace sio) :=
  h.trans ⟨ha, rfl, List.prefix_refl _, fun k => by simpa [hl] using k, by simp [ho], fun k => by simpa [hi] using k, fun k => by simpa [hs] using k,
    fun k => ⟨hm k.tier, hd k.mbD, hL k.mbL⟩⟩

theorem Steady.ite {s0 a b : State} {c : Prop} {d : Decidable c} (ha : Steady s0 a) (hb : Steady s0 b) : Steady s0 (if c then a else b) := by
  split <;> assumption

theorem Steady.iteH {s0 a b : State} {c : Prop} {d : Decidable c} (ha : c → Steady s0 a) (hb : Steady s0 b) : Steady s0 (if c then a else b) := by
  split
  · exact ha ‹_›
  · exact hb

theorem Steady.fold {s0 a : State} {α : Type} {f : State → α → State} {l : List α} (ha : Steady s0 a)
    (hf : ∀ s x, Steady s0 s → Steady s0 (f s x)) : Steady s0 (l.foldl f a) := by
  induction l generalizing a with
  | nil => exact ha
  | cons x xs ih => exact ih (hf a x ha)

theorem Steady.snd {s0 t : State} {α : Type} {p : α × State} {x : α} (e : p = (x, t)) (h : Steady s0 p.2) : Steady s0 t := by
  subst e; exact h

theorem Steady.fst {s0 t : State} {α : Type} {p : State × α} {x : α} (e : p = (t, x)) (h : Steady s0 p.1) : Steady s0 t := by
  subst e; exact h

theorem latch_set {s0 E : State} (h : Steady s0 E) {free : Nat} {dev : Dev} {mbD mbL : Mbx} {urg : Urg} {fc : Fc} {log : Log} {ltn : Ltn}
    {time : TimeU} {energy : Energy} {mem : MemT} {kv : Kv} {fab : Fabric} {cores : SMap Core} {mir : Mir} {host : HostLink} {obj : Obj}
    {loop : Loop} {plans : List Loaded} {intake : Intake} {dv : Dv} {adapt : Adapt} {trace : TraceU} {sio : SMap SioPin}
    (ha : time.acc = E.time.acc) (hi : time.inc = E.time.inc) (hl : dev.lockedLatch = true)
    (hs : dev.sessions = E.dev.sessions) (ho : ltn.otpSteps = E.ltn.otpSteps)
    (hm : TierOk E.mem → TierOk mem) (hd : MbOk E.mbD → MbOk mbD) (hL : MbOk E.mbL → MbOk mbL) :
    Steady s0 (State.mk E.pending free E.sent dev mbD mbL urg fc log ltn time energy mem kv fab cores mir host obj loop plans intake dv
      adapt trace sio) :=
  h.trans ⟨ha, rfl, List.prefix_refl _, fun _ => hl, by simp [ho], fun k => by simpa [hi] using k, fun k => by simpa [hs] using k,
    fun k => ⟨hm k.tier, hd k.mbD, hL k.mbL⟩⟩

theorem trimInc_ok (r : Int) : IncOk (trimInc r) := by
  unfold IncOk trimInc
  have h1 : (8589934592 - 1717986 : Int) ≤ max (8589934592 - 1717986) (min (8589934592 + 1717986) r) := by omega
  have h2 : max (8589934592 - 1717986 : Int) (min (8589934592 + 1717986) r) ≤ 8589934592 + 1717986 := by omega
  rw [BitVec.toNat_ofNat, Nat.mod_eq_of_lt (by omega)]
  omega

theorem Steady.incTo {s0 E : State} (h : Steady s0 E) (v : W64) (hv : IncOk v) : Steady s0 { E with time := { E.time with inc := v } } :=
  h.trans ⟨rfl, rfl, List.prefix_refl _, id, Nat.le_refl _, fun _ => hv, id, fun k => ⟨k.tier, k.mbD, k.mbL⟩⟩

theorem Steady.trim {s0 E : State} (h : Steady s0 E) (r : Int) : Steady s0 { E with time := { E.time with inc := trimInc r } } :=
  Steady.incTo h _ (trimInc_ok r)


theorem Steady.otpUp {s0 E : State} (h : Steady s0 E) (m : Nat) (hm : E.ltn.otpSteps ≤ m) :
    Steady s0 { E with ltn := { E.ltn with otpSteps := m } } :=
  h.trans ⟨rfl, rfl, List.prefix_refl _, id, hm, id, id, fun k => ⟨k.tier, k.mbD, k.mbL⟩⟩

theorem Steady.foldSnd {s0 : State} {α β : Type} {f : β × State → α → β × State} {l : List α} {a : β × State} (ha : Steady s0 a.2)
    (hf : ∀ p x, Steady s0 p.2 → Steady s0 (f p x).2) : Steady s0 (l.foldl f a).2 := by
  induction l generalizing a with
  | nil => exact ha
  | cons x xs ih => exact ih (hf a x ha)

theorem calibrated_ok (n : Nat) : IncOk (BitVec.ofNat 64 (2 ^ 33 + n % 3435973 - 1717986)) := by
  unfold IncOk
  have := Nat.mod_lt n (y := 3435973) (by decide)
  rw [BitVec.toNat_ofNat, Nat.mod_eq_of_lt (by omega)]
  omega


theorem TierOk.chamberSet {m : MemT} {x : Mem} (h : TierOk m) (hx : Memory.wf x = true) : TierOk { m with chamber := x } := ⟨hx, h.staging, h.dram⟩

theorem fresh_new (s : State) (hl : s.dev.sessions.length + 2 ≤ 2 ^ 32) :
    freshSession s ≠ 0 ∧ freshSession s ∉ s.dev.sessions := by
  unfold freshSession
  dsimp only
  split
  · have ex : ∃ w ∈ (List.range (s.dev.sessions.length + 2)).map (fun k => BitVec.ofNat 32 k),
        (!(decide (w = 0) || s.dev.sessions.contains w)) = true := by
      by_contra hc
      push Not at hc
      have sub : (List.range (s.dev.sessions.length + 2)).map (fun k => BitVec.ofNat 32 k) ⊆ (0 : W32) :: s.dev.sessions := by
        intro w hw
        have := hc w hw
        simp at this
        simp only [List.mem_cons]
        tauto
      have nd : ((List.range (s.dev.sessions.length + 2)).map (fun k => BitVec.ofNat 32 k)).Nodup := by
        refine List.Nodup.map_on ?_ List.nodup_range
        intro x hx y hy e
        simp only [List.mem_range] at hx hy
        have := congrArg BitVec.toNat e
        simp only [BitVec.toNat_ofNat] at this
        rw [Nat.mod_eq_of_lt (by omega), Nat.mod_eq_of_lt (by omega)] at this
        exact this
      have := (List.subperm_of_subset nd sub).length_le
      simp at this
    obtain ⟨w, hw, hu⟩ := ex
    have hs := (List.find?_isSome (p := fun w : W32 => !(decide (w = 0) || s.dev.sessions.contains w))).mpr ⟨w, hw, hu⟩
    obtain ⟨v, hv⟩ := Option.isSome_iff_exists.mp hs
    rw [hv]
    have := List.find?_some hv
    simp at this
    simpa using this
  · rename_i h
    simp at h
    simpa using h

theorem openSession_steady {s0 s : State} (h : Steady s0 s) {manifest} : Steady s0 (openSession manifest s) := by
  refine h.trans ⟨rfl, rfl, List.prefix_refl _, id, Nat.le_refl _, id, ?_, fun k => ⟨k.tier, k.mbD, k.mbL⟩⟩
  intro hs hl
  simp only [openSession, List.length_append, List.length_cons, List.length_nil] at hl
  obtain ⟨hn, h0⟩ := hs (by omega)
  obtain ⟨f0, fn⟩ := fresh_new s (by omega)
  refine ⟨?_, ?_⟩
  · simp only [openSession, List.nodup_append, List.nodup_cons, List.mem_singleton]
    refine ⟨hn, by simp, ?_⟩
    rintro a ha b rfl rfl
    exact fn ha
  · simp only [openSession, List.mem_append, List.mem_singleton, not_or]
    exact ⟨h0, fun e => f0 e.symm⟩

end Sys2Proof.Machine
end

