-- ==== Sys2Proof/Laws/SteadyOps.lean ====
section
/-! SUPPORT. `Steady` for the operations of Ops, Sources, Change, Boundary, Fault. -/

namespace Sys2Proof.Machine

theorem setCore_steady {s0 s : State} (h : Steady s0 s) {n c} : Steady s0 (setCore n c s) := by
  unfold setCore
  try dsimp only
  repeat' first
    | with_reducible (first
        | assumption | rfl | exact id | exact fun h => ⟨h.1, h.2⟩ | exact fun h => ⟨h.1, h.2, h.3⟩)
    | with_reducible refine Steady.build ?_ ?_ ?_ ?_ ?_ ?_ ?_ ?_ ?_

theorem tracePut_steady {s0 s : State} (h : Steady s0 s) {r0} : Steady s0 (tracePut r0 s) := by
  unfold tracePut
  try dsimp only
  repeat' first
    | with_reducible (first
        | exact fun h => ⟨h.1, Memory.wf_wrN _ _ h.2, h.3⟩ | assumption | rfl | exact id | exact fun h => ⟨h.1, h.2⟩
        | exact fun h => ⟨h.1, h.2, h.3⟩ | exact fun h => countBytes_ok (dramPuts_ok h) | apply Steady.ite)
    | split
    | with_reducible refine Steady.build ?_ ?_ ?_ ?_ ?_ ?_ ?_ ?_ ?_

theorem traceFunnel_steady {s0 s : State} (h : Steady s0 s) {kind dom payload} : Steady s0 (traceFunnel kind dom payload s) := by
  unfold traceFunnel
  try dsimp only
  repeat' first
    | with_reducible (first
        | assumption | rfl | exact id | exact fun h => ⟨h.1, h.2⟩ | exact fun h => ⟨h.1, h.2, h.3⟩ | apply tracePut_steady)
    | with_reducible refine Steady.build ?_ ?_ ?_ ?_ ?_ ?_ ?_ ?_ ?_

theorem traceRec_steady {s0 s : State} (h : Steady s0 s) {n kind maskBit payload} : Steady s0 (traceRec n kind maskBit payload s) := by
  unfold traceRec
  try dsimp only
  repeat' first
    | with_reducible (first
        | assumption | rfl | exact id | exact fun h => ⟨h.1, h.2⟩ | exact fun h => ⟨h.1, h.2, h.3⟩ | apply tracePut_steady
        | apply traceFunnel_steady | apply setCore_steady | apply Steady.ite | apply Steady.fold | intro _)
    | split
    | with_reducible refine Steady.build ?_ ?_ ?_ ?_ ?_ ?_ ?_ ?_ ?_

theorem updCore_steady {s0 s : State} (h : Steady s0 s) {n f} : Steady s0 (updCore n f s) := by
  unfold updCore
  try dsimp only
  repeat' first
    | with_reducible (first
        | assumption | rfl | apply setCore_steady)

theorem discardPairSigs_steady {s0 s : State} (h : Steady s0 s) {pair} : Steady s0 (discardPairSigs pair s) := by
  unfold discardPairSigs
  try dsimp only
  repeat' first
    | with_reducible (first
        | assumption | rfl | exact id | exact fun h => ⟨h.1, h.2⟩ | exact fun h => ⟨h.1, h.2, h.3⟩)
    | with_reducible refine Steady.build ?_ ?_ ?_ ?_ ?_ ?_ ?_ ?_ ?_

theorem emit_steady {s0 s : State} (h : Steady s0 s) {o} : Steady s0 (emit o s) :=
  h.trans ⟨rfl, rfl, List.prefix_append _ _, id, Nat.le_refl _, id, id, fun k => ⟨k.tier, k.mbD, k.mbL⟩⟩

theorem emitFab_steady {s0 s : State} (h : Steady s0 s) {m} : Steady s0 (emitFab m s) := by
  unfold emitFab
  try dsimp only
  repeat' first
    | with_reducible (first
        | assumption | rfl | apply emit_steady)

theorem markOutputs_steady {s0 s : State} (h : Steady s0 s) {p cls src} : Steady s0 (markOutputs p cls src s) := by
  unfold markOutputs
  try dsimp only
  repeat' first
    | with_reducible (first
        | assumption | rfl | exact id | exact fun h => ⟨h.1, h.2⟩ | exact fun h => ⟨h.1, h.2, h.3⟩ | apply Steady.ite)
    | split
    | with_reducible refine Steady.build ?_ ?_ ?_ ?_ ?_ ?_ ?_ ?_ ?_

theorem dvPump_steady {s0 s : State} (h : Steady s0 s) {w0 w1} : Steady s0 (dvPump w0 w1 s) := by
  induction w0 generalizing s with
  | zero => exact h
  | succ n ih =>
    simp only [dvPump]
    split
    · exact h
    · split
      · exact h
      · exact ih (emit_steady (Steady.build h rfl rfl rfl rfl rfl id id id))

theorem dvQueue_steady {s0 s : State} (h : Steady s0 s) {k f} : Steady s0 (dvQueue k f s) := by
  unfold dvQueue
  try dsimp only
  repeat' first
    | with_reducible (first
        | assumption | rfl | exact id | exact fun h => ⟨h.1, h.2⟩ | exact fun h => ⟨h.1, h.2, h.3⟩ | apply dvPump_steady)
    | with_reducible refine Steady.build ?_ ?_ ?_ ?_ ?_ ?_ ?_ ?_ ?_

theorem dvSend_steady {s0 s : State} (h : Steady s0 s) {k chan dst payload} : Steady s0 (dvSend k chan dst payload s) := by
  unfold dvSend
  try dsimp only
  repeat' first
    | with_reducible (first
        | assumption | rfl | exact id | exact fun h => ⟨h.1, h.2⟩ | exact fun h => ⟨h.1, h.2, h.3⟩ | apply dvQueue_steady)
    | with_reducible refine Steady.build ?_ ?_ ?_ ?_ ?_ ?_ ?_ ?_ ?_

theorem toPartner_steady {s0 s : State} (h : Steady s0 s) {chan payload} : Steady s0 (toPartner chan payload s) := by
  unfold toPartner
  try dsimp only
  repeat' first
    | with_reducible (first
        | assumption | rfl | apply dvSend_steady)
    | split

theorem announce_steady {s0 s : State} (h : Steady s0 s) : Steady s0 (announce s) := by
  unfold announce
  try dsimp only
  repeat' first
    | with_reducible (first
        | assumption | rfl | apply toPartner_steady | apply dvSend_steady | apply Steady.ite)
    | split

theorem c2Reaction_steady {s0 s : State} (h : Steady s0 s) {src i} : Steady s0 (c2Reaction src i s).1 := by
  unfold c2Reaction
  try dsimp only
  repeat' first
    | with_reducible (first
        | assumption | rfl | exact id | exact fun h => ⟨h.1, h.2⟩ | exact fun h => ⟨h.1, h.2, h.3⟩ | apply markOutputs_steady | apply Steady.ite)
    | split
    | with_reducible refine Steady.build ?_ ?_ ?_ ?_ ?_ ?_ ?_ ?_ ?_

theorem driveSafe_steady {s0 s : State} (h : Steady s0 s) {asserted} : Steady s0 (driveSafe asserted s) := by
  unfold driveSafe
  try dsimp only
  repeat' first
    | with_reducible (first
        | assumption | rfl | exact id | exact fun h => ⟨h.1, h.2⟩ | exact fun h => ⟨h.1, h.2, h.3⟩)
    | with_reducible refine Steady.build ?_ ?_ ?_ ?_ ?_ ?_ ?_ ?_ ?_

theorem dropRun_steady {s0 s : State} (h : Steady s0 s) : Steady s0 (dropRun s) := by
  unfold dropRun
  try dsimp only
  repeat' first
    | with_reducible (first
        | assumption | rfl | exact id | exact fun h => ⟨h.1, h.2⟩ | exact fun h => ⟨h.1, h.2, h.3⟩)
    | with_reducible refine Steady.build ?_ ?_ ?_ ?_ ?_ ?_ ?_ ?_ ?_

theorem msix_steady {s0 s : State} (h : Steady s0 s) {v} : Steady s0 (msix v s) := by
  unfold msix
  try dsimp only
  repeat' first
    | with_reducible (first
        | assumption | rfl | exact id | exact fun h => ⟨h.1, h.2⟩ | exact fun h => ⟨h.1, h.2, h.3⟩ | apply emit_steady | apply Steady.ite)
    | split
    | with_reducible refine Steady.build ?_ ?_ ?_ ?_ ?_ ?_ ?_ ?_ ?_

theorem setMb_steady {s0 s : State} (h : Steady s0 s) {m b} (hb : MbOk (getMb m s) → MbOk b) : Steady s0 (setMb m b s) := by
  cases m
  · exact Steady.build h rfl rfl rfl rfl rfl id hb id
  · exact Steady.build h rfl rfl rfl rfl rfl id id hb

theorem respond_steady {s0 s : State} (h : Steady s0 s) {m slot status detail results} : Steady s0 (respond m slot status detail results s) := by
  unfold respond
  try dsimp only
  repeat' first
    | with_reducible (first
        | exact fun h => ⟨h.1, Memory.wf_wrN _ _ h.2⟩ | assumption | rfl | exact id | exact fun h => ⟨h.1, h.2⟩ | exact fun h => ⟨h.1, h.2, h.3⟩
        | apply setMb_steady | apply msix_steady | apply Steady.ite)
    | split

theorem abandon_steady {s0 s : State} (h : Steady s0 s) {m ops} : Steady s0 (abandon m ops s) := by
  unfold abandon
  try dsimp only
  repeat' first
    | with_reducible (first
        | assumption | rfl | exact id | exact fun h => ⟨h.1, h.2⟩ | exact fun h => ⟨h.1, h.2, h.3⟩ | apply setMb_steady | apply respond_steady
        | apply Steady.fold | intro _)

theorem clearLedger_steady {s0 s : State} (h : Steady s0 s) : Steady s0 (clearLedger s) := by
  unfold clearLedger
  try dsimp only
  repeat' first
    | with_reducible (first
        | assumption | rfl | exact id | exact fun h => ⟨h.1, h.2⟩ | exact fun h => ⟨h.1, h.2, h.3⟩)
    | with_reducible refine Steady.build ?_ ?_ ?_ ?_ ?_ ?_ ?_ ?_ ?_

theorem snapClips_steady {s0 s : State} (h : Steady s0 s) {n clear} : Steady s0 (snapClips n clear s) := by
  unfold snapClips
  try dsimp only
  repeat' first
    | with_reducible (first
        | assumption | rfl | apply updCore_steady | apply Steady.ite)
    | split

theorem answerOne_steady {s0 s : State} (h : Steady s0 s) {w} : Steady s0 (answerOne w s) := by
  unfold answerOne
  try dsimp only
  repeat' first
    | with_reducible (first
        | assumption | rfl | apply snapClips_steady | apply respond_steady | apply clearLedger_steady | apply Steady.ite)
    | split

theorem logPut_steady {s0 s : State} (h : Steady s0 s) {kind cls code payload} : Steady s0 (logPut kind cls code payload s) := by
  unfold logPut
  try dsimp only
  repeat' first
    | with_reducible (first
        | exact fun h => ⟨h.1, Memory.wf_wrN _ _ h.2, h.3⟩ | assumption | rfl | exact id | exact fun h => ⟨h.1, h.2⟩
        | exact fun h => ⟨h.1, h.2, h.3⟩ | apply Steady.ite)
    | split
    | with_reducible refine Steady.build ?_ ?_ ?_ ?_ ?_ ?_ ?_ ?_ ?_

theorem logRec_steady {s0 s : State} (h : Steady s0 s) {kind cls code payload} : Steady s0 (logRec kind cls code payload s) := by
  unfold logRec
  try dsimp only
  repeat' first
    | with_reducible (first
        | assumption | rfl | exact id | exact fun h => ⟨h.1, h.2⟩ | exact fun h => ⟨h.1, h.2, h.3⟩ | apply logPut_steady)
    | split
    | with_reducible refine Steady.build ?_ ?_ ?_ ?_ ?_ ?_ ?_ ?_ ?_

theorem guardLog_steady {s0 s : State} (h : Steady s0 s) {reason} : Steady s0 (guardLog reason s) := by
  unfold guardLog
  try dsimp only
  repeat' first
    | with_reducible (first
        | assumption | rfl | apply logRec_steady)

theorem updGuard_steady {s0 s : State} (h : Steady s0 s) {f} : Steady s0 (updGuard f s) := by
  unfold updGuard
  try dsimp only
  repeat' first
    | with_reducible (first
        | assumption | rfl | exact id | exact fun h => ⟨h.1, h.2⟩ | exact fun h => ⟨h.1, h.2, h.3⟩)
    | with_reducible refine Steady.build ?_ ?_ ?_ ?_ ?_ ?_ ?_ ?_ ?_

theorem guardPhase_steady {s0 s : State} (h : Steady s0 s) {p reason} : Steady s0 (guardPhase p reason s) := by
  unfold guardPhase
  try dsimp only
  repeat' first
    | with_reducible (first
        | assumption | rfl | apply guardLog_steady | apply updGuard_steady)

theorem updCfg_steady {s0 s : State} (h : Steady s0 s) {f} : Steady s0 (updCfg f s) := by
  unfold updCfg
  try dsimp only
  repeat' first
    | with_reducible (first
        | assumption | rfl | exact id | exact fun h => ⟨h.1, h.2⟩ | exact fun h => ⟨h.1, h.2, h.3⟩)
    | with_reducible refine Steady.build ?_ ?_ ?_ ?_ ?_ ?_ ?_ ?_ ?_

theorem restoreCopy_steady {s0 s : State} (h : Steady s0 s) : Steady s0 (restoreCopy s) := by
  unfold restoreCopy
  try dsimp only
  repeat' first
    | with_reducible (first
        | assumption | rfl | apply updGuard_steady | apply updCfg_steady)

theorem restartSamples_steady {s0 s : State} (h : Steady s0 s) {old} : Steady s0 (restartSamples old s) := by
  unfold restartSamples
  try dsimp only
  repeat' first
    | with_reducible (first
        | assumption | rfl | exact id | exact fun h => ⟨h.1, h.2⟩ | exact fun h => ⟨h.1, h.2, h.3⟩)
    | with_reducible refine Steady.build ?_ ?_ ?_ ?_ ?_ ?_ ?_ ?_ ?_

theorem applyDue_steady {s0 s : State} (h : Steady s0 s) : Steady s0 (applyDue s) := by
  unfold applyDue
  try dsimp only
  repeat' first
    | with_reducible (first
        | assumption | rfl | exact id | exact fun h => ⟨h.1, h.2⟩ | exact fun h => ⟨h.1, h.2, h.3⟩ | apply restoreCopy_steady
        | apply restartSamples_steady | apply guardPhase_steady | apply updCfg_steady | apply updGuard_steady | apply Steady.ite)
    | split
    | with_reducible refine Steady.build ?_ ?_ ?_ ?_ ?_ ?_ ?_ ?_ ?_

theorem answerBoundary_steady {s0 s : State} (h : Steady s0 s) : Steady s0 (answerBoundary s) := by
  unfold answerBoundary
  try dsimp only
  repeat' first
    | with_reducible (first
        | assumption | rfl | exact id | exact fun h => ⟨h.1, h.2⟩ | exact fun h => ⟨h.1, h.2, h.3⟩ | apply applyDue_steady | apply answerOne_steady
        | apply Steady.fold | intro _)
    | with_reducible refine Steady.build ?_ ?_ ?_ ?_ ?_ ?_ ?_ ?_ ?_

theorem endLoop_steady {s0 s : State} (h : Steady s0 s) : Steady s0 (endLoop s) := by
  unfold endLoop
  try dsimp only
  repeat' first
    | with_reducible (first
        | assumption | rfl | exact id | exact fun h => ⟨h.1, h.2⟩ | exact fun h => ⟨h.1, h.2, h.3⟩ | apply answerBoundary_steady
        | apply abandon_steady)
    | split
    | with_reducible refine Steady.build ?_ ?_ ?_ ?_ ?_ ?_ ?_ ?_ ?_

theorem traceRun_steady {s0 s : State} (h : Steady s0 s) {before src} : Steady s0 (traceRun before src s) := by
  unfold traceRun
  try dsimp only
  repeat' first
    | with_reducible (first
        | assumption | rfl | apply traceRec_steady | apply Steady.ite | apply Steady.fold | intro _)
    | split

theorem stopCores_steady {s0 s : State} (h : Steady s0 s) {p} : Steady s0 (stopCores p s) := by
  unfold stopCores
  try dsimp only
  repeat' first
    | with_reducible (first
        | assumption | rfl | exact id | exact fun h => ⟨h.1, h.2⟩ | exact fun h => ⟨h.1, h.2, h.3⟩ | apply traceRun_steady | apply Steady.ite)
    | split
    | with_reducible refine Steady.build ?_ ?_ ?_ ?_ ?_ ?_ ?_ ?_ ?_

theorem tornMark_steady {s0 s : State} (h : Steady s0 s) {obj len flag} : Steady s0 (tornMark obj len flag s) := by
  unfold tornMark
  try dsimp only
  repeat' first
    | with_reducible (first
        | assumption | rfl | exact id | exact fun h => ⟨h.1, h.2⟩ | exact fun h => ⟨h.1, h.2, h.3⟩ | apply Steady.ite)
    | split
    | with_reducible refine Steady.build ?_ ?_ ?_ ?_ ?_ ?_ ?_ ?_ ?_

theorem discardPosted_steady {s0 s : State} (h : Steady s0 s) {flag w} : Steady s0 (discardPosted flag w s) := by
  unfold discardPosted
  try dsimp only
  repeat' first
    | with_reducible (first
        | assumption | rfl | apply tornMark_steady)
    | split

theorem postWrite_steady {s0 s : State} (h : Steady s0 s) {w} : Steady s0 (postWrite w s) := by
  unfold postWrite
  try dsimp only
  repeat' first
    | with_reducible (first
        | assumption | rfl | exact id | exact fun h => ⟨h.1, h.2⟩ | exact fun h => ⟨h.1, h.2, h.3⟩ | apply discardPosted_steady | apply emit_steady
        | apply Steady.ite)
    | split
    | with_reducible refine Steady.build ?_ ?_ ?_ ?_ ?_ ?_ ?_ ?_ ?_

theorem setEvt_steady {s0 s : State} (h : Steady s0 s) {e} : Steady s0 (setEvt e s) := by
  unfold setEvt
  try dsimp only
  repeat' first
    | with_reducible (first
        | assumption | rfl | exact id | exact fun h => ⟨h.1, h.2⟩ | exact fun h => ⟨h.1, h.2, h.3⟩ | apply Steady.ite)
    | split
    | with_reducible refine Steady.build ?_ ?_ ?_ ?_ ?_ ?_ ?_ ?_ ?_

theorem deliverTo_steady {s0 s : State} (h : Steady s0 s) {e r} : Steady s0 (deliverTo e r s) := by
  unfold deliverTo
  try dsimp only
  repeat' first
    | with_reducible (first
        | assumption | rfl | apply setEvt_steady | apply postWrite_steady | apply msix_steady | apply Steady.ite)
    | split

theorem hostReq_steady {s0 s : State} (h : Steady s0 s) {what mk} : Steady s0 (hostReq what mk s) := by
  unfold hostReq
  try dsimp only
  repeat' first
    | with_reducible (first
        | assumption | rfl | exact id | exact fun h => ⟨h.1, h.2⟩ | exact fun h => ⟨h.1, h.2, h.3⟩ | apply emit_steady)
    | with_reducible refine Steady.build ?_ ?_ ?_ ?_ ?_ ?_ ?_ ?_ ?_

theorem postEvent_steady {s0 s : State} (h : Steady s0 s) {event kind payload} : Steady s0 (postEvent event kind payload s) := by
  unfold postEvent
  try dsimp only
  repeat' first
    | with_reducible (first
        | assumption | rfl | exact id | exact fun h => ⟨h.1, h.2⟩ | exact fun h => ⟨h.1, h.2, h.3⟩ | apply hostReq_steady | apply deliverTo_steady
        | apply Steady.ite)
    | split
    | with_reducible refine Steady.build ?_ ?_ ?_ ?_ ?_ ?_ ?_ ?_ ?_

theorem notifyAll_steady {s0 s : State} (h : Steady s0 s) {kind payload} : Steady s0 (notifyAll kind payload s) := by
  unfold notifyAll
  try dsimp only
  repeat' first
    | with_reducible (first
        | assumption | rfl | apply postEvent_steady | apply Steady.fold | intro _)

theorem driveFault_steady {s0 s : State} (h : Steady s0 s) {f} : Steady s0 (driveFault f s) := by
  unfold driveFault
  try dsimp only
  repeat' first
    | with_reducible (first
        | assumption | rfl | exact id | exact fun h => ⟨h.1, h.2⟩ | exact fun h => ⟨h.1, h.2, h.3⟩)
    | with_reducible refine Steady.build ?_ ?_ ?_ ?_ ?_ ?_ ?_ ?_ ?_

theorem driveAlive_steady {s0 s : State} (h : Steady s0 s) {b} : Steady s0 (driveAlive b s) := by
  unfold driveAlive
  try dsimp only
  repeat' first
    | with_reducible (first
        | assumption | rfl | exact id | exact fun h => ⟨h.1, h.2⟩ | exact fun h => ⟨h.1, h.2, h.3⟩)
    | with_reducible refine Steady.build ?_ ?_ ?_ ?_ ?_ ?_ ?_ ?_ ?_

theorem transition_steady {s0 s : State} (h : Steady s0 s) {st prior cause} : Steady s0 (transition st prior cause s) := by
  unfold transition
  try dsimp only
  repeat' first
    | with_reducible (first
        | assumption | rfl | exact id | exact fun h => ⟨h.1, h.2⟩ | exact fun h => ⟨h.1, h.2, h.3⟩ | apply logRec_steady | apply notifyAll_steady
        | apply driveFault_steady)
    | with_reducible refine Steady.build ?_ ?_ ?_ ?_ ?_ ?_ ?_ ?_ ?_

theorem c3Reaction_steady {s0 s : State} (h : Steady s0 s) {src i} : Steady s0 (c3Reaction src i s) := by
  unfold c3Reaction
  try dsimp only
  repeat' first
    | with_reducible (first
        | assumption | rfl | exact id | exact fun h => ⟨h.1, h.2⟩ | exact fun h => ⟨h.1, h.2, h.3⟩ | apply driveSafe_steady
        | apply markOutputs_steady | apply stopCores_steady | apply dropRun_steady | apply endLoop_steady | apply transition_steady
        | apply driveFault_steady
        | apply Steady.ite)
    | split
    | with_reducible refine Steady.build ?_ ?_ ?_ ?_ ?_ ?_ ?_ ?_ ?_

theorem c4Reaction_steady {s0 s : State} (h : Steady s0 s) {src i} : Steady s0 (c4Reaction src i s) := by
  unfold c4Reaction
  dsimp only
  repeat' first
    | with_reducible assumption
    | with_reducible rfl
    | with_reducible apply Steady.ite
    | with_reducible apply transition_steady
    | with_reducible apply dropRun_steady
    | with_reducible apply endLoop_steady
    | with_reducible apply stopCores_steady
    | with_reducible apply markOutputs_steady
    | with_reducible apply driveSafe_steady
    | with_reducible refine latch_set ?_ rfl rfl rfl rfl rfl id (fun h => ⟨h.1, h.2⟩) (fun h => ⟨h.1, h.2⟩)
    | with_reducible refine Steady.build ?_ ?_ ?_ ?_ ?_ ?_ id ?_ ?_
    | exact id

theorem insertActive_steady {s0 s : State} (h : Steady s0 s) {e} : Steady s0 (insertActive e s) := by
  unfold insertActive
  try dsimp only
  repeat' first
    | with_reducible (first
        | assumption | rfl | exact id | exact fun h => ⟨h.1, h.2⟩ | exact fun h => ⟨h.1, h.2, h.3⟩ | apply Steady.ite)
    | split
    | with_reducible refine Steady.build ?_ ?_ ?_ ?_ ?_ ?_ ?_ ?_ ?_

theorem loadUrgent_steady {s0 s : State} (h : Steady s0 s) : Steady s0 (loadUrgent s) := by
  unfold loadUrgent
  try dsimp only
  repeat' first
    | with_reducible (first
        | assumption | rfl | exact id | exact fun h => ⟨h.1, h.2⟩ | exact fun h => ⟨h.1, h.2, h.3⟩ | apply msix_steady)
    | split
    | with_reducible refine Steady.build ?_ ?_ ?_ ?_ ?_ ?_ ?_ ?_ ?_

theorem report_steady {s0 s : State} (h : Steady s0 s) {r} : Steady s0 (report r s) := by
  unfold report
  try dsimp only
  repeat' first
    | with_reducible (first
        | assumption | rfl | exact id | exact fun h => ⟨h.1, h.2⟩ | exact fun h => ⟨h.1, h.2, h.3⟩ | apply loadUrgent_steady | apply Steady.ite)
    | split
    | with_reducible refine Steady.build ?_ ?_ ?_ ?_ ?_ ?_ ?_ ?_ ?_

theorem register_steady {s0 s : State} (h : Steady s0 s) {src i cls partner detail force} : Steady s0 (register src i cls partner detail force s) := by
  unfold register
  try dsimp only
  repeat' first
    | with_reducible (first
        | assumption | rfl | apply logRec_steady | apply insertActive_steady | apply report_steady | apply Steady.ite)
    | split

theorem raise1_steady {s0 s : State} (h : Steady s0 s) {src i cls partner detail force} : Steady s0 (raise1 src i cls partner detail force s).1 := by
  unfold raise1
  try dsimp only
  repeat' first
    | with_reducible (first
        | assumption | rfl | exact id | exact fun h => ⟨h.1, h.2⟩ | exact fun h => ⟨h.1, h.2, h.3⟩ | apply register_steady | apply c2Reaction_steady
        | apply c3Reaction_steady | apply c4Reaction_steady | apply announce_steady | apply Steady.ite | apply Steady.fst (by assumption))
    | split
    | with_reducible refine Steady.build ?_ ?_ ?_ ?_ ?_ ?_ ?_ ?_ ?_

theorem enter_steady {s0 s : State} (h : Steady s0 s) {st prior cause} : Steady s0 (enter st prior cause s) := by
  unfold enter
  try dsimp only
  repeat' first
    | with_reducible (first
        | assumption | rfl | apply announce_steady | apply transition_steady)

theorem stopTorch_steady {s0 s : State} (h : Steady s0 s) {reason cause} : Steady s0 (stopTorch reason cause s) := by
  unfold stopTorch
  try dsimp only
  repeat' first
    | with_reducible (first
        | assumption | rfl | exact id | exact fun h => ⟨h.1, h.2⟩ | exact fun h => ⟨h.1, h.2, h.3⟩ | apply stopCores_steady | apply enter_steady
        | apply answerBoundary_steady)
    | split
    | with_reducible refine Steady.build ?_ ?_ ?_ ?_ ?_ ?_ ?_ ?_ ?_

theorem raiseAs_steady {s0 s : State} (h : Steady s0 s) {src i cls partner detail} : Steady s0 (raiseAs src i cls partner detail s) := by
  unfold raiseAs
  try dsimp only
  repeat' first
    | with_reducible (first
        | assumption | rfl | apply raise1_steady | apply stopTorch_steady | apply Steady.ite | apply Steady.fst (by assumption))
    | split

theorem updPair_steady {s0 s : State} (h : Steady s0 s) {pair f} : Steady s0 (updPair pair f s) := by
  unfold updPair
  try dsimp only
  repeat' first
    | with_reducible (first
        | assumption | rfl | exact id | exact fun h => ⟨h.1, h.2⟩ | exact fun h => ⟨h.1, h.2, h.3⟩ | apply Steady.ite)
    | split
    | with_reducible refine Steady.build ?_ ?_ ?_ ?_ ?_ ?_ ?_ ?_ ?_

theorem mismatch_steady {s0 s : State} (h : Steady s0 s) {p detail} : Steady s0 (mismatch p detail s) := by
  unfold mismatch
  try dsimp only
  repeat' first
    | with_reducible (first
        | assumption | rfl | apply raiseAs_steady | apply discardPairSigs_steady | apply emitFab_steady | apply traceRun_steady
        | apply updCore_steady | apply updPair_steady | apply markOutputs_steady | apply Steady.ite)
    | split

theorem raise_steady {s0 s : State} (h : Steady s0 s) {src i detail} : Steady s0 (raise src i detail s) := by
  unfold raise
  try dsimp only
  repeat' first
    | with_reducible (first
        | assumption | rfl | apply mismatch_steady | apply register_steady | apply raiseAs_steady | apply Steady.ite)
    | split

theorem setIsland_steady {s0 s : State} (h : Steady s0 s) {n i} : Steady s0 (setIsland n i s) := by
  unfold setIsland
  try dsimp only
  repeat' first
    | with_reducible (first
        | assumption | rfl | exact id | exact fun h => ⟨h.1, h.2⟩ | exact fun h => ⟨h.1, h.2, h.3⟩)
    | with_reducible refine Steady.build ?_ ?_ ?_ ?_ ?_ ?_ ?_ ?_ ?_

theorem clearLevel_steady {s0 s : State} (h : Steady s0 s) {src i} : Steady s0 (clearLevel src i s) := by
  unfold clearLevel
  try dsimp only
  repeat' first
    | with_reducible (first
        | assumption | rfl | exact id | exact fun h => ⟨h.1, h.2⟩ | exact fun h => ⟨h.1, h.2, h.3⟩ | apply Steady.ite)
    | split
    | with_reducible refine Steady.build ?_ ?_ ?_ ?_ ?_ ?_ ?_ ?_ ?_

theorem note_steady {s0 s : State} (h : Steady s0 s) {code payload} : Steady s0 (note code payload s) := by
  unfold note
  try dsimp only
  repeat' first
    | with_reducible (first
        | assumption | rfl | apply logRec_steady)

theorem freshBits_steady {s0 s : State} (h : Steady s0 s) {w} : Steady s0 (freshBits w s).2 := by
  unfold freshBits
  try dsimp only
  repeat' first
    | with_reducible (first
        | assumption | rfl | exact id | exact fun h => ⟨h.1, h.2⟩ | exact fun h => ⟨h.1, h.2, h.3⟩)
    | with_reducible refine Steady.build ?_ ?_ ?_ ?_ ?_ ?_ ?_ ?_ ?_

theorem configWriteDone_steady {s0 s : State} (h : Steady s0 s) {ok} : Steady s0 (configWriteDone ok s) := by
  unfold configWriteDone
  try dsimp only
  repeat' first
    | with_reducible (first
        | assumption | rfl | apply updGuard_steady | apply guardPhase_steady | apply updCfg_steady | apply restoreCopy_steady
        | apply applyDue_steady | apply Steady.ite)
    | split

theorem endProposal_steady {s0 s : State} (h : Steady s0 s) : Steady s0 (endProposal s) := by
  unfold endProposal
  try dsimp only
  repeat' first
    | with_reducible (first
        | assumption | rfl | apply guardPhase_steady | apply updGuard_steady | apply updCfg_steady | apply Steady.ite)
    | split

theorem vetoProposal_steady {s0 s : State} (h : Steady s0 s) {id reason} : Steady s0 (vetoProposal id reason s).2 := by
  unfold vetoProposal
  try dsimp only
  repeat' first
    | with_reducible (first
        | assumption | rfl | apply guardPhase_steady | apply restoreCopy_steady | apply Steady.ite)
    | split

end Sys2Proof.Machine
end

