-- ==== Sys2Proof/Laws/SteadyCores.lean ====
section
/-! SUPPORT. `Steady` for the operations of Fp, Operands, Flags, Scalar, Access, Array, Vector, Tick, Voltage, Message, CoreCtl, MemTier, Fabric, Kv. -/

namespace Sys2Proof.Machine

theorem changeCore_steady {s0 s : State} (h : Steady s0 s) {n f} : Steady s0 (changeCore n f s) := by
  unfold changeCore
  try dsimp only
  repeat' first
    | with_reducible (first
        | assumption | rfl | apply updCore_steady | apply traceRec_steady | apply Steady.ite)
    | split

theorem sigClose_steady {s0 s : State} (h : Steady s0 s) {n} : Steady s0 (sigClose n s) := by
  unfold sigClose
  try dsimp only
  repeat' first
    | with_reducible (first
        | assumption | rfl | apply traceRec_steady | apply emitFab_steady | apply updCore_steady)
    | split

theorem coreFaultRec_steady {s0 s : State} (h : Steady s0 s) {n src r} : Steady s0 (coreFaultRec n src r s) := by
  unfold coreFaultRec
  try dsimp only
  repeat' first
    | with_reducible (first
        | assumption | rfl | apply changeCore_steady | apply raise_steady | apply sigClose_steady)

theorem coreFault_steady {s0 s : State} (h : Steady s0 s) {n src index off} : Steady s0 (coreFault n src index off s) := by
  unfold coreFault
  try dsimp only
  repeat' first
    | with_reducible (first
        | assumption | rfl | apply coreFaultRec_steady)

theorem coreWait_steady {s0 s : State} (h : Steady s0 s) {n w} : Steady s0 (coreWait n w s) := by
  unfold coreWait
  try dsimp only
  repeat' first
    | with_reducible (first
        | assumption | rfl | apply changeCore_steady)

theorem sendPace_steady {s0 s : State} (h : Steady s0 s) {n final} : Steady s0 (sendPace n final s) := by
  unfold sendPace
  try dsimp only
  repeat' first
    | with_reducible (first
        | assumption | rfl | apply emitFab_steady | apply Steady.ite)
    | split

theorem retireTo_steady {s0 s : State} (h : Steady s0 s) {n pc} : Steady s0 (retireTo n pc s) := by
  unfold retireTo
  try dsimp only
  repeat' first
    | with_reducible (first
        | assumption | rfl | apply updCore_steady | apply sendPace_steady | apply coreFaultRec_steady)
    | split

theorem retire_steady {s0 s : State} (h : Steady s0 s) {n} : Steady s0 (retire n s) := by
  unfold retire
  try dsimp only
  repeat' first
    | with_reducible (first
        | assumption | rfl | apply retireTo_steady)

theorem retireWith_steady {s0 s : State} (h : Steady s0 s) {n c} : Steady s0 (retireWith n c s) := by
  unfold retireWith
  try dsimp only
  repeat' first
    | with_reducible (first
        | assumption | rfl | apply retire_steady | apply setCore_steady)

theorem a1modeStep_steady {s0 s : State} (h : Steady s0 s) {n f c} : Steady s0 (a1modeStep n f c s) := by
  unfold a1modeStep
  try dsimp only
  repeat' first
    | with_reducible (first
        | assumption | rfl | apply coreFault_steady | apply coreWait_steady | apply retireWith_steady | apply Steady.ite)
    | split

theorem agFault_steady {s0 s : State} (h : Steady s0 s) {n k src g off row col} : Steady s0 (agFault n k src g off row col s) := by
  unfold agFault
  try dsimp only
  repeat' first
    | with_reducible (first
        | assumption | rfl | apply coreFaultRec_steady)

theorem agRunEnd_steady {s0 s : State} (h : Steady s0 s) {n k} : Steady s0 (agRunEnd n k s) := by
  unfold agRunEnd
  try dsimp only
  repeat' first
    | with_reducible (first
        | assumption | rfl | apply traceRec_steady | apply setCore_steady | apply Steady.ite)
    | split

theorem useTrans_steady {s0 s : State} (h : Steady s0 s) {n h_ a} : Steady s0 (useTrans n h_ a s) := by
  unfold useTrans
  try dsimp only
  repeat' first
    | with_reducible (first
        | assumption | rfl | exact id | exact fun h => ⟨h.1, h.2⟩ | exact fun h => ⟨h.1, h.2, h.3⟩ | apply Steady.ite)
    | split
    | with_reducible refine Steady.build ?_ ?_ ?_ ?_ ?_ ?_ ?_ ?_ ?_

theorem sendReq_steady {s0 s : State} (h : Steady s0 s) {n kind win off w len data en atomic read} :
    Steady s0 (sendReq n kind win off w len data en atomic read s) := by
  unfold sendReq
  try dsimp only
  repeat' first
    | with_reducible (first
        | assumption | rfl | apply setCore_steady | apply emitFab_steady | apply useTrans_steady | apply Steady.ite)
    | split

theorem traceData_steady {s0 s : State} (h : Steady s0 s) {n win off data} : Steady s0 (traceData n win off data s) := by
  unfold traceData
  try dsimp only
  repeat' first
    | with_reducible (first
        | assumption | rfl | apply traceRec_steady)

theorem agenStartStep_steady {s0 s : State} (h : Steady s0 s) {n f c} : Steady s0 (agenStartStep n f c s) := by
  unfold agenStartStep
  try dsimp only
  repeat' first
    | with_reducible (first
        | assumption | rfl | apply coreFault_steady | apply coreWait_steady | apply traceRec_steady | apply retireWith_steady | apply Steady.ite)
    | split

theorem agenWaitStep_steady {s0 s : State} (h : Steady s0 s) {n f c} : Steady s0 (agenWaitStep n f c s) := by
  unfold agenWaitStep
  try dsimp only
  repeat' first
    | with_reducible (first
        | assumption | rfl | apply coreFault_steady | apply coreWait_steady | apply retire_steady | apply Steady.ite)
    | split

theorem answer_steady {s0 s : State} (h : Steady s0 s) {r got} : Steady s0 (answer r got s) := by
  unfold answer
  try dsimp only
  repeat' first
    | with_reducible (first
        | assumption | rfl | apply emitFab_steady | apply Steady.ite)
    | split

theorem apertureGet_steady {s0 s : State} (h : Steady s0 s) {g off n} : Steady s0 (apertureGet g off n s).2 := by
  unfold apertureGet
  try dsimp only
  repeat' first
    | with_reducible (first
        | assumption | rfl | apply raise_steady | apply Steady.ite)
    | split

theorem aperturePut_steady {s0 s : State} (h : Steady s0 s) {g w1 w2 w3} : Steady s0 (aperturePut g w1 w2 w3 s) := by
  induction w1 generalizing s w2 w3 with
  | zero => exact h
  | succ n ih =>
    simp only [aperturePut]
    split
    · exact ih (raise_steady h)
    · exact ih (Steady.ite (Steady.build h rfl rfl rfl rfl rfl blockPut_ok id id) (raise_steady (Steady.build h rfl rfl rfl rfl rfl blockPut_ok id id)))

theorem apertureWrite_steady {s0 s : State} (h : Steady s0 s) {src g off bs en} : Steady s0 (apertureWrite src g off bs en s) := by
  unfold apertureWrite
  try dsimp only
  repeat' first
    | with_reducible (first
        | assumption | rfl | apply raise_steady | apply aperturePut_steady | apply Steady.ite)
    | split

theorem slotFault_steady {s0 s : State} (h : Steady s0 s) {f} : Steady s0 (slotFault f s) := by
  unfold slotFault
  try dsimp only
  repeat' first
    | with_reducible (first
        | assumption | rfl | exact id | exact fun h => ⟨h.1, h.2⟩ | exact fun h => ⟨h.1, h.2, h.3⟩ | apply hostReq_steady | apply Steady.ite)
    | split
    | with_reducible refine Steady.build ?_ ?_ ?_ ?_ ?_ ?_ ?_ ?_ ?_

theorem agStall_steady {s0 s : State} (h : Steady s0 s) {n w off why} : Steady s0 (agStall n w off why s) := by
  unfold agStall
  split
  · exact slotFault_steady h
  · exact h

theorem agVisit_steady {s0 s : State} (h : Steady s0 s) {n k data} : Steady s0 (agVisit n k data s) := by
  unfold agVisit
  try dsimp only
  repeat' first
    | with_reducible (first
        | assumption | rfl | apply agFault_steady | apply agStall_steady | apply setCore_steady | apply sendReq_steady | apply traceData_steady | apply Steady.ite)
    | split

theorem waitFor_steady {s0 s : State} (h : Steady s0 s) {n w off why} : Steady s0 (waitFor n w off why s) := by
  unfold waitFor
  try dsimp only
  repeat' first
    | with_reducible (first
        | assumption | rfl | apply slotFault_steady | apply coreWait_steady)
    | split

theorem atomicStep_steady {s0 s : State} (h : Steady s0 s) {n op f regs align4 c} : Steady s0 (atomicStep n op f regs align4 c s) := by
  unfold atomicStep
  try dsimp only
  repeat' first
    | with_reducible (first
        | assumption | rfl | apply coreFault_steady | apply retireWith_steady | apply waitFor_steady | apply coreWait_steady | apply sendReq_steady
        | apply setCore_steady | apply Steady.ite)
    | split

theorem sendFloor_steady {s0 s : State} (h : Steady s0 s) {f} : Steady s0 (sendFloor f s) := by
  unfold sendFloor
  try dsimp only
  repeat' first
    | with_reducible (first
        | assumption | rfl | apply toPartner_steady | apply Steady.ite)
    | split

theorem demote_steady {s0 s : State} (h : Steady s0 s) : Steady s0 (demote s) := by
  unfold demote
  try dsimp only
  repeat' first
    | with_reducible (first
        | assumption | rfl | exact id | exact fun h => ⟨h.1, h.2⟩ | exact fun h => ⟨h.1, h.2, h.3⟩ | apply sendFloor_steady | apply raise_steady
        | apply Steady.ite)
    | split
    | with_reducible refine Steady.build ?_ ?_ ?_ ?_ ?_ ?_ ?_ ?_ ?_

theorem retirePair_steady {s0 s : State} (h : Steady s0 s) {pair} : Steady s0 (retirePair pair s) := by
  unfold retirePair
  try dsimp only
  repeat' first
    | with_reducible (first
        | assumption | rfl | exact id | exact fun h => ⟨h.1, h.2⟩ | exact fun h => ⟨h.1, h.2, h.3⟩ | apply raise_steady | apply demote_steady
        | apply Steady.ite)
    | split
    | with_reducible refine Steady.build ?_ ?_ ?_ ?_ ?_ ?_ ?_ ?_ ?_

theorem dramUe_steady {s0 s : State} (h : Steady s0 s) {chan addr} : Steady s0 (dramUe chan addr s) := by
  unfold dramUe
  try dsimp only
  repeat' first
    | with_reducible (first
        | assumption | rfl | exact id | exact fun h => ⟨h.1, h.2⟩ | exact fun h => ⟨h.1, h.2, h.3⟩ | apply raise_steady | apply retirePair_steady
        | apply Steady.ite)
    | split
    | with_reducible refine Steady.build ?_ ?_ ?_ ?_ ?_ ?_ ?_ ?_ ?_

theorem dramWrite_steady {s0 s : State} (h : Steady s0 s) {a bs en} : Steady s0 (dramWrite a bs en s) := by
  unfold dramWrite
  try dsimp only
  repeat' first
    | with_reducible (first
        | exact fun h => ⟨(dramPuts_ok h).1, (dramPuts_ok h).2, (dramPuts_ok h).3⟩ | assumption | rfl | exact id | exact fun h => ⟨h.1, h.2⟩
        | exact fun h => ⟨h.1, h.2, h.3⟩ | apply dramUe_steady | exact dramPuts_ok | apply Steady.ite | apply Steady.fold | intro _)
    | split
    | with_reducible refine Steady.build ?_ ?_ ?_ ?_ ?_ ?_ ?_ ?_ ?_

theorem bar2Reply_steady {s0 s : State} (h : Steady s0 s) {g} : Steady s0 (bar2Reply g s) := by
  unfold bar2Reply
  try dsimp only
  repeat' first
    | with_reducible (first
        | assumption | rfl | apply emit_steady)

theorem setPage_steady {s0 s : State} (h : Steady s0 s) {x} : Steady s0 (setPage x s) := by
  unfold setPage
  try dsimp only
  repeat' first
    | with_reducible (first
        | assumption | rfl | exact id | exact fun h => ⟨h.1, h.2⟩ | exact fun h => ⟨h.1, h.2, h.3⟩ | apply Steady.ite)
    | split
    | with_reducible refine Steady.build ?_ ?_ ?_ ?_ ?_ ?_ ?_ ?_ ?_

theorem demoteChamber_steady {s0 s : State} (h : Steady s0 s) {x f} : Steady s0 (demoteChamber x f s) := by
  unfold demoteChamber
  try dsimp only
  repeat' first
    | with_reducible (first
        | assumption | rfl | exact id | exact fun h => ⟨h.1, h.2⟩ | exact fun h => ⟨h.1, h.2, h.3⟩ | apply setPage_steady | exact pageToDram_ok)
    | split
    | with_reducible refine Steady.build ?_ ?_ ?_ ?_ ?_ ?_ ?_ ?_ ?_

theorem demoteDram_steady {s0 s : State} (h : Steady s0 s) {x} : Steady s0 (demoteDram x s) := by
  unfold demoteDram
  try dsimp only
  repeat' first
    | with_reducible (first
        | assumption | rfl | exact id | exact countBytes_ok | apply postWrite_steady | apply setPage_steady | apply raise_steady | apply Steady.ite)
    | split
    | with_reducible refine Steady.build ?_ ?_ ?_ ?_ ?_ ?_ ?_ ?_ ?_

theorem takeChamber_steady {s0 s : State} (h : Steady s0 s) {below} : Steady s0 (takeChamber below s).2 := by
  unfold takeChamber
  try dsimp only
  repeat' first
    | with_reducible (first
        | assumption | rfl | apply demoteChamber_steady | apply demoteDram_steady)
    | split

theorem openTail_steady {s0 s : State} (h : Steady s0 s) {q} : Steady s0 (openTail q s).2 := by
  unfold openTail
  try dsimp only
  repeat' first
    | with_reducible (first
        | assumption | rfl | exact id | exact fun h => ⟨h.1, h.2⟩ | exact fun h => ⟨h.1, h.2, h.3⟩ | apply takeChamber_steady | apply Steady.ite
        | apply Steady.snd (by assumption))
    | split
    | with_reducible refine Steady.build ?_ ?_ ?_ ?_ ?_ ?_ ?_ ?_ ?_

theorem kvFrameStart_steady {s0 s : State} (h : Steady s0 s) : Steady s0 (kvFrameStart s) := by
  unfold kvFrameStart
  dsimp only
  with_reducible refine Steady.fold h ?_
  intro t q ht
  have o : Steady s0 (openTail q t).2 := by with_reducible exact openTail_steady ht
  with_reducible refine Steady.ite (Steady.ite o ?_) ht
  with_reducible refine raise_steady ?_
  with_reducible exact Steady.build o rfl rfl rfl rfl rfl id id id

theorem readmit_steady {s0 s : State} (h : Steady s0 s) {n} : Steady s0 (readmit n s) := by
  unfold readmit
  try dsimp only
  repeat' first
    | with_reducible (first
        | assumption | rfl | apply setIsland_steady | apply changeCore_steady | apply Steady.ite)
    | split

theorem kvEntry_steady {s0 s : State} (h : Steady s0 s) {q} : Steady s0 (kvEntry q s).2 := by
  unfold kvEntry
  try dsimp only
  repeat' first
    | with_reducible (first
        | assumption | rfl | apply freshBits_steady | apply Steady.ite | apply Steady.snd (by assumption))
    | split

theorem bindStep_steady {s0 s : State} (h : Steady s0 s) {n f c} : Steady s0 (bindStep n f c s) := by
  unfold bindStep
  try dsimp only
  repeat' first
    | with_reducible (first
        | assumption | rfl | apply coreFault_steady | apply retireWith_steady | apply Steady.ite)
    | split

theorem setRail_steady {s0 s : State} (h : Steady s0 s) {g mv} : Steady s0 (setRail g mv s) := by
  unfold setRail
  try dsimp only
  repeat' first
    | with_reducible (first
        | assumption | rfl | exact id | exact fun h => ⟨h.1, h.2⟩ | exact fun h => ⟨h.1, h.2, h.3⟩ | apply emit_steady)
    | with_reducible refine Steady.build ?_ ?_ ?_ ?_ ?_ ?_ ?_ ?_ ?_

theorem branchStep_steady {s0 s : State} (h : Steady s0 s) {n op f c} : Steady s0 (branchStep n op f c s) := by
  unfold branchStep
  try dsimp only
  repeat' first
    | with_reducible (first
        | assumption | rfl | apply coreFault_steady | apply retireTo_steady | apply traceRec_steady | apply Steady.ite)
    | split

theorem chamberScrub_steady {s0 s : State} (h : Steady s0 s) {staging addr ecc} : Steady s0 (chamberScrub staging addr ecc s) := by
  unfold chamberScrub
  try dsimp only
  repeat' first
    | with_reducible (first
        | assumption | rfl | exact id | exact fun h => ⟨h.1, h.2⟩ | exact fun h => ⟨h.1, h.2, h.3⟩ | apply raise_steady | apply Steady.ite)
    | split
    | with_reducible refine Steady.build ?_ ?_ ?_ ?_ ?_ ?_ ?_ ?_ ?_

theorem chargeTo_steady {s0 s : State} (h : Steady s0 s) {d a bytes} : Steady s0 (chargeTo d a bytes s).2 := by
  unfold chargeTo
  try dsimp only
  repeat' first
    | with_reducible (first
        | assumption | rfl | exact id | exact fun h => ⟨h.1, h.2⟩ | exact fun h => ⟨h.1, h.2, h.3⟩ | exact countBytes_ok
        | exact fun h => ⟨(countBytes_ok h).1, (countBytes_ok h).2, (countBytes_ok h).3⟩ | apply Steady.ite)
    | split
    | with_reducible refine Steady.build ?_ ?_ ?_ ?_ ?_ ?_ ?_ ?_ ?_

theorem charge_steady {s0 s : State} (h : Steady s0 s) {r bytes} : Steady s0 (charge r bytes s).2 := by
  unfold charge
  exact chargeTo_steady h

theorem clrflagStep_steady {s0 s : State} (h : Steady s0 s) {n f c} : Steady s0 (clrflagStep n f c s) := by
  unfold clrflagStep
  try dsimp only
  repeat' first
    | with_reducible (first
        | assumption | rfl | apply coreFault_steady | apply coreWait_steady | apply retireWith_steady | apply Steady.ite)
    | split

theorem complete_steady {s0 s : State} (h : Steady s0 s) {n p poison data} : Steady s0 (complete n p poison data s) := by
  unfold complete
  try dsimp only
  repeat' first
    | with_reducible (first
        | assumption | rfl | apply setCore_steady | apply coreFaultRec_steady | apply Steady.ite)
    | split

theorem startCore_steady {s0 s : State} (h : Steady s0 s) {n attempt} : Steady s0 (startCore n attempt s) := by
  unfold startCore
  try dsimp only
  repeat' first
    | with_reducible (first
        | assumption | rfl | apply changeCore_steady | apply mismatch_steady | apply raise_steady | apply Steady.ite)
    | split

theorem controlStart_steady {s0 s : State} (h : Steady s0 s) {n} : Steady s0 (controlStart n s) := by
  unfold controlStart
  try dsimp only
  repeat' first
    | with_reducible (first
        | assumption | rfl | apply startCore_steady | apply Steady.ite)
    | split

theorem coreClkRange_steady {s0 s : State} (h : Steady s0 s) {n mhz} : Steady s0 (coreClkRange n mhz s) := by
  unfold coreClkRange
  try dsimp only
  repeat' first
    | with_reducible (first
        | assumption | rfl | apply raise_steady | apply Steady.ite)
    | split

theorem coreWaitLimit_steady {s0 s : State} (h : Steady s0 s) {n} : Steady s0 (coreWaitLimit n s) := by
  unfold coreWaitLimit
  try dsimp only
  repeat' first
    | with_reducible (first
        | assumption | rfl | apply coreFault_steady | apply Steady.ite)
    | split

theorem creditBack_steady {s0 s : State} (h : Steady s0 s) {n r} : Steady s0 (creditBack n r s) := by
  unfold creditBack
  try dsimp only
  repeat' first
    | with_reducible (first
        | assumption | rfl | apply updCore_steady)
    | split

theorem returnCredit_steady {s0 s : State} (h : Steady s0 s) {src dst chan} : Steady s0 (returnCredit src dst chan s) := by
  unfold returnCredit
  try dsimp only
  repeat' first
    | with_reducible (first
        | assumption | rfl | exact id | exact fun h => ⟨h.1, h.2⟩ | exact fun h => ⟨h.1, h.2, h.3⟩ | apply emitFab_steady | apply Steady.ite)
    | split
    | with_reducible refine Steady.build ?_ ?_ ?_ ?_ ?_ ?_ ?_ ?_ ?_

theorem dataArrival_steady {s0 s : State} (h : Steady s0 s) {m} : Steady s0 (dataArrival m s) := by
  unfold dataArrival
  try dsimp only
  repeat' first
    | with_reducible (first
        | assumption | rfl | apply emitFab_steady | apply raise_steady | apply returnCredit_steady | apply setCore_steady | apply Steady.ite)
    | split

theorem demoteAll_steady {s0 s : State} (h : Steady s0 s) {q} : Steady s0 (demoteAll q s) := by
  unfold demoteAll
  try dsimp only
  repeat' first
    | with_reducible (first
        | assumption | rfl | apply demoteDram_steady | apply Steady.fold | intro _)

theorem startMove_steady {s0 s : State} (h : Steady s0 s) {x f c} : Steady s0 (startMove x f c s) := by
  unfold startMove
  try dsimp only
  repeat' first
    | with_reducible (first
        | assumption | rfl | apply setPage_steady | apply hostReq_steady)

theorem takeDram_steady {s0 s : State} (h : Steady s0 s) {prio w1} : Steady s0 (takeDram prio w1 s).2.2 := by
  induction w1 generalizing s with
  | zero => exact h
  | succ n ih =>
    simp only [takeDram]
    split
    · exact h
    · split
      · exact h
      · split
        · exact ih (demoteDram_steady h)
        · split
          · exact ih (raise_steady (demoteAll_steady (Steady.build h rfl rfl rfl rfl rfl id id id)))
          · exact h

theorem fetchPage_steady {s0 s : State} (h : Steady s0 s) {r p} : Steady s0 (fetchPage r p s).2 := by
  unfold fetchPage
  try dsimp only
  repeat' first
    | with_reducible (first
        | assumption | rfl | exact id | exact fun h => ⟨h.1, h.2⟩ | exact fun h => ⟨h.1, h.2, h.3⟩ | apply raise_steady | apply takeDram_steady
        | apply startMove_steady | apply Steady.ite | apply Steady.snd (by assumption))
    | split
    | with_reducible refine Steady.build ?_ ?_ ?_ ?_ ?_ ?_ ?_ ?_ ?_

theorem fetchPages_steady {s0 s : State} (h : Steady s0 s) {r w1} : Steady s0 (fetchPages r w1 s).2 := by
  induction w1 generalizing s r with
  | nil => exact h
  | cons u us ih => exact ih (fetchPage_steady h)

theorem kvAdvance_steady {s0 s : State} (h : Steady s0 s) : Steady s0 (kvAdvance s) := by
  unfold kvAdvance
  try dsimp only
  repeat' first
    | with_reducible (first
        | assumption | rfl | exact id | exact fun h => ⟨h.1, h.2⟩ | exact fun h => ⟨h.1, h.2, h.3⟩ | apply fetchPages_steady | apply Steady.ite
        | apply Steady.fold | intro _ | apply Steady.snd (by assumption))
    | split
    | with_reducible refine Steady.build ?_ ?_ ?_ ?_ ?_ ?_ ?_ ?_ ?_

theorem demotionAccepted_steady {s0 s : State} (h : Steady s0 s) {q p} : Steady s0 (demotionAccepted q p s) := by
  unfold demotionAccepted
  try dsimp only
  repeat' first
    | with_reducible (first
        | assumption | rfl | apply kvAdvance_steady | apply setPage_steady)
    | split

theorem kvTorn_steady {s0 s : State} (h : Steady s0 s) : Steady s0 (kvTorn s) := by
  unfold kvTorn
  try dsimp only
  repeat' first
    | with_reducible (first
        | assumption | rfl | apply raise_steady | apply setPage_steady | apply Steady.ite | apply Steady.fold | intro _)
    | split

theorem dramCe_steady {s0 s : State} (h : Steady s0 s) {chan addr} : Steady s0 (dramCe chan addr s) := by
  unfold dramCe
  try dsimp only
  repeat' first
    | with_reducible (first
        | assumption | rfl | exact id | exact fun h => ⟨h.1, h.2⟩ | exact fun h => ⟨h.1, h.2, h.3⟩ | apply raise_steady | apply Steady.ite)
    | split
    | with_reducible refine Steady.build ?_ ?_ ?_ ?_ ?_ ?_ ?_ ?_ ?_

theorem dropMessages_steady {s0 s : State} (h : Steady s0 s) {n} : Steady s0 (dropMessages n s).2 := by
  unfold dropMessages
  try dsimp only
  repeat' first
    | with_reducible (first
        | assumption | rfl | apply returnCredit_steady | apply updCore_steady | apply Steady.fold | apply Steady.foldSnd | intro _)
    | split

theorem endGet_steady {s0 s : State} (h : Steady s0 s) {r} : Steady s0 (endGet r s).2 := by
  unfold endGet
  try dsimp only
  repeat' first
    | with_reducible (first
        | assumption | rfl | apply apertureGet_steady | apply Steady.ite | apply Steady.snd (by assumption))
    | split

theorem endPut_steady {s0 s : State} (h : Steady s0 s) {r bs en} : Steady s0 (endPut r bs en s) := by
  unfold endPut
  try dsimp only
  repeat' first
    | with_reducible (first
        | assumption | rfl | exact id | exact fun h => ⟨h.1, h.2⟩ | exact fun h => ⟨h.1, h.2, h.3⟩ | apply apertureWrite_steady
        | apply dramWrite_steady | apply updCore_steady | exact chamberPut_ok | exact stagingPut_ok | apply Steady.ite)
    | split
    | with_reducible refine Steady.build ?_ ?_ ?_ ?_ ?_ ?_ ?_ ?_ ?_

theorem endStep_steady {s0 s : State} (h : Steady s0 s) {n f c} : Steady s0 (endStep n f c s) := by
  unfold endStep
  try dsimp only
  repeat' first
    | with_reducible (first
        | assumption | rfl | apply coreFault_steady | apply coreWait_steady | apply sendPace_steady | apply sigClose_steady
        | apply changeCore_steady | apply Steady.ite)
    | split

theorem issue_steady {s0 s : State} (h : Steady s0 s) {n body} (hbody : ∀ x0 x1, Steady s0 x1 → Steady s0 (body x0 x1)) :
    Steady s0 (issue n body s) := by
  unfold issue
  dsimp only
  with_reducible exact Steady.ite h (Steady.ite (coreFault_steady h) (Steady.ite (hbody _ _ (setCore_steady h)) (hbody _ _ h)))

theorem fabQuiesceTimeout_steady {s0 s : State} (h : Steady s0 s) {n} : Steady s0 (fabQuiesceTimeout n s) := by
  unfold fabQuiesceTimeout
  try dsimp only
  repeat' first
    | with_reducible (first
        | assumption | rfl | apply emitFab_steady | apply updCore_steady | apply setIsland_steady | apply raise_steady | apply Steady.ite
        | apply Steady.fold | intro _)
    | split

theorem replyTimeout_steady {s0 s : State} (h : Steady s0 s) {n tag} : Steady s0 (replyTimeout n tag s) := by
  unfold replyTimeout
  try dsimp only
  repeat' first
    | with_reducible (first
        | assumption | rfl | apply complete_steady | apply raise_steady)
    | split

theorem fenceStep_steady {s0 s : State} (h : Steady s0 s) {n f c} : Steady s0 (fenceStep n f c s) := by
  unfold fenceStep
  try dsimp only
  repeat' first
    | with_reducible (first
        | assumption | rfl | apply coreFault_steady | apply coreWait_steady | apply retire_steady | apply Steady.ite)
    | split

theorem flitTransfer_steady {s0 s : State} (h : Steady s0 s) {f} : Steady s0 (flitTransfer f s) := by
  unfold flitTransfer
  try dsimp only
  repeat' first
    | with_reducible (first
        | assumption | rfl | exact id | exact fun h => ⟨h.1, h.2⟩ | exact fun h => ⟨h.1, h.2, h.3⟩ | apply raise_steady | apply Steady.ite)
    | split
    | with_reducible refine Steady.build ?_ ?_ ?_ ?_ ?_ ?_ ?_ ?_ ?_

theorem fabLinkTimeout_steady {s0 s : State} (h : Steady s0 s) {near far f} : Steady s0 (fabLinkTimeout near far f s) :=
  flitTransfer_steady (raise_steady h)

theorem kvFrameEnd_steady {s0 s : State} (h : Steady s0 s) : Steady s0 (kvFrameEnd s) := by
  unfold kvFrameEnd
  try dsimp only
  repeat' first
    | with_reducible (first
        | assumption | rfl | exact id | exact fun h => ⟨h.1, h.2⟩ | exact fun h => ⟨h.1, h.2, h.3⟩)
    | with_reducible refine Steady.build ?_ ?_ ?_ ?_ ?_ ?_ ?_ ?_ ?_

theorem frequencyChange_steady {s0 s : State} (h : Steady s0 s) {n} : Steady s0 (frequencyChange n s) := by
  unfold frequencyChange
  try dsimp only
  repeat' first
    | with_reducible (first
        | assumption | rfl | apply setCore_steady | apply Steady.ite)
    | split

theorem frequencyTarget_steady {s0 s : State} (h : Steady s0 s) {n units} : Steady s0 (frequencyTarget n units s) := by
  unfold frequencyTarget
  try dsimp only
  repeat' first
    | with_reducible (first
        | assumption | rfl | apply updCore_steady | apply Steady.ite)
    | split

theorem getStep_steady {s0 s : State} (h : Steady s0 s) {n f c} : Steady s0 (getStep n f c s) := by
  unfold getStep
  try dsimp only
  repeat' first
    | with_reducible (first
        | assumption | rfl | apply coreFault_steady | apply waitFor_steady | apply retire_steady | apply sendReq_steady | apply Steady.ite)
    | split

theorem sumpArrival_steady {s0 s : State} (h : Steady s0 s) {q p data} : Steady s0 (sumpArrival q p data s) := by
  unfold sumpArrival
  try dsimp only
  repeat' first
    | with_reducible (first
        | assumption | rfl | exact id | exact fun h => ⟨h.1, h.2⟩ | exact fun h => ⟨h.1, h.2, h.3⟩ | apply setPage_steady | exact fun h => countBytes_ok (dramStore_ok h))
    | split
    | with_reducible refine Steady.build ?_ ?_ ?_ ?_ ?_ ?_ ?_ ?_ ?_

theorem sumpFailed_steady {s0 s : State} (h : Steady s0 s) {q p} : Steady s0 (sumpFailed q p s) := by
  unfold sumpFailed
  try dsimp only
  repeat' first
    | with_reducible (first
        | assumption | rfl | exact id | exact fun h => ⟨h.1, h.2⟩ | exact fun h => ⟨h.1, h.2, h.3⟩ | apply setPage_steady | apply raise_steady
        | apply Steady.ite)
    | split
    | with_reducible refine Steady.build ?_ ?_ ?_ ?_ ?_ ?_ ?_ ?_ ?_

theorem i3cRead_steady {s0 s : State} (h : Steady s0 s) {k v} : Steady s0 (i3cRead k v s) := by
  unfold i3cRead
  try dsimp only
  repeat' first
    | with_reducible (first
        | assumption | rfl | exact id | exact fun h => ⟨h.1, h.2⟩ | exact fun h => ⟨h.1, h.2, h.3⟩ | apply logRec_steady | apply Steady.ite)
    | split
    | with_reducible refine Steady.build ?_ ?_ ?_ ?_ ?_ ?_ ?_ ?_ ?_

theorem pinPages_steady {s0 s : State} (h : Steady s0 s) {n q ps} : Steady s0 (pinPages n q ps s) := by
  unfold pinPages
  try dsimp only
  repeat' first
    | with_reducible (first
        | assumption | rfl | exact id | exact fun h => ⟨h.1, h.2⟩ | exact fun h => ⟨h.1, h.2, h.3⟩ | apply Steady.ite)
    | split
    | with_reducible refine Steady.build ?_ ?_ ?_ ?_ ?_ ?_ ?_ ?_ ?_

theorem selectPages_steady {s0 s : State} (h : Steady s0 s) {q ps fr} : Steady s0 (selectPages q ps fr s) := by
  unfold selectPages
  try dsimp only
  repeat' first
    | with_reducible (first
        | assumption | rfl | exact id | exact fun h => ⟨h.1, h.2⟩ | exact fun h => ⟨h.1, h.2, h.3⟩ | apply Steady.ite)
    | split
    | with_reducible refine Steady.build ?_ ?_ ?_ ?_ ?_ ?_ ?_ ?_ ?_

theorem unpin_steady {s0 s : State} (h : Steady s0 s) {n} : Steady s0 (unpin n s) := by
  unfold unpin
  try dsimp only
  repeat' first
    | with_reducible (first
        | assumption | rfl | exact id | exact fun h => ⟨h.1, h.2⟩ | exact fun h => ⟨h.1, h.2, h.3⟩)
    | with_reducible refine Steady.build ?_ ?_ ?_ ?_ ?_ ?_ ?_ ?_ ?_

theorem kvFetch_steady {s0 s : State} (h : Steady s0 s) {n body} : Steady s0 (kvFetch n body s) := by
  unfold kvFetch
  try dsimp only
  repeat' first
    | with_reducible (first
        | assumption | rfl | exact id | exact fun h => ⟨h.1, h.2⟩ | exact fun h => ⟨h.1, h.2, h.3⟩ | apply unpin_steady | apply kvAdvance_steady
        | apply selectPages_steady | apply pinPages_steady | apply Steady.ite)
    | split
    | with_reducible refine Steady.build ?_ ?_ ?_ ?_ ?_ ?_ ?_ ?_ ?_

theorem promote_steady {s0 s : State} (h : Steady s0 s) {q w1} : Steady s0 (promote q w1 s) := by
  induction w1 generalizing s with
  | nil => exact h
  | cons u us ih =>
    simp only [promote]
    split
    · split
      · split
        · split
          · exact ih (setPage_steady (Steady.build (takeChamber_steady h) rfl rfl rfl rfl rfl
              (fun h => pageToChamber_ok h) id id))
          · exact ih (takeChamber_steady h)
        · exact ih h
      · exact ih h
    · exact ih h

theorem kvPlace_steady {s0 s : State} (h : Steady s0 s) {n} : Steady s0 (kvPlace n s) := by
  unfold kvPlace
  try dsimp only
  repeat' first
    | with_reducible (first
        | assumption | rfl | exact id | exact fun h => ⟨h.1, h.2⟩ | exact fun h => ⟨h.1, h.2, h.3⟩ | apply emitFab_steady | apply promote_steady
        | apply Steady.ite)
    | split
    | with_reducible refine Steady.build ?_ ?_ ?_ ?_ ?_ ?_ ?_ ?_ ?_

theorem kvSeal_steady {s0 s : State} (h : Steady s0 s) {body} : Steady s0 (kvSeal body s) := by
  unfold kvSeal
  try dsimp only
  repeat' first
    | with_reducible (first
        | assumption | rfl | exact id | exact fun h => ⟨h.1, h.2⟩ | exact fun h => ⟨h.1, h.2, h.3⟩ | apply openTail_steady | apply setPage_steady
        | apply Steady.ite | apply Steady.snd (by assumption))
    | split
    | with_reducible refine Steady.build ?_ ?_ ?_ ?_ ?_ ?_ ?_ ?_ ?_

theorem ldloadStep_steady {s0 s : State} (h : Steady s0 s) {n f c} : Steady s0 (ldloadStep n f c s) := by
  unfold ldloadStep
  try dsimp only
  repeat' first
    | with_reducible (first
        | assumption | rfl | apply coreFault_steady | apply retireWith_steady | apply waitFor_steady | apply coreWait_steady | apply sendReq_steady
        | apply Steady.ite)
    | split

theorem matrixStep_steady {s0 s : State} (h : Steady s0 s) {n f c} : Steady s0 (matrixStep n f c s) := by
  unfold matrixStep
  try dsimp only
  repeat' first
    | with_reducible (first
        | assumption | rfl | apply coreFault_steady | apply retireWith_steady | apply Steady.ite)
    | split

theorem serveAt_steady {s0 s : State} (h : Steady s0 s) {write r} : Steady s0 (serveAt write r s) := by
  unfold serveAt
  try dsimp only
  repeat' first
    | with_reducible (first
        | assumption | rfl | apply answer_steady | apply raise_steady | apply endGet_steady | apply endPut_steady | apply Steady.ite
        | apply Steady.snd (by assumption))
    | split

theorem serveWaiting_steady {s0 s : State} (h : Steady s0 s) {w} : Steady s0 (serveWaiting w s) := by
  unfold serveWaiting
  dsimp only
  with_reducible exact Steady.ite (serveAt_steady (setIsland_steady h)) h

theorem refilled_steady {s0 s t : State} (h : Steady s0 s) {r bytes} (e : refilled r bytes s = some t) : Steady s0 t := by
  unfold refilled at e
  split at e
  · cases e
  · dsimp only at e
    split at e
    · cases e
      exact Steady.build h rfl rfl rfl rfl rfl (fun h => ⟨h.1, h.2, h.3⟩) id id
    · cases e

theorem unstall_steady {s0 s : State} (h : Steady s0 s) {w} : Steady s0 (unstall w s) := by
  unfold unstall
  with_reducible exact Steady.build h rfl rfl rfl rfl rfl (fun h => ⟨h.1, h.2, h.3⟩) id id

theorem pumpStalled_steady {s0 s : State} (h : Steady s0 s) : Steady s0 (pumpStalled s) := by
  unfold pumpStalled
  refine Steady.fold h ?_
  intro t x ht
  split
  · next u e => exact serveWaiting_steady (unstall_steady (refilled_steady ht e))
  · exact ht

theorem resumeBestEffort_steady {s0 s : State} (h : Steady s0 s) : Steady s0 (resumeBestEffort s) := by
  unfold resumeBestEffort
  dsimp only
  refine Steady.fold (Steady.fold (by with_reducible exact Steady.build h rfl rfl rfl rfl rfl (fun h => ⟨h.1, h.2, h.3⟩) id id) ?_) ?_
  · intro t x ht
    with_reducible exact serveWaiting_steady ht
  · intro t x ht
    with_reducible exact bar2Reply_steady ht

theorem migrationComplete_steady {s0 s : State} (h : Steady s0 s) : Steady s0 (migrationComplete s) := by
  unfold migrationComplete
  try dsimp only
  repeat' first
    | with_reducible (first
        | assumption | rfl | exact id | exact fun h => ⟨h.1, h.2⟩ | exact fun h => ⟨(finishCopy_ok h).1, (finishCopy_ok h).2, (finishCopy_ok h).3⟩ | apply resumeBestEffort_steady
        | apply Steady.ite)
    | split
    | with_reducible refine Steady.build ?_ ?_ ?_ ?_ ?_ ?_ ?_ ?_ ?_

theorem nackArrives_steady {s0 s : State} (h : Steady s0 s) {n what} : Steady s0 (nackArrives n what s) := by
  unfold nackArrives
  try dsimp only
  repeat' first
    | with_reducible (first
        | assumption | rfl | apply creditBack_steady | apply setCore_steady | apply coreFaultRec_steady | apply raise_steady | apply complete_steady
        | apply Steady.ite)
    | split

theorem nopStep_steady {s0 s : State} (h : Steady s0 s) {n f w2} : Steady s0 (nopStep n f w2 s) := by
  unfold nopStep
  try dsimp only
  repeat' first
    | with_reducible (first
        | assumption | rfl | apply coreFault_steady | apply retire_steady | apply Steady.ite)
    | split

theorem pageWritten_steady {s0 s : State} (h : Steady s0 s) {q p} : Steady s0 (pageWritten q p s) := by
  unfold pageWritten
  try dsimp only
  repeat' first
    | with_reducible (first
        | assumption | rfl | apply kvAdvance_steady | apply setPage_steady | apply Steady.ite)
    | split

theorem patrolScrub_steady {s0 s : State} (h : Steady s0 s) {chan line ecc} : Steady s0 (patrolScrub chan line ecc s) := by
  unfold patrolScrub
  try dsimp only
  repeat' first
    | with_reducible (first
        | assumption | rfl | exact id | exact fun h => ⟨h.1, h.2⟩ | exact fun h => ⟨h.1, h.2, h.3⟩ | apply dramCe_steady | apply dramUe_steady
        | apply Steady.ite)
    | split
    | with_reducible refine Steady.build ?_ ?_ ?_ ?_ ?_ ?_ ?_ ?_ ?_

theorem setLock_steady {s0 s : State} (h : Steady s0 s) {chan l} : Steady s0 (setLock chan l s) := by
  unfold setLock
  try dsimp only
  repeat' first
    | with_reducible (first
        | assumption | rfl | exact id | exact fun h => ⟨h.1, h.2⟩ | exact fun h => ⟨h.1, h.2, h.3⟩)
    | with_reducible refine Steady.build ?_ ?_ ?_ ?_ ?_ ?_ ?_ ?_ ?_

theorem phyRetrainTimeout_steady {s0 s : State} (h : Steady s0 s) {chan} : Steady s0 (phyRetrainTimeout chan s) := by
  unfold phyRetrainTimeout
  try dsimp only
  repeat' first
    | with_reducible (first
        | assumption | rfl | apply retirePair_steady | apply setLock_steady)
    | split

theorem pmbusPoll_steady {s0 s : State} (h : Steady s0 s) {reg w} : Steady s0 (pmbusPoll reg w s) := by
  unfold pmbusPoll
  try dsimp only
  repeat' first
    | with_reducible (first
        | assumption | rfl | exact id | exact fun h => ⟨h.1, h.2⟩ | exact fun h => ⟨h.1, h.2, h.3⟩ | apply logRec_steady | apply Steady.ite)
    | split
    | with_reducible refine Steady.build ?_ ?_ ?_ ?_ ?_ ?_ ?_ ?_ ?_

theorem pollStep_steady {s0 s : State} (h : Steady s0 s) {n f c} : Steady s0 (pollStep n f c s) := by
  unfold pollStep
  try dsimp only
  repeat' first
    | with_reducible (first
        | assumption | rfl | apply retireWith_steady)
    | split

theorem putStep_steady {s0 s : State} (h : Steady s0 s) {n f c} : Steady s0 (putStep n f c s) := by
  unfold putStep
  try dsimp only
  repeat' first
    | with_reducible (first
        | assumption | rfl | apply coreFault_steady | apply traceData_steady | apply setCore_steady | apply retire_steady | apply waitFor_steady
        | apply sendReq_steady | apply Steady.ite)
    | split

theorem quiesce_steady {s0 s : State} (h : Steady s0 s) {n limitNs} : Steady s0 (quiesce n limitNs s) := by
  unfold quiesce
  try dsimp only
  repeat' first
    | with_reducible (first
        | assumption | rfl | apply changeCore_steady | apply dropMessages_steady | apply setIsland_steady | apply Steady.ite
        | apply Steady.snd (by assumption))
    | split

theorem quiesced_steady {s0 s : State} (h : Steady s0 s) {n} : Steady s0 (quiesced n s) := by
  unfold quiesced
  try dsimp only
  repeat' first
    | with_reducible (first
        | assumption | rfl | apply emitFab_steady | apply setIsland_steady | apply Steady.ite)
    | split

theorem quiescedReceived_steady {s0 s : State} (h : Steady s0 s) {n act} : Steady s0 (quiescedReceived n act s) := by
  unfold quiescedReceived
  try dsimp only
  repeat' first
    | with_reducible (first
        | assumption | rfl | apply setIsland_steady | apply changeCore_steady | apply Steady.ite)
    | split

theorem serveHost_steady {s0 s : State} (h : Steady s0 s) {write r} : Steady s0 (serveHost write r s) := by
  unfold serveHost
  try dsimp only
  repeat' first
    | with_reducible (first
        | assumption | rfl | apply answer_steady | apply hostReq_steady | apply postWrite_steady | apply Steady.ite | apply Steady.fold | intro _)
    | split

theorem serve_steady {s0 s : State} (h : Steady s0 s) {write r} : Steady s0 (serve write r s) := by
  unfold serve
  try dsimp only
  repeat' first
    | with_reducible (first
        | assumption | rfl | exact id | exact fun h => ⟨h.1, h.2⟩ | exact fun h => ⟨h.1, h.2, h.3⟩ | apply emitFab_steady | apply serveHost_steady
        | apply charge_steady | apply serveAt_steady | apply pumpStalled_steady | apply Steady.ite | apply Steady.snd (by assumption))
    | split
    | with_reducible refine Steady.build ?_ ?_ ?_ ?_ ?_ ?_ ?_ ?_ ?_

theorem recvStep_steady {s0 s : State} (h : Steady s0 s) {n f c} : Steady s0 (recvStep n f c s) := by
  unfold recvStep
  try dsimp only
  repeat' first
    | with_reducible (first
        | assumption | rfl | apply coreFault_steady | apply coreWait_steady | apply setCore_steady | apply retire_steady | apply traceRec_steady
        | apply Steady.ite)
    | split

theorem releaseStep_steady {s0 s : State} (h : Steady s0 s) {n f c} : Steady s0 (releaseStep n f c s) := by
  unfold releaseStep
  try dsimp only
  repeat' first
    | with_reducible (first
        | assumption | rfl | apply coreFault_steady | apply retire_steady | apply returnCredit_steady | apply setCore_steady)
    | split

theorem replyArrives_steady {s0 s : State} (h : Steady s0 s) {n tag st data} : Steady s0 (replyArrives n tag st data s) := by
  unfold replyArrives
  try dsimp only
  repeat' first
    | with_reducible (first
        | assumption | rfl | apply complete_steady)
    | split

theorem rescaleStep_steady {s0 s : State} (h : Steady s0 s) {n sel f c} : Steady s0 (rescaleStep n sel f c s) := by
  unfold rescaleStep
  try dsimp only
  repeat' first
    | with_reducible (first
        | assumption | rfl | apply coreFault_steady | apply coreWait_steady | apply retireWith_steady | apply Steady.ite)
    | split

theorem scalarStep_steady {s0 s : State} (h : Steady s0 s) {n op f c} : Steady s0 (scalarStep n op f c s) := by
  unfold scalarStep
  try dsimp only
  repeat' first
    | with_reducible (first
        | assumption | rfl | apply coreFault_steady | apply retireWith_steady | apply Steady.ite)
    | split

theorem scalarLoadStep_steady {s0 s : State} (h : Steady s0 s) {n f c} : Steady s0 (scalarLoadStep n f c s) := by
  unfold scalarLoadStep
  try dsimp only
  repeat' first
    | with_reducible (first
        | assumption | rfl | apply coreFault_steady | apply retireWith_steady | apply waitFor_steady | apply coreWait_steady | apply sendReq_steady
        | apply Steady.ite)
    | split

theorem storeBytes_steady {s0 s : State} (h : Steady s0 s) {n kind w off win data en} : Steady s0 (storeBytes n kind w off win data en s) := by
  unfold storeBytes
  try dsimp only
  repeat' first
    | with_reducible (first
        | assumption | rfl | apply traceData_steady | apply retireWith_steady | apply waitFor_steady | apply setCore_steady | apply retire_steady
        | apply sendReq_steady | apply Steady.ite)
    | split

theorem scalarStoreStep_steady {s0 s : State} (h : Steady s0 s) {n f c} : Steady s0 (scalarStoreStep n f c s) := by
  unfold scalarStoreStep
  try dsimp only
  repeat' first
    | with_reducible (first
        | assumption | rfl | apply coreFault_steady | apply storeBytes_steady | apply Steady.ite)
    | split

theorem sclloadStep_steady {s0 s : State} (h : Steady s0 s) {n base f c} : Steady s0 (sclloadStep n base f c s) := by
  unfold sclloadStep
  try dsimp only
  repeat' first
    | with_reducible (first
        | assumption | rfl | apply coreFault_steady | apply retireWith_steady | apply Steady.ite | apply Steady.fold | intro _)
    | split

theorem scrubSlot_steady {s0 s : State} (h : Steady s0 s) {n m word ecc} : Steady s0 (scrubSlot n m word ecc s) := by
  unfold scrubSlot
  try dsimp only
  repeat' first
    | with_reducible (first
        | assumption | rfl | apply raise_steady | apply updCore_steady | apply Steady.ite)
    | split

theorem sendData_steady {s0 s : State} (h : Steady s0 s) {n r x data poison} : Steady s0 (sendData n r x data poison s) := by
  unfold sendData
  try dsimp only
  repeat' first
    | with_reducible (first
        | assumption | rfl | apply updCore_steady | apply traceRec_steady | apply emitFab_steady)

theorem sendStep_steady {s0 s : State} (h : Steady s0 s) {n f c} : Steady s0 (sendStep n f c s) := by
  unfold sendStep
  try dsimp only
  repeat' first
    | with_reducible (first
        | assumption | rfl | apply coreFault_steady | apply coreWait_steady | apply setCore_steady | apply retire_steady | apply sendData_steady
        | apply Steady.ite)
    | split

theorem sendsStep_steady {s0 s : State} (h : Steady s0 s) {n f c} : Steady s0 (sendsStep n f c s) := by
  unfold sendsStep
  try dsimp only
  repeat' first
    | with_reducible (first
        | assumption | rfl | apply coreFault_steady | apply coreWait_steady | apply retire_steady | apply sendData_steady | apply setCore_steady
        | apply Steady.ite)
    | split

theorem sigmarkStep_steady {s0 s : State} (h : Steady s0 s) {n f c} : Steady s0 (sigmarkStep n f c s) := by
  unfold sigmarkStep
  try dsimp only
  repeat' first
    | with_reducible (first
        | assumption | rfl | apply coreFault_steady | apply retire_steady | apply sigClose_steady | apply setCore_steady | apply Steady.ite)
    | split

theorem statusStep_steady {s0 s : State} (h : Steady s0 s) {n f c} : Steady s0 (statusStep n f c s) := by
  unfold statusStep
  try dsimp only
  repeat' first
    | with_reducible (first
        | assumption | rfl | apply coreFault_steady | apply coreWait_steady | apply retireWith_steady | apply Steady.ite)
    | split

theorem tracemarkStep_steady {s0 s : State} (h : Steady s0 s) {n f c} : Steady s0 (tracemarkStep n f c s) := by
  unfold tracemarkStep
  try dsimp only
  repeat' first
    | with_reducible (first
        | assumption | rfl | apply coreFault_steady | apply retire_steady | apply traceRec_steady | apply Steady.ite)
    | split

theorem vectorStep_steady {s0 s : State} (h : Steady s0 s) {n op f c} : Steady s0 (vectorStep n op f c s) := by
  unfold vectorStep
  try dsimp only
  repeat' first
    | with_reducible (first
        | assumption | rfl | apply coreFault_steady | apply coreWait_steady | apply retireWith_steady | apply Steady.ite)
    | split

theorem vectorLoadStep_steady {s0 s : State} (h : Steady s0 s) {n f c} : Steady s0 (vectorLoadStep n f c s) := by
  unfold vectorLoadStep
  try dsimp only
  repeat' first
    | with_reducible (first
        | assumption | rfl | apply coreFault_steady | apply retireWith_steady | apply waitFor_steady | apply coreWait_steady | apply sendReq_steady
        | apply Steady.ite)
    | split

theorem vectorStoreStep_steady {s0 s : State} (h : Steady s0 s) {n f c} : Steady s0 (vectorStoreStep n f c s) := by
  unfold vectorStoreStep
  try dsimp only
  repeat' first
    | with_reducible (first
        | assumption | rfl | apply coreFault_steady | apply storeBytes_steady | apply Steady.ite)
    | split

theorem voltageStep_steady {s0 s : State} (h : Steady s0 s) {g} : Steady s0 (voltageStep g s) := by
  unfold voltageStep
  try dsimp only
  repeat' first
    | with_reducible (first
        | assumption | rfl | apply setRail_steady | apply Steady.ite)
    | split

theorem resumeRun_steady {s0 s : State} (h : Steady s0 s) {n} : Steady s0 (resumeRun n s) := by
  unfold resumeRun
  try dsimp only
  repeat' first
    | with_reducible (first
        | assumption | rfl | apply changeCore_steady)

theorem waitRestart_steady {s0 s : State} (h : Steady s0 s) {n} : Steady s0 (waitRestart n s) := by
  unfold waitRestart
  with_reducible refine Steady.ite h (Steady.ite (retire_steady (resumeRun_steady h)) (resumeRun_steady h))

theorem waittStep_steady {s0 s : State} (h : Steady s0 s) {n f c} : Steady s0 (waittStep n f c s) := by
  unfold waittStep
  try dsimp only
  repeat' first
    | with_reducible (first
        | assumption | rfl | apply coreFault_steady | apply coreWait_steady | apply retire_steady | apply Steady.ite)
    | split

end Sys2Proof.Machine
end

