-- ==== Sys2Proof/Laws/SteadyUnits.lean ====
section
/-! SUPPORT. `Steady` for the operations of Mirror, TimeUnit, Prism, Intake, Energy, Objects, HostLink. -/

namespace Sys2Proof.Machine

theorem failStep_steady {s0 s : State} (h : Steady s0 s) : Steady s0 (failStep s) := by
  unfold failStep
  try dsimp only
  repeat' first
    | with_reducible (first
        | assumption | rfl | exact id | exact fun h => ⟨h.1, h.2⟩ | exact fun h => ⟨h.1, h.2, h.3⟩ | apply respond_steady)
    | split
    | with_reducible refine Steady.build ?_ ?_ ?_ ?_ ?_ ?_ ?_ ?_ ?_

theorem timeEventSet_steady {s0 s : State} (h : Steady s0 s) {m} : Steady s0 (timeEventSet m s) := by
  unfold timeEventSet
  try dsimp only
  repeat' first
    | with_reducible (first
        | assumption | rfl | exact id | exact fun h => ⟨h.1, h.2⟩ | exact fun h => ⟨h.1, h.2, h.3⟩ | apply msix_steady | apply Steady.ite)
    | split
    | with_reducible refine Steady.build ?_ ?_ ?_ ?_ ?_ ?_ ?_ ?_ ?_

theorem setStatusPtc_steady {s0 s : State} (h : Steady s0 s) {st} : Steady s0 (setStatusPtc st s) := by
  unfold setStatusPtc
  try dsimp only
  repeat' first
    | with_reducible (first
        | assumption | rfl | exact id | exact fun h => ⟨h.1, h.2⟩ | exact fun h => ⟨h.1, h.2, h.3⟩ | apply timeEventSet_steady | apply Steady.ite)
    | split
    | with_reducible refine Steady.build ?_ ?_ ?_ ?_ ?_ ?_ ?_ ?_ ?_

theorem holdover_steady {s0 s : State} (h : Steady s0 s) {change} : Steady s0 (holdover change s) := by
  unfold holdover
  try dsimp only
  repeat' first
    | with_reducible (first
        | assumption | rfl | exact id | exact fun h => ⟨h.1, h.2⟩ | exact fun h => ⟨h.1, h.2, h.3⟩ | apply failStep_steady
        | apply timeEventSet_steady | apply setStatusPtc_steady | apply Steady.ite)
    | split
    | with_reducible refine Steady.build ?_ ?_ ?_ ?_ ?_ ?_ ?_ ?_ ?_

theorem setPtp_steady {s0 s : State} (h : Steady s0 s) {k p} : Steady s0 (setPtp k p s) := by
  unfold setPtp
  try dsimp only
  repeat' first
    | with_reducible (first
        | assumption | rfl | exact id | exact fun h => ⟨h.1, h.2⟩ | exact fun h => ⟨h.1, h.2, h.3⟩)
    | with_reducible refine Steady.build ?_ ?_ ?_ ?_ ?_ ?_ ?_ ?_ ?_

theorem announceMsg_steady {s0 s : State} (h : Steady s0 s) {k gm} : Steady s0 (announceMsg k gm s) := by
  unfold announceMsg
  try dsimp only
  repeat' first
    | with_reducible (first
        | assumption | rfl | apply setPtp_steady | apply holdover_steady | apply Steady.ite)
    | split

theorem answerStep_steady {s0 s : State} (h : Steady s0 s) {mode step} : Steady s0 (answerStep mode step s) := by
  unfold answerStep
  try dsimp only
  repeat' first
    | with_reducible (first
        | assumption | rfl | exact id | exact fun h => ⟨h.1, h.2⟩ | exact fun h => ⟨h.1, h.2, h.3⟩ | apply respond_steady)
    | split
    | with_reducible refine Steady.build ?_ ?_ ?_ ?_ ?_ ?_ ?_ ?_ ?_

theorem dropCopies_steady {s0 s : State} (h : Steady s0 s) {scope handle} : Steady s0 (dropCopies scope handle s) := by
  unfold dropCopies
  try dsimp only
  repeat' first
    | with_reducible (first
        | assumption | rfl | exact id | exact fun h => ⟨h.1, h.2⟩ | exact fun h => ⟨h.1, h.2, h.3⟩ | apply slotFault_steady | apply Steady.fold
        | intro _)
    | with_reducible refine Steady.build ?_ ?_ ?_ ?_ ?_ ?_ ?_ ?_ ?_

theorem applyInval_steady {s0 s : State} (h : Steady s0 s) {x} : Steady s0 (applyInval x s) := by
  unfold applyInval
  try dsimp only
  repeat' first
    | with_reducible (first
        | assumption | rfl | exact id | exact fun h => ⟨h.1, h.2⟩ | exact fun h => ⟨h.1, h.2, h.3⟩ | apply dropCopies_steady | apply Steady.ite)
    | split
    | with_reducible refine Steady.build ?_ ?_ ?_ ?_ ?_ ?_ ?_ ?_ ?_

theorem setStream_steady {s0 s : State} (h : Steady s0 s) {t} : Steady s0 (setStream t s) := by
  unfold setStream
  try dsimp only
  repeat' first
    | with_reducible (first
        | assumption | rfl | exact id | exact fun h => ⟨h.1, h.2⟩ | exact fun h => ⟨h.1, h.2, h.3⟩)
    | with_reducible refine Steady.build ?_ ?_ ?_ ?_ ?_ ?_ ?_ ?_ ?_

theorem updStream_steady {s0 s : State} (h : Steady s0 s) {k f} : Steady s0 (updStream k f s) := by
  unfold updStream
  try dsimp only
  repeat' first
    | with_reducible (first
        | assumption | rfl | apply setStream_steady)
    | split

theorem applySplit_steady {s0 s : State} (h : Steady s0 s) {n} : Steady s0 (applySplit n s) := by
  unfold applySplit
  try dsimp only
  repeat' first
    | with_reducible (first
        | assumption | rfl | exact id | exact fun h => ⟨h.1, h.2⟩ | exact fun h => ⟨h.1, h.2, h.3⟩ | apply updStream_steady | apply postEvent_steady
        | apply Steady.ite | apply Steady.fold | intro _)
    | split
    | with_reducible refine Steady.build ?_ ?_ ?_ ?_ ?_ ?_ ?_ ?_ ?_

theorem loseStream_steady {s0 s : State} (h : Steady s0 s) {k} : Steady s0 (loseStream k s) := by
  unfold loseStream
  try dsimp only
  repeat' first
    | with_reducible (first
        | assumption | rfl | apply raise_steady | apply setStream_steady | apply Steady.ite)
    | split

theorem assignStream_steady {s0 s : State} (h : Steady s0 s) {n k} : Steady s0 (assignStream n k s) := by
  unfold assignStream
  try dsimp only
  repeat' first
    | with_reducible (first
        | assumption | rfl | apply setStream_steady | apply clearLevel_steady | apply loseStream_steady | apply Steady.ite)
    | split

theorem badObject_steady {s0 s : State} (h : Steady s0 s) {kind h_} : Steady s0 (badObject kind h_ s) := by
  unfold badObject
  try dsimp only
  repeat' first
    | with_reducible (first
        | assumption | rfl | apply raise_steady | apply note_steady)

theorem bar2Charge_steady {s0 s : State} (h : Steady s0 s) {a n} : Steady s0 (bar2Charge a n s) := by
  unfold bar2Charge
  try dsimp only
  repeat' first
    | with_reducible (first
        | assumption | rfl | exact id | exact countBytes_ok | exact fun h => ⟨h.1, h.2⟩ | exact fun h => ⟨h.1, h.2, h.3⟩)
    | with_reducible refine Steady.build ?_ ?_ ?_ ?_ ?_ ?_ ?_ ?_ ?_

theorem bar2Discard_steady {s0 s : State} (h : Steady s0 s) {a} : Steady s0 (bar2Discard a s) := by
  unfold bar2Discard
  try dsimp only
  repeat' first
    | with_reducible (first
        | assumption | rfl | apply note_steady)

theorem poisonRange_steady {s0 s : State} (h : Steady s0 s) {w n} : Steady s0 (poisonRange w n s) := by
  unfold poisonRange
  try dsimp only
  repeat' first
    | with_reducible (first
        | assumption | rfl | exact id | exact fun h => ⟨h.1, h.2⟩ | exact fun h => ⟨h.1, h.2, h.3⟩)
    | split
    | with_reducible refine Steady.build ?_ ?_ ?_ ?_ ?_ ?_ ?_ ?_ ?_

theorem placePut_steady {s0 s : State} (h : Steady s0 s) {w bs ep} : Steady s0 (placePut w bs ep s) := by
  unfold placePut
  try dsimp only
  repeat' first
    | with_reducible (first
        | assumption | rfl | exact id | exact fun h => ⟨h.1, h.2⟩ | exact fun h => ⟨h.1, h.2, h.3⟩ | apply dramWrite_steady
        | apply poisonRange_steady | exact chamberPut_ok | exact stagingPut_ok | apply Steady.ite)
    | split
    | with_reducible refine Steady.build ?_ ?_ ?_ ?_ ?_ ?_ ?_ ?_ ?_

theorem bar2Put_steady {s0 s : State} (h : Steady s0 s) {w bs ep} : Steady s0 (bar2Put w bs ep s) := by
  unfold bar2Put
  refine placePut_steady ?_
  cases w <;> first | exact bar2Charge_steady h | exact h

theorem inbPut_steady {s0 s : State} (h : Steady s0 s) {w bs ep} : Steady s0 (inbPut w bs ep s) := by
  unfold inbPut
  refine placePut_steady ?_
  cases w <;> first | exact chargeTo_steady h | exact h

theorem bar2Access_steady {s0 s : State} (h : Steady s0 s) {a op} : Steady s0 (bar2Access a op s) := by
  unfold bar2Access
  try dsimp only
  repeat' first
    | with_reducible (first
        | assumption | rfl | exact id | exact fun h => ⟨h.1, h.2⟩ | exact fun h => ⟨h.1, h.2, h.3⟩ | apply bar2Reply_steady
        | apply bar2Charge_steady | apply bar2Discard_steady | apply bar2Put_steady | apply emit_steady | apply Steady.ite)
    | split
    | with_reducible refine Steady.build ?_ ?_ ?_ ?_ ?_ ?_ ?_ ?_ ?_

theorem bar2Timeout_steady {s0 s : State} (h : Steady s0 s) : Steady s0 (bar2Timeout s) := by
  unfold bar2Timeout
  try dsimp only
  repeat' first
    | with_reducible (first
        | assumption | rfl | exact id | exact fun h => ⟨h.1, h.2⟩ | exact fun h => ⟨h.1, h.2, h.3⟩ | apply emit_steady)
    | split
    | with_reducible refine Steady.build ?_ ?_ ?_ ?_ ?_ ?_ ?_ ?_ ?_

theorem latchMeters_steady {s0 s : State} (h : Steady s0 s) : Steady s0 (latchMeters s).2 := by
  unfold latchMeters
  try dsimp only
  repeat' first
    | with_reducible (first
        | assumption | rfl | exact id | exact fun h => ⟨h.1, h.2⟩ | exact fun h => ⟨h.1, h.2, h.3⟩)
    | with_reducible refine Steady.build ?_ ?_ ?_ ?_ ?_ ?_ ?_ ?_ ?_

theorem ledgerEvent_steady {s0 s : State} (h : Steady s0 s) {k payload} : Steady s0 (ledgerEvent k payload s) := by
  unfold ledgerEvent
  try dsimp only
  repeat' first
    | with_reducible (first
        | assumption | rfl | apply postEvent_steady)

theorem reconcile_steady {s0 s : State} (h : Steady s0 s) {m p} : Steady s0 (reconcile m p s) := by
  unfold reconcile
  try dsimp only
  repeat' first
    | with_reducible (first
        | assumption | rfl | exact id | exact fun h => ⟨h.1, h.2⟩ | exact fun h => ⟨h.1, h.2, h.3⟩ | apply ledgerEvent_steady | apply Steady.ite)
    | split
    | with_reducible refine Steady.build ?_ ?_ ?_ ?_ ?_ ?_ ?_ ?_ ?_

theorem refloor_steady {s0 s : State} (h : Steady s0 s) : Steady s0 (refloor s) := by
  unfold refloor
  try dsimp only
  repeat' first
    | with_reducible (first
        | assumption | rfl | exact id | exact fun h => ⟨h.1, h.2⟩ | exact fun h => ⟨h.1, h.2, h.3⟩ | apply sendFloor_steady | apply Steady.ite)
    | split
    | with_reducible refine Steady.build ?_ ?_ ?_ ?_ ?_ ?_ ?_ ?_ ?_

theorem rungTargets_steady {s0 s : State} (h : Steady s0 s) : Steady s0 (rungTargets s) := by
  unfold rungTargets
  try dsimp only
  repeat' first
    | with_reducible (first
        | assumption | rfl | apply updCore_steady | apply Steady.fold | intro _)
    | split

theorem rescaleBulk_steady {s0 s : State} (h : Steady s0 s) : Steady s0 (rescaleBulk s) := by
  unfold rescaleBulk
  try dsimp only
  repeat' first
    | with_reducible (first
        | assumption | rfl | exact id | exact fun h => ⟨h.1, h.2⟩ | exact fun h => ⟨h.1, h.2, h.3⟩ | apply Steady.ite)
    | split
    | with_reducible refine Steady.build ?_ ?_ ?_ ?_ ?_ ?_ ?_ ?_ ?_

theorem rungStart_steady {s0 s : State} (h : Steady s0 s) {n} : Steady s0 (rungStart n s).2 := by
  unfold rungStart
  try dsimp only
  repeat' first
    | with_reducible (first
        | assumption | rfl | exact id | exact fun h => ⟨h.1, h.2⟩ | exact fun h => ⟨h.1, h.2, h.3⟩ | apply refloor_steady | apply ledgerEvent_steady
        | apply rungTargets_steady | apply pumpStalled_steady | apply rescaleBulk_steady | apply Steady.ite)
    | split
    | with_reducible refine Steady.build ?_ ?_ ?_ ?_ ?_ ?_ ?_ ?_ ?_

theorem closeWindow_steady {s0 s : State} (h : Steady s0 s) {ew} : Steady s0 (closeWindow ew s) := by
  unfold closeWindow
  try dsimp only
  repeat' first
    | with_reducible (first
        | assumption | rfl | exact id | exact fun h => ⟨h.1, h.2⟩ | exact fun h => ⟨h.1, h.2, h.3⟩ | apply ledgerEvent_steady | apply Steady.ite)
    | split
    | with_reducible refine Steady.build ?_ ?_ ?_ ?_ ?_ ?_ ?_ ?_ ?_

theorem windowStart_steady {s0 s : State} (h : Steady s0 s) {n} : Steady s0 (windowStart n s) := by
  unfold windowStart
  try dsimp only
  repeat' first
    | with_reducible (first
        | assumption | rfl | exact id | exact fun h => ⟨h.1, h.2⟩ | exact fun h => ⟨h.1, h.2, h.3⟩ | apply closeWindow_steady | apply Steady.ite)
    | split
    | with_reducible refine Steady.build ?_ ?_ ?_ ?_ ?_ ?_ ?_ ?_ ?_

theorem refAdd_steady {s0 s : State} (h : Steady s0 s) {what h_ v} : Steady s0 (refAdd what h_ v s) := by
  unfold refAdd
  try dsimp only
  repeat' first
    | with_reducible (first
        | assumption | rfl | apply hostReq_steady)

theorem dropRef_steady {s0 s : State} (h : Steady s0 s) {h_} : Steady s0 (dropRef h_ s) := by
  unfold dropRef
  try dsimp only
  repeat' first
    | with_reducible (first
        | assumption | rfl | exact id | exact fun h => ⟨h.1, h.2⟩ | exact fun h => ⟨h.1, h.2, h.3⟩ | apply postWrite_steady | apply refAdd_steady
        | apply Steady.ite)
    | split
    | with_reducible refine Steady.build ?_ ?_ ?_ ?_ ?_ ?_ ?_ ?_ ?_

theorem retireStep_steady {s0 s : State} (h : Steady s0 s) : Steady s0 (retireStep s) := by
  unfold retireStep
  try dsimp only
  repeat' first
    | with_reducible (first
        | assumption | rfl | exact id | exact fun h => ⟨h.1, h.2⟩ | exact fun h => ⟨h.1, h.2, h.3⟩)
    | with_reducible refine Steady.build ?_ ?_ ?_ ?_ ?_ ?_ ?_ ?_ ?_

theorem setInb_steady {s0 s : State} (h : Steady s0 s) {w x} : Steady s0 (setInb w x s) := by
  unfold setInb
  try dsimp only
  repeat' first
    | with_reducible (first
        | assumption | rfl | exact id | exact fun h => ⟨h.1, h.2⟩ | exact fun h => ⟨h.1, h.2, h.3⟩)
    | with_reducible refine Steady.build ?_ ?_ ?_ ?_ ?_ ?_ ?_ ?_ ?_

theorem inbBoundary_steady {s0 s : State} (h : Steady s0 s) : Steady s0 (inbBoundary s) := by
  unfold inbBoundary
  try dsimp only
  repeat' first
    | with_reducible (first
        | assumption | rfl | apply retireStep_steady | apply dropRef_steady | apply setInb_steady | apply Steady.fold | intro _)

theorem inbFrameStart_steady {s0 s : State} (h : Steady s0 s) {n} : Steady s0 (inbFrameStart n s) := by
  unfold inbFrameStart
  try dsimp only
  repeat' first
    | with_reducible (first
        | assumption | rfl | exact id | exact fun h => ⟨h.1, h.2⟩ | exact fun h => ⟨h.1, h.2, h.3⟩ | apply Steady.ite)
    | split
    | with_reducible refine Steady.build ?_ ?_ ?_ ?_ ?_ ?_ ?_ ?_ ?_

theorem focusStream_steady {s0 s : State} (h : Steady s0 s) {k g} : Steady s0 (focusStream k g s) := by
  unfold focusStream
  try dsimp only
  repeat' first
    | with_reducible (first
        | assumption | rfl | exact id | exact fun h => ⟨h.1, h.2⟩ | exact fun h => ⟨h.1, h.2, h.3⟩ | apply setStream_steady | apply note_steady
        | apply raise_steady | apply updStream_steady | exact cropAll_ok | apply Steady.ite)
    | split
    | with_reducible refine Steady.build ?_ ?_ ?_ ?_ ?_ ?_ ?_ ?_ ?_

theorem intakeFrameStart_steady {s0 s : State} (h : Steady s0 s) {n} : Steady s0 (intakeFrameStart n s) := by
  unfold intakeFrameStart
  try dsimp only
  repeat' first
    | with_reducible (first
        | assumption | rfl | apply applySplit_steady | apply assignStream_steady | apply focusStream_steady | apply Steady.ite | apply Steady.fold
        | intro _)
    | split

theorem sendFrameMsg_steady {s0 s : State} (h : Steady s0 s) {n chan data} : Steady s0 (sendFrameMsg n chan data s) := by
  unfold sendFrameMsg
  try dsimp only
  repeat' first
    | with_reducible (first
        | assumption | rfl | exact id | exact fun h => ⟨h.1, h.2⟩ | exact fun h => ⟨h.1, h.2, h.3⟩ | apply emitFab_steady)
    | with_reducible refine Steady.build ?_ ?_ ?_ ?_ ?_ ?_ ?_ ?_ ?_

theorem countMeter_steady {s0 s : State} (h : Steady s0 s) {m uj} : Steady s0 (countMeter m uj s) := by
  unfold countMeter
  try dsimp only
  repeat' first
    | with_reducible (first
        | assumption | rfl | exact id | exact fun h => ⟨h.1, h.2⟩ | exact fun h => ⟨h.1, h.2, h.3⟩ | apply Steady.ite)
    | split
    | with_reducible refine Steady.build ?_ ?_ ?_ ?_ ?_ ?_ ?_ ?_ ?_

theorem countMeters_steady {s0 s : State} (h : Steady s0 s) {w0 w1} : Steady s0 (countMeters w0 w1 s) := by
  induction w1 generalizing s w0 with
  | nil => exact h
  | cons u us ih => exact ih (Steady.ite h (countMeter_steady h))

theorem mapCores_steady {s0 s : State} (h : Steady s0 s) {f} : Steady s0 (mapCores f s) := by
  unfold mapCores
  try dsimp only
  repeat' first
    | with_reducible (first
        | assumption | rfl | exact id | exact fun h => ⟨h.1, h.2⟩ | exact fun h => ⟨h.1, h.2, h.3⟩ | apply Steady.ite)
    | split
    | with_reducible refine Steady.build ?_ ?_ ?_ ?_ ?_ ?_ ?_ ?_ ?_

theorem ceilingInterval_steady {s0 s : State} (h : Steady s0 s) {uj} : Steady s0 (ceilingInterval uj s) := by
  unfold ceilingInterval
  try dsimp only
  repeat' first
    | with_reducible (first
        | assumption | rfl | exact id | exact fun h => ⟨h.1, h.2⟩ | exact fun h => ⟨h.1, h.2, h.3⟩ | apply countMeters_steady
        | apply mapCores_steady | apply raise_steady | apply rungTargets_steady | apply Steady.ite)
    | split
    | with_reducible refine Steady.build ?_ ?_ ?_ ?_ ?_ ?_ ?_ ?_ ?_

theorem updPort_steady {s0 s : State} (h : Steady s0 s) {port f} : Steady s0 (updPort port f s) := by
  unfold updPort
  try dsimp only
  repeat' first
    | with_reducible (first
        | assumption | rfl | exact id | exact fun h => ⟨h.1, h.2⟩ | exact fun h => ⟨h.1, h.2, h.3⟩)
    | with_reducible refine Steady.build ?_ ?_ ?_ ?_ ?_ ?_ ?_ ?_ ?_

theorem writeBase_steady {s0 s : State} (h : Steady s0 s) {t u} : Steady s0 (writeBase t u s) := by
  unfold writeBase
  try dsimp only
  repeat' first
    | with_reducible (first
        | assumption | rfl | exact id | exact fun h => ⟨h.1, h.2⟩ | exact fun h => ⟨h.1, h.2, h.3⟩ | apply updStream_steady | apply freshBits_steady
        | exact chamberPut_ok | apply Steady.ite | apply Steady.snd (by assumption))
    | split
    | with_reducible refine Steady.build ?_ ?_ ?_ ?_ ?_ ?_ ?_ ?_ ?_

theorem forwardUnit_steady {s0 s : State} (h : Steady s0 s) {t body} : Steady s0 (forwardUnit t body s) := by
  unfold forwardUnit
  try dsimp only
  repeat' first
    | with_reducible (first
        | assumption | rfl | apply postWrite_steady)
    | split

theorem completeUnit_steady {s0 s : State} (h : Steady s0 s) {k corrupt body} : Steady s0 (completeUnit k corrupt body s) := by
  unfold completeUnit
  try dsimp only
  repeat' first
    | with_reducible (first
        | assumption | rfl | apply forwardUnit_steady | apply writeBase_steady | apply setStream_steady | apply Steady.ite)
    | split

theorem closeFrame_steady {s0 s : State} (h : Steady s0 s) {k} : Steady s0 (closeFrame k s) := by
  unfold closeFrame
  try dsimp only
  repeat' first
    | with_reducible (first
        | assumption | rfl | apply completeUnit_steady | apply setStream_steady)
    | split

theorem sendVerdict_steady {s0 s : State} (h : Steady s0 s) {m cmp1 window v} : Steady s0 (sendVerdict m cmp1 window v s) := by
  unfold sendVerdict
  try dsimp only
  repeat' first
    | with_reducible (first
        | assumption | rfl | apply emitFab_steady | apply Steady.ite)
    | split

theorem setPendSigs_steady {s0 s : State} (h : Steady s0 s) {cmp1 l} : Steady s0 (setPendSigs cmp1 l s) := by
  unfold setPendSigs
  try dsimp only
  repeat' first
    | with_reducible (first
        | assumption | rfl | exact id | exact fun h => ⟨h.1, h.2⟩ | exact fun h => ⟨h.1, h.2, h.3⟩ | apply Steady.ite)
    | split
    | with_reducible refine Steady.build ?_ ?_ ?_ ?_ ?_ ?_ ?_ ?_ ?_

theorem comparatorTimeout_steady {s0 s : State} (h : Steady s0 s) {cmp1 pair trail window} : Steady s0 (comparatorTimeout cmp1 pair trail window s) := by
  unfold comparatorTimeout
  try dsimp only
  repeat' first
    | with_reducible (first
        | assumption | rfl | apply sendVerdict_steady | apply setPendSigs_steady)
    | split

theorem coolantSample_steady {s0 s : State} (h : Steady s0 s) {v} : Steady s0 (coolantSample v s) := by
  unfold coolantSample
  try dsimp only
  repeat' first
    | with_reducible (first
        | assumption | rfl | exact id | exact fun h => ⟨h.1, h.2⟩ | exact fun h => ⟨h.1, h.2, h.3⟩ | apply raise_steady | apply clearLevel_steady
        | apply Steady.ite)
    | split
    | with_reducible refine Steady.build ?_ ?_ ?_ ?_ ?_ ?_ ?_ ?_ ?_

theorem csiLaneOrder_steady {s0 s : State} (h : Steady s0 s) {port perm} : Steady s0 (csiLaneOrder port perm s) := by
  unfold csiLaneOrder
  try dsimp only
  repeat' first
    | with_reducible (first
        | assumption | rfl | apply note_steady | apply raise_steady)
    | split

theorem csiLine_steady {s0 s : State} (h : Steady s0 s) {port p t o} : Steady s0 (csiLine port p t o s) := by
  unfold csiLine
  try dsimp only
  repeat' first
    | with_reducible (first
        | assumption | rfl | apply setStream_steady | apply raise_steady | apply updPort_steady | apply Steady.ite)
    | split

theorem spoilPort_steady {s0 s : State} (h : Steady s0 s) {port} : Steady s0 (spoilPort port s) := by
  unfold spoilPort
  try dsimp only
  repeat' first
    | with_reducible (first
        | assumption | rfl | exact id | exact fun h => ⟨h.1, h.2⟩ | exact fun h => ⟨h.1, h.2, h.3⟩ | apply Steady.ite)
    | split
    | with_reducible refine Steady.build ?_ ?_ ?_ ?_ ?_ ?_ ?_ ?_ ?_

theorem undeclared_steady {s0 s : State} (h : Steady s0 s) {key} : Steady s0 (undeclared key s) := by
  unfold undeclared
  try dsimp only
  repeat' first
    | with_reducible (first
        | assumption | rfl | exact id | exact fun h => ⟨h.1, h.2⟩ | exact fun h => ⟨h.1, h.2, h.3⟩ | apply raise_steady | apply Steady.ite)
    | split
    | with_reducible refine Steady.build ?_ ?_ ?_ ?_ ?_ ?_ ?_ ?_ ?_

theorem csiPacket_steady {s0 s : State} (h : Steady s0 s) {port p} : Steady s0 (csiPacket port p s) := by
  unfold csiPacket
  try dsimp only
  repeat' first
    | with_reducible (first
        | assumption | rfl | apply raise_steady | apply spoilPort_steady | apply updPort_steady | apply undeclared_steady | apply updStream_steady
        | apply closeFrame_steady | apply csiLine_steady | apply Steady.ite | apply Steady.fold | intro _)
    | split

theorem decisionPoint_steady {s0 s : State} (h : Steady s0 s) : Steady s0 (decisionPoint s) := by
  unfold decisionPoint
  try dsimp only
  repeat' first
    | with_reducible (first
        | assumption | rfl | exact id | exact fun h => ⟨h.1, h.2⟩ | exact fun h => ⟨h.1, h.2, h.3⟩ | apply toPartner_steady | apply Steady.ite)
    | split
    | with_reducible refine Steady.build ?_ ?_ ?_ ?_ ?_ ?_ ?_ ?_ ?_

theorem deliverWaiting_steady {s0 s : State} (h : Steady s0 s) {ev} : Steady s0 (deliverWaiting ev s) := by
  unfold deliverWaiting
  try dsimp only
  repeat' first
    | with_reducible (first
        | assumption | rfl | exact id | exact fun h => ⟨h.1, h.2⟩ | exact fun h => ⟨h.1, h.2, h.3⟩ | apply deliverTo_steady | apply Steady.fold
        | intro _)
    | split
    | with_reducible refine Steady.build ?_ ?_ ?_ ?_ ?_ ?_ ?_ ?_ ?_

theorem detachLink_steady {s0 s : State} (h : Steady s0 s) {cause} : Steady s0 (detachLink cause s) := by
  unfold detachLink
  try dsimp only
  repeat' first
    | with_reducible (first
        | assumption | rfl | exact id | exact fun h => ⟨h.1, h.2⟩ | exact fun h => ⟨h.1, h.2, h.3⟩ | apply raise_steady | apply Steady.ite)
    | split
    | with_reducible refine Steady.build ?_ ?_ ?_ ?_ ?_ ?_ ?_ ?_ ?_

theorem discardHeld_steady {s0 s : State} (h : Steady s0 s) {flag} : Steady s0 (discardHeld flag s) := by
  unfold discardHeld
  try dsimp only
  repeat' first
    | with_reducible (first
        | assumption | rfl | exact id | exact fun h => ⟨h.1, h.2⟩ | exact fun h => ⟨h.1, h.2, h.3⟩ | apply kvTorn_steady
        | apply discardPosted_steady | apply Steady.fold | intro _)
    | with_reducible refine Steady.build ?_ ?_ ?_ ?_ ?_ ?_ ?_ ?_ ?_

theorem flushMsix_steady {s0 s : State} (h : Steady s0 s) : Steady s0 (flushMsix s) := by
  unfold flushMsix
  try dsimp only
  repeat' first
    | with_reducible (first
        | assumption | rfl | exact id | exact fun h => ⟨h.1, h.2⟩ | exact fun h => ⟨h.1, h.2, h.3⟩ | apply emit_steady | apply Steady.ite
        | apply Steady.fold | intro _)
    | split
    | with_reducible refine Steady.build ?_ ?_ ?_ ?_ ?_ ?_ ?_ ?_ ?_

theorem dlUp_steady {s0 s : State} (h : Steady s0 s) {cxl width rate} : Steady s0 (dlUp cxl width rate s) := by
  unfold dlUp
  try dsimp only
  repeat' first
    | with_reducible (first
        | assumption | rfl | exact id | exact fun h => ⟨h.1, h.2⟩ | exact fun h => ⟨h.1, h.2, h.3⟩ | apply emit_steady | apply flushMsix_steady
        | apply Steady.ite | apply Steady.fold | intro _)
    | split
    | with_reducible refine Steady.build ?_ ?_ ?_ ?_ ?_ ?_ ?_ ?_ ?_

theorem dropDoorbell_steady {s0 s : State} (h : Steady s0 s) : Steady s0 (dropDoorbell s) := by
  unfold dropDoorbell
  try dsimp only
  repeat' first
    | with_reducible (first
        | assumption | rfl | exact id | exact fun h => ⟨h.1, h.2⟩ | exact fun h => ⟨h.1, h.2, h.3⟩)
    | with_reducible refine Steady.build ?_ ?_ ?_ ?_ ?_ ?_ ?_ ?_ ?_

theorem setQueue_steady {s0 s : State} (h : Steady s0 s) {x} : Steady s0 (setQueue x s) := by
  unfold setQueue
  try dsimp only
  repeat' first
    | with_reducible (first
        | assumption | rfl | exact id | exact fun h => ⟨h.1, h.2⟩ | exact fun h => ⟨h.1, h.2, h.3⟩ | apply Steady.ite)
    | split
    | with_reducible refine Steady.build ?_ ?_ ?_ ?_ ?_ ?_ ?_ ?_ ?_

theorem ringQueue_steady {s0 s : State} (h : Steady s0 s) {x tail} : Steady s0 (ringQueue x tail s) := by
  unfold ringQueue
  try dsimp only
  repeat' first
    | with_reducible (first
        | assumption | rfl | apply dropDoorbell_steady | apply setQueue_steady | apply Steady.ite)
    | split

theorem slotRoom_steady {s0 s : State} (h : Steady s0 s) : ∀ t, slotRoom s = some t → Steady s0 t := by
  intro t ht
  unfold slotRoom at ht
  dsimp only at ht
  split at ht
  · cases ht
    exact h
  · split at ht
    · cases ht
    · cases ht
      with_reducible exact Steady.build h rfl rfl rfl rfl rfl id id id
    · cases ht
      with_reducible exact Steady.build h rfl rfl rfl rfl rfl id id id
    · cases ht
      with_reducible apply Steady.ite
      · with_reducible exact Steady.build h rfl rfl rfl rfl rfl id id id
      · with_reducible exact Steady.build h rfl rfl rfl rfl rfl id id id

theorem doorbell_steady {s0 s : State} (h : Steady s0 s) {q tail} : Steady s0 (doorbell q tail s) := by
  unfold doorbell
  try dsimp only
  repeat' first
    | with_reducible (first
        | assumption | rfl | exact id | exact fun h => ⟨h.1, h.2⟩ | exact fun h => ⟨h.1, h.2, h.3⟩ | apply dropDoorbell_steady
        | apply ringQueue_steady | refine slotRoom_steady ?_ _ (by assumption) | apply slotFault_steady | apply note_steady | apply Steady.ite)
    | split
    | with_reducible refine Steady.build ?_ ?_ ?_ ?_ ?_ ?_ ?_ ?_ ?_

theorem endFault_steady {s0 s : State} (h : Steady s0 s) {f} : Steady s0 (endFault f s) := by
  unfold endFault
  try dsimp only
  repeat' first
    | with_reducible (first
        | assumption | rfl | exact id | exact fun h => ⟨h.1, h.2⟩ | exact fun h => ⟨h.1, h.2, h.3⟩)
    | with_reducible refine Steady.build ?_ ?_ ?_ ?_ ?_ ?_ ?_ ?_ ?_

theorem lidarPacket_steady {s0 s : State} (h : Steady s0 s) {k x bs} : Steady s0 (lidarPacket k x bs s) := by
  unfold lidarPacket
  try dsimp only
  repeat' first
    | with_reducible (first
        | assumption | rfl | apply setStream_steady | apply Steady.ite)
    | split

theorem spoilVideo_steady {s0 s : State} (h : Steady s0 s) {k} : Steady s0 (spoilVideo k s) := by
  unfold spoilVideo
  try dsimp only
  repeat' first
    | with_reducible (first
        | assumption | rfl | apply raise_steady | apply setStream_steady | apply Steady.ite)
    | split

theorem rtpPacket_steady {s0 s : State} (h : Steady s0 s) {k bs} : Steady s0 (rtpPacket k bs s) := by
  unfold rtpPacket
  try dsimp only
  repeat' first
    | with_reducible (first
        | assumption | rfl | apply spoilVideo_steady | apply setStream_steady | apply Steady.ite)
    | split

theorem flowData_steady {s0 s : State} (h : Steady s0 s) {k f bs} : Steady s0 (flowData k f bs s) := by
  unfold flowData
  try dsimp only
  repeat' first
    | with_reducible (first
        | assumption | rfl | apply lidarPacket_steady | apply rtpPacket_steady | apply updStream_steady)
    | split

theorem updMac_steady {s0 s : State} (h : Steady s0 s) {m f} : Steady s0 (updMac m f s) := by
  unfold updMac
  try dsimp only
  repeat' first
    | with_reducible (first
        | assumption | rfl | exact id | exact fun h => ⟨h.1, h.2⟩ | exact fun h => ⟨h.1, h.2, h.3⟩)
    | with_reducible refine Steady.build ?_ ?_ ?_ ?_ ?_ ?_ ?_ ?_ ?_

theorem ethFrame_steady {s0 s : State} (h : Steady s0 s) {m e} : Steady s0 (ethFrame m e s) := by
  unfold ethFrame
  try dsimp only
  repeat' first
    | with_reducible (first
        | assumption | rfl | apply updMac_steady | apply undeclared_steady | apply flowData_steady | apply Steady.ite)
    | split

theorem evtRearm_steady {s0 s : State} (h : Steady s0 s) {v} : Steady s0 (evtRearm v s) := by
  unfold evtRearm
  try dsimp only
  repeat' first
    | with_reducible (first
        | assumption | rfl | exact id | exact fun h => ⟨h.1, h.2⟩ | exact fun h => ⟨h.1, h.2, h.3⟩ | apply Steady.ite)
    | split
    | with_reducible refine Steady.build ?_ ?_ ?_ ?_ ?_ ?_ ?_ ?_ ?_

theorem ptpTake_steady {s0 s : State} (h : Steady s0 s) {k} {domain} {f} (hf : ∀ x, Steady s0 x → Steady s0 (f x)) :
    Steady s0 (ptpTake k domain f s) := by
  unfold ptpTake
  with_reducible apply Steady.ite
  · with_reducible exact Steady.build h rfl rfl rfl rfl rfl id id id
  · with_reducible exact Steady.ite (hf _ h) h

theorem switchPort_steady {s0 s : State} (h : Steady s0 s) {k} : Steady s0 (switchPort k s) := by
  unfold switchPort
  try dsimp only
  repeat' first
    | with_reducible (first
        | assumption | rfl | apply holdover_steady | apply setPtp_steady)

theorem masterLost_steady {s0 s : State} (h : Steady s0 s) {k} : Steady s0 (masterLost k s) := by
  simp only [masterLost]
  split
  · exact setPtp_steady h
  · split
    · exact switchPort_steady (setPtp_steady h)
    · exact holdover_steady (setPtp_steady h)

theorem fifoRelease_steady {s0 s : State} (h : Steady s0 s) : Steady s0 (fifoRelease s) := by
  unfold fifoRelease
  try dsimp only
  repeat' first
    | with_reducible (first
        | assumption | rfl | exact id | exact fun h => ⟨h.1, h.2⟩ | exact fun h => ⟨h.1, h.2, h.3⟩ | refine slotRoom_steady ?_ _ (by assumption)
        | apply doorbell_steady | apply Steady.ite)
    | split
    | with_reducible refine Steady.build ?_ ?_ ?_ ?_ ?_ ?_ ?_ ?_ ?_

theorem functionReset_steady {s0 s : State} (h : Steady s0 s) : Steady s0 (functionReset s) := by
  unfold functionReset
  try dsimp only
  repeat' first
    | with_reducible (first
        | assumption | rfl | exact id | exact fun h => ⟨h.1, h.2⟩ | exact fun h => ⟨h.1, h.2, h.3⟩ | apply Steady.fold | intro _)
    | with_reducible refine Steady.build ?_ ?_ ?_ ?_ ?_ ?_ ?_ ?_ ?_

theorem setTrig_steady {s0 s : State} (h : Steady s0 s) {n x} : Steady s0 (setTrig n x s) := by
  unfold setTrig
  try dsimp only
  repeat' first
    | with_reducible (first
        | assumption | rfl | exact id | exact fun h => ⟨h.1, h.2⟩ | exact fun h => ⟨h.1, h.2, h.3⟩)
    | with_reducible refine Steady.build ?_ ?_ ?_ ?_ ?_ ?_ ?_ ?_ ?_

theorem linkReset_steady {s0 s : State} (h : Steady s0 s) {cause} : Steady s0 (linkReset cause s) := by
  unfold linkReset
  try dsimp only
  repeat' first
    | with_reducible (first
        | assumption | rfl | exact id | exact fun h => ⟨h.1, h.2⟩ | exact fun h => ⟨h.1, h.2, h.3⟩ | apply detachLink_steady
        | apply discardHeld_steady | apply functionReset_steady)
    | with_reducible refine Steady.build ?_ ?_ ?_ ?_ ?_ ?_ ?_ ?_ ?_

theorem slewFor_steady {s0 s : State} (h : Steady s0 s) {off} : Steady s0 (slewFor off s) := by
  unfold slewFor
  try dsimp only
  repeat' first
    | with_reducible (first
        | assumption | rfl | exact id | exact fun h => ⟨h.1, h.2⟩ | exact fun h => ⟨h.1, h.2, h.3⟩ | apply freshBits_steady | apply Steady.ite
        | apply Steady.snd (by assumption))
    | split
    | with_reducible refine Steady.build ?_ ?_ ?_ ?_ ?_ ?_ ?_ ?_ ?_

theorem stepPtc_steady {s0 s : State} (h : Steady s0 s) {v} : Steady s0 (stepPtc v s) := by
  unfold stepPtc
  try dsimp only
  repeat' first
    | with_reducible (first
        | assumption | rfl | exact id | exact fun h => ⟨h.1, h.2⟩ | exact fun h => ⟨h.1, h.2, h.3⟩ | apply timeEventSet_steady
        | apply setStatusPtc_steady | apply Steady.ite | apply Steady.fold | apply Steady.foldSnd | intro _ | apply Steady.snd (by assumption)
        | apply Steady.fst (by assumption))
    | split
    | with_reducible refine Steady.build ?_ ?_ ?_ ?_ ?_ ?_ ?_ ?_ ?_
    | (show _ = _; rfl)
    | dsimp only

theorem measured_steady {s0 s : State} (h : Steady s0 s) {master rx cum k} : Steady s0 (measured master rx cum k s) := by
  unfold measured
  try dsimp only
  repeat' first
    | with_reducible (first
        | apply Steady.trim | assumption | rfl | exact id | exact fun h => ⟨h.1, h.2⟩ | exact fun h => ⟨h.1, h.2, h.3⟩ | apply answerStep_steady
        | apply stepPtc_steady | apply setStatusPtc_steady | apply timeEventSet_steady | apply slewFor_steady | apply Steady.ite | apply Steady.fold
        | apply Steady.foldSnd | intro _ | apply Steady.snd (by assumption) | apply Steady.fst (by assumption))
    | split
    | with_reducible refine Steady.build ?_ ?_ ?_ ?_ ?_ ?_ ?_ ?_ ?_
    | (show _ = _; rfl)
    | dsimp only

theorem syncAt_steady {s0 s : State} (h : Steady s0 s) {k origin rx cum} : Steady s0 (syncAt k origin rx cum s) := by
  unfold syncAt
  try dsimp only
  repeat' first
    | with_reducible (first
        | assumption | rfl | exact id | exact fun h => ⟨h.1, h.2⟩ | exact fun h => ⟨h.1, h.2, h.3⟩ | apply measured_steady | apply switchPort_steady
        | apply Steady.ite)
    | split
    | with_reducible refine Steady.build ?_ ?_ ?_ ?_ ?_ ?_ ?_ ?_ ?_

theorem followUp_steady {s0 s : State} (h : Steady s0 s) {k seqId origin cum} : Steady s0 (followUp k seqId origin cum s) := by
  unfold followUp
  try dsimp only
  repeat' first
    | with_reducible (first
        | assumption | rfl | apply syncAt_steady | apply setPtp_steady | apply Steady.ite)
    | split

theorem inbFrameEnd_steady {s0 s : State} (h : Steady s0 s) {n} : Steady s0 (inbFrameEnd n s) := by
  unfold inbFrameEnd
  try dsimp only
  repeat' first
    | with_reducible (first
        | assumption | rfl | exact id | exact fun h => ⟨h.1, h.2⟩ | exact fun h => ⟨h.1, h.2, h.3⟩)
    | with_reducible refine Steady.build ?_ ?_ ?_ ?_ ?_ ?_ ?_ ?_ ?_

theorem holdLimit_steady {s0 s : State} (h : Steady s0 s) : Steady s0 (holdLimit s) := by
  unfold holdLimit
  try dsimp only
  repeat' first
    | with_reducible (first
        | assumption | rfl | apply discardHeld_steady | apply Steady.ite)
    | split

theorem fillLines_steady {s0 s : State} (h : Steady s0 s) {h_ a bs} : Steady s0 (fillLines h_ a bs s) := by
  unfold fillLines
  try dsimp only
  repeat' first
    | with_reducible (first
        | assumption | rfl | exact id | exact fun h => ⟨h.1, h.2⟩ | exact fun h => ⟨h.1, h.2, h.3⟩ | apply Steady.ite | apply Steady.fold | intro _)
    | split
    | with_reducible refine Steady.build ?_ ?_ ?_ ?_ ?_ ?_ ?_ ?_ ?_

theorem queueEntry_steady {s0 s : State} (h : Steady s0 s) {q entry} : Steady s0 (queueEntry q entry s) := by
  unfold queueEntry
  try dsimp only
  repeat' first
    | with_reducible (first
        | assumption | rfl | apply setQueue_steady | apply postWrite_steady | apply postEvent_steady | apply note_steady | apply Steady.ite)
    | split

theorem objNotice_steady {s0 s : State} (h : Steady s0 s) {h_ released} : Steady s0 (objNotice h_ released s) := by
  unfold objNotice
  try dsimp only
  repeat' first
    | with_reducible (first
        | assumption | rfl | exact id | exact fun h => ⟨h.1, h.2⟩ | exact fun h => ⟨h.1, h.2, h.3⟩ | apply postEvent_steady | apply slotFault_steady
        | apply Steady.ite)
    | split
    | with_reducible refine Steady.build ?_ ?_ ?_ ?_ ?_ ?_ ?_ ?_ ?_

theorem setPermanent_steady {s0 s : State} (h : Steady s0 s) {h_} : Steady s0 (setPermanent h_ s) := by
  unfold setPermanent
  try dsimp only
  repeat' first
    | with_reducible (first
        | assumption | rfl | exact id | exact fun h => ⟨h.1, h.2⟩ | exact fun h => ⟨h.1, h.2, h.3⟩)
    | with_reducible refine Steady.build ?_ ?_ ?_ ?_ ?_ ?_ ?_ ?_ ?_

theorem refDone_steady {s0 s : State} (h : Steady s0 s) {h_ take old} : Steady s0 (refDone h_ take old s) := by
  unfold refDone
  try dsimp only
  repeat' first
    | with_reducible (first
        | assumption | rfl | apply refAdd_steady | apply setPermanent_steady | apply objNotice_steady | apply raise_steady | apply note_steady
        | apply Steady.ite)
    | split

theorem inboundRing_steady {s0 s : State} (h : Steady s0 s) {w b v} : Steady s0 (inboundRing w b v s) := by
  unfold inboundRing
  try dsimp only
  repeat' first
    | with_reducible (first
        | assumption | rfl | apply setInb_steady | apply postEvent_steady | apply completeUnit_steady | apply Steady.ite)
    | split

theorem inboundAccess_steady {s0 s : State} (h : Steady s0 s) {w off data ep rid} : Steady s0 (inboundAccess w off data ep rid s) := by
  unfold inboundAccess
  try dsimp only
  repeat' first
    | with_reducible (first
        | assumption | rfl | exact id | exact fun h => ⟨h.1, h.2⟩ | exact fun h => ⟨h.1, h.2, h.3⟩ | apply setInb_steady | apply inboundRing_steady
        | apply inbPut_steady | apply slotFault_steady | apply Steady.ite)
    | split
    | with_reducible refine Steady.build ?_ ?_ ?_ ?_ ?_ ?_ ?_ ?_ ?_

theorem replayInbound_steady {s0 s : State} (h : Steady s0 s) : Steady s0 (replayInbound s) := by
  unfold replayInbound
  try dsimp only
  repeat' first
    | with_reducible (first
        | assumption | rfl | exact id | exact fun h => ⟨h.1, h.2⟩ | exact fun h => ⟨h.1, h.2, h.3⟩ | apply inboundAccess_steady | apply Steady.ite
        | apply Steady.fold | intro _)
    | split
    | with_reducible refine Steady.build ?_ ?_ ?_ ?_ ?_ ?_ ?_ ?_ ?_

theorem putDesc_steady {s0 s : State} (h : Steady s0 s) {h_ d} : Steady s0 (putDesc h_ d s) := by
  unfold putDesc
  try dsimp only
  repeat' first
    | with_reducible (first
        | assumption | rfl | exact id | exact fun h => ⟨h.1, h.2⟩ | exact fun h => ⟨h.1, h.2, h.3⟩)
    | with_reducible refine Steady.build ?_ ?_ ?_ ?_ ?_ ?_ ?_ ?_ ?_

theorem putTrans_steady {s0 s : State} (h : Steady s0 s) {t gallery} : Steady s0 (putTrans t gallery s) := by
  unfold putTrans
  try dsimp only
  repeat' first
    | with_reducible (first
        | assumption | rfl | exact id | exact fun h => ⟨h.1, h.2⟩ | exact fun h => ⟨h.1, h.2, h.3⟩ | apply Steady.ite | apply Steady.fold | intro _)
    | split
    | with_reducible refine Steady.build ?_ ?_ ?_ ?_ ?_ ?_ ?_ ?_ ?_

theorem queueLoaded_steady {s0 s : State} (h : Steady s0 s) {x} : Steady s0 (queueLoaded x s) := by
  unfold queueLoaded
  try dsimp only
  repeat' first
    | with_reducible (first
        | assumption | rfl | exact id | exact fun h => ⟨h.1, h.2⟩ | exact fun h => ⟨h.1, h.2, h.3⟩ | refine slotRoom_steady ?_ _ (by assumption)
        | apply doorbell_steady | apply slotFault_steady | apply Steady.ite | apply Steady.fold | intro _)
    | split
    | with_reducible refine Steady.build ?_ ?_ ?_ ?_ ?_ ?_ ?_ ?_ ?_

theorem slotServed_steady {s0 s : State} (h : Steady s0 s) {f got} : Steady s0 (slotServed f got s) := by
  unfold slotServed
  try dsimp only
  repeat' first
    | with_reducible (first
        | assumption | rfl | exact id | exact fun h => ⟨h.1, h.2⟩ | exact fun h => ⟨h.1, h.2, h.3⟩ | apply endFault_steady | apply badObject_steady
        | apply putTrans_steady | apply putDesc_steady | apply objNotice_steady | refine slotRoom_steady ?_ _ (by assumption)
        | apply setQueue_steady | apply queueLoaded_steady | apply deliverWaiting_steady | apply Steady.ite | apply Steady.fold | intro _)
    | split
    | with_reducible refine Steady.build ?_ ?_ ?_ ?_ ?_ ?_ ?_ ?_ ?_

theorem slotFaultServed_steady {s0 s : State} (h : Steady s0 s) {f got} : Steady s0 (slotFaultServed f got s) := by
  unfold slotFaultServed
  try dsimp only
  repeat' first
    | with_reducible (first
        | assumption | rfl | apply replayInbound_steady | apply slotServed_steady)

theorem finishReq_steady {s0 s : State} (h : Steady s0 s) {q data ur} : Steady s0 (finishReq q data ur s) := by
  unfold finishReq
  try dsimp only
  repeat' first
    | with_reducible (first
        | assumption | rfl | exact id | exact fun h => ⟨h.1, h.2⟩ | exact fun h => ⟨h.1, h.2, h.3⟩ | apply emitFab_steady | apply fillLines_steady
        | apply raise_steady | apply deliverWaiting_steady | apply slotFaultServed_steady | apply refDone_steady | apply sumpArrival_steady
        | apply sumpFailed_steady | apply queueEntry_steady | apply Steady.ite)
    | split
    | with_reducible refine Steady.build ?_ ?_ ?_ ?_ ?_ ?_ ?_ ?_ ?_

theorem takeReq_steady {s0 s : State} (h : Steady s0 s) {tag} : ∀ t, takeReq tag s = some t → Steady s0 t.2 := by
  intro t ht
  unfold takeReq at ht
  obtain ⟨q, -, rfl⟩ := Option.map_eq_some_iff.mp ht
  with_reducible exact Steady.build h rfl rfl rfl rfl rfl id id id

theorem hostCompletion_steady {s0 s : State} (h : Steady s0 s) {tag st data} : Steady s0 (hostCompletion tag st data s) := by
  unfold hostCompletion
  try dsimp only
  repeat' first
    | with_reducible (first
        | assumption | rfl | refine takeReq_steady ?_ _ (by assumption) | apply finishReq_steady | apply Steady.ite)
    | split

theorem hostTimeout_steady {s0 s : State} (h : Steady s0 s) {tag} : Steady s0 (hostTimeout tag s) := by
  unfold hostTimeout
  try dsimp only
  repeat' first
    | with_reducible (first
        | assumption | rfl | refine takeReq_steady ?_ _ (by assumption) | apply finishReq_steady)
    | split

theorem inbRelease_steady {s0 s : State} (h : Steady s0 s) {w b} : Steady s0 (inbRelease w b s) := by
  unfold inbRelease
  try dsimp only
  repeat' first
    | with_reducible (first
        | assumption | rfl | apply setInb_steady | apply Steady.ite)
    | split

theorem takeRef_steady {s0 s : State} (h : Steady s0 s) {h_} : Steady s0 (takeRef h_ s) := by
  unfold takeRef
  try dsimp only
  repeat' first
    | with_reducible (first
        | assumption | rfl | exact id | exact fun h => ⟨h.1, h.2⟩ | exact fun h => ⟨h.1, h.2, h.3⟩ | apply refAdd_steady | apply Steady.ite)
    | split
    | with_reducible refine Steady.build ?_ ?_ ?_ ?_ ?_ ?_ ?_ ?_ ?_

theorem intakeDone_steady {s0 s : State} (h : Steady s0 s) {k} : Steady s0 (intakeDone k s) := by
  unfold intakeDone
  try dsimp only
  repeat' first
    | with_reducible (first
        | assumption | rfl | apply emitFab_steady | apply Steady.ite | apply Steady.fold | intro _)
    | split

theorem invalidateComplete_steady {s0 s : State} (h : Steady s0 s) {id} : Steady s0 (invalidateComplete id s) := by
  unfold invalidateComplete
  try dsimp only
  repeat' first
    | with_reducible (first
        | assumption | rfl | exact id | exact fun h => ⟨h.1, h.2⟩ | exact fun h => ⟨h.1, h.2, h.3⟩ | apply applyInval_steady
        | apply postEvent_steady | apply Steady.ite)
    | split
    | with_reducible refine Steady.build ?_ ?_ ?_ ?_ ?_ ?_ ?_ ?_ ?_

theorem tjSample_steady {s0 s : State} (h : Steady s0 s) {k t} : Steady s0 (tjSample k t s) := by
  unfold tjSample
  try dsimp only
  repeat' first
    | with_reducible (first
        | assumption | rfl | exact id | exact fun h => ⟨h.1, h.2⟩ | exact fun h => ⟨h.1, h.2, h.3⟩ | apply raise_steady | apply clearLevel_steady
        | apply Steady.ite)
    | split
    | with_reducible refine Steady.build ?_ ?_ ?_ ?_ ?_ ?_ ?_ ?_ ?_

theorem junctionSample_steady {s0 s : State} (h : Steady s0 s) {temps} : Steady s0 (junctionSample temps s) := by
  unfold junctionSample
  try dsimp only
  repeat' first
    | with_reducible (first
        | assumption | rfl | exact id | exact fun h => ⟨h.1, h.2⟩ | exact fun h => ⟨h.1, h.2, h.3⟩ | apply tjSample_steady | apply Steady.fold
        | apply Steady.foldSnd | intro _)
    | split
    | with_reducible refine Steady.build ?_ ?_ ?_ ?_ ?_ ?_ ?_ ?_ ?_

theorem lossTimeout_steady {s0 s : State} (h : Steady s0 s) {k} : Steady s0 (lossTimeout k s) := by
  unfold lossTimeout
  try dsimp only
  repeat' first
    | with_reducible (first
        | assumption | rfl | apply loseStream_steady | apply setStream_steady | apply Steady.ite)
    | split

theorem meterThreshold_steady {s0 s : State} (h : Steady s0 s) {m} : Steady s0 (meterThreshold m s) := by
  unfold meterThreshold
  try dsimp only
  repeat' first
    | with_reducible (first
        | assumption | rfl | exact id | exact fun h => ⟨h.1, h.2⟩ | exact fun h => ⟨h.1, h.2, h.3⟩ | apply ledgerEvent_steady | apply Steady.ite)
    | split
    | with_reducible refine Steady.build ?_ ?_ ?_ ?_ ?_ ?_ ?_ ?_ ?_

theorem mirWindowLong_steady {s0 s : State} (h : Steady s0 s) {n} : Steady s0 (mirWindowLong n s) := by
  unfold mirWindowLong
  try dsimp only
  repeat' first
    | with_reducible (first
        | assumption | rfl | apply raise_steady | apply setCore_steady | apply Steady.ite)
    | split

theorem msixUnmask_steady {s0 s : State} (h : Steady s0 s) {enable vec addr data} : Steady s0 (msixUnmask enable vec addr data s) := by
  unfold msixUnmask
  try dsimp only
  repeat' first
    | with_reducible (first
        | assumption | rfl | exact id | exact fun h => ⟨h.1, h.2⟩ | exact fun h => ⟨h.1, h.2, h.3⟩ | apply flushMsix_steady | apply Steady.ite)
    | split
    | with_reducible refine Steady.build ?_ ?_ ?_ ?_ ?_ ?_ ?_ ?_ ?_

theorem txStamp_steady {s0 s : State} (h : Steady s0 s) {k seqId ty tx} : Steady s0 (txStamp k seqId ty tx s).2 := by
  unfold txStamp
  try dsimp only
  repeat' first
    | with_reducible (first
        | assumption | rfl | apply setPtp_steady | apply timeEventSet_steady | apply Steady.ite)
    | split

theorem pdelayAnswer_steady {s0 s : State} (h : Steady s0 s) {k seqId tx} : Steady s0 (pdelayAnswer k seqId tx s) := by
  unfold pdelayAnswer
  try dsimp only
  repeat' first
    | with_reducible (first
        | assumption | rfl | apply txStamp_steady | apply emit_steady | apply Steady.ite | apply Steady.snd (by assumption))
    | split

theorem pdelaySend_steady {s0 s : State} (h : Steady s0 s) {k tx} : Steady s0 (pdelaySend k tx s) := by
  unfold pdelaySend
  try dsimp only
  repeat' first
    | with_reducible (first
        | assumption | rfl | apply txStamp_steady | apply emit_steady | apply setPtp_steady | apply Steady.ite | apply Steady.snd (by assumption))
    | split

theorem pdelayResp_steady {s0 s : State} (h : Steady s0 s) {k seqId t1 t2 t3 t4} : Steady s0 (pdelayResp k seqId t1 t2 t3 t4 s) := by
  unfold pdelayResp
  try dsimp only
  repeat' first
    | with_reducible (first
        | assumption | rfl | apply setPtp_steady | apply Steady.ite)
    | split

theorem pictureDecoded_steady {s0 s : State} (h : Steady s0 s) {k p} : Steady s0 (pictureDecoded k p s) := by
  unfold pictureDecoded
  try dsimp only
  repeat' first
    | with_reducible (first
        | assumption | rfl | apply updStream_steady | apply spoilVideo_steady | apply completeUnit_steady | apply Steady.ite)
    | split

theorem splitDecide_steady {s0 s : State} (h : Steady s0 s) {k toHost} : Steady s0 (splitDecide k toHost s) := by
  unfold splitDecide
  try dsimp only
  repeat' first
    | with_reducible (first
        | assumption | rfl | exact id | exact fun h => ⟨h.1, h.2⟩ | exact fun h => ⟨h.1, h.2, h.3⟩ | apply toPartner_steady | apply Steady.ite)
    | split
    | with_reducible refine Steady.build ?_ ?_ ?_ ?_ ?_ ?_ ?_ ?_ ?_

theorem prismUtilSample_steady {s0 s : State} (h : Steady s0 s) {u} : Steady s0 (prismUtilSample u s) := by
  unfold prismUtilSample
  try dsimp only
  repeat' first
    | with_reducible (first
        | assumption | rfl | exact id | exact fun h => ⟨h.1, h.2⟩ | exact fun h => ⟨h.1, h.2, h.3⟩ | apply splitDecide_steady | apply Steady.ite)
    | split
    | with_reducible refine Steady.build ?_ ?_ ?_ ?_ ?_ ?_ ?_ ?_ ?_

theorem queueDb_steady {s0 s : State} (h : Steady s0 s) {w} : Steady s0 (queueDb w s) := by
  unfold queueDb
  try dsimp only
  repeat' first
    | with_reducible (first
        | assumption | rfl | exact id | exact fun h => ⟨h.1, h.2⟩ | exact fun h => ⟨h.1, h.2, h.3⟩ | apply dropDoorbell_steady
        | apply doorbell_steady | apply Steady.ite)
    | split
    | with_reducible refine Steady.build ?_ ?_ ?_ ?_ ?_ ?_ ?_ ?_ ?_

theorem setFile_steady {s0 s : State} (h : Steady s0 s) {set file x} : Steady s0 (setFile set file x s) := by
  unfold setFile
  try dsimp only
  repeat' first
    | with_reducible (first
        | assumption | rfl | exact id | exact fun h => ⟨h.1, h.2⟩ | exact fun h => ⟨h.1, h.2, h.3⟩)
    | with_reducible refine Steady.build ?_ ?_ ?_ ?_ ?_ ?_ ?_ ?_ ?_

theorem recordDecode_steady {s0 s : State} (h : Steady s0 s) {set file r} : Steady s0 (recordDecode set file r s) := by
  unfold recordDecode
  try dsimp only
  repeat' first
    | with_reducible (first
        | assumption | rfl | apply raise_steady | apply setFile_steady | apply completeUnit_steady | apply updStream_steady | apply Steady.ite)
    | split

theorem restartCore_steady {s0 s : State} (h : Steady s0 s) {m n} : Steady s0 (restartCore m n s) := by
  unfold restartCore
  try dsimp only
  repeat' first
    | with_reducible (first
        | assumption | rfl | apply updCore_steady | apply sendFrameMsg_steady | apply startCore_steady | apply Steady.ite)
    | split

theorem retryRestart_steady {s0 s : State} (h : Steady s0 s) {pair} : Steady s0 (retryRestart pair s) := by
  unfold retryRestart
  try dsimp only
  repeat' first
    | with_reducible (first
        | assumption | rfl | apply restartCore_steady | apply updPair_steady)
    | split

theorem rtpReorderExpiry_steady {s0 s : State} (h : Steady s0 s) {k} : Steady s0 (rtpReorderExpiry k s) := by
  unfold rtpReorderExpiry
  try dsimp only
  repeat' first
    | with_reducible (first
        | assumption | rfl | apply setStream_steady | apply spoilVideo_steady | apply Steady.ite)
    | split

theorem signature_steady {s0 s : State} (h : Steady s0 s) {cmp1 m} : Steady s0 (signature cmp1 m s) := by
  unfold signature
  try dsimp only
  repeat' first
    | with_reducible (first
        | assumption | rfl | apply sendVerdict_steady | apply setPendSigs_steady | apply Steady.ite)
    | split

theorem syncMsg_steady {s0 s : State} (h : Steady s0 s) {k m} : Steady s0 (syncMsg k m s) := by
  unfold syncMsg
  try dsimp only
  repeat' first
    | with_reducible (first
        | assumption | rfl | apply setPtp_steady | apply syncAt_steady | apply Steady.ite)
    | split

theorem timeStepApply_steady {s0 s : State} (h : Steady s0 s) : Steady s0 (timeStepApply s) := by
  unfold timeStepApply
  try dsimp only
  repeat' first
    | with_reducible (first
        | assumption | rfl | apply answerStep_steady | apply stepPtc_steady)
    | split

theorem trigEdge_steady {s0 s : State} (h : Steady s0 s) {n} : Steady s0 (trigEdge n s) := by
  unfold trigEdge
  try dsimp only
  repeat' first
    | with_reducible (first
        | assumption | rfl | apply setTrig_steady | apply timeEventSet_steady | apply emit_steady | apply Steady.ite)
    | split

theorem trigPulseEnd_steady {s0 s : State} (h : Steady s0 s) {n} : Steady s0 (trigPulseEnd n s) := by
  unfold trigPulseEnd
  try dsimp only
  repeat' first
    | with_reducible (first
        | assumption | rfl | apply emit_steady | apply setTrig_steady | apply Steady.ite)
    | split

theorem verdictDiffer_steady {s0 s : State} (h : Steady s0 s) {p window v0 v1} : Steady s0 (verdictDiffer p window v0 v1 s) := by
  unfold verdictDiffer
  try dsimp only
  repeat' first
    | with_reducible (first
        | assumption | rfl | apply raiseAs_steady)

theorem verdict_steady {s0 s : State} (h : Steady s0 s) {pair cmp1 window v} : Steady s0 (verdict pair cmp1 window v s) := by
  unfold verdict
  try dsimp only
  repeat' first
    | with_reducible (first
        | assumption | rfl | exact id | exact fun h => ⟨h.1, h.2⟩ | exact fun h => ⟨h.1, h.2, h.3⟩ | apply mismatch_steady
        | apply verdictDiffer_steady | apply Steady.ite)
    | split
    | with_reducible refine Steady.build ?_ ?_ ?_ ?_ ?_ ?_ ?_ ?_ ?_

theorem verdictTimeout_steady {s0 s : State} (h : Steady s0 s) {pair window} : Steady s0 (verdictTimeout pair window s) := by
  unfold verdictTimeout
  try dsimp only
  repeat' first
    | with_reducible (first
        | assumption | rfl | exact id | exact fun h => ⟨h.1, h.2⟩ | exact fun h => ⟨h.1, h.2, h.3⟩ | apply verdictDiffer_steady | apply Steady.ite)
    | split
    | with_reducible refine Steady.build ?_ ?_ ?_ ?_ ?_ ?_ ?_ ?_ ?_

end Sys2Proof.Machine
end

