-- ==== Sys2Proof/Laws/SteadyPlans.lean ====
section
/-! SUPPORT. `Steady` for the operations of Mailbox, Domain, Plan, Loop, Dvorpo, Guard. -/

namespace Sys2Proof.Machine

theorem setDv_steady {s0 s : State} (h : Steady s0 s) {k p} : Steady s0 (setDv k p s) := by
  unfold setDv
  try dsimp only
  repeat' first
    | with_reducible (first
        | assumption | rfl | exact id | exact fun h => ⟨h.1, h.2⟩ | exact fun h => ⟨h.1, h.2, h.3⟩)
    | with_reducible refine Steady.build ?_ ?_ ?_ ?_ ?_ ?_ ?_ ?_ ?_

theorem ackFlits_steady {s0 s : State} (h : Steady s0 s) {k q} : Steady s0 (ackFlits k q s) := by
  unfold ackFlits
  try dsimp only
  repeat' first
    | with_reducible (first
        | assumption | rfl | apply dvPump_steady | apply setDv_steady | apply Steady.ite)
    | split

theorem refuse_steady {s0 s : State} (h : Steady s0 s) {m r st detail results} : Steady s0 (refuse m r st detail results s) := by
  unfold refuse
  try dsimp only
  repeat' first
    | with_reducible (first
        | assumption | rfl | apply raise_steady | apply logRec_steady | apply respond_steady | apply Steady.ite)
    | split

theorem bad_steady {s0 s : State} (h : Steady s0 s) {m r off} : Steady s0 (bad m r off s) := by
  unfold bad
  try dsimp only
  repeat' first
    | with_reducible (first
        | assumption | rfl | apply refuse_steady)

theorem traceGap_steady {s0 s : State} (h : Steady s0 s) {code from_} : Steady s0 (traceGap code from_ s) := by
  unfold traceGap
  try dsimp only
  repeat' first
    | with_reducible (first
        | assumption | rfl | exact id | exact fun h => ⟨h.1, h.2⟩ | exact fun h => ⟨h.1, h.2, h.3⟩ | apply traceFunnel_steady)
    | with_reducible refine Steady.build ?_ ?_ ?_ ?_ ?_ ?_ ?_ ?_ ?_

theorem domainOn_steady {s0 s : State} (h : Steady s0 s) {d} : Steady s0 (domainOn d s) := by
  unfold domainOn
  try dsimp only
  repeat' first
    | with_reducible (first
        | assumption | rfl | exact id | exact fun h => ⟨h.1, h.2⟩ | exact fun h => ⟨h.1, h.2, h.3⟩ | apply setIsland_steady | apply setCore_steady
        | apply traceGap_steady | apply traceRun_steady | apply Steady.ite | apply Steady.fold | intro _)
    | split
    | with_reducible refine Steady.build ?_ ?_ ?_ ?_ ?_ ?_ ?_ ?_ ?_

theorem ok_steady {s0 s : State} (h : Steady s0 s) {m r results} : Steady s0 (ok m r results s) := by
  unfold ok
  try dsimp only
  repeat' first
    | with_reducible (first
        | assumption | rfl | apply respond_steady)

theorem domainOff_steady {s0 s : State} (h : Steady s0 s) {d} : Steady s0 (domainOff d s) := by
  unfold domainOff
  try dsimp only
  repeat' first
    | with_reducible (first
        | assumption | rfl | exact id | exact fun h => ⟨h.1, h.2⟩ | exact fun h => ⟨h.1, h.2, h.3⟩ | apply setCore_steady | apply setIsland_steady
        | apply traceRun_steady | exact gateMem_ok | apply Steady.ite | apply Steady.fold | intro _)
    | split
    | with_reducible refine Steady.build ?_ ?_ ?_ ?_ ?_ ?_ ?_ ?_ ?_

theorem gateUnused_steady {s0 s : State} (h : Steady s0 s) : Steady s0 (gateUnused s) := by
  unfold gateUnused
  try dsimp only
  repeat' first
    | with_reducible (first
        | assumption | rfl | apply domainOff_steady | apply Steady.ite | apply Steady.fold | intro _)
    | split

theorem measure_steady {s0 s : State} (h : Steady s0 s) {code digest} : Steady s0 (measure code digest s) := by
  unfold measure
  try dsimp only
  repeat' first
    | with_reducible (first
        | assumption | rfl | exact id | exact fun h => ⟨h.1, h.2⟩ | exact fun h => ⟨h.1, h.2, h.3⟩ | apply Steady.ite)
    | split
    | with_reducible refine Steady.build ?_ ?_ ?_ ?_ ?_ ?_ ?_ ?_ ?_

theorem retrain_steady {s0 s : State} (h : Steady s0 s) {k} : Steady s0 (retrain k s) := by
  unfold retrain
  try dsimp only
  repeat' first
    | with_reducible (first
        | assumption | rfl | apply raise_steady | apply setDv_steady | apply Steady.ite)
    | split

theorem badFlit_steady {s0 s : State} (h : Steady s0 s) {k crc} : Steady s0 (badFlit k crc s) := by
  unfold badFlit
  try dsimp only
  repeat' first
    | with_reducible (first
        | assumption | rfl | apply emit_steady | apply setDv_steady | apply retrain_steady | apply Steady.ite)
    | split

theorem loadSection_steady {s0 s : State} (h : Steady s0 s) {p map keep c} : Steady s0 (loadSection p map keep c s) := by
  unfold loadSection
  try dsimp only
  repeat' first
    | with_reducible (first
        | assumption | rfl | apply changeCore_steady | apply Steady.ite | apply Steady.fold | intro _)
    | split

theorem classifyReport_steady {s0 s : State} (h : Steady s0 s) {c} : Steady s0 (classifyReport c s) := by
  unfold classifyReport
  try dsimp only
  repeat' first
    | with_reducible (first
        | assumption | rfl | exact id | exact fun h => ⟨h.1, h.2⟩ | exact fun h => ⟨h.1, h.2, h.3⟩ | apply Steady.ite)
    | split
    | with_reducible refine Steady.build ?_ ?_ ?_ ?_ ?_ ?_ ?_ ?_ ?_

theorem ringPut_steady {s0 s : State} (h : Steady s0 s) {n off bs} : Steady s0 (ringPut n off bs s) := by
  unfold ringPut
  try dsimp only
  repeat' first
    | with_reducible (first
        | assumption | rfl | apply postWrite_steady)
    | split

theorem postVerdict_steady {s0 s : State} (h : Steady s0 s) {n v} : Steady s0 (postVerdict n v s) := by
  unfold postVerdict
  try dsimp only
  repeat' first
    | with_reducible (first
        | assumption | rfl | apply ringPut_steady | apply notifyAll_steady)

theorem prunePast_steady {s0 s : State} (h : Steady s0 s) : Steady s0 (prunePast s) := by
  unfold prunePast
  try dsimp only
  repeat' first
    | with_reducible (first
        | assumption | rfl | exact id | exact fun h => ⟨h.1, h.2⟩ | exact fun h => ⟨h.1, h.2, h.3⟩)
    | with_reducible refine Steady.build ?_ ?_ ?_ ?_ ?_ ?_ ?_ ?_ ?_

theorem updPast_steady {s0 s : State} (h : Steady s0 s) {n f} : Steady s0 (updPast n f s) := by
  unfold updPast
  try dsimp only
  repeat' first
    | with_reducible (first
        | assumption | rfl | exact id | exact fun h => ⟨h.1, h.2⟩ | exact fun h => ⟨h.1, h.2, h.3⟩ | apply Steady.ite)
    | split
    | with_reducible refine Steady.build ?_ ?_ ?_ ?_ ?_ ?_ ?_ ?_ ?_

theorem judgeFrame_steady {s0 s : State} (h : Steady s0 s) {n v} : Steady s0 (judgeFrame n v s) := by
  unfold judgeFrame
  try dsimp only
  repeat' first
    | with_reducible (first
        | assumption | rfl | apply raise_steady | apply updPast_steady | apply prunePast_steady | apply postVerdict_steady | apply Steady.ite)
    | split

theorem compareSigs_steady {s0 s : State} (h : Steady s0 s) : Steady s0 (compareSigs s) := by
  unfold compareSigs
  try dsimp only
  repeat' first
    | with_reducible (first
        | assumption | rfl | exact id | exact fun h => ⟨h.1, h.2⟩ | exact fun h => ⟨h.1, h.2, h.3⟩ | apply judgeFrame_steady | apply Steady.ite
        | apply Steady.fold | intro _)
    | split
    | with_reducible refine Steady.build ?_ ?_ ?_ ?_ ?_ ?_ ?_ ?_ ?_

theorem enterRealign_steady {s0 s : State} (h : Steady s0 s) : Steady s0 (enterRealign s) := by
  unfold enterRealign
  try dsimp only
  repeat' first
    | with_reducible (first
        | assumption | rfl | exact id | exact fun h => ⟨h.1, h.2⟩ | exact fun h => ⟨h.1, h.2, h.3⟩ | apply enter_steady | apply Steady.ite)
    | split
    | with_reducible refine Steady.build ?_ ?_ ?_ ?_ ?_ ?_ ?_ ?_ ?_

theorem heardNow_steady {s0 s : State} (h : Steady s0 s) : Steady s0 (heardNow s) := by
  unfold heardNow
  try dsimp only
  repeat' first
    | with_reducible (first
        | assumption | rfl | exact id | exact fun h => ⟨h.1, h.2⟩ | exact fun h => ⟨h.1, h.2, h.3⟩ | apply clearLevel_steady | apply Steady.ite)
    | split
    | with_reducible refine Steady.build ?_ ?_ ?_ ?_ ?_ ?_ ?_ ?_ ?_

theorem execRealignExit_steady {s0 s : State} (h : Steady s0 s) {f} : ∀ t, execRealignExit f s = .next t → Steady s0 t := by
  unfold execRealignExit
  intro t ht
  injection ht with e
  subst e
  try dsimp only
  repeat' first
    | with_reducible (first
        | assumption | rfl | exact id | exact fun h => ⟨h.1, h.2⟩ | exact fun h => ⟨h.1, h.2, h.3⟩ | apply heardNow_steady | apply Steady.ite)
    | split
    | with_reducible refine Steady.build ?_ ?_ ?_ ?_ ?_ ?_ ?_ ?_ ?_

theorem execRungEnergy_steady {s0 s : State} (h : Steady s0 s) {rung f} : ∀ t, execRungEnergy rung f s = .next t → Steady s0 t := by
  unfold execRungEnergy
  intro t ht
  injection ht with e
  subst e
  try dsimp only
  repeat' first
    | with_reducible (first
        | assumption | rfl | exact id | exact fun h => ⟨h.1, h.2⟩ | exact fun h => ⟨h.1, h.2, h.3⟩ | apply heardNow_steady)
    | with_reducible refine Steady.build ?_ ?_ ?_ ?_ ?_ ?_ ?_ ?_ ?_

theorem execRungFloor_steady {s0 s : State} (h : Steady s0 s) {fl f} : ∀ t, execRungFloor fl f s = .next t → Steady s0 t := by
  unfold execRungFloor
  intro t ht
  injection ht with e
  subst e
  try dsimp only
  repeat' first
    | with_reducible (first
        | assumption | rfl | exact id | exact fun h => ⟨h.1, h.2⟩ | exact fun h => ⟨h.1, h.2, h.3⟩ | apply heardNow_steady)
    | with_reducible refine Steady.build ?_ ?_ ?_ ?_ ?_ ?_ ?_ ?_ ?_

theorem faultStateIn_steady {s0 s : State} (h : Steady s0 s) {own b src} : Steady s0 (faultStateIn own b src s) := by
  unfold faultStateIn
  try dsimp only
  repeat' first
    | with_reducible (first
        | assumption | rfl | exact id | exact fun h => ⟨h.1, h.2⟩ | exact fun h => ⟨h.1, h.2, h.3⟩ | apply heardNow_steady | apply note_steady
        | apply Steady.ite)
    | split
    | with_reducible refine Steady.build ?_ ?_ ?_ ?_ ?_ ?_ ?_ ?_ ?_

theorem heartbeatIn_steady {s0 s : State} (h : Steady s0 s) {b} : Steady s0 (heartbeatIn b s) := by
  unfold heartbeatIn
  try dsimp only
  repeat' first
    | with_reducible (first
        | assumption | rfl | exact id | exact fun h => ⟨h.1, h.2⟩ | exact fun h => ⟨h.1, h.2, h.3⟩ | apply heardNow_steady | apply Steady.ite)
    | split
    | with_reducible refine Steady.build ?_ ?_ ?_ ?_ ?_ ?_ ?_ ?_ ?_

theorem dropStart_steady {s0 s : State} (h : Steady s0 s) {w} : Steady s0 (dropStart w s) := by
  unfold dropStart
  try dsimp only
  repeat' first
    | with_reducible (first
        | assumption | rfl | exact id | exact fun h => ⟨h.1, h.2⟩ | exact fun h => ⟨h.1, h.2, h.3⟩ | apply respond_steady)
    | with_reducible refine Steady.build ?_ ?_ ?_ ?_ ?_ ?_ ?_ ?_ ?_

theorem logCheckFail_steady {s0 s : State} (h : Steady s0 s) {k} : Steady s0 (logCheckFail k s) := by
  unfold logCheckFail
  try dsimp only
  repeat' first
    | with_reducible (first
        | assumption | rfl | apply logRec_steady)

theorem loadSections_steady {s0 s : State} (h : Steady s0 s) {p map keep} : Steady s0 (loadSections p map keep s) := by
  unfold loadSections
  try dsimp only
  repeat' first
    | with_reducible (first
        | assumption | rfl | apply loadSection_steady | apply Steady.fold | intro _)

theorem sidebandPulse_steady {s0 s : State} (h : Steady s0 s) : Steady s0 (sidebandPulse s) := by
  unfold sidebandPulse
  try dsimp only
  repeat' first
    | with_reducible (first
        | assumption | rfl | apply toPartner_steady)

theorem startLoop_steady {s0 s : State} (h : Steady s0 s) {p slot e absent} : Steady s0 (startLoop p slot e absent s) := by
  unfold startLoop
  try dsimp only
  repeat' first
    | with_reducible (first
        | assumption | rfl | exact id | exact fun h => ⟨h.1, h.2⟩ | exact fun h => ⟨h.1, h.2, h.3⟩ | apply loadSections_steady
        | apply decisionPoint_steady | apply enter_steady | apply raise_steady | apply respond_steady | apply sidebandPulse_steady
        | apply Steady.ite)
    | split
    | with_reducible refine Steady.build ?_ ?_ ?_ ?_ ?_ ?_ ?_ ?_ ?_

theorem tryStart_steady {s0 s : State} (h : Steady s0 s) : Steady s0 (tryStart s) := by
  unfold tryStart
  try dsimp only
  repeat' first
    | with_reducible (first
        | assumption | rfl | exact id | exact fun h => ⟨h.1, h.2⟩ | exact fun h => ⟨h.1, h.2, h.3⟩ | apply dropStart_steady | apply startLoop_steady
        | apply logCheckFail_steady | apply respond_steady | apply Steady.ite)
    | split
    | with_reducible refine Steady.build ?_ ?_ ?_ ?_ ?_ ?_ ?_ ?_ ?_

theorem loopProposeIn_steady {s0 s : State} (h : Steady s0 s) {e n running} : Steady s0 (loopProposeIn e n running s) := by
  unfold loopProposeIn
  try dsimp only
  repeat' first
    | with_reducible (first
        | assumption | rfl | exact id | exact fun h => ⟨h.1, h.2⟩ | exact fun h => ⟨h.1, h.2, h.3⟩ | apply heardNow_steady | apply tryStart_steady
        | apply toPartner_steady | apply sidebandPulse_steady | apply Steady.ite)
    | split
    | with_reducible refine Steady.build ?_ ?_ ?_ ?_ ?_ ?_ ?_ ?_ ?_

theorem planCheckIn_steady {s0 s : State} (h : Steady s0 s) {m} : Steady s0 (planCheckIn m s) := by
  unfold planCheckIn
  try dsimp only
  repeat' first
    | with_reducible (first
        | assumption | rfl | exact id | exact fun h => ⟨h.1, h.2⟩ | exact fun h => ⟨h.1, h.2, h.3⟩ | apply heardNow_steady | apply toPartner_steady
        | apply logCheckFail_steady | apply tryStart_steady | apply Steady.ite)
    | split
    | with_reducible refine Steady.build ?_ ?_ ?_ ?_ ?_ ?_ ?_ ?_ ?_

theorem sidebandIn_steady {s0 s : State} (h : Steady s0 s) {phase result} : Steady s0 (sidebandIn phase result s) := by
  unfold sidebandIn
  try dsimp only
  repeat' first
    | with_reducible (first
        | assumption | rfl | exact id | exact fun h => ⟨h.1, h.2⟩ | exact fun h => ⟨h.1, h.2, h.3⟩ | apply heardNow_steady | apply toPartner_steady
        | apply sidebandPulse_steady | apply raise_steady | apply Steady.ite)
    | split
    | with_reducible refine Steady.build ?_ ?_ ?_ ?_ ?_ ?_ ?_ ?_ ?_

theorem splitMoveIn_steady {s0 s : State} (h : Steady s0 s) {k toHost f} : Steady s0 (splitMoveIn k toHost f s) := by
  unfold splitMoveIn
  try dsimp only
  repeat' first
    | with_reducible (first
        | assumption | rfl | exact id | exact fun h => ⟨h.1, h.2⟩ | exact fun h => ⟨h.1, h.2, h.3⟩ | apply heardNow_steady | apply Steady.ite)
    | split
    | with_reducible refine Steady.build ?_ ?_ ?_ ?_ ?_ ?_ ?_ ?_ ?_

theorem ctrlMsgIn_steady {s0 s : State} (h : Steady s0 s) {b} : Steady s0 (ctrlMsgIn b s) := by
  have run : ∀ r : Res, (∀ t, r = .next t → Steady s0 t) → Steady s0 (match r with | .next t => t | _ => s) := by
    intro r hr
    split
    · exact hr _ rfl
    · exact h
  unfold ctrlMsgIn
  dsimp only
  split
  · exact heartbeatIn_steady h
  · exact faultStateIn_steady h
  · exact planCheckIn_steady h
  · exact loopProposeIn_steady h
  · exact run _ (execRungEnergy_steady h)
  · exact run _ (execRungFloor_steady h)
  · exact splitMoveIn_steady h
  · exact enterRealign_steady (heardNow_steady h)
  · exact run _ (execRealignExit_steady h)
  · exact sidebandIn_steady h
  · exact h

theorem dataMessage_steady {s0 s : State} (h : Steady s0 s) {id off bs last} : Steady s0 (dataMessage id off bs last s) := by
  unfold dataMessage
  try dsimp only
  repeat' first
    | with_reducible (first
        | assumption | rfl | exact id | exact fun h => ⟨h.1, h.2⟩ | exact fun h => ⟨h.1, h.2, h.3⟩ | apply raise_steady | apply postEvent_steady
        | exact stagingPut_ok | apply Steady.ite)
    | split
    | with_reducible refine Steady.build ?_ ?_ ?_ ?_ ?_ ?_ ?_ ?_ ?_

theorem unload_steady {s0 s : State} (h : Steady s0 s) {l} : Steady s0 (unload l s) := by
  unfold unload
  try dsimp only
  repeat' first
    | with_reducible (first
        | assumption | rfl | exact id | exact fun h => ⟨h.1, h.2⟩ | exact fun h => ⟨h.1, h.2, h.3⟩ | apply changeCore_steady | apply dropRef_steady
        | apply Steady.ite | apply Steady.fold | intro _)
    | split
    | with_reducible refine Steady.build ?_ ?_ ?_ ?_ ?_ ?_ ?_ ?_ ?_

theorem endorseFail_steady {s0 s : State} (h : Steady s0 s) {reason} : Steady s0 (endorseFail reason s) := by
  unfold endorseFail
  try dsimp only
  repeat' first
    | with_reducible (first
        | assumption | rfl | apply guardPhase_steady | apply updGuard_steady)

theorem endorse_steady {s0 s : State} (h : Steady s0 s) {b} : Steady s0 (endorse b s).2 := by
  unfold endorse
  try dsimp only
  repeat' first
    | with_reducible (first
        | assumption | rfl | apply guardPhase_steady | apply endorseFail_steady | apply updGuard_steady | apply Steady.ite)
    | split

theorem settle_steady {s0 s : State} (h : Steady s0 s) {w0 w1} : Steady s0 (settle w0 w1 s) := by
  induction w0 generalizing s with
  | zero => exact h
  | succ n ih =>
    simp only [settle]
    repeat' first
      | exact h
      | (with_reducible refine ih (refuse_steady (setMb_steady h ?_)); exact fun h => ⟨h.1, h.2⟩)
      | split

theorem serveCmd_steady {s0 s : State} (h : Steady s0 s) {m op body} (hbody : ∀ x0 x1, Steady s0 x1 → Steady s0 (body x0 x1)) :
    Steady s0 (serveCmd m op body s) := by
  unfold serveCmd
  dsimp only
  split
  · exact h
  · with_reducible apply Steady.ite h
    with_reducible apply settle_steady
    split
    · with_reducible refine refuse_steady (setMb_steady h ?_)
      exact fun h => ⟨h.1, h.2⟩
    · with_reducible refine hbody _ _ (setMb_steady h ?_)
      exact fun h => ⟨h.1, h.2⟩

theorem losePartner_steady {s0 s : State} (h : Steady s0 s) : Steady s0 (losePartner s) := by
  unfold losePartner
  try dsimp only
  repeat' first
    | with_reducible (first
        | assumption | rfl | exact id | exact fun h => ⟨h.1, h.2⟩ | exact fun h => ⟨h.1, h.2, h.3⟩ | apply raise_steady | apply Steady.ite)
    | split
    | with_reducible refine Steady.build ?_ ?_ ?_ ?_ ?_ ?_ ?_ ?_ ?_

theorem linkDown_steady {s0 s : State} (h : Steady s0 s) {k} : Steady s0 (linkDown k s) := by
  unfold linkDown
  try dsimp only
  repeat' first
    | with_reducible (first
        | assumption | rfl | apply setDv_steady | apply raise_steady | apply dvQueue_steady | apply losePartner_steady | apply Steady.ite
        | apply Steady.fold | intro _)
    | split

theorem mcuVeto_steady {s0 s : State} (h : Steady s0 s) {id} : Steady s0 (mcuVeto id s).2 := by
  unfold mcuVeto
  try dsimp only
  repeat' first
    | with_reducible (first
        | assumption | rfl | apply vetoProposal_steady | apply Steady.ite | apply Steady.snd (by assumption))
    | split

theorem faultInSense_steady {s0 s : State} (h : Steady s0 s) : Steady s0 (faultInSense s) := by
  unfold faultInSense
  try dsimp only
  repeat' first
    | with_reducible (first
        | assumption | rfl | exact id | exact fun h => ⟨h.1, h.2⟩ | exact fun h => ⟨h.1, h.2, h.3⟩ | apply raiseAs_steady | apply Steady.ite)
    | split
    | with_reducible refine Steady.build ?_ ?_ ?_ ?_ ?_ ?_ ?_ ?_ ?_

theorem takeover_steady {s0 s : State} (h : Steady s0 s) : Steady s0 (takeover s) := by
  unfold takeover
  try dsimp only
  repeat' first
    | with_reducible (first
        | assumption | rfl | apply setTrig_steady | apply Steady.ite | apply Steady.fold | intro _)
    | split

theorem faultInClassify_steady {s0 s : State} (h : Steady s0 s) {pulse} : Steady s0 (faultInClassify pulse s) := by
  unfold faultInClassify
  try dsimp only
  repeat' first
    | with_reducible (first
        | assumption | rfl | exact id | exact fun h => ⟨h.1, h.2⟩ | exact fun h => ⟨h.1, h.2, h.3⟩ | apply classifyReport_steady
        | apply takeover_steady | apply Steady.ite)
    | split
    | with_reducible refine Steady.build ?_ ?_ ?_ ?_ ?_ ?_ ?_ ?_ ?_

theorem forwardFlit_steady {s0 s : State} (h : Steady s0 s) {k f} : Steady s0 (forwardFlit k f s) := by
  unfold forwardFlit
  try dsimp only
  repeat' first
    | with_reducible (first
        | assumption | rfl | apply freshBits_steady | apply dvQueue_steady | apply Steady.ite | apply Steady.snd (by assumption))
    | split

theorem resendHeld_steady {s0 s : State} (h : Steady s0 s) {k} : Steady s0 (resendHeld k s) := by
  unfold resendHeld
  try dsimp only
  repeat' first
    | with_reducible (first
        | assumption | rfl | apply emit_steady | apply Steady.fold | intro _)

theorem replayPort_steady {s0 s : State} (h : Steady s0 s) {k} : Steady s0 (replayPort k s) := by
  unfold replayPort
  try dsimp only
  repeat' first
    | with_reducible (first
        | assumption | rfl | apply retrain_steady | apply setDv_steady | apply resendHeld_steady | apply Steady.ite)
    | split

theorem frameSigIn_steady {s0 s : State} (h : Steady s0 s) {m} : Steady s0 (frameSigIn m s) := by
  unfold frameSigIn
  try dsimp only
  repeat' first
    | with_reducible (first
        | assumption | rfl | exact id | exact fun h => ⟨h.1, h.2⟩ | exact fun h => ⟨h.1, h.2, h.3⟩ | apply heardNow_steady
        | apply compareSigs_steady | apply Steady.ite)
    | split
    | with_reducible refine Steady.build ?_ ?_ ?_ ?_ ?_ ?_ ?_ ?_ ?_

theorem sigMsgIn_steady {s0 s : State} (h : Steady s0 s) {b} : Steady s0 (sigMsgIn b s) := by
  unfold sigMsgIn
  try dsimp only
  repeat' first
    | with_reducible (first
        | assumption | rfl | apply frameSigIn_steady | apply Steady.ite)
    | split

theorem timeReportIn_steady {s0 s : State} (h : Steady s0 s) {m} : Steady s0 (timeReportIn m s) := by
  unfold timeReportIn
  try dsimp only
  repeat' first
    | with_reducible (first
        | assumption | rfl | exact id | exact fun h => ⟨h.1, h.2⟩ | exact fun h => ⟨h.1, h.2, h.3⟩ | apply heardNow_steady
        | apply enterRealign_steady | apply Steady.ite)
    | split
    | with_reducible refine Steady.build ?_ ?_ ?_ ?_ ?_ ?_ ?_ ?_ ?_

theorem timeReqIn_steady {s0 s : State} (h : Steady s0 s) {t1 corr} : Steady s0 (timeReqIn t1 corr s) := by
  unfold timeReqIn
  try dsimp only
  repeat' first
    | with_reducible (first
        | assumption | rfl | apply heardNow_steady | apply toPartner_steady | apply Steady.ite)
    | split

theorem followInc_steady {s0 s : State} (h : Steady s0 s) {d} : Steady s0 (followInc d s) := Steady.trim h _

theorem restoreAlign_steady {s0 s : State} (h : Steady s0 s) : Steady s0 (restoreAlign s) := by
  unfold restoreAlign
  try dsimp only
  repeat' first
    | with_reducible (first
        | assumption | rfl | exact id | exact fun h => ⟨h.1, h.2⟩ | exact fun h => ⟨h.1, h.2, h.3⟩ | apply toPartner_steady | apply Steady.ite)
    | split
    | with_reducible refine Steady.build ?_ ?_ ?_ ?_ ?_ ?_ ?_ ?_ ?_

theorem sendRealign_steady {s0 s : State} (h : Steady s0 s) {d} : Steady s0 (sendRealign d s) := by
  unfold sendRealign
  try dsimp only
  repeat' first
    | with_reducible (first
        | assumption | rfl | apply toPartner_steady)

theorem guardStep_steady {s0 s : State} (h : Steady s0 s) {d gap} : Steady s0 (guardStep d gap s).1 := by
  unfold guardStep
  try dsimp only
  repeat' first
    | with_reducible (first
        | assumption | rfl | exact id | exact fun h => ⟨h.1, h.2⟩ | exact fun h => ⟨h.1, h.2, h.3⟩ | apply restoreAlign_steady
        | apply sendRealign_steady | apply enterRealign_steady | apply Steady.ite)
    | split
    | with_reducible refine Steady.build ?_ ?_ ?_ ?_ ?_ ?_ ?_ ?_ ?_

theorem timeRespIn_steady {s0 s : State} (h : Steady s0 s) {m} : Steady s0 (timeRespIn m s) := by
  unfold timeRespIn
  try dsimp only
  repeat' first
    | with_reducible (first
        | assumption | rfl | exact id | exact fun h => ⟨h.1, h.2⟩ | exact fun h => ⟨h.1, h.2, h.3⟩ | apply heardNow_steady | apply followInc_steady
        | apply guardStep_steady | apply toPartner_steady | apply Steady.ite | apply Steady.fst (by assumption))
    | split
    | with_reducible refine Steady.build ?_ ?_ ?_ ?_ ?_ ?_ ?_ ?_ ?_

theorem timeMsgIn_steady {s0 s : State} (h : Steady s0 s) {corr b} : Steady s0 (timeMsgIn corr b s) := by
  unfold timeMsgIn
  try dsimp only
  repeat' first
    | with_reducible (first
        | assumption | rfl | apply timeReqIn_steady | apply timeRespIn_steady | apply timeReportIn_steady)
    | split

theorem takeFlit_steady {s0 s : State} (h : Steady s0 s) {replayed chan src id corr first last pay} :
    Steady s0 (takeFlit replayed chan src id corr first last pay s) := by
  unfold takeFlit
  try dsimp only
  repeat' first
    | with_reducible (first
        | assumption | rfl | exact id | exact fun h => ⟨h.1, h.2⟩ | exact fun h => ⟨h.1, h.2, h.3⟩ | apply heardNow_steady | apply sigMsgIn_steady
        | apply timeMsgIn_steady | apply ctrlMsgIn_steady | apply faultStateIn_steady | apply dataMessage_steady | apply Steady.ite)
    | split
    | with_reducible refine Steady.build ?_ ?_ ?_ ?_ ?_ ?_ ?_ ?_ ?_

theorem flitReceive_steady {s0 s : State} (h : Steady s0 s) {k b} : Steady s0 (flitReceive k b s) := by
  unfold flitReceive
  try dsimp only
  repeat' first
    | with_reducible (first
        | assumption | rfl | apply badFlit_steady | apply ackFlits_steady | apply replayPort_steady | apply emit_steady | apply setDv_steady
        | apply forwardFlit_steady | apply takeFlit_steady | apply Steady.ite)
    | split

theorem finishStop_steady {s0 s : State} (h : Steady s0 s) {last} : Steady s0 (finishStop last s) := by
  unfold finishStop
  try dsimp only
  repeat' first
    | with_reducible (first
        | assumption | rfl | exact id | exact fun h => ⟨h.1, h.2⟩ | exact fun h => ⟨h.1, h.2, h.3⟩ | apply answerBoundary_steady
        | apply enter_steady | apply driveSafe_steady | apply respond_steady | apply Steady.fold | intro _)
    | with_reducible refine Steady.build ?_ ?_ ?_ ?_ ?_ ?_ ?_ ?_ ?_

theorem frameSigWait_steady {s0 s : State} (h : Steady s0 s) : Steady s0 (frameSigWait s) := by
  unfold frameSigWait
  try dsimp only
  repeat' first
    | with_reducible (first
        | assumption | rfl | apply judgeFrame_steady | apply Steady.fold | intro _)

theorem guardStatus_steady {s0 s : State} (h : Steady s0 s) {r} : Steady s0 (guardStatus r s) := by
  unfold guardStatus
  try dsimp only
  repeat' first
    | with_reducible (first
        | assumption | rfl | apply ok_steady)

theorem linkTraining_steady {s0 s : State} (h : Steady s0 s) {k lanes farGood far} : Steady s0 (linkTraining k lanes farGood far s) := by
  unfold linkTraining
  try dsimp only
  repeat' first
    | with_reducible (first
        | assumption | rfl | apply raise_steady | apply setDv_steady | apply resendHeld_steady | apply dvSend_steady | apply Steady.ite
        | apply Steady.fold | intro _)
    | split

theorem loopStart_steady {s0 s : State} (h : Steady s0 s) {r} : Steady s0 (loopStart r s) := by
  unfold loopStart
  try dsimp only
  repeat' first
    | with_reducible (first
        | assumption | rfl | exact id | exact fun h => ⟨h.1, h.2⟩ | exact fun h => ⟨h.1, h.2, h.3⟩ | apply bad_steady | apply refuse_steady
        | apply startLoop_steady | apply toPartner_steady | apply tryStart_steady | apply Steady.ite)
    | split
    | with_reducible refine Steady.build ?_ ?_ ?_ ?_ ?_ ?_ ?_ ?_ ?_

theorem loopStop_steady {s0 s : State} (h : Steady s0 s) {r} : Steady s0 (loopStop r s) := by
  unfold loopStop
  try dsimp only
  repeat' first
    | with_reducible (first
        | assumption | rfl | exact id | exact fun h => ⟨h.1, h.2⟩ | exact fun h => ⟨h.1, h.2, h.3⟩ | apply stopTorch_steady | apply ok_steady
        | apply bad_steady | apply finishStop_steady | apply Steady.ite)
    | split
    | with_reducible refine Steady.build ?_ ?_ ?_ ?_ ?_ ?_ ?_ ?_ ?_

theorem mbBadSat_steady {s0 s : State} (h : Steady s0 s) {m v} : Steady s0 (mbBadSat m v s) := by
  unfold mbBadSat
  try dsimp only
  repeat' first
    | with_reducible (first
        | assumption | rfl | exact id | exact fun h => ⟨h.1, h.2⟩ | exact fun h => ⟨h.1, h.2, h.3⟩ | apply setMb_steady | apply Steady.ite)
    | split

theorem mbDone_steady {s0 s : State} (h : Steady s0 s) {m v} : Steady s0 (mbDone m v s) := by
  unfold mbDone
  try dsimp only
  repeat' first
    | with_reducible (first
        | assumption | rfl | exact id | exact fun h => ⟨h.1, h.2⟩ | exact fun h => ⟨h.1, h.2, h.3⟩ | apply setMb_steady | apply Steady.ite
        | apply Steady.fold | intro _)
    | split

theorem mbDoorbell_steady {s0 s : State} (h : Steady s0 s) {m v} : Steady s0 (mbDoorbell m v s) := by
  unfold mbDoorbell
  try dsimp only
  repeat' first
    | with_reducible (first
        | assumption | rfl | exact id | exact fun h => ⟨h.1, h.2⟩ | exact fun h => ⟨h.1, h.2, h.3⟩ | apply setMb_steady | apply settle_steady
        | apply respond_steady | apply Steady.ite)
    | split

theorem mbLate_steady {s0 s : State} (h : Steady s0 s) {m slot} : Steady s0 (mbLate m slot s) := by
  unfold mbLate
  try dsimp only
  repeat' first
    | with_reducible (first
        | assumption | rfl | exact id | exact fun h => ⟨h.1, h.2⟩ | exact fun h => ⟨h.1, h.2, h.3⟩ | apply raise_steady | apply setMb_steady
        | apply Steady.ite)
    | split

theorem partnerCheckTimeout_steady {s0 s : State} (h : Steady s0 s) : Steady s0 (partnerCheckTimeout s) := by
  unfold partnerCheckTimeout
  try dsimp only
  repeat' first
    | with_reducible (first
        | assumption | rfl | exact id | exact fun h => ⟨h.1, h.2⟩ | exact fun h => ⟨h.1, h.2, h.3⟩ | apply dropStart_steady
        | apply logCheckFail_steady | apply respond_steady | apply startLoop_steady | apply Steady.ite)
    | split
    | with_reducible refine Steady.build ?_ ?_ ?_ ?_ ?_ ?_ ?_ ?_ ?_

theorem openRegions_steady {s0 s : State} (h : Steady s0 s) {p} : Steady s0 (openRegions p s) := by
  unfold openRegions
  try dsimp only
  repeat' first
    | with_reducible (first
        | exact fun h => ⟨(fold_ok h fun _ _ => chamberPut_ok).1, (fold_ok h fun _ _ => chamberPut_ok).2, (fold_ok h fun _ _ => chamberPut_ok).3⟩
        | assumption | rfl | exact id | exact fun h => ⟨h.1, h.2⟩ | exact fun h => ⟨h.1, h.2, h.3⟩ | exact chamberPut_ok | apply Steady.fold
        | intro _)
    | with_reducible refine Steady.build ?_ ?_ ?_ ?_ ?_ ?_ ?_ ?_ ?_

theorem powerHalves_steady {s0 s : State} (h : Steady s0 s) {img map} : Steady s0 (powerHalves img map s) := by
  unfold powerHalves
  try dsimp only
  repeat' first
    | with_reducible (first
        | assumption | rfl | apply domainOn_steady | apply Steady.fold | intro _)

theorem planLoaded_steady {s0 s : State} (h : Steady s0 s) {c p objs} : Steady s0 (planLoaded c p objs s) := by
  unfold planLoaded
  try dsimp only
  repeat' first
    | with_reducible (first
        | assumption | rfl | exact id | exact fun h => ⟨h.1, h.2⟩ | exact fun h => ⟨h.1, h.2, h.3⟩ | apply powerHalves_steady
        | apply loadSections_steady | apply openRegions_steady | refine slotRoom_steady ?_ _ (by assumption) | apply putDesc_steady
        | apply putTrans_steady | apply slotFault_steady | apply takeRef_steady | apply measure_steady | apply Steady.ite | apply Steady.fold
        | apply Steady.foldSnd | intro _)
    | split
    | with_reducible refine Steady.build ?_ ?_ ?_ ?_ ?_ ?_ ?_ ?_ ?_

theorem planLoad_steady {s0 s : State} (h : Steady s0 s) {ctxBytes img objs r} : Steady s0 (planLoad ctxBytes img objs r s) := by
  unfold planLoad
  try dsimp only
  repeat' first
    | with_reducible (first
        | assumption | rfl | apply refuse_steady | apply bad_steady | apply badObject_steady | apply planLoaded_steady | apply ok_steady
        | apply Steady.ite)
    | split

theorem planUnload_steady {s0 s : State} (h : Steady s0 s) {r} : Steady s0 (planUnload r s) := by
  unfold planUnload
  try dsimp only
  repeat' first
    | with_reducible (first
        | assumption | rfl | apply refuse_steady | apply gateUnused_steady | apply retireStep_steady | apply unload_steady | apply ok_steady)
    | split

theorem newProposal_steady {s0 s : State} (h : Steady s0 s) {r kind digest plan change} : Steady s0 (newProposal r kind digest plan change s) := by
  unfold newProposal
  try dsimp only
  repeat' first
    | with_reducible (first
        | assumption | rfl | apply refuse_steady | apply guardLog_steady | apply updGuard_steady | apply ok_steady)
    | split

theorem proposeInline_steady {s0 s : State} (h : Steady s0 s) {kind r} : Steady s0 (proposeInline kind r s) := by
  unfold proposeInline
  try dsimp only
  repeat' first
    | with_reducible (first
        | assumption | rfl | apply newProposal_steady | apply refuse_steady | apply bad_steady | apply Steady.ite)
    | split

theorem stageCopy_steady {s0 s : State} (h : Steady s0 s) {b} : Steady s0 (stageCopy b s) := by
  unfold stageCopy
  try dsimp only
  repeat' first
    | with_reducible (first
        | assumption | rfl | exact id | exact fun h => ⟨h.1, h.2⟩ | exact fun h => ⟨h.1, h.2, h.3⟩ | exact stagingPut_ok)
    | with_reducible refine Steady.build ?_ ?_ ?_ ?_ ?_ ?_ ?_ ?_ ?_

theorem proposeObject_steady {s0 s : State} (h : Steady s0 s) {kind staged r} : Steady s0 (proposeObject kind staged r s) := by
  unfold proposeObject
  try dsimp only
  repeat' first
    | with_reducible (first
        | assumption | rfl | apply refuse_steady | apply bad_steady | apply stageCopy_steady | apply newProposal_steady | apply Steady.ite)
    | split

theorem propose_steady {s0 s : State} (h : Steady s0 s) {staged r} : Steady s0 (propose staged r s) := by
  unfold propose
  try dsimp only
  repeat' first
    | with_reducible (first
        | assumption | rfl | apply refuse_steady | apply bad_steady | apply proposeObject_steady | apply proposeInline_steady | apply Steady.ite)
    | split

theorem urgAck_steady {s0 s : State} (h : Steady s0 s) {v} : Steady s0 (urgAck v s) := by
  unfold urgAck
  try dsimp only
  repeat' first
    | with_reducible (first
        | assumption | rfl | exact id | exact fun h => ⟨h.1, h.2⟩ | exact fun h => ⟨h.1, h.2, h.3⟩ | apply loadUrgent_steady | apply Steady.ite)
    | split
    | with_reducible refine Steady.build ?_ ?_ ?_ ?_ ?_ ?_ ?_ ?_ ?_

theorem retireClear_steady {s0 s : State} (h : Steady s0 s) {r} : Steady s0 (retireClear r s) := by
  unfold retireClear
  try dsimp only
  repeat' first
    | with_reducible (first
        | assumption | rfl | apply refuse_steady | apply bad_steady | apply newProposal_steady | apply Steady.ite)
    | split

theorem spareSubstitute_steady {s0 s : State} (h : Steady s0 s) {r} : Steady s0 (spareSubstitute r s) := by
  unfold spareSubstitute
  try dsimp only
  repeat' first
    | with_reducible (first
        | assumption | rfl | apply refuse_steady | apply bad_steady | apply newProposal_steady | apply Steady.ite)
    | split

theorem timeReqSend_steady {s0 s : State} (h : Steady s0 s) : Steady s0 (timeReqSend s) := by
  unfold timeReqSend
  try dsimp only
  repeat' first
    | with_reducible (first
        | assumption | rfl | exact id | exact fun h => ⟨h.1, h.2⟩ | exact fun h => ⟨h.1, h.2, h.3⟩ | apply toPartner_steady | apply Steady.ite)
    | split
    | with_reducible refine Steady.build ?_ ?_ ?_ ?_ ?_ ?_ ?_ ?_ ?_

theorem hostVeto_steady {s0 s : State} (h : Steady s0 s) {r} : Steady s0 (hostVeto r s) := by
  unfold hostVeto
  try dsimp only
  repeat' first
    | with_reducible (first
        | assumption | rfl | apply vetoProposal_steady | apply ok_steady | apply refuse_steady | apply Steady.ite | apply Steady.snd (by assumption))
    | split

end Sys2Proof.Machine
end

