-- ==== Sys2Proof/Laws/SteadyService.lean ====
section
/-! SUPPORT. `Steady` for the operations of Reconcile, Frame, Session, Adapt, Status, Service, Sio, Lifecycle, Spi, Regs. -/

namespace Sys2Proof.Machine

theorem endRun_steady {s0 s : State} (h : Steady s0 s) {a x} : Steady s0 (endRun a x s) := by
  unfold endRun
  try dsimp only
  repeat' first
    | with_reducible (first
        | assumption | rfl | exact id | exact fun h => ⟨h.1, h.2⟩ | exact fun h => ⟨h.1, h.2, h.3⟩ | apply postEvent_steady)
    | with_reducible refine Steady.build ?_ ?_ ?_ ?_ ?_ ?_ ?_ ?_ ?_

theorem abortRun_steady {s0 s : State} (h : Steady s0 s) : Steady s0 (abortRun s) := by
  unfold abortRun
  try dsimp only
  repeat' first
    | with_reducible (first
        | assumption | rfl | apply endRun_steady)
    | split

theorem adaptEnter_steady {s0 s : State} (h : Steady s0 s) {r} : Steady s0 (adaptEnter r s) := by
  unfold adaptEnter
  try dsimp only
  repeat' first
    | with_reducible (first
        | assumption | rfl | exact id | exact fun h => ⟨h.1, h.2⟩ | exact fun h => ⟨h.1, h.2, h.3⟩ | apply refuse_steady | apply bad_steady
        | apply domainOn_steady | apply ok_steady | apply enter_steady | apply driveSafe_steady | apply Steady.ite)
    | split
    | with_reducible refine Steady.build ?_ ?_ ?_ ?_ ?_ ?_ ?_ ?_ ?_

theorem closeSets_steady {s0 s : State} (h : Steady s0 s) : Steady s0 (closeSets s) := by
  unfold closeSets
  try dsimp only
  repeat' first
    | with_reducible (first
        | assumption | rfl | exact id | exact fun h => ⟨h.1, h.2⟩ | exact fun h => ⟨h.1, h.2, h.3⟩)
    | with_reducible refine Steady.build ?_ ?_ ?_ ?_ ?_ ?_ ?_ ?_ ?_

theorem adaptExit_steady {s0 s : State} (h : Steady s0 s) {r} : Steady s0 (adaptExit r s) := by
  unfold adaptExit
  try dsimp only
  repeat' first
    | with_reducible (first
        | assumption | rfl | exact id | exact fun h => ⟨h.1, h.2⟩ | exact fun h => ⟨h.1, h.2, h.3⟩ | apply closeSets_steady | apply abortRun_steady
        | apply gateUnused_steady | apply enter_steady | apply ok_steady)
    | split
    | with_reducible refine Steady.build ?_ ?_ ?_ ?_ ?_ ?_ ?_ ?_ ?_

theorem adaptResult_steady {s0 s : State} (h : Steady s0 s) {r} : Steady s0 (adaptResult r s) := by
  unfold adaptResult
  try dsimp only
  repeat' first
    | with_reducible (first
        | assumption | rfl | apply ok_steady | apply refuse_steady | apply Steady.ite)
    | split

theorem rewind_steady {s0 s : State} (h : Steady s0 s) {set} : Steady s0 (rewind set s) := by
  unfold rewind
  try dsimp only
  repeat' first
    | with_reducible (first
        | assumption | rfl | exact id | exact fun h => ⟨h.1, h.2⟩ | exact fun h => ⟨h.1, h.2, h.3⟩)
    | with_reducible refine Steady.build ?_ ?_ ?_ ?_ ?_ ?_ ?_ ?_ ?_

theorem adaptRun_steady {s0 s : State} (h : Steady s0 s) {r} : Steady s0 (adaptRun r s) := by
  unfold adaptRun
  try dsimp only
  repeat' first
    | with_reducible (first
        | assumption | rfl | exact id | exact fun h => ⟨h.1, h.2⟩ | exact fun h => ⟨h.1, h.2, h.3⟩ | apply bad_steady | apply refuse_steady
        | apply rewind_steady | apply ok_steady | apply Steady.ite)
    | split
    | with_reducible refine Steady.build ?_ ?_ ?_ ?_ ?_ ?_ ?_ ?_ ?_

theorem aliveToggle_steady {s0 s : State} (h : Steady s0 s) : Steady s0 (aliveToggle s) := driveAlive_steady h

theorem bar0Reply_steady {s0 s : State} (h : Steady s0 s) {off v} : Steady s0 (bar0Reply off v s) := by
  unfold bar0Reply
  try dsimp only
  repeat' first
    | with_reducible (first
        | assumption | rfl | apply emit_steady)

theorem arSessionRead_steady {s0 s : State} (h : Steady s0 s) : Steady s0 (arSessionRead s) := by
  unfold arSessionRead
  try dsimp only
  repeat' first
    | with_reducible (first
        | assumption | rfl | exact id | exact fun h => ⟨h.1, h.2⟩ | exact fun h => ⟨h.1, h.2, h.3⟩ | apply bar0Reply_steady)
    | with_reducible refine Steady.build ?_ ?_ ?_ ?_ ?_ ?_ ?_ ?_ ?_

theorem linkAttach_steady {s0 s : State} (h : Steady s0 s) : Steady s0 (linkAttach s) := by
  unfold linkAttach
  try dsimp only
  repeat' first
    | with_reducible (first
        | assumption | rfl | exact id | exact fun h => ⟨h.1, h.2⟩ | exact fun h => ⟨h.1, h.2, h.3⟩ | apply dropCopies_steady)
    | with_reducible refine Steady.build ?_ ?_ ?_ ?_ ?_ ?_ ?_ ?_ ?_

theorem putTables_steady {s0 s : State} (h : Steady s0 s) {r} : Steady s0 (putTables r s) := by
  unfold putTables
  try dsimp only
  repeat' first
    | with_reducible (first
        | assumption | rfl | exact id | exact fun h => ⟨h.1, h.2⟩ | exact fun h => ⟨h.1, h.2, h.3⟩)
    | with_reducible refine Steady.build ?_ ?_ ?_ ?_ ?_ ?_ ?_ ?_ ?_

theorem clearStreams_steady {s0 s : State} (h : Steady s0 s) : Steady s0 (clearStreams s) := by
  unfold clearStreams
  try dsimp only
  repeat' first
    | with_reducible (first
        | assumption | rfl | exact id | exact fun h => ⟨h.1, h.2⟩ | exact fun h => ⟨h.1, h.2, h.3⟩)
    | with_reducible refine Steady.build ?_ ?_ ?_ ?_ ?_ ?_ ?_ ?_ ?_

theorem setCoolant_steady {s0 s : State} (h : Steady s0 s) {m} : Steady s0 (setCoolant m s) := by
  unfold setCoolant
  try dsimp only
  repeat' first
    | with_reducible (first
        | assumption | rfl | exact id | exact fun h => ⟨h.1, h.2⟩ | exact fun h => ⟨h.1, h.2, h.3⟩)
    | split
    | with_reducible refine Steady.build ?_ ?_ ?_ ?_ ?_ ?_ ?_ ?_ ?_

theorem setDvorpo_steady {s0 s : State} (h : Steady s0 s) {m digest} : Steady s0 (setDvorpo m digest s) := by
  unfold setDvorpo
  try dsimp only
  repeat' first
    | with_reducible (first
        | assumption | rfl | exact id | exact fun h => ⟨h.1, h.2⟩ | exact fun h => ⟨h.1, h.2, h.3⟩ | apply domainOn_steady | apply Steady.ite
        | apply Steady.fold | intro _)
    | split
    | with_reducible refine Steady.build ?_ ?_ ?_ ?_ ?_ ?_ ?_ ?_ ?_

theorem setStreams_steady {s0 s : State} (h : Steady s0 s) {m} : Steady s0 (setStreams m s) := by
  unfold setStreams
  try dsimp only
  repeat' first
    | with_reducible (first
        | assumption | rfl | exact id | exact fun h => ⟨h.1, h.2⟩ | exact fun h => ⟨h.1, h.2, h.3⟩ | apply clearStreams_steady | apply Steady.fold
        | intro _)
    | with_reducible refine Steady.build ?_ ?_ ?_ ?_ ?_ ?_ ?_ ?_ ?_

theorem setTimeCfg_steady {s0 s : State} (h : Steady s0 s) {m} : Steady s0 (setTimeCfg m s) := by
  unfold setTimeCfg
  try dsimp only
  repeat' first
    | with_reducible (first
        | assumption | rfl | exact id | exact fun h => ⟨h.1, h.2⟩ | exact fun h => ⟨h.1, h.2, h.3⟩ | apply holdover_steady | apply Steady.ite
        | apply Steady.fold | intro _)
    | split
    | with_reducible refine Steady.build ?_ ?_ ?_ ?_ ?_ ?_ ?_ ?_ ?_

theorem configure_steady {s0 s : State} (h : Steady s0 s) {m} : Steady s0 (configure m s) := by
  unfold configure
  try dsimp only
  repeat' first
    | with_reducible (first
        | assumption | rfl | apply domainOn_steady | apply gateUnused_steady | apply setDvorpo_steady | apply setCoolant_steady
        | apply setTimeCfg_steady | apply setStreams_steady | apply Steady.ite)
    | split

theorem takeManifest_steady {s0 s : State} (h : Steady s0 s) {m} : Steady s0 (takeManifest m s) := by
  unfold takeManifest
  try dsimp only
  repeat' first
    | with_reducible (first
        | assumption | rfl | apply measure_steady | apply configure_steady | apply clearStreams_steady)
    | split

theorem attachNew_steady {s0 s : State} (h : Steady s0 s) {r m} : Steady s0 (attachNew r m s) := by
  unfold attachNew
  dsimp only
  with_reducible apply ok_steady
  with_reducible apply enter_steady
  with_reducible apply linkAttach_steady
  have o : Steady s0 (openSession m.isSome (takeManifest m (putTables r s))) := by
    with_reducible exact openSession_steady (takeManifest_steady (putTables_steady h))
  with_reducible exact Steady.build o rfl rfl rfl rfl rfl id id id

theorem attachReclaim_steady {s0 s : State} (h : Steady s0 s) {r} : Steady s0 (attachReclaim r s) := by
  unfold attachReclaim
  try dsimp only
  repeat' first
    | with_reducible (first
        | assumption | rfl | exact id | exact fun h => ⟨h.1, h.2⟩ | exact fun h => ⟨h.1, h.2, h.3⟩ | apply putTables_steady | apply measure_steady
        | apply linkAttach_steady | apply ok_steady | exact freeSlots_ok | apply Steady.ite)
    | split
    | with_reducible refine Steady.build ?_ ?_ ?_ ?_ ?_ ?_ ?_ ?_ ?_

theorem attach_steady {s0 s : State} (h : Steady s0 s) {man atomicEn r} : Steady s0 (attach man atomicEn r s) := by
  unfold attach
  try dsimp only
  repeat' first
    | with_reducible (first
        | assumption | rfl | exact id | exact fun h => ⟨h.1, h.2⟩ | exact fun h => ⟨h.1, h.2, h.3⟩ | apply refuse_steady | apply bad_steady
        | apply attachReclaim_steady | apply attachNew_steady | apply Steady.ite)
    | split
    | with_reducible refine Steady.build ?_ ?_ ?_ ?_ ?_ ?_ ?_ ?_ ?_

theorem dvFrameStart_steady {s0 s : State} (h : Steady s0 s) {n} : Steady s0 (dvFrameStart n s) := by
  unfold dvFrameStart
  try dsimp only
  repeat' first
    | with_reducible (first
        | assumption | rfl | exact id | exact fun h => ⟨h.1, h.2⟩ | exact fun h => ⟨h.1, h.2, h.3⟩ | apply enter_steady | apply raise_steady
        | apply Steady.ite)
    | split
    | with_reducible refine Steady.build ?_ ?_ ?_ ?_ ?_ ?_ ?_ ?_ ?_

theorem noBudgetNote_steady {s0 s : State} (h : Steady s0 s) : Steady s0 (noBudgetNote s) := by
  unfold noBudgetNote
  try dsimp only
  repeat' first
    | with_reducible (first
        | assumption | rfl | exact id | exact fun h => ⟨h.1, h.2⟩ | exact fun h => ⟨h.1, h.2, h.3⟩ | apply raise_steady | apply Steady.ite)
    | split
    | with_reducible refine Steady.build ?_ ?_ ?_ ?_ ?_ ?_ ?_ ?_ ?_

theorem energyStart_steady {s0 s : State} (h : Steady s0 s) {n torch p} : Steady s0 (energyStart n torch p s).2 := by
  unfold energyStart
  dsimp only
  split
  · dsimp only
    with_reducible apply latchMeters_steady
    exact h
  · with_reducible apply rungStart_steady
    with_reducible apply windowStart_steady
    with_reducible apply noBudgetNote_steady
    with_reducible apply reconcile_steady
    with_reducible apply latchMeters_steady
    exact h

theorem invalBoundary_steady {s0 s : State} (h : Steady s0 s) {n torch} : Steady s0 (invalBoundary n torch s) := by
  unfold invalBoundary
  try dsimp only
  repeat' first
    | with_reducible (first
        | assumption | rfl | apply applyInval_steady | apply Steady.fold | intro _)

theorem markCur_steady {s0 s : State} (h : Steady s0 s) {f cls src} : Steady s0 (markCur f cls src s) := by
  unfold markCur
  try dsimp only
  repeat' first
    | with_reducible (first
        | assumption | rfl | exact id | exact fun h => ⟨h.1, h.2⟩ | exact fun h => ⟨h.1, h.2, h.3⟩)
    | with_reducible refine Steady.build ?_ ?_ ?_ ?_ ?_ ?_ ?_ ?_ ?_

theorem markEpisodes_steady {s0 s : State} (h : Steady s0 s) : Steady s0 (markEpisodes s) := by
  unfold markEpisodes
  try dsimp only
  repeat' first
    | with_reducible (first
        | assumption | rfl | exact id | exact fun h => ⟨h.1, h.2⟩ | exact fun h => ⟨h.1, h.2, h.3⟩ | apply markCur_steady | apply Steady.ite
        | apply Steady.fold | intro _)
    | split
    | with_reducible refine Steady.build ?_ ?_ ?_ ?_ ?_ ?_ ?_ ?_ ?_

theorem mirFrameStart_steady {s0 s : State} (h : Steady s0 s) {torch} : Steady s0 (mirFrameStart torch s) := by
  unfold mirFrameStart
  try dsimp only
  repeat' first
    | with_reducible (first
        | assumption | rfl | exact id | exact fun h => ⟨h.1, h.2⟩ | exact fun h => ⟨h.1, h.2, h.3⟩ | apply updCore_steady | apply Steady.fold
        | intro _)
    | with_reducible refine Steady.build ?_ ?_ ?_ ?_ ?_ ?_ ?_ ?_ ?_

theorem markOp_steady {s0 s : State} (h : Steady s0 s) {o src} : Steady s0 (markOp o src s) := by
  unfold markOp
  try dsimp only
  repeat' first
    | with_reducible (first
        | assumption | rfl | apply markCur_steady)

theorem runShape_steady {s0 s : State} (h : Steady s0 s) {p o m n k} : Steady s0 (runShape p o m n k s) := by
  unfold runShape
  try dsimp only
  repeat' first
    | with_reducible (first
        | assumption | rfl | apply raise_steady | apply markOp_steady | apply Steady.ite)
    | split

theorem opShape_steady {s0 s : State} (h : Steady s0 s) {p d} : Steady s0 (opShape p d s) := by
  unfold opShape
  try dsimp only
  repeat' first
    | with_reducible (first
        | assumption | rfl | apply runShape_steady | apply markOp_steady | apply raise_steady | apply Steady.ite | apply Steady.fold | intro _)
    | split

theorem reloadCore_steady {s0 s : State} (h : Steady s0 s) {n} : Steady s0 (reloadCore n s) := by
  unfold reloadCore
  try dsimp only
  repeat' first
    | with_reducible (first
        | assumption | rfl | apply loadSection_steady)
    | split

theorem recoverOne_steady {s0 s : State} (h : Steady s0 s) {e} : Steady s0 (recoverOne e s) := by
  unfold recoverOne
  try dsimp only
  repeat' first
    | with_reducible (first
        | assumption | rfl | exact id | exact fun h => ⟨h.1, h.2⟩ | exact fun h => ⟨h.1, h.2, h.3⟩ | apply reloadCore_steady | apply readmit_steady
        | apply Steady.ite)
    | split
    | with_reducible refine Steady.build ?_ ?_ ?_ ?_ ?_ ?_ ?_ ?_ ?_

theorem recoverAll_steady {s0 s : State} (h : Steady s0 s) : Steady s0 (recoverAll s) := by
  unfold recoverAll
  try dsimp only
  repeat' first
    | with_reducible (first
        | assumption | rfl | apply recoverOne_steady | apply Steady.fold | intro _)

theorem frameMsg_steady {s0 s : State} (h : Steady s0 s) {f first c} : Steady s0 (frameMsg f first c s).2 := by
  unfold frameMsg
  try dsimp only
  repeat' first
    | with_reducible (first
        | assumption | rfl | apply kvEntry_steady | apply Steady.fold | apply Steady.foldSnd | intro _ | apply Steady.snd (by assumption))

theorem frameMsgTo_steady {s0 s : State} (h : Steady s0 s) {n chan msg} : Steady s0 (frameMsgTo n chan msg s) := by
  unfold frameMsgTo
  try dsimp only
  repeat' first
    | with_reducible (first
        | assumption | rfl | apply markCur_steady | apply raise_steady | apply sendFrameMsg_steady | apply Steady.ite)
    | split

theorem sendMessages_steady {s0 s : State} (h : Steady s0 s) {p f first} : Steady s0 (sendMessages p f first s) := by
  unfold sendMessages
  try dsimp only
  repeat' first
    | with_reducible (first
        | assumption | rfl | apply frameMsg_steady | apply frameMsgTo_steady | apply Steady.ite | apply Steady.fold | apply Steady.foldSnd | intro _
        | apply Steady.snd (by assumption) | apply Steady.fst (by assumption))
    | split
    | with_reducible refine Steady.build ?_ ?_ ?_ ?_ ?_ ?_ ?_ ?_ ?_
    | (show _ = _; rfl)
    | dsimp only

theorem sendStarts_steady {s0 s : State} (h : Steady s0 s) {p torch} : Steady s0 (sendStarts p torch s) := by
  unfold sendStarts
  try dsimp only
  repeat' first
    | with_reducible (first
        | assumption | rfl | apply emitFab_steady | apply Steady.fold | intro _)

theorem stampNow_steady {s0 s : State} (h : Steady s0 s) {n} : Steady s0 (stampNow n s) := by
  unfold stampNow
  try dsimp only
  repeat' first
    | with_reducible (first
        | assumption | rfl | exact id | exact fun h => ⟨h.1, h.2⟩ | exact fun h => ⟨h.1, h.2, h.3⟩)
    | with_reducible refine Steady.build ?_ ?_ ?_ ?_ ?_ ?_ ?_ ?_ ?_

theorem whileAlive_steady {s0 s : State} (h : Steady s0 s) {p torch f} (hf : ∀ x, Steady s0 x → Steady s0 (f x)) :
    Steady s0 (whileAlive p torch f s) := by
  unfold whileAlive
  with_reducible exact Steady.ite (hf _ h) h

theorem beginFrame_steady {s0 s : State} (h : Steady s0 s) {torch shapes p} : Steady s0 (beginFrame torch shapes p s) := by
  unfold beginFrame
  try dsimp only
  repeat' first
    | with_reducible (first
        | assumption | rfl | exact id | exact fun h => ⟨h.1, h.2⟩ | exact fun h => ⟨h.1, h.2, h.3⟩ | apply stampNow_steady
        | apply answerBoundary_steady | apply energyStart_steady | apply recoverAll_steady | apply markEpisodes_steady | apply mirFrameStart_steady
        | apply inbBoundary_steady | apply invalBoundary_steady | apply whileAlive_steady | apply dvFrameStart_steady
        | apply intakeFrameStart_steady | apply kvFrameStart_steady | apply inbFrameStart_steady | apply opShape_steady | apply sendMessages_steady
        | apply sendStarts_steady | apply Steady.ite | apply Steady.fold | intro _ | apply Steady.snd (by assumption))
    | split
    | with_reducible refine Steady.build ?_ ?_ ?_ ?_ ?_ ?_ ?_ ?_ ?_

theorem dramBoot_steady {s0 s : State} (h : Steady s0 s) {lockFail} : Steady s0 (dramBoot lockFail s) := by
  unfold dramBoot
  try dsimp only
  repeat' first
    | with_reducible (first
        | assumption | rfl | exact id | exact fun h => ⟨h.1, h.2⟩ | exact fun h => ⟨h.1, h.2, h.3⟩ | apply retirePair_steady | apply Steady.fold
        | intro _)
    | with_reducible refine Steady.build ?_ ?_ ?_ ?_ ?_ ?_ ?_ ?_ ?_

theorem updateLog_steady {s0 s : State} (h : Steady s0 s) {code payload} : Steady s0 (updateLog code payload s) := by
  unfold updateLog
  try dsimp only
  repeat' first
    | with_reducible (first
        | assumption | rfl | apply logRec_steady)

theorem raiseOtp_steady {s0 s : State} (h : Steady s0 s) : Steady s0 (raiseOtp s) := by
  unfold raiseOtp
  exact Steady.iteH (fun k => updateLog_steady (Steady.otpUp h _ (Nat.le_of_lt k.2))) h

theorem siteTests_steady {s0 s : State} (h : Steady s0 s) {failed} : Steady s0 (siteTests failed s) := by
  unfold siteTests
  try dsimp only
  repeat' first
    | with_reducible (first
        | assumption | rfl | exact id | exact fun h => ⟨h.1, h.2⟩ | exact fun h => ⟨h.1, h.2, h.3⟩ | apply logRec_steady | apply Steady.fold
        | intro _)
    | with_reducible refine Steady.build ?_ ?_ ?_ ?_ ?_ ?_ ?_ ?_ ?_

theorem patternPin_steady {s0 s : State} (h : Steady s0 s) {cond src k} : Steady s0 (patternPin cond src k s) := by
  unfold patternPin
  try dsimp only
  repeat' first
    | with_reducible (first
        | assumption | rfl | exact id | exact fun h => ⟨h.1, h.2⟩ | exact fun h => ⟨h.1, h.2, h.3⟩ | apply raise_steady)
    | with_reducible refine Steady.build ?_ ?_ ?_ ?_ ?_ ?_ ?_ ?_ ?_

theorem startPattern_steady {s0 s : State} (h : Steady s0 s) {p} : Steady s0 (startPattern p s) := by
  unfold startPattern
  try dsimp only
  repeat' first
    | with_reducible (first
        | assumption | rfl | exact id | exact fun h => ⟨h.1, h.2⟩ | exact fun h => ⟨h.1, h.2, h.3⟩ | apply driveSafe_steady | apply raise_steady
        | apply patternPin_steady | apply driveFault_steady | apply Steady.ite)
    | split
    | with_reducible refine Steady.build ?_ ?_ ?_ ?_ ?_ ?_ ?_ ?_ ?_

theorem bootEnd_steady {s0 s : State} (h : Steady s0 s) {e} : Steady s0 (bootEnd e s) := by
  unfold bootEnd
  try dsimp only
  repeat' first
    | with_reducible (first
        | assumption | rfl | exact id | exact fun h => ⟨h.1, h.2⟩ | exact fun h => ⟨h.1, h.2, h.3⟩ | apply startPattern_steady
        | apply domainOn_steady | apply dramBoot_steady | apply siteTests_steady | apply freshBits_steady | apply gateUnused_steady
        | apply measure_steady | apply enter_steady | apply raiseOtp_steady | apply Steady.ite | apply Steady.fold | intro _
        | apply Steady.snd (by assumption))
    | split
    | with_reducible refine Steady.build ?_ ?_ ?_ ?_ ?_ ?_ ?_ ?_ ?_

theorem fallback_steady {s0 s : State} (h : Steady s0 s) : Steady s0 (fallback s) := by
  unfold fallback
  try dsimp only
  repeat' first
    | with_reducible (first
        | assumption | rfl | exact id | exact fun h => ⟨h.1, h.2⟩ | exact fun h => ⟨h.1, h.2, h.3⟩ | apply raise_steady)
    | with_reducible refine Steady.build ?_ ?_ ?_ ?_ ?_ ?_ ?_ ?_ ?_

theorem bootLantern_steady {s0 s : State} (h : Steady s0 s) : Steady s0 (bootLantern s) := by
  unfold bootLantern
  try dsimp only
  repeat' first
    | with_reducible (first
        | assumption | rfl | exact id | exact fun h => ⟨h.1, h.2⟩ | exact fun h => ⟨h.1, h.2, h.3⟩ | apply measure_steady | apply fallback_steady
        | apply Steady.ite)
    | split
    | with_reducible refine Steady.build ?_ ?_ ?_ ?_ ?_ ?_ ?_ ?_ ?_

theorem bootDispatch_steady {s0 s : State} (h : Steady s0 s) : Steady s0 (bootDispatch s) := by
  unfold bootDispatch
  try dsimp only
  repeat' first
    | with_reducible (first
        | assumption | rfl | exact id | exact fun h => ⟨h.1, h.2⟩ | exact fun h => ⟨h.1, h.2, h.3⟩ | apply domainOn_steady | apply measure_steady
        | apply fallback_steady | apply Steady.ite)
    | split
    | with_reducible refine Steady.build ?_ ?_ ?_ ?_ ?_ ?_ ?_ ?_ ?_

theorem railsUp_steady {s0 s : State} (h : Steady s0 s) : Steady s0 (railsUp s) := by
  unfold railsUp
  try dsimp only
  repeat' first
    | with_reducible (first
        | assumption | rfl | apply setRail_steady | apply Steady.fold | intro _)

theorem bootTail_steady {s0 s : State} (h : Steady s0 s) : Steady s0 (bootTail s) := by
  unfold bootTail
  try dsimp only
  repeat' first
    | with_reducible (first
        | assumption | rfl | exact id | exact fun h => ⟨h.1, h.2⟩ | exact fun h => ⟨h.1, h.2, h.3⟩ | apply raise_steady | apply freshBits_steady
        | apply bootDispatch_steady | apply railsUp_steady | apply measure_steady | apply domainOn_steady | apply Steady.ite
        | apply Steady.snd (by assumption))
    | split
    | with_reducible refine Steady.build ?_ ?_ ?_ ?_ ?_ ?_ ?_ ?_ ?_

theorem bootRom_steady {s0 s : State} (h : Steady s0 s) : Steady s0 (bootRom s) := by
  unfold bootRom
  try dsimp only
  repeat' first
    | with_reducible (first
        | assumption | rfl | apply bootLantern_steady | apply bootTail_steady | apply Steady.ite)
    | split

theorem bootComplete_steady {s0 s : State} (h : Steady s0 s) {e} : Steady s0 (bootComplete e s) := by
  unfold bootComplete
  try dsimp only
  repeat' first
    | with_reducible (first
        | assumption | rfl | apply bootRom_steady | apply bootEnd_steady | apply Steady.ite)
    | split

theorem bootMeasure_steady {s0 s : State} (h : Steady s0 s) {r} : Steady s0 (bootMeasure r s) := by
  unfold bootMeasure
  try dsimp only
  repeat' first
    | with_reducible (first
        | assumption | rfl | apply ok_steady)

theorem calibrate_steady {s0 s : State} (h : Steady s0 s) : Steady s0 (calibrate s) := by
  have f : Steady s0 (freshBits 32 s).2 := by with_reducible exact freshBits_steady h
  exact Steady.incTo f _ (calibrated_ok _)

theorem clearCounters_steady {s0 s : State} (h : Steady s0 s) {k} : Steady s0 (clearCounters k s) := by
  unfold clearCounters
  try dsimp only
  repeat' first
    | with_reducible (first
        | assumption | rfl | apply setStream_steady | apply updPort_steady | apply Steady.ite)
    | split

theorem clearTimeSat_steady {s0 s : State} (h : Steady s0 s) {m} : Steady s0 (clearTimeSat m s) := by
  unfold clearTimeSat
  try dsimp only
  repeat' first
    | with_reducible (first
        | assumption | rfl | exact id | exact fun h => ⟨h.1, h.2⟩ | exact fun h => ⟨h.1, h.2, h.3⟩ | apply Steady.ite | apply Steady.fold | intro _)
    | split
    | with_reducible refine Steady.build ?_ ?_ ?_ ?_ ?_ ?_ ?_ ?_ ?_

theorem clipEvents_steady {s0 s : State} (h : Steady s0 s) {p} : Steady s0 (clipEvents p s) := by
  unfold clipEvents
  try dsimp only
  repeat' first
    | with_reducible (first
        | assumption | rfl | apply postEvent_steady | apply setCore_steady | apply Steady.fold | intro _)

theorem clipRead_steady {s0 s : State} (h : Steady s0 s) {r} : Steady s0 (clipRead r s) := by
  unfold clipRead
  try dsimp only
  repeat' first
    | with_reducible (first
        | assumption | rfl | exact id | exact fun h => ⟨h.1, h.2⟩ | exact fun h => ⟨h.1, h.2, h.3⟩ | apply bad_steady | apply ok_steady
        | apply snapClips_steady | apply Steady.ite)
    | split
    | with_reducible refine Steady.build ?_ ?_ ?_ ?_ ?_ ?_ ?_ ?_ ?_

theorem coreStatus_steady {s0 s : State} (h : Steady s0 s) {r} : Steady s0 (coreStatus r s) := by
  unfold coreStatus
  try dsimp only
  repeat' first
    | with_reducible (first
        | assumption | rfl | apply bad_steady | apply ok_steady | apply Steady.ite)
    | split

theorem dapPut_steady {s0 s : State} (h : Steady s0 s) {n a b} : Steady s0 (dapPut n a b s) := by
  unfold dapPut
  try dsimp only
  repeat' first
    | with_reducible (first
        | assumption | rfl | exact id | exact fun h => ⟨h.1, h.2⟩ | exact fun h => ⟨h.1, h.2, h.3⟩ | apply updCore_steady | exact chamberPut_ok
        | apply Steady.ite)
    | split
    | with_reducible refine Steady.build ?_ ?_ ?_ ?_ ?_ ?_ ?_ ?_ ?_

theorem dapAccess_steady {s0 s : State} (h : Steady s0 s) {n op} : Steady s0 (dapAccess n op s) := by
  unfold dapAccess
  try dsimp only
  repeat' first
    | with_reducible (first
        | assumption | rfl | apply emit_steady | apply dapPut_steady | apply updCore_steady | apply Steady.ite)
    | split

theorem unbindAll_steady {s0 s : State} (h : Steady s0 s) : Steady s0 (unbindAll s) := by
  unfold unbindAll
  try dsimp only
  repeat' first
    | with_reducible (first
        | assumption | rfl | apply dropRef_steady | apply setInb_steady | apply Steady.fold | intro _)

theorem detach_steady {s0 s : State} (h : Steady s0 s) {r} : Steady s0 (detach r s) := by
  unfold detach
  try dsimp only
  repeat' first
    | with_reducible (first
        | assumption | rfl | exact id | exact fun h => ⟨h.1, h.2⟩ | exact fun h => ⟨h.1, h.2, h.3⟩ | apply unload_steady | apply retireStep_steady
        | apply unbindAll_steady | apply gateUnused_steady | apply clearStreams_steady | apply enter_steady | apply ok_steady | apply Steady.fold
        | intro _)
    | with_reducible refine Steady.build ?_ ?_ ?_ ?_ ?_ ?_ ?_ ?_ ?_

theorem discardNote_steady {s0 s : State} (h : Steady s0 s) {off} : Steady s0 (discardNote off s) := by
  unfold discardNote
  try dsimp only
  repeat' first
    | with_reducible (first
        | assumption | rfl | apply note_steady)

theorem dispatchRestart_steady {s0 s : State} (h : Steady s0 s) {up} : Steady s0 (dispatchRestart up s) := by
  unfold dispatchRestart
  try dsimp only
  repeat' first
    | with_reducible (first
        | assumption | rfl | exact id | exact fun h => ⟨h.1, h.2⟩ | exact fun h => ⟨h.1, h.2, h.3⟩ | apply raise_steady | apply Steady.ite)
    | split
    | with_reducible refine Steady.build ?_ ?_ ?_ ?_ ?_ ?_ ?_ ?_ ?_

theorem dropAll_steady {s0 s : State} (h : Steady s0 s) : Steady s0 (dropAll s) := by
  unfold dropAll
  try dsimp only
  repeat' first
    | with_reducible (first
        | exact fun _ => ⟨rfl, rfl, rfl⟩ | exact fun _ => ⟨rfl, rfl⟩ | assumption | rfl | exact id | exact fun h => ⟨h.1, h.2⟩
        | exact fun h => ⟨h.1, h.2, h.3⟩ | apply Steady.ite)
    | split
    | with_reducible refine Steady.build ?_ ?_ ?_ ?_ ?_ ?_ ?_ ?_ ?_

theorem dvFlagsClear_steady {s0 s : State} (h : Steady s0 s) {v} : Steady s0 (dvFlagsClear v s) := by
  unfold dvFlagsClear
  try dsimp only
  repeat' first
    | with_reducible (first
        | assumption | rfl | apply setDv_steady | apply Steady.ite)
    | split

theorem energyBudget_steady {s0 s : State} (h : Steady s0 s) {r} : Steady s0 (energyBudget r s) := by
  unfold energyBudget
  try dsimp only
  repeat' first
    | with_reducible (first
        | assumption | rfl | exact id | exact fun h => ⟨h.1, h.2⟩ | exact fun h => ⟨h.1, h.2, h.3⟩ | apply bad_steady | apply ok_steady
        | apply Steady.ite)
    | split
    | with_reducible refine Steady.build ?_ ?_ ?_ ?_ ?_ ?_ ?_ ?_ ?_

theorem energyLoop_steady {s0 s : State} (h : Steady s0 s) {r} : Steady s0 (energyLoop r s) := by
  unfold energyLoop
  try dsimp only
  repeat' first
    | with_reducible (first
        | assumption | rfl | exact id | exact fun h => ⟨h.1, h.2⟩ | exact fun h => ⟨h.1, h.2, h.3⟩ | apply ok_steady)
    | with_reducible refine Steady.build ?_ ?_ ?_ ?_ ?_ ?_ ?_ ?_ ?_

theorem energyStatus_steady {s0 s : State} (h : Steady s0 s) {r} : Steady s0 (energyStatus r s) := by
  unfold energyStatus
  try dsimp only
  repeat' first
    | with_reducible (first
        | assumption | rfl | exact id | exact fun h => ⟨h.1, h.2⟩ | exact fun h => ⟨h.1, h.2, h.3⟩ | apply ok_steady | apply clearLedger_steady
        | apply Steady.ite)
    | split
    | with_reducible refine Steady.build ?_ ?_ ?_ ?_ ?_ ?_ ?_ ?_ ?_

theorem energyThresh_steady {s0 s : State} (h : Steady s0 s) {r} : Steady s0 (energyThresh r s) := by
  unfold energyThresh
  try dsimp only
  repeat' first
    | with_reducible (first
        | assumption | rfl | exact id | exact fun h => ⟨h.1, h.2⟩ | exact fun h => ⟨h.1, h.2, h.3⟩ | apply refuse_steady | apply bad_steady
        | apply ok_steady | apply Steady.ite)
    | split
    | with_reducible refine Steady.build ?_ ?_ ?_ ?_ ?_ ?_ ?_ ?_ ?_

theorem fitStep_steady {s0 s : State} (h : Steady s0 s) {c} : Steady s0 (fitStep c s).2 := by
  unfold fitStep
  try dsimp only
  repeat' first
    | with_reducible (first
        | assumption | rfl | apply freshBits_steady | apply Steady.ite | apply Steady.snd (by assumption))
    | split

theorem fitAll_steady {s0 s : State} (h : Steady s0 s) {fit} : Steady s0 (fitAll fit s) := by
  unfold fitAll
  try dsimp only
  repeat' first
    | with_reducible (first
        | assumption | rfl | exact id | exact fun h => ⟨h.1, h.2⟩ | exact fun h => ⟨h.1, h.2, h.3⟩ | apply fitStep_steady | apply Steady.ite
        | apply Steady.fold | intro _ | apply Steady.snd (by assumption))
    | split
    | with_reducible refine Steady.build ?_ ?_ ?_ ?_ ?_ ?_ ?_ ?_ ?_

theorem epochEnd_steady {s0 s : State} (h : Steady s0 s) {fit} : Steady s0 (epochEnd fit s) := by
  unfold epochEnd
  try dsimp only
  repeat' first
    | with_reducible (first
        | assumption | rfl | exact id | exact fun h => ⟨h.1, h.2⟩ | exact fun h => ⟨h.1, h.2, h.3⟩ | apply fitAll_steady | apply rewind_steady
        | apply Steady.ite)
    | split
    | with_reducible refine Steady.build ?_ ?_ ?_ ?_ ?_ ?_ ?_ ?_ ?_

theorem evtQuery_steady {s0 s : State} (h : Steady s0 s) {r} : Steady s0 (evtQuery r s) := by
  unfold evtQuery
  try dsimp only
  repeat' first
    | with_reducible (first
        | assumption | rfl | apply refuse_steady | apply ok_steady | apply Steady.ite)
    | split

theorem wakeUp_steady {s0 s : State} (h : Steady s0 s) : Steady s0 (wakeUp s) := by
  unfold wakeUp
  try dsimp only
  repeat' first
    | with_reducible (first
        | assumption | rfl | exact id | exact fun h => ⟨h.1, h.2⟩ | exact fun h => ⟨h.1, h.2, h.3⟩ | apply clearLevel_steady | apply bootTail_steady
        | apply transition_steady | apply Steady.ite)
    | split
    | with_reducible refine Steady.build ?_ ?_ ?_ ?_ ?_ ?_ ?_ ?_ ?_

theorem setSpiNext_steady {s0 s : State} (h : Steady s0 s) {ty seq res b} : Steady s0 (setSpiNext ty seq res b s) := by
  unfold setSpiNext
  try dsimp only
  repeat' first
    | with_reducible (first
        | assumption | rfl | exact id | exact fun h => ⟨h.1, h.2⟩ | exact fun h => ⟨h.1, h.2, h.3⟩)
    | with_reducible refine Steady.build ?_ ?_ ?_ ?_ ?_ ?_ ?_ ?_ ?_

theorem parkedLost_steady {s0 s : State} (h : Steady s0 s) : Steady s0 (parkedLost s) := by
  unfold parkedLost
  try dsimp only
  repeat' first
    | with_reducible (first
        | assumption | rfl | exact id | exact fun h => ⟨h.1, h.2⟩ | exact fun h => ⟨h.1, h.2, h.3⟩ | apply note_steady | apply abortRun_steady
        | apply Steady.ite)
    | split
    | with_reducible refine Steady.build ?_ ?_ ?_ ?_ ?_ ?_ ?_ ?_ ?_

theorem parkedReport_steady {s0 s : State} (h : Steady s0 s) {on} : Steady s0 (parkedReport on s) := by
  unfold parkedReport
  try dsimp only
  repeat' first
    | with_reducible (first
        | assumption | rfl | exact id | exact fun h => ⟨h.1, h.2⟩ | exact fun h => ⟨h.1, h.2, h.3⟩ | apply parkedLost_steady | apply Steady.ite)
    | split
    | with_reducible refine Steady.build ?_ ?_ ?_ ?_ ?_ ?_ ?_ ?_ ?_

theorem flushLog_steady {s0 s : State} (h : Steady s0 s) {n} : Steady s0 (flushLog n s) := by
  unfold flushLog
  try dsimp only
  repeat' first
    | with_reducible (first
        | assumption | rfl | exact id | exact fun h => ⟨h.1, h.2⟩ | exact fun h => ⟨h.1, h.2, h.3⟩)
    | split
    | with_reducible refine Steady.build ?_ ?_ ?_ ?_ ?_ ?_ ?_ ?_ ?_

theorem railsDown_steady {s0 s : State} (h : Steady s0 s) : Steady s0 (railsDown s) := by
  unfold railsDown
  try dsimp only
  repeat' first
    | with_reducible (first
        | assumption | rfl | apply emit_steady | apply Steady.fold | intro _)

theorem standbyLink_steady {s0 s : State} (h : Steady s0 s) : Steady s0 (standbyLink s) := by
  unfold standbyLink
  try dsimp only
  repeat' first
    | with_reducible (first
        | assumption | rfl | exact id | exact fun h => ⟨h.1, h.2⟩ | exact fun h => ⟨h.1, h.2, h.3⟩ | apply detachLink_steady
        | apply functionReset_steady | apply discardHeld_steady | apply Steady.ite)
    | split
    | with_reducible refine Steady.build ?_ ?_ ?_ ?_ ?_ ?_ ?_ ?_ ?_

theorem standbySteps_steady {s0 s : State} (h : Steady s0 s) : Steady s0 (standbySteps s) := by
  unfold standbySteps
  try dsimp only
  repeat' first
    | with_reducible (first
        | assumption | rfl | exact id | exact fun h => ⟨h.1, h.2⟩ | exact fun h => ⟨h.1, h.2, h.3⟩ | apply endProposal_steady
        | apply standbyLink_steady | apply holdover_steady | apply domainOff_steady | apply railsDown_steady | apply flushLog_steady
        | apply dropAll_steady | apply transition_steady | apply driveSafe_steady | apply Steady.fold | intro _)
    | split
    | with_reducible refine Steady.build ?_ ?_ ?_ ?_ ?_ ?_ ?_ ?_ ?_

theorem standby_steady {s0 s : State} (h : Steady s0 s) : Steady s0 (standby s).2 := by
  unfold standby
  try dsimp only
  repeat' first
    | with_reducible (first
        | assumption | rfl | apply standbySteps_steady | apply Steady.ite)
    | split

theorem wake_steady {s0 s : State} (h : Steady s0 s) : Steady s0 (wake s).2 := by
  unfold wake
  try dsimp only
  repeat' first
    | with_reducible (first
        | assumption | rfl | apply wakeUp_steady | apply Steady.ite)
    | split

theorem spiRequest_steady {s0 s : State} (h : Steady s0 s) {ty b} : Steady s0 (spiRequest ty b s).2 := by
  unfold spiRequest
  try dsimp only
  repeat' first
    | with_reducible (first
        | assumption | rfl | apply endorse_steady | apply mcuVeto_steady | apply parkedReport_steady | apply standby_steady | apply wake_steady
        | apply Steady.snd (by assumption))
    | split

theorem warmClear_steady {s0 s : State} (h : Steady s0 s) : Steady s0 (warmClear s) := by
  unfold warmClear
  have k : Steady s0 (endProposal (match s.time.slave with | some _ => holdover false s | none => s)) := by
    with_reducible apply endProposal_steady
    split
    · with_reducible exact holdover_steady h
    · exact h
  generalize endProposal (match s.time.slave with | some _ => holdover false s | none => s) = u at k
  have k2 : Steady s0 (if staging u = true then (freshBits 16 u).2 else u) :=
    Steady.ite (by with_reducible exact freshBits_steady k) k
  dsimp only
  generalize (if staging u = true then (freshBits 16 u).2 else u) = v at k2
  have o : (keptLtn v).otpSteps = (endProposal v).ltn.otpSteps := rfl
  have p := (endProposal_steady (Steady.refl v)).otp
  with_reducible apply logRec_steady
  exact k2.trans ⟨rfl, rfl, List.prefix_refl _, id, by rw [← o] at p; exact p, id, id, fun _ => ⟨⟨rfl, rfl, rfl⟩, ⟨rfl, rfl⟩, ⟨rfl, rfl⟩⟩⟩

theorem spiReset_steady {s0 s : State} (h : Steady s0 s) {b} : ∀ t, spiReset b s = some t → Steady s0 t := by
  intro t ht
  unfold spiReset at ht
  split at ht
  · injection ht with e
    subst e
    with_reducible exact bootRom_steady (warmClear_steady h)
  · cases ht

theorem spiServe_steady {s0 s : State} (h : Steady s0 s) {ty seq b} : Steady s0 (spiServe ty seq b s) := by
  unfold spiServe
  with_reducible refine Steady.ite h ?_
  split
  · with_reducible exact setSpiNext_steady h
  · extract_lets l t
    have ht : Steady s0 t := by with_reducible exact Steady.build h rfl rfl rfl rfl rfl id id id
    clear_value t
    split
    · rename_i u e
      split at e
      · with_reducible exact spiReset_steady ht _ e
      · cases e
    · with_reducible exact setSpiNext_steady (spiRequest_steady ht)

theorem faultRead_steady {s0 s : State} (h : Steady s0 s) {r} : Steady s0 (faultRead r s) := by
  unfold faultRead
  try dsimp only
  repeat' first
    | with_reducible (first
        | assumption | rfl | exact id | exact fun h => ⟨h.1, h.2⟩ | exact fun h => ⟨h.1, h.2, h.3⟩ | apply bad_steady | apply ok_steady
        | apply Steady.ite)
    | split
    | with_reducible refine Steady.build ?_ ?_ ?_ ?_ ?_ ?_ ?_ ?_ ?_

theorem releaseSafe_steady {s0 s : State} (h : Steady s0 s) : Steady s0 (releaseSafe s) := by
  unfold releaseSafe
  try dsimp only
  repeat' first
    | with_reducible (first
        | assumption | rfl | apply driveSafe_steady | apply Steady.ite)
    | split

theorem frameEnd_steady {s0 s : State} (h : Steady s0 s) {outs} : Steady s0 (frameEnd outs s) := by
  unfold frameEnd
  try dsimp only
  repeat' first
    | with_reducible (first
        | assumption | rfl | exact id | exact fun h => ⟨h.1, h.2⟩ | exact fun h => ⟨h.1, h.2, h.3⟩ | apply clipEvents_steady
        | apply inbFrameEnd_steady | apply kvFrameEnd_steady | apply toPartner_steady | apply judgeFrame_steady | apply compareSigs_steady
        | apply releaseSafe_steady | apply finishStop_steady | apply Steady.ite)
    | split
    | with_reducible refine Steady.build ?_ ?_ ?_ ?_ ?_ ?_ ?_ ?_ ?_

theorem frameStart_steady {s0 s : State} (h : Steady s0 s) {shapes} : Steady s0 (frameStart shapes s) := by
  unfold frameStart
  try dsimp only
  repeat' first
    | with_reducible (first
        | assumption | rfl | apply frameEnd_steady | apply beginFrame_steady | apply Steady.ite)
    | split

theorem setFw_steady {s0 s : State} (h : Steady s0 s) {t x} : Steady s0 (setFw t x s) := by
  unfold setFw
  try dsimp only
  repeat' first
    | with_reducible (first
        | assumption | rfl | exact id | exact fun h => ⟨h.1, h.2⟩ | exact fun h => ⟨h.1, h.2, h.3⟩)
    | split
    | with_reducible refine Steady.build ?_ ?_ ?_ ?_ ?_ ?_ ?_ ?_ ?_

theorem fwActivate_steady {s0 s : State} (h : Steady s0 s) {r} : Steady s0 (fwActivate r s) := by
  unfold fwActivate
  try dsimp only
  repeat' first
    | with_reducible (first
        | assumption | rfl | exact id | exact fun h => ⟨h.1, h.2⟩ | exact fun h => ⟨h.1, h.2, h.3⟩ | apply bad_steady | apply setFw_steady
        | apply updateLog_steady | apply ok_steady | apply Steady.ite)
    | split
    | with_reducible refine Steady.build ?_ ?_ ?_ ?_ ?_ ?_ ?_ ?_ ?_

theorem fwStage_steady {s0 s : State} (h : Steady s0 s) {version rollback r} : Steady s0 (fwStage version rollback r s) := by
  unfold fwStage
  try dsimp only
  repeat' first
    | with_reducible (first
        | assumption | rfl | exact id | exact fun h => ⟨h.1, h.2⟩ | exact fun h => ⟨h.1, h.2, h.3⟩ | apply bad_steady | apply refuse_steady
        | apply setFw_steady | apply updateLog_steady | apply ok_steady | apply Steady.ite)
    | split
    | with_reducible refine Steady.build ?_ ?_ ?_ ?_ ?_ ?_ ?_ ?_ ?_

theorem fwStageDone_steady {s0 s : State} (h : Steady s0 s) {x writeOk} : Steady s0 (fwStageDone x writeOk s) := by
  unfold fwStageDone
  try dsimp only
  repeat' first
    | with_reducible (first
        | assumption | rfl | exact id | exact fun h => ⟨h.1, h.2⟩ | exact fun h => ⟨h.1, h.2, h.3⟩ | apply updateLog_steady | apply setFw_steady
        | apply Steady.ite)
    | split
    | with_reducible refine Steady.build ?_ ?_ ?_ ?_ ?_ ?_ ?_ ?_ ?_

theorem fwStatus_steady {s0 s : State} (h : Steady s0 s) {r} : Steady s0 (fwStatus r s) := by
  unfold fwStatus
  try dsimp only
  repeat' first
    | with_reducible (first
        | assumption | rfl | apply freshBits_steady | apply ok_steady | apply Steady.ite | apply Steady.snd (by assumption))
    | split

theorem identify_steady {s0 s : State} (h : Steady s0 s) {r} : Steady s0 (identify r s) := by
  unfold identify
  try dsimp only
  repeat' first
    | with_reducible (first
        | assumption | rfl | apply ok_steady)

theorem inboundBind_steady {s0 s : State} (h : Steady s0 s) {desc r} : Steady s0 (inboundBind desc r s) := by
  unfold inboundBind
  try dsimp only
  repeat' first
    | with_reducible (first
        | assumption | rfl | apply bad_steady | apply refuse_steady | apply badObject_steady | apply putDesc_steady | apply ok_steady
        | apply takeRef_steady | apply setInb_steady | apply Steady.ite)
    | split

theorem inboundUnbind_steady {s0 s : State} (h : Steady s0 s) {r} : Steady s0 (inboundUnbind r s) := by
  unfold inboundUnbind
  try dsimp only
  repeat' first
    | with_reducible (first
        | assumption | rfl | apply refuse_steady | apply setInb_steady | apply ok_steady | apply inbBoundary_steady | apply Steady.ite)
    | split

theorem intakeCounters_steady {s0 s : State} (h : Steady s0 s) {r} : Steady s0 (intakeCounters r s) := by
  unfold intakeCounters
  try dsimp only
  repeat' first
    | with_reducible (first
        | assumption | rfl | exact id | exact fun h => ⟨h.1, h.2⟩ | exact fun h => ⟨h.1, h.2, h.3⟩ | apply ok_steady | apply Steady.ite)
    | split
    | with_reducible refine Steady.build ?_ ?_ ?_ ?_ ?_ ?_ ?_ ?_ ?_

theorem invalidate_steady {s0 s : State} (h : Steady s0 s) {r} : Steady s0 (invalidate r s) := by
  unfold invalidate
  try dsimp only
  repeat' first
    | with_reducible (first
        | assumption | rfl | exact id | exact fun h => ⟨h.1, h.2⟩ | exact fun h => ⟨h.1, h.2, h.3⟩ | apply bad_steady | apply refuse_steady
        | apply ok_steady | apply applyInval_steady | apply Steady.ite)
    | split
    | with_reducible refine Steady.build ?_ ?_ ?_ ?_ ?_ ?_ ?_ ?_ ?_

theorem jtagInstruction_steady {s0 s : State} (h : Steady s0 s) {i} : Steady s0 (jtagInstruction i s) := by
  unfold jtagInstruction
  try dsimp only
  repeat' first
    | with_reducible (first
        | assumption | rfl | exact id | exact fun h => ⟨h.1, h.2⟩ | exact fun h => ⟨h.1, h.2, h.3⟩ | apply emit_steady | apply Steady.ite)
    | split
    | with_reducible refine Steady.build ?_ ?_ ?_ ?_ ?_ ?_ ?_ ?_ ?_

theorem ledgerFlags_steady {s0 s : State} (h : Steady s0 s) {v} : Steady s0 (ledgerFlags v s) := by
  unfold ledgerFlags
  try dsimp only
  repeat' first
    | with_reducible (first
        | assumption | rfl | exact id | exact fun h => ⟨h.1, h.2⟩ | exact fun h => ⟨h.1, h.2, h.3⟩ | apply Steady.ite | apply Steady.fold | intro _)
    | split
    | with_reducible refine Steady.build ?_ ?_ ?_ ?_ ?_ ?_ ?_ ?_ ?_

theorem logFlush_steady {s0 s : State} (h : Steady s0 s) : Steady s0 (logFlush s) := by
  unfold logFlush
  try dsimp only
  repeat' first
    | with_reducible (first
        | assumption | rfl | apply flushLog_steady | apply Steady.ite)
    | split

theorem latch_steady {s0 s : State} (h : Steady s0 s) {off v} : Steady s0 (latch off v s) := by
  unfold latch
  try dsimp only
  repeat' first
    | with_reducible (first
        | assumption | rfl | exact id | exact fun h => ⟨h.1, h.2⟩ | exact fun h => ⟨h.1, h.2, h.3⟩)
    | with_reducible refine Steady.build ?_ ?_ ?_ ?_ ?_ ?_ ?_ ?_ ?_

theorem regRead_steady {s0 s : State} (h : Steady s0 s) {off} : Steady s0 (regRead off s).2 := by
  unfold regRead
  try dsimp only
  repeat' first
    | with_reducible (first
        | assumption | rfl | apply freshBits_steady | apply Steady.ite | apply Steady.snd (by assumption))
    | split

theorem latchNow_steady {s0 s : State} (h : Steady s0 s) {off} : Steady s0 (latchNow off s) := by
  unfold latchNow
  try dsimp only
  repeat' first
    | with_reducible (first
        | assumption | rfl | apply regRead_steady | apply latch_steady | apply Steady.snd (by assumption))

theorem ltcLoRead_steady {s0 s : State} (h : Steady s0 s) : Steady s0 (ltcLoRead s) := by
  unfold ltcLoRead
  try dsimp only
  repeat' first
    | with_reducible (first
        | assumption | rfl | exact id | exact fun h => ⟨h.1, h.2⟩ | exact fun h => ⟨h.1, h.2, h.3⟩ | apply regRead_steady | apply bar0Reply_steady
        | apply latchNow_steady | apply Steady.fold | intro _ | apply Steady.snd (by assumption))
    | with_reducible refine Steady.build ?_ ?_ ?_ ?_ ?_ ?_ ?_ ?_ ?_

theorem lowHalfRead_steady {s0 s : State} (h : Steady s0 s) {off} : Steady s0 (lowHalfRead off s) := by
  unfold lowHalfRead
  try dsimp only
  repeat' first
    | with_reducible (first
        | assumption | rfl | exact id | exact fun h => ⟨h.1, h.2⟩ | exact fun h => ⟨h.1, h.2, h.3⟩ | apply ltcLoRead_steady
        | apply arSessionRead_steady | apply bar0Reply_steady | apply regRead_steady | apply latchNow_steady | apply Steady.ite
        | apply Steady.snd (by assumption))
    | split
    | with_reducible refine Steady.build ?_ ?_ ?_ ?_ ?_ ?_ ?_ ?_ ?_

theorem memStatus_steady {s0 s : State} (h : Steady s0 s) {r} : Steady s0 (memStatus r s) := by
  unfold memStatus
  try dsimp only
  repeat' first
    | with_reducible (first
        | assumption | rfl | exact id | exact fun h => ⟨h.1, h.2⟩ | exact fun h => ⟨h.1, h.2, h.3⟩ | apply ok_steady | apply Steady.ite
        | apply Steady.fold | intro _)
    | split
    | with_reducible refine Steady.build ?_ ?_ ?_ ?_ ?_ ?_ ?_ ?_ ?_

theorem objFlags_steady {s0 s : State} (h : Steady s0 s) {v} : Steady s0 (objFlags v s) := by
  unfold objFlags
  try dsimp only
  repeat' first
    | with_reducible (first
        | assumption | rfl | exact id | exact fun h => ⟨h.1, h.2⟩ | exact fun h => ⟨h.1, h.2, h.3⟩ | apply Steady.ite)
    | split
    | with_reducible refine Steady.build ?_ ?_ ?_ ?_ ?_ ?_ ?_ ?_ ?_

theorem objQuery_steady {s0 s : State} (h : Steady s0 s) {r} : Steady s0 (objQuery r s) := by
  unfold objQuery
  try dsimp only
  repeat' first
    | with_reducible (first
        | assumption | rfl | apply refuse_steady | apply ok_steady | apply Steady.ite)
    | split

theorem prismStatus_steady {s0 s : State} (h : Steady s0 s) {r} : Steady s0 (prismStatus r s) := by
  unfold prismStatus
  try dsimp only
  repeat' first
    | with_reducible (first
        | assumption | rfl | apply ok_steady | apply Steady.fold | intro _)

theorem quietExpiry_steady {s0 s : State} (h : Steady s0 s) {src i} : Steady s0 (quietExpiry src i s) := by
  unfold quietExpiry
  try dsimp only
  repeat' first
    | with_reducible (first
        | assumption | rfl | exact id | exact fun h => ⟨h.1, h.2⟩ | exact fun h => ⟨h.1, h.2, h.3⟩ | apply Steady.ite)
    | split
    | with_reducible refine Steady.build ?_ ?_ ?_ ?_ ?_ ?_ ?_ ?_ ?_

theorem recalibrationComplete_steady {s0 s : State} (h : Steady s0 s) {x} : Steady s0 (recalibrationComplete x s) := by
  unfold recalibrationComplete
  try dsimp only
  repeat' first
    | with_reducible (first
        | assumption | rfl | apply endRun_steady | apply Steady.ite)
    | split

theorem raiseUnit_steady {s0 s : State} (h : Steady s0 s) {u} : Steady s0 (raiseUnit u s) := by
  unfold raiseUnit
  try dsimp only
  repeat' first
    | with_reducible (first
        | assumption | rfl | exact id | exact fun h => ⟨h.1, h.2⟩ | exact fun h => ⟨h.1, h.2, h.3⟩ | apply raise_steady)
    | with_reducible refine Steady.build ?_ ?_ ?_ ?_ ?_ ?_ ?_ ?_ ?_

theorem judgeUnit_steady {s0 s : State} (h : Steady s0 s) {before u} : Steady s0 (judgeUnit before u s) := by
  unfold judgeUnit
  try dsimp only
  repeat' first
    | with_reducible (first
        | assumption | rfl | apply raiseUnit_steady | apply quiesce_steady | apply Steady.ite)
    | split

theorem reconcileRound_steady {s0 s : State} (h : Steady s0 s) {v} : Steady s0 (reconcileRound v s) := by
  unfold reconcileRound
  try dsimp only
  repeat' first
    | with_reducible (first
        | assumption | rfl | exact id | exact fun h => ⟨h.1, h.2⟩ | exact fun h => ⟨h.1, h.2, h.3⟩ | apply raise_steady | apply judgeUnit_steady
        | apply Steady.ite | apply Steady.fold | apply Steady.foldSnd | intro _)
    | split
    | with_reducible refine Steady.build ?_ ?_ ?_ ?_ ?_ ?_ ?_ ?_ ?_

theorem recordClose_steady {s0 s : State} (h : Steady s0 s) {r} : Steady s0 (recordClose r s) := by
  unfold recordClose
  try dsimp only
  repeat' first
    | with_reducible (first
        | assumption | rfl | exact id | exact fun h => ⟨h.1, h.2⟩ | exact fun h => ⟨h.1, h.2, h.3⟩ | apply bad_steady | apply refuse_steady
        | apply ok_steady | apply Steady.ite)
    | split
    | with_reducible refine Steady.build ?_ ?_ ?_ ?_ ?_ ?_ ?_ ?_ ?_

theorem recordOpen_steady {s0 s : State} (h : Steady s0 s) {file r} : Steady s0 (recordOpen file r s) := by
  unfold recordOpen
  try dsimp only
  repeat' first
    | with_reducible (first
        | assumption | rfl | exact id | exact fun h => ⟨h.1, h.2⟩ | exact fun h => ⟨h.1, h.2, h.3⟩ | apply bad_steady | apply refuse_steady
        | apply ok_steady | apply Steady.ite)
    | split
    | with_reducible refine Steady.build ?_ ?_ ?_ ?_ ?_ ?_ ?_ ?_ ?_

theorem recoverNow_steady {s0 s : State} (h : Steady s0 s) : Steady s0 (recoverNow s) := by
  unfold recoverNow
  try dsimp only
  repeat' first
    | with_reducible (first
        | assumption | rfl | exact id | exact fun h => ⟨h.1, h.2⟩ | exact fun h => ⟨h.1, h.2, h.3⟩ | apply stopCores_steady
        | apply answerBoundary_steady | apply enter_steady | apply driveSafe_steady | apply Steady.ite)
    | split
    | with_reducible refine Steady.build ?_ ?_ ?_ ?_ ?_ ?_ ?_ ?_ ?_

theorem recover_steady {s0 s : State} (h : Steady s0 s) {r} : Steady s0 (recover r s) := by
  unfold recover
  try dsimp only
  repeat' first
    | with_reducible (first
        | assumption | rfl | apply refuse_steady | apply recoverNow_steady | apply ok_steady)
    | split

theorem inbFlagsClear_steady {s0 s : State} (h : Steady s0 s) {w v} : Steady s0 (inbFlagsClear w v s) := by
  unfold inbFlagsClear
  try dsimp only
  repeat' first
    | with_reducible (first
        | assumption | rfl | apply setInb_steady | apply Steady.ite)
    | split

theorem reqWrite_steady {s0 s : State} (h : Steady s0 s) {m slot i v} : Steady s0 (reqWrite m slot i v s) := by
  unfold reqWrite
  try dsimp only
  repeat' first
    | with_reducible (first
        | exact fun h => ⟨Memory.wf_wrN _ _ h.1, h.2⟩ | assumption | rfl | exact id | exact fun h => ⟨h.1, h.2⟩ | exact fun h => ⟨h.1, h.2, h.3⟩
        | apply setMb_steady | apply Steady.ite)
    | split

theorem mailboxWrite_steady {s0 s : State} (h : Steady s0 s) {m o v} : Steady s0 (mailboxWrite m o v s) := by
  unfold mailboxWrite
  try dsimp only
  repeat' first
    | with_reducible (first
        | assumption | rfl | exact id | exact fun h => ⟨h.1, h.2⟩ | exact fun h => ⟨h.1, h.2, h.3⟩ | apply reqWrite_steady | apply mbDoorbell_steady
        | apply mbDone_steady | apply setMb_steady | apply mbBadSat_steady | apply urgAck_steady | apply Steady.ite)
    | split

theorem msixWrite_steady {s0 s : State} (h : Steady s0 s) {o v} : Steady s0 (msixWrite o v s) := by
  unfold msixWrite
  try dsimp only
  repeat' first
    | with_reducible (first
        | assumption | rfl | exact id | exact fun h => ⟨h.1, h.2⟩ | exact fun h => ⟨h.1, h.2, h.3⟩ | apply flushMsix_steady | apply Steady.ite)
    | split
    | with_reducible refine Steady.build ?_ ?_ ?_ ?_ ?_ ?_ ?_ ?_ ?_

theorem timeEventClear_steady {s0 s : State} (h : Steady s0 s) {v} : Steady s0 (timeEventClear v s) := by
  unfold timeEventClear
  try dsimp only
  repeat' first
    | with_reducible (first
        | assumption | rfl | exact id | exact fun h => ⟨h.1, h.2⟩ | exact fun h => ⟨h.1, h.2, h.3⟩)
    | with_reducible refine Steady.build ?_ ?_ ?_ ?_ ?_ ?_ ?_ ?_ ?_

theorem trcFlags_steady {s0 s : State} (h : Steady s0 s) {v} : Steady s0 (trcFlags v s) := by
  unfold trcFlags
  try dsimp only
  repeat' first
    | with_reducible (first
        | assumption | rfl | exact id | exact fun h => ⟨h.1, h.2⟩ | exact fun h => ⟨h.1, h.2, h.3⟩ | apply Steady.ite)
    | split
    | with_reducible refine Steady.build ?_ ?_ ?_ ?_ ?_ ?_ ?_ ?_ ?_

theorem txtsFlagsClear_steady {s0 s : State} (h : Steady s0 s) {v} : Steady s0 (txtsFlagsClear v s) := by
  unfold txtsFlagsClear
  refine Steady.fold h ?_
  intro t x ht
  with_reducible exact Steady.ite (setPtp_steady ht) ht

theorem regWrite32_steady {s0 s : State} (h : Steady s0 s) {off v rid} : Steady s0 (regWrite32 off v rid s) := by
  unfold regWrite32
  try dsimp only
  repeat' first
    | with_reducible (first
        | assumption | rfl | exact id | exact fun h => ⟨h.1, h.2⟩ | exact fun h => ⟨h.1, h.2, h.3⟩ | apply dvFlagsClear_steady
        | apply mailboxWrite_steady | apply queueDb_steady | apply evtRearm_steady | apply objFlags_steady | apply inbFlagsClear_steady
        | apply timeEventClear_steady | apply txtsFlagsClear_steady | apply clearTimeSat_steady | apply discardNote_steady
        | apply ledgerFlags_steady | apply trcFlags_steady | apply msixWrite_steady | apply Steady.ite)
    | split
    | with_reducible refine Steady.build ?_ ?_ ?_ ?_ ?_ ?_ ?_ ?_ ?_

theorem registerWrite_steady {s0 s : State} (h : Steady s0 s) {off w v rid} : Steady s0 (registerWrite off w v rid s) := by
  unfold registerWrite
  try dsimp only
  repeat' first
    | with_reducible (first
        | assumption | rfl | apply discardNote_steady | apply regWrite32_steady | apply queueDb_steady | apply Steady.ite)
    | split

theorem gateOpen_steady {s0 s : State} (h : Steady s0 s) : Steady s0 (gateOpen s) := by
  unfold gateOpen
  try dsimp only
  repeat' first
    | with_reducible (first
        | assumption | rfl | exact id | exact fun h => ⟨h.1, h.2⟩ | exact fun h => ⟨h.1, h.2, h.3⟩ | apply ringPut_steady | apply postEvent_steady
        | apply postVerdict_steady | apply prunePast_steady | apply Steady.ite | apply Steady.fold | intro _)
    | split
    | with_reducible refine Steady.build ?_ ?_ ?_ ?_ ?_ ?_ ?_ ?_ ?_

theorem retirePoint_steady {s0 s : State} (h : Steady s0 s) : Steady s0 (retirePoint s) := by
  unfold retirePoint
  try dsimp only
  repeat' first
    | with_reducible (first
        | assumption | rfl | exact id | exact fun h => ⟨h.1, h.2⟩ | exact fun h => ⟨h.1, h.2, h.3⟩ | apply prunePast_steady
        | apply retireStep_steady | apply Steady.ite)
    | split
    | with_reducible refine Steady.build ?_ ?_ ?_ ?_ ?_ ?_ ?_ ?_ ?_

theorem pinSample_steady {s0 s : State} (h : Steady s0 s) {p} : Steady s0 (pinSample p s) := by
  unfold pinSample
  try dsimp only
  repeat' first
    | with_reducible (first
        | assumption | rfl | exact id | exact fun h => ⟨h.1, h.2⟩ | exact fun h => ⟨h.1, h.2, h.3⟩ | apply clearLevel_steady | apply raise_steady
        | apply Steady.ite)
    | split
    | with_reducible refine Steady.build ?_ ?_ ?_ ?_ ?_ ?_ ?_ ?_ ?_

theorem spiSilence_steady {s0 s : State} (h : Steady s0 s) : Steady s0 (spiSilence s) := by
  unfold spiSilence
  try dsimp only
  repeat' first
    | with_reducible (first
        | assumption | rfl | exact id | exact fun h => ⟨h.1, h.2⟩ | exact fun h => ⟨h.1, h.2, h.3⟩ | apply logRec_steady | apply Steady.ite)
    | split
    | with_reducible refine Steady.build ?_ ?_ ?_ ?_ ?_ ?_ ?_ ?_ ?_

theorem spiTransaction_steady {s0 s : State} (h : Steady s0 s) {b edges} : Steady s0 (spiTransaction b edges s) := by
  unfold spiTransaction
  try dsimp only
  repeat' first
    | with_reducible (first
        | assumption | rfl | exact id | exact fun h => ⟨h.1, h.2⟩ | exact fun h => ⟨h.1, h.2, h.3⟩ | apply setSpiNext_steady | apply emit_steady
        | apply spiServe_steady | apply Steady.ite)
    | split
    | with_reducible refine Steady.build ?_ ?_ ?_ ?_ ?_ ?_ ?_ ?_ ?_

theorem splitStatus_steady {s0 s : State} (h : Steady s0 s) {r} : Steady s0 (splitStatus r s) := by
  unfold splitStatus
  try dsimp only
  repeat' first
    | with_reducible (first
        | assumption | rfl | apply ok_steady)

theorem streamStatus_steady {s0 s : State} (h : Steady s0 s) {r} : Steady s0 (streamStatus r s) := by
  unfold streamStatus
  try dsimp only
  repeat' first
    | with_reducible (first
        | assumption | rfl | apply refuse_steady | apply ok_steady | apply clearCounters_steady | apply Steady.ite)
    | split

theorem timeConfig_steady {s0 s : State} (h : Steady s0 s) {r} : Steady s0 (timeConfig r s) := by
  unfold timeConfig
  try dsimp only
  repeat' first
    | with_reducible (first
        | assumption | rfl | exact id | exact fun h => ⟨h.1, h.2⟩ | exact fun h => ⟨h.1, h.2, h.3⟩ | apply bad_steady | apply ok_steady
        | apply Steady.ite | apply Steady.fold | intro _)
    | split
    | with_reducible refine Steady.build ?_ ?_ ?_ ?_ ?_ ?_ ?_ ?_ ?_

theorem timeStatus_steady {s0 s : State} (h : Steady s0 s) {r} : Steady s0 (timeStatus r s) := by
  unfold timeStatus
  try dsimp only
  repeat' first
    | with_reducible (first
        | assumption | rfl | apply ok_steady | apply clearTimeSat_steady | apply Steady.ite)
    | split

theorem timeStep_steady {s0 s : State} (h : Steady s0 s) {r} : Steady s0 (timeStep r s) := by
  unfold timeStep
  try dsimp only
  repeat' first
    | with_reducible (first
        | assumption | rfl | exact id | exact fun h => ⟨h.1, h.2⟩ | exact fun h => ⟨h.1, h.2, h.3⟩ | apply bad_steady | apply refuse_steady
        | apply Steady.ite)
    | split
    | with_reducible refine Steady.build ?_ ?_ ?_ ?_ ?_ ?_ ?_ ?_ ?_

theorem torchFrameStart_steady {s0 s : State} (h : Steady s0 s) : Steady s0 (torchFrameStart s) := by
  unfold torchFrameStart
  try dsimp only
  repeat' first
    | with_reducible (first
        | assumption | rfl | apply frameEnd_steady | apply beginFrame_steady | apply Steady.ite)
    | split

theorem torchStart_steady {s0 s : State} (h : Steady s0 s) : Steady s0 (torchStart s) := by
  unfold torchStart
  try dsimp only
  repeat' first
    | with_reducible (first
        | assumption | rfl | exact id | exact fun h => ⟨h.1, h.2⟩ | exact fun h => ⟨h.1, h.2, h.3⟩ | apply enter_steady | apply beginFrame_steady
        | apply note_steady | apply Steady.ite)
    | split
    | with_reducible refine Steady.build ?_ ?_ ?_ ?_ ?_ ?_ ?_ ?_ ?_

theorem torchStartFail_steady {s0 s : State} (h : Steady s0 s) : Steady s0 (torchStartFail s) := by
  unfold torchStartFail
  try dsimp only
  repeat' first
    | with_reducible (first
        | assumption | rfl | exact id | exact fun h => ⟨h.1, h.2⟩ | exact fun h => ⟨h.1, h.2, h.3⟩ | apply raise_steady | apply Steady.ite)
    | split
    | with_reducible refine Steady.build ?_ ?_ ?_ ?_ ?_ ?_ ?_ ?_ ?_

theorem tornRead_steady {s0 s : State} (h : Steady s0 s) {r} : Steady s0 (tornRead r s) := by
  unfold tornRead
  try dsimp only
  repeat' first
    | with_reducible (first
        | assumption | rfl | exact id | exact fun h => ⟨h.1, h.2⟩ | exact fun h => ⟨h.1, h.2, h.3⟩ | apply bad_steady | apply ok_steady
        | apply Steady.ite)
    | split
    | with_reducible refine Steady.build ?_ ?_ ?_ ?_ ?_ ?_ ?_ ?_ ?_

theorem traceConfig_steady {s0 s : State} (h : Steady s0 s) {r} : Steady s0 (traceConfig r s) := by
  unfold traceConfig
  try dsimp only
  repeat' first
    | with_reducible (first
        | assumption | rfl | exact id | exact fun h => ⟨h.1, h.2⟩ | exact fun h => ⟨h.1, h.2, h.3⟩ | apply refuse_steady | apply bad_steady
        | apply ok_steady | apply Steady.ite)
    | split
    | with_reducible refine Steady.build ?_ ?_ ?_ ?_ ?_ ?_ ?_ ?_ ?_

theorem traceStart_steady {s0 s : State} (h : Steady s0 s) {r} : Steady s0 (traceStart r s) := by
  unfold traceStart
  try dsimp only
  repeat' first
    | with_reducible (first
        | assumption | rfl | exact id | exact fun h => ⟨h.1, h.2⟩ | exact fun h => ⟨h.1, h.2, h.3⟩ | apply traceFunnel_steady | apply ok_steady)
    | split
    | with_reducible refine Steady.build ?_ ?_ ?_ ?_ ?_ ?_ ?_ ?_ ?_

theorem traceStatus_steady {s0 s : State} (h : Steady s0 s) {r} : Steady s0 (traceStatus r s) := by
  unfold traceStatus
  try dsimp only
  repeat' first
    | with_reducible (first
        | assumption | rfl | apply ok_steady)

theorem traceStop_steady {s0 s : State} (h : Steady s0 s) {r} : Steady s0 (traceStop r s) := by
  unfold traceStop
  try dsimp only
  repeat' first
    | with_reducible (first
        | assumption | rfl | exact id | exact fun h => ⟨h.1, h.2⟩ | exact fun h => ⟨h.1, h.2, h.3⟩ | apply ok_steady)
    | with_reducible refine Steady.build ?_ ?_ ?_ ?_ ?_ ?_ ?_ ?_ ?_

theorem trigSet_steady {s0 s : State} (h : Steady s0 s) {r} : Steady s0 (trigSet r s) := by
  unfold trigSet
  try dsimp only
  repeat' first
    | with_reducible (first
        | assumption | rfl | apply bad_steady | apply ok_steady | apply setTrig_steady | apply Steady.ite)
    | split

theorem trigStop_steady {s0 s : State} (h : Steady s0 s) {r} : Steady s0 (trigStop r s) := by
  unfold trigStop
  try dsimp only
  repeat' first
    | with_reducible (first
        | assumption | rfl | apply bad_steady | apply refuse_steady | apply ok_steady | apply setTrig_steady | apply Steady.ite)
    | split

theorem readFlash_steady {s0 s : State} (h : Steady s0 s) {f} : Steady s0 (readFlash f s) := by
  unfold readFlash
  try dsimp only
  repeat' first
    | with_reducible (first
        | assumption | rfl | exact id | exact fun h => ⟨h.1, h.2⟩ | exact fun h => ⟨h.1, h.2, h.3⟩)
    | with_reducible refine Steady.build ?_ ?_ ?_ ?_ ?_ ?_ ?_ ?_ ?_

end Sys2Proof.Machine
end

