-- ==== Sys2Proof/WellFormed.lean ====
section
/-! DEFINITION. Well-formed commands: the operands that can reach the block. A sender outside the block can name only what
exists (a core site, a port, a slot), and an operand keeps to the width the spec gives it. `exec` is total on every term; the checks
say which terms stand for something the hardware can see. -/

namespace Sys2Proof

/-- A core site's fabric address (R33, R50): gallery 0–3, column 0–6, row 0–5. -/
def Node.isCore (n : Node) : Bool := decide (n.toNat / 128 < 4) && decide (n.toNat / 8 % 16 < 7) && decide (n.toNat % 8 < 6)

/-- Bytes of an access width (R563). -/
def AccW.bytes : AccW → Nat
  | .b8 => 1 | .b16 => 2 | .b32 => 4 | .b64 => 8

/-- A BAR0 offset of an access of n bytes: inside 1 MiB and naturally aligned (R563). -/
def barOffOk (off n : Nat) : Bool := decide (off + n ≤ 0x100000) && decide (off % n = 0)

/-- A flit's payload length (R37: at most 4,096 bytes). -/
def Flit.wf (f : Flit) : Bool := decide (f.payload ≤ 4096)
/-- A request's length, data and byte enables agree (R37, R40). -/
def FabReq.wf (r : FabReq) : Bool :=
  decide (r.len ≤ 4096) && decide (r.data.length ≤ 4096) && (r.en.isEmpty || decide (r.en.length = r.data.length))
/-- A DATA message's payload (R37). -/
def DataMsg.wf (m : DataMsg) : Bool := decide (m.data.length ≤ 4096)

/-- A boot slot's digest is 32 bytes (R369). -/
def SlotCheck.wf (s : SlotCheck) : Bool := decide (s.digest.length = 32)
def FlashEnv.wf (f : FlashEnv) : Bool := f.lanternA.wf && f.lanternB.wf && f.dispatchA.wf && f.dispatchB.wf

/-- The operands of a command that the block's surroundings can present. -/
def Instr.wf : Instr → Bool
  | .registerWrite off w _ _ => barOffOk off w.bytes
  | .lowHalfRead off => barOffOk off 4
  | .mbLate _ slot => decide (slot < 8)
  | .flitTransfer f | .fabLinkTimeout _ _ f => f.wf
  | .dataArrival m => m.dst.isCore && m.wf
  | .readReq r | .writeReq r => r.wf
  | .reply n _ _ data => n.isCore && decide (data.length ≤ 4096)
  | .credit n route => n.isCore && decide (route < 32)
  | .nackIslandDown n _ | .fabReplyTimeout n _ => n.isCore
  | .scrubSlot n m word _ => n.isCore && decide (word < match m with | .imem => 8192 | .cmem => 65536)
  | .frequencyTarget n units => n.isCore && decide (units < 256)
  | .frequencyChange n | .coreClkRange n _ | .controlStart n | .trailStart n | .pace n _ | .waitRestart n | .coreWaitLimit n => n.isCore
  | .scalar n _ _ | .branch n _ _ | .scalarLoad n _ | .scalarStore n _ | .fetchAdd n _ | .compareAndSwap n _ | .matrix n _
  | .vector n _ _ | .rescale n _ _ | .sclload n _ _ | .vectorLoad n _ | .vectorStore n _ | .ldload n _ | .bind n _
  | .agenStart n _ | .agenWait n _ | .send n _ | .sends n _ | .recv n _ | .release n _ | .poll n _ | .get n _ | .put n _
  | .waitt n _ | .end_ n _ | .nop n _ | .fence n _ | .a1mode n _ | .sigmark n _ | .tracemark n _ | .clrflag n _ | .status n _ => n.isCore
  | .agAccess n ag _ | .agRunEnd n ag => n.isCore && decide (ag < 3)
  | .chamberScrub staging addr _ => decide (addr % 8 = 0) && decide (addr < if staging then 2 ^ 23 else 2 ^ 26)
  | .patrolScrub chan _ _ | .phyLockLoss chan | .phyRetrainTimeout chan | .phyLockRegain chan => decide (chan < 4)
  | .kvFetch n body | .kvSeal n body => n.isCore && decide (body.length ≤ 4096)
  | .kvPlace n => n.isCore
  | .ceilingInterval uj => decide (uj.length ≤ 16)
  | .meterTrim l => l.all (fun x => decide (x.1 < 16))
  | .coolantSample v => decide (v < 65536)
  | .junctionSample l => l.all (fun x => decide (x.1 < 40))
  | .meterThreshold m => decide (m < 16)
  | .csiPacket port _ | .csiLaneOrder port _ => decide (port < 8)
  | .ethFrame mac _ => decide (mac < 4)
  | .rtpReorderExpiry s | .pictureDecoded s _ | .lossTimeout s | .intakeDone s => decide (s < 32)
  | .focusSeal n s _ _ => n.isCore && decide (s < 32)
  | .prismUtilSample u => decide (u ≤ 100)
  | .sync port _ | .announce port _ _ | .pdelayReq port _ _ _ _ | .pdelayResp port _ _ _ _ _ | .pdelayReqSend port _
  | .syncReceiptTimeout port | .announceReceiptTimeout port | .followUp port _ _ _ _ | .txtsConsume port => decide (port < 4)
  | .trigEdge n | .trigPulseEnd n => decide (n < 12)
  | .msixUnmask _ v _ _ => decide (v < 64)
  | .bar2Access addr _ => decide (addr < 2 ^ 36)
  | .inboundWrite w _ data _ _ => decide (w < 16) && decide (data.length ≤ 4096)
  | .inboundDoorbell w _ _ | .inbRelease w _ => decide (w < 16)
  | .hostCompletion tag _ data => decide (tag < 2 ^ 32) && decide (data.length ≤ 4096)
  | .queueEntry _ entry => decide (entry.length = 64)
  | .linkTraining port lanes _ _ => decide (port < 2) && decide (lanes.length ≤ 4)
  | .trainingRetry port | .replayTimeout port | .dvLinkDown port => decide (port < 2)
  | .laneLockLoss port lane => decide (port < 2) && decide (lane < 4)
  | .flitReceive port bytes => decide (port < 2) && decide (bytes.length = 256)
  | .sioSample pins => pins.all (fun p => decide (p.pin < 17))
  | .powerOn f | .warmReset f => f.wf
  | .domainPowerUp d | .domainGate d => decide (d < 16)
  | .voltageStep g => decide (g < 4)
  | .pmbusPoll r _ | .i3cRead r _ => decide (r < 8)
  | .spiTransaction mosi edges => decide (mosi.length ≤ 128) && decide (edges ≤ 1024)
  | .endorse p => decide (p.length ≤ 112)
  | .spiReset p => decide (p.length ≤ 112)
  | .fwStageDone i _ => decide (i.digest.length = 32)
  | .dapAccess n _ => n.isCore
  | .inboundBind d => decide (d.length = 64)
  | .attach (some m) _ => decide (m.n ≤ 8) && decide (m.p < max m.n 1)
  | .attach none _ | .quiesce _ _ | .quiesced _ | .fabQuiesceTimeout _ | .quiescedReceived _ _ | .readmit _
  | .ltcLoRead | .arSessionRead | .timeEvent _ | .ledgerFlags _ | .objFlags _ | .trcFlags _ | .mbBadSat _ _ | .mbDoorbell _ _ | .mbDone _ _
  | .urgAck _ | .queueDb _ | .evtRearm _ | .migrationComplete | .sumpPageArrival _ _ _ | .pageWriteComplete _ _
  | .demotionWritesAccepted _ _ | .adaptRun | .epochEnd _ | .recalibrationComplete _ | .frameStart _ | .frameEnd _ | .resultGateOpen
  | .retirePoint | .decisionPoint | .loopHeatExpiry | .railCurrentSample _ | .railRange _ | .clkRefRange | .recordDecode _ _ _
  | .timeStepApply | .dlDown | .dlUp _ _ _ | .perstN | .perstNDeassert | .hotReset | .flr | .d3hot | .busMasterEnableClear | .holdLimit
  | .bar2ReadTimeout | .hostCompletionTimeout _ | .doorbellFifoRelease | .slotFaultServed _ _ | .invalidateComplete _ | .signature _ _
  | .comparatorTimeout _ _ _ _ | .verdict _ _ _ _ | .verdictTimeout _ _ | .mirWindowLong _ | .retryRestart _ | .frameSig _
  | .frameSigWaitExpiry | .timeReqInterval | .timeReq _ _ | .timeResp _ | .timeReport _ | .exchangeHold | .heartbeatInterval | .heartbeat _
  | .faultState _ _ _ | .planCheck _ | .loopPropose _ _ _ | .rungEnergy _ _ | .rungFloor _ _ | .splitMove _ _ _ | .realignEnter _ _
  | .realignExit _ | .sidebandTest _ _ | .dataMessage _ _ _ _ | .partnerLost | .faultIn | .faultInClassify _ | .dvFaultPin
  | .faultRaise _ _ _ | .colChannelDiffer | .torchStart | .torchStartFail | .torchFrameStart | .quietPeriodExpiry _ _ | .aliveToggle
  | .watchdogRefresh | .ltnWatchdog | .bootComplete _ | .powerCycle | .canWake _ | .parkedChargingExpiry | .logFlush | .spiStatus
  | .guardQuery | .spiVeto _ | .parkedCharging _ | .standby | .wake | .logRead _ | .spiSilence | .configWriteDone _ | .proposalExpiry
  | .reconcileRound _ | .partnerCheckTimeout | .jtagInstruction _ | .detach | .tornRead | .identify | .objQuery | .invalidate
  | .evtQuery | .inboundUnbind | .planLoad _ _ _ | .planUnload | .loopStart | .loopStop | .adaptEnter | .adaptResult | .adaptExit
  | .clipRead | .memStatus | .coreStatus | .streamStatus | .recordOpen _ | .recordClose | .intakeCounters | .splitStatus | .prismStatus
  | .timeStatus | .timeStep | .timeConfig | .trigSet | .trigStop | .energyBudget | .energyLoop | .energyStatus | .energyThresh
  | .propose _ | .veto | .guardStatus | .recover | .faultRead | .spareSubstitute | .retireClear | .fwStage _ _ | .fwActivate | .fwStatus
  | .bootMeasure | .traceConfig | .traceStart | .traceStop | .traceStatus | .faultInLow | .hostSnoop _ _ | .dispatchRestart _ => true

end Sys2Proof
end

