-- ==== Sys2Proof/Tests/Slice0.lean ====
section
/-! SUPPORT. The model's own tests: an ill-formed term for every check of well-formedness, values that the spec states written
out, and for every statement to the provers a state and operands that meet its hypotheses together. -/

open Sys2Proof Sys2Proof.Machine

/-! Well-formedness: each check refuses a term that breaks it. -/

/-- An image slot whose digest has the right length, and one whose digest has not. -/
def okSlot : SlotCheck := { wellFormed := true, signatureOk := true, rollback := 0, version := 0, digest := List.replicate 32 0 }
def shortSlot : SlotCheck := { okSlot with digest := [] }
def okFlash : FlashEnv := { lanternA := okSlot, lanternB := okSlot, dispatchA := okSlot, dispatchB := okSlot, configValid := true }
def msgTo (dst : Node) (data : List Byte) : DataMsg := { src := 0, dst := dst, chan := 0, data := data }
def reqOf (len : Nat) (data : List Byte) (en : List Bool) : FabReq :=
  { src := 0, dst := 0x218, tag := 0, space := .dram, addr := 0, len := len, data := data, en := en }
/-- A fabric address past the last column of a gallery. -/
def noCore : Node := 0x38
def page : List Byte := List.replicate 8 0

theorem test_wf_offset : (Instr.registerWrite 0x100000 .b32 0 0).wf = false ∧ (Instr.registerWrite 2 .b32 0 0).wf = false ∧ (Instr.registerWrite 4 .b64 0 0).wf = false ∧
    (Instr.lowHalfRead 2).wf = false ∧ (Instr.registerWrite 8 .b64 0 0).wf = true := by decide
theorem test_wf_slot : (Instr.mbLate .dispatch 8).wf = false := by decide
theorem test_wf_flit : (Instr.flitTransfer { id := 0, head := true, src := 0, dst := 0, kind := .data, payload := 4097, ecc := .clean }).wf = false := by decide
theorem test_wf_fabric : (Instr.dataArrival (msgTo noCore [])).wf = false ∧ (Instr.readReq (reqOf 4097 [] [])).wf = false ∧
    (Instr.writeReq (reqOf 2 [1, 2] [true])).wf = false ∧ (Instr.writeReq (reqOf 2 [1, 2] [true, false])).wf = true ∧
    (Instr.reply noCore 0 .ok []).wf = false ∧ (Instr.credit 0 32).wf = false ∧ (Instr.credit noCore 0).wf = false := by decide
theorem test_wf_node : (Instr.nackIslandDown noCore (.route 0)).wf = false ∧ (Instr.fabReplyTimeout noCore 0).wf = false ∧
    (Instr.quiesce 0x3FF 0).wf = true ∧ Node.isCore 0x1B5 = true ∧ Node.isCore 0x1B6 = false ∧ Node.isCore 0x1B8 = false ∧ Node.isCore 0x200 = false := by decide
theorem test_wf_scrub : (Instr.scrubSlot 0 .imem 8192 .clean).wf = false ∧ (Instr.scrubSlot 0 .cmem 65536 .clean).wf = false ∧
    (Instr.chamberScrub false 4 .clean).wf = false ∧ (Instr.chamberScrub true (2 ^ 23) .clean).wf = false ∧ (Instr.chamberScrub false (2 ^ 26) .clean).wf = false ∧
    (Instr.patrolScrub 4 0 .clean).wf = false := by decide
theorem test_wf_core : (Instr.frequencyTarget 0 256).wf = false ∧ (Instr.frequencyChange noCore).wf = false ∧ (Instr.scalar noCore .add 0).wf = false ∧
    (Instr.agAccess 0 3 []).wf = false ∧ (Instr.agRunEnd 0 3).wf = false ∧ (Instr.kvPlace noCore).wf = false ∧ (Instr.dapAccess noCore .halt).wf = false := by decide
theorem test_wf_energy : (Instr.ceilingInterval (List.replicate 17 0)).wf = false ∧ (Instr.meterTrim [(16, 0)]).wf = false ∧ (Instr.coolantSample 65536).wf = false ∧
    (Instr.junctionSample [(40, 0)]).wf = false ∧ (Instr.meterThreshold 16).wf = false := by decide
theorem test_wf_intake : (Instr.csiLaneOrder 8 none).wf = false ∧ (Instr.csiPacket 8 { vc := 0, dt := 0, hdr := .clean }).wf = false ∧
    (Instr.ethFrame 4 { len := 0, dmac := 0, ethertype := 0 }).wf = false ∧ (Instr.lossTimeout 32).wf = false ∧ (Instr.prismUtilSample 101).wf = false := by decide
theorem test_wf_time : (Instr.syncReceiptTimeout 4).wf = false ∧ (Instr.trigPulseEnd 12).wf = false ∧ (Instr.txtsConsume 4).wf = false := by decide
theorem test_wf_host : (Instr.msixUnmask true 64 0 0).wf = false ∧ (Instr.bar2Access (2 ^ 36) (.read 4)).wf = false ∧ (Instr.inboundWrite 16 0 [] false 0).wf = false ∧
    (Instr.inboundDoorbell 16 0 0).wf = false ∧ (Instr.hostCompletion (2 ^ 32) .success []).wf = false ∧ (Instr.queueEntry 0 []).wf = false ∧ (Instr.inboundBind []).wf = false := by decide
theorem test_wf_dvorpo : (Instr.linkTraining 2 [] 0 none).wf = false ∧ (Instr.replayTimeout 2).wf = false ∧ (Instr.laneLockLoss 0 4).wf = false ∧
    (Instr.flitReceive 0 []).wf = false := by decide
theorem test_wf_lifecycle : (Instr.sioSample [{ pin := 17, level := false, atLimit := false, microAmp := 0 }]).wf = false ∧ (Instr.domainGate 16).wf = false ∧
    (Instr.voltageStep 4).wf = false ∧ (Instr.pmbusPoll 8 none).wf = false ∧ (Instr.spiTransaction [] 1025).wf = false := by decide
theorem test_wf_flash : (Instr.powerOn { okFlash with dispatchB := shortSlot }).wf = false ∧ (Instr.warmReset { okFlash with lanternA := shortSlot }).wf = false ∧
    (Instr.powerOn okFlash).wf = true := by decide
theorem test_wf_manifest : (Instr.attach (some { bytes := [], n := 9 }) true).wf = false ∧ (Instr.attach (some { bytes := [], n := 2, p := 2 }) true).wf = false := by decide

/-! Values that the spec's worked examples state, one chapter after another. -/

/-- Chapter 4: the word 0x7006_2008_0080_0000 is SEND on route 3 with SA = S4, WIN = W2 and LEN = 1024. -/
theorem test_send_fields : let f := BitVec.ofNat 54 (0x7006200800800000 % 2 ^ 54)
    0x7006200800800000 / 2 ^ 54 = 7 * 64 ∧ bits f 53 49 = 3 ∧ bits f 47 43 = 4 ∧ bits f 37 34 = 2 ∧ bits f 25 13 = 1024 := by decide
/-- Chapter 3: nodes and their domains. -/
theorem test_domains : domainOf 0x094 = 10 ∧ domainOf 0x0B5 = 11 ∧ domainOf 0x013 = 8 ∧ domainOf 0x113 = 12 ∧ domainOf 0x023 = 9 ∧ domainOf 0x123 = 13 := by decide
/-- Chapter 5: M = 300, N = 80, K = 200 on 4 computations of 96 KiB. -/
theorem test_tiling : planGemm 300 80 200 2 2 98304 4 = some { tm := 2, tn := 1, tk := 200, cycles := 1600, traffic := 288000 } := by decide
/-- Chapter 5: the descriptor of AG0 for block row 4. -/
def exampleAg0 : List W32 := [0xC7, 1, 0, 0x20, 0, 0x1900, 0, 0, 0, 0x0152C688, 0, 0, 0x0003A000, 0xFFFF002C, 0, 0]
theorem test_ag0_masks : descBad 0 exampleAg0 = false ∧ autoMask (db exampleAg0 12 14 12) (db exampleAg0 13 15 0) [0, 0, 0, 0, 0, 0] = 0xFFFFFFFF ∧
    autoMask (db exampleAg0 12 14 12) (db exampleAg0 13 15 0) [0, 0, 1, 0, 0, 0] = 0xFFF := by decide
/-- Chapter 6: the descriptor of AG1 for strip 0 of band 0; its last access lies at 73,918, its first is padding. -/
def exampleAg1 : List W32 := [0x0002003F, 2, 0x1F, 0x484, 0, 0, 1, 0x22, 0, 0x0146C688, 0x00220021, 0x11110001, 0x0003F45C, 0, 0, 0]
theorem test_ag1_offsets : descBad 1 exampleAg1 = false ∧ visitOff { desc := exampleAg1, pos := [63, 2, 2, 0, 31, 0] } = (73918, false) ∧
    (visitOff { desc := exampleAg1, pos := [0, 0, 0, 0, 0, 0] }).2 = true := by decide
/-- Chapter 8: M = 2^−9 and B = 4.0 in channel 0. -/
def exampleChannel : Core := { scl := [(0, 0x3B000000), (1, 0x40800000)] }
theorem test_rescale_int8 : [9001, 2304, -2560, 63488, 70000].map (fun (v : Int) => rescaleEntry exampleChannel 0 5 0 false (BitVec.ofInt 32 v)) =
    [(22, false), (8, false), (255, false), (127, true), (127, true)] := by decide
theorem test_rescale_e4m3 : [9001, 70000].map (fun (v : Int) => (rescaleEntry exampleChannel 0 6 0 false (BitVec.ofInt 32 v)).1) = [0x5B, 0x71] ∧
    convTo 6 (decodeFp fp32 0x43FA0000) = (0x7E, true) := by decide
/-- Chapter 9: S, N and B of six rungs in MB/s. -/
def exampleRung (s n b : Nat) : Rung :=
  { energy := 1, bw := [{ agent := 0, cls := .safety, rate := s }, { agent := 1, cls := .sensor, rate := n }, { agent := 2, cls := .bulk, rate := b }] }
def exampleRungs : List Rung :=
  [exampleRung 52000 22000 12000, exampleRung 44000 20000 10000, exampleRung 36000 18000 8000, exampleRung 28000 14000 6000, exampleRung 20000 10000 4000, exampleRung 8000 6000 0]
theorem test_bandwidth_checks : checkBandwidth State.reset { bytes := [], rungs := exampleRungs, cores := [] } = none ∧
    (checkBandwidth State.reset { bytes := [], rungs := [exampleRung 52000 36000 12000], cores := [] }).map (fun e => e.status) = some 7 := by decide
theorem test_bandwidth_floor : floorRung { State.reset with mem := { State.reset.mem with retired := [1], migrating := true } } exampleRungs 1 = some 3 := by decide
/-- Chapter 10: a plan of six declared energies at 120 Hz. -/
def examplePlan : Loaded :=
  { ctx := 0, img := { bytes := [], rungs := [350000, 300000, 250000, 200000, 150000, 48000].map (fun (e : Nat) => ({ energy := e } : Rung)), cores := [] },
    digest := [], scaleDigest := [], period := 0x007F281555555555, flags := 0, planner := 0, recalFor := [], map := [], objs := [] }
/-- k, coolant, balance and rung at a decision point with 60 frames of a window of 120 left. -/
def exampleLedger (k : Nat) (t bal : Int) (rung : Nat) : State := { State.reset with
  energy := { State.reset.energy with k := k, coolT := t, balance := bal, grant := some (120, 40000000), winFrame := 60, rung := rung, force := rung } }
theorem test_allowance : allowance (exampleLedger 0 5000 0 0) = 44000 ∧ allowance (exampleLedger 0 5800 0 0) = 24800 ∧ allowance (exampleLedger 0 4500 0 0) = 56000 := by decide
theorem test_energy_rung : (chooseRung (exampleLedger 4466765987 5000 19000000 1) examplePlan).1 = 2 ∧ (chooseRung (exampleLedger 4469557707 5800 400000000 2) examplePlan).1 = 4 ∧
    [4, 3, 2, 1].map (fun (r : Nat) => (chooseRung (exampleLedger 4469557707 4500 400000000 r) examplePlan).1) = [3, 2, 1, 0] := by decide
/-- Chapter 12: the shuffle of ten scene frames; and the pixel (126, 128, 200) through BT709. -/
theorem test_shuffle : (List.range 10).map (fun j => shuffle j 10 0x0011002A00070035 0) = [7, 2, 1, 8, 4, 9, 6, 3, 5, 0] := by decide
def exampleProfile : Profile :=
  { id := 0, matrix := 2, limited := true, a := [0x43000000, 0x43000000, 0x43000000], b := [0xC2666666, 0xC2666666, 0xC2666666], ofmt := 0, width := 1, height := 1, base := 0 }
theorem test_pixel : ((colour exampleProfile true [normY true 8 126, normC true 8 128, normC true 8 200]).zipIdx).map (fun x => (outSample exampleProfile x.2 x.1).1) = [71, 243, 7] := by decide
/-- Chapter 13: the addend 12 ppm fast, and the starts of frames 1 to 3. -/
theorem test_rate : rateOf 12000 = 0x2000192A7 := by decide
theorem test_frame_starts : startAt 0 0x007F281555555555 1 = 8333333 ∧ startAt 0 0x007F281555555555 2 = 16666666 ∧ startAt 0 0x007F281555555555 3 = 24999999 := by decide
/-- Chapter 16: the ENERGY_BUDGET exchange in slot 3, and its refusal. -/
def exampleBudget (uj : Nat) : State :=
  setMb .dispatch { service := true, slots := [(3, { phase := .busy, tag := 0x2A })], fifo := [3], req := wrN [] 768 ([0x01, 0x06, 0x2A, 0, 0x10, 0, 0, 0, 0x07, 0x1F, 0, 0, 0, 0, 0, 0, 0x78, 0, 0, 0, 0, 0, 0, 0] ++ leBytes 8 uj) }
    { State.reset with
      plans := [examplePlan]
      loop := { State.reset.loop with ctx := some 0, next := 0xC6571, cur := some { n := 0xC6570 } }
      dev := { State.reset.dev with state := .running, session := 0x1F07, sessions := [0x1F07] } }
/-- The response's bytes 0 to 19. -/
def exampleAnswer (r : Res) : List Byte := match r with | .next t => rdN (getMb .dispatch t).rsp 768 20 | _ => []
set_option maxRecDepth 8000 in
theorem test_energy_budget : exampleAnswer (exec .energyBudget (exampleBudget 40000000)) =
    [0x01, 0x06, 0x2A, 0, 0, 0, 4, 0, 4, 0, 0, 0, 0x70, 0x65, 0x0C, 0, 0x71, 0x65, 0x0C, 0] := by decide
set_option maxRecDepth 8000 in
theorem test_energy_budget_low : (exampleAnswer (exec .energyBudget (exampleBudget 5000000))).take 12 = [0x01, 0x06, 0x2A, 0, 3, 0, 0, 0, 4, 0, 0x18, 0] := by decide
/-- Chapter 17: Lantern's slot A is behind the OTP count, so slot B boots. -/
def step6 : SlotCheck := { okSlot with rollback := 6 }
def step7 : SlotCheck := { okSlot with rollback := 7 }
set_option maxRecDepth 8000 in
theorem test_boot : (match exec (.powerOn { okFlash with lanternA := step6, lanternB := step7, dispatchA := step7, dispatchB := step7 })
      { State.reset with ltn := { State.reset.ltn with otpSteps := 7 } } with | .next t => devstate t.dev | _ => 0) = 0x501 := by decide
/-- Chapter 19: the first exchange after an outage. -/
def exampleFollower : State := { State.reset with
  dv := { State.reset.dv with n := 2, p := 1, twin := true, t1 := some 5000000000, offset := 41250300, mapped := true }
  dev := { State.reset.dev with state := .running } }
theorem test_exchange : (match exec (.timeResp { t1 := 5000000000, t2 := 5041252210, t3 := 5041253710, t4 := 5000001720, corrReq := 0, corrResp := 0, frame := 0, frameLtc := 0 })
      exampleFollower with | .next t => (t.dv.delay, t.time.alignDev, t.dev.state) | _ => (0, 0, .booting)) = (110, 1800, .realign) := by decide
/-- Chapter 20: the instance word of pair 5 with LEAD node 0x013. -/
theorem test_instance : instWord (sub_ 0x13 5) true = 0x01050013 := by decide
/-- Chapter 23: the record of TRACEMARK 0x00C4. -/
theorem test_trace_record : (traceBytes 4 0 0x129 999 5000000000 (leBytes 2 0xC4 ++ leBytes 2 0x310)).take 20 =
    [0x04, 0, 0x29, 0x01, 0xE7, 0x03, 0, 0, 0, 0xF2, 0x05, 0x2A, 0x01, 0, 0, 0, 0xC4, 0, 0x10, 0x03] := by decide
/-- Chapter 24: the open thresholds of SAFE_A (75 µA) and FAULT_OUT (27 µA), and the coolant reading. -/
def examplePins : State := { State.reset with fc := { State.reset.fc with safeA := false, safeBN := true }, dv := { State.reset.dv with n := 2 } }
theorem test_open_threshold : sampleCond examplePins { pin := 0, level := false, atLimit := false, microAmp := 74 } false = 5 ∧
    sampleCond examplePins { pin := 0, level := false, atLimit := false, microAmp := 75 } false = 0 ∧
    sampleCond examplePins { pin := 3, level := false, atLimit := false, microAmp := 27 } false = 5 ∧
    sampleCond examplePins { pin := 3, level := false, atLimit := false, microAmp := 28 } false = 0 := by decide
set_option maxRecDepth 8000 in
theorem test_coolant : ntcTemp 21395 = 4500 := by decide
/-- Chapter 27: LINK_STATUS at x8, 32 GT/s with CXL active, before and after ATTACH. -/
theorem test_link_status : linkStatus { up := true, width := 8, rate := 5, cxl := true } = 0x158 ∧ linkStatus { up := true, width := 8, rate := 5, cxl := true, attached := true } = 0x358 := by decide


/-! For every statement to the provers, a state and operands that meet its hypotheses together. -/

theorem witness_TickAdvances : State.reset.pending = [] := rfl

theorem witness_NothingWritesTheLtc : (∀ f, Instr.canWake 0 ≠ .powerOn f) ∧ Instr.canWake 0 ≠ .powerCycle ∧
    State.reset.pending = [] ∧ (∃ t, exec (.canWake 0) State.reset = .next t) ∧ (∃ t, exec .powerCycle State.reset = .next t) := by
  refine ⟨?_, ?_, rfl, ⟨_, rfl⟩, ⟨_, rfl⟩⟩ <;> intros <;> simp

theorem witness_StepKeepsInv : Inv State.reset ∧ ∃ t, step State.reset = .next t :=
  ⟨⟨by unfold IncOk; decide, fun _ => ⟨List.nodup_nil, List.not_mem_nil⟩, ⟨⟨by decide, by decide, by decide⟩, ⟨by decide, by decide⟩, ⟨by decide, by decide⟩⟩⟩, _, rfl⟩

theorem witness_MonotoneMachine : ∃ t, exec .hotReset { State.reset with dev := { State.reset.dev with lockedLatch := true } } = .next t := ⟨_, rfl⟩

theorem witness_MemoryReadAfterWrite : Memory.wf [(3, 7)] = true := by decide

theorem witness_MailboxAnswer : MbOk (getMb .dispatch State.reset) ∧ wfK ({} : Slot) (getMb .dispatch State.reset).slots = true ∧ MbOk (getMb .lantern State.reset) :=
  ⟨⟨by decide, by decide⟩, by decide, ⟨by decide, by decide⟩⟩

theorem witness_IssueAndRetire : canIssue (getCore State.reset 0) = false ∧ canIssue { run := .run } = true ∧
    canIssue { run := .run, halted := true, stepOne := true } = true ∧ [5].contains (5 : BitVec 13).toNat = true ∧
    wfK ({} : Core) State.reset.cores = true ∧ ({ run := .run, nacked := some 3 } : Core).sig.pair = none := by decide

/-- A core that runs at node 0, with S1 = 5, S2 = 7 and nothing else. -/
def runCore : Core := { run := .run, s := [(1, 5), (2, 7)] }
/-- The machine with that core at node 0. -/
def runState : State := setCore 0 runCore State.reset
theorem ready_runState : Ready runState 0 runCore := ⟨by decide, by decide, by decide, by decide⟩
theorem witness_ScalarInstructions : Ready runState 0 runCore ∧ ScalarOp.add ≠ .undefinedOp ∧ bits (0#54) 37 32 = 0 ∧
    bits (BitVec.ofNat 54 (2 ^ 32)) 37 32 ≠ 0 := ⟨ready_runState, by decide, by decide, by decide⟩

theorem witness_BranchInstructions : Ready runState 0 runCore ∧ BranchOp.cond ≠ .undefinedOp ∧ bits (0#54) 39 13 = 0 ∧
    bits (0#54) 43 40 ≤ 6 ∧ bits (BitVec.ofNat 54 (6 * 2 ^ 40)) 43 40 = 6 ∧
    6 < bits (BitVec.ofNat 54 (7 * 2 ^ 40)) 43 40 ∧ bits (BitVec.ofNat 54 (7 * 2 ^ 40)) 39 13 = 0 ∧ bits (BitVec.ofNat 54 (2 ^ 13)) 39 13 ≠ 0 :=
  ⟨ready_runState, by decide, by decide, by decide, by decide, by decide, by decide, by decide⟩

theorem witness_SystemInstructions : Ready runState 0 runCore ∧ runCore.pend = [] ∧ runCore.mat = [] ∧ runCore.ag.any (fun e => e.2.running) = false ∧
    (5#54) &&& ~~~0x3F = 0 ∧ (BitVec.ofNat 54 (2 ^ 53)) &&& ~~~0x38000000000000 = 0 ∧ (7#54) &&& ~~~0xFFFF = 0 ∧ (31#54) &&& ~~~0x1F = 0 ∧
    (BitVec.ofNat 54 (2 ^ 49)) &&& ~~~0x3E000000000000 = 0 ∧ (64#54) &&& ~~~0x3F ≠ 0 :=
  ⟨ready_runState, rfl, rfl, rfl, by decide, by decide, by decide, by decide, by decide, by decide⟩
theorem witness_SystemWaits : ∃ (s : State) (c : Core), Ready s 0 c ∧ c.pend.any (fun p => p.isWrite && (8#54).getLsbD (spaceCode p.space)) = true ∧ c.pend ≠ [] :=
  ⟨setCore 0 { run := .run, pend := [{ tag := 0, kind := .store, win := 0, off := 0, node := 0x218, space := .dram, issued := 0, pc := 0 }] } State.reset,
   { run := .run, pend := [{ tag := 0, kind := .store, win := 0, off := 0, node := 0x218, space := .dram, issued := 0, pc := 0 }] },
   ⟨by decide, by decide, by decide, by decide⟩, by decide, by decide⟩

theorem witness_Loads : ∃ (c : Core) (w : Window), Ready (setCore 0 c State.reset) 0 c ∧ getWin c 0 = some w ∧ w.r = true ∧ 0 + 256 ≤ w.length ∧
    w.space = .lcl ∧ memClean c (localAddr (winAddr w 0)) 256 = true ∧ predOf c 0 = some (BitVec.allOnes 64) ∧ bits (0#54) 36 32 = 0 ∧
    (w.base + BitVec.ofNat 64 1).toNat % 2 ≠ 0 :=
  ⟨{ run := .run, wins := [(0, some { space := .lcl, r := true, w := true, a := false, tolerant := false, base := 0, length := 1024, obj := 0 })] }, _,
   ⟨by decide, by decide, by decide, by decide⟩, rfl, rfl, by decide, rfl, by decide, by decide, by decide, by decide⟩
theorem witness_LoadsRemote : ∃ (c : Core) (w : Window), Ready (setCore 0 c State.reset) 0 c ∧ getWin c 1 = some w ∧ w.r = true ∧ w.space ≠ .lcl ∧
    c.pend.length < 16 ∧ writesTo c (endpointOf 0 w.space (winAddr w 0)) = false ∧ 0 + 256 ≤ w.length :=
  ⟨{ run := .run, wins := [(1, some { space := .dram, r := true, w := true, a := true, tolerant := false, base := 0, length := 1024, obj := 0 })] }, _,
   ⟨by decide, by decide, by decide, by decide⟩, rfl, rfl, by decide, by decide, by decide, by decide⟩

theorem witness_Stores : ∃ (c : Core) (w : Window), Ready (setCore 0 c State.reset) 0 c ∧ getWin c 0 = some w ∧ w.w = true ∧ 0 + 256 ≤ w.length ∧
    w.space = .lcl ∧ suppressed c 0 = false ∧ suppressed { c with suppress := 1, sig := { c.sig with trail := true } } 0 = true ∧ Memory.wf c.mem = true :=
  ⟨{ run := .run, wins := [(0, some { space := .lcl, r := true, w := true, a := false, base := 0, length := 1024 })] }, _,
   ⟨by decide, by decide, by decide, by decide⟩, rfl, rfl, by decide, rfl, by decide, by decide, by decide⟩

theorem witness_Atomics : ∃ (c : Core) (w : Window), Ready (setCore 0 c State.reset) 0 c ∧ getWin c 0 = some w ∧ w.a = true ∧ w.space ≠ .lcl ∧ w.space ≠ .peer ∧
    c.pend.length < 16 ∧ writesTo c (endpointOf 0 w.space (winAddr w 0)) = false ∧ 2 ≤ bits (BitVec.ofNat 54 (2 ^ 39)) 39 38 ∧
    getWin c 1 = some { space := .lcl, r := true, w := true, a := true, base := 0, length := 64 } :=
  ⟨{ run := .run, wins := [(0, some { space := .dram, r := true, w := true, a := true, base := 0, length := 1024 }), (1, some { space := .lcl, r := true, w := true, a := true, base := 0, length := 64 })] }, _,
   ⟨by decide, by decide, by decide, by decide⟩, rfl, rfl, by decide, by decide, by decide, by decide, by decide, rfl⟩

theorem witness_Transfers : ∃ (c : Core) (w l : Window) (f : Field), Ready (setCore 0 c State.reset) 0 c ∧ getWin c (bits f 43 40) = some w ∧ w.space ≠ .lcl ∧ getWin c (bits f 39 36) = some l ∧
    l.space = .lcl ∧ bits f 31 19 = 64 ∧ bits f 18 16 = 0 ∧ w.r = true ∧ w.w = true ∧ l.r = true ∧ l.w = true ∧ 64 ≤ w.length ∧ 64 ≤ l.length ∧
    c.pend.length < 16 ∧ suppressed c 0 = false ∧ memClean c 0 64 = true :=
  ⟨{ run := .run, wins := [(0, some { space := .dram, r := true, w := true, a := true, base := 0, length := 1024 }), (1, some { space := .lcl, r := true, w := true, a := true, base := 0, length := 64 })] }, _, _,
   BitVec.ofNat 54 (2 ^ 36 + 64 * 2 ^ 19),
   ⟨by decide, by decide, by decide, by decide⟩, rfl, by decide, rfl, rfl, by decide, by decide, rfl, rfl, rfl, rfl, by decide, by decide, by decide, by decide, by decide⟩

theorem witness_MatrixArray : ∃ (c : Core) (f : Field), Ready (setCore 0 c State.reset) 0 c ∧ bits f 44 16 = 0 ∧ f.getLsbD 45 = false ∧
    pairingOk (bits f 51 49) (bits f 48 46) = true ∧ c.status.getLsbD 17 = false ∧ (getAg c 0).desc ≠ [] ∧ (getAg c 1).desc ≠ [] ∧
    (((getAg c 0).desc.getD 9 0).toNat / 2 ^ 22 % 4, ((getAg c 0).desc.getD 9 0).toNat / 2 ^ 24 % 4) = fmtAcc (bits f 51 49) ∧
    (((getAg c 1).desc.getD 9 0).toNat / 2 ^ 22 % 4, ((getAg c 1).desc.getD 9 0).toNat / 2 ^ 24 % 4) = fmtAcc (bits f 48 46) ∧
    bits (BitVec.ofNat 54 (2 ^ 44)) 44 16 ≠ 0 ∧ pairingOk 5 0 = false :=
  ⟨{ run := .run, ag := [(0, { desc := [0, 0, 0, 0, 0, 0, 0, 0, 0, 0x1400000] }), (1, { desc := [0, 0, 0, 0, 0, 0, 0, 0, 0, 0x1400000] })] }, 0,
   ⟨by decide, by decide, by decide, by decide⟩, by decide, by decide, by decide, by decide, by decide, by decide, by decide, by decide, by decide, by decide⟩

theorem witness_VectorInstructions : Ready runState 0 runCore ∧ predOf runCore (bits (0#54) 33 30) = some (BitVec.allOnes 64) ∧ bits (0#54) 29 27 < 6 ∧
    bits (0#54) 53 49 < 8 ∧ bits (0#54) 19 18 < 2 ∧ runCore.mat = [] ∧ (0#54).getLsbD 26 = false ∧ wfK 0 runCore.scl = true ∧ wfK 0 runCore.v = true ∧
    bits (BitVec.ofNat 54 (2 ^ 30)) 33 30 = 1 ∧ bits (BitVec.ofNat 54 (3 * 2 ^ 18)) 19 18 = 3 ∧ 6 ≤ bits (BitVec.ofNat 54 (6 * 2 ^ 27)) 29 27 :=
  ⟨ready_runState, by decide, by decide, by decide, by decide, rfl, by decide, by decide, by decide, by decide, by decide, by decide⟩
theorem witness_MatrixFeed : ∃ (c : Core) (f : Field), Ready (setCore 0 c State.reset) 0 c ∧ bits f 44 16 = 0 ∧ f.getLsbD 45 = true ∧ f.getLsbD 53 = false ∧
    bits f 15 0 = 1 ∧ c.status.getLsbD 17 = true ∧ c.status.toNat / 2 ^ 18 % 4 = 3 ∧ bits f 51 49 = 0 ∧ (getAg c 0).desc ≠ [] ∧
    (((getAg c 0).desc.getD 9 0).toNat / 2 ^ 22 % 4, ((getAg c 0).desc.getD 9 0).toNat / 2 ^ 24 % 4) = fmtAcc (bits f 51 49) :=
  ⟨{ run := .run, status := 0xE0000, ag := [(0, { desc := [0, 0, 0, 0, 0, 0, 0, 0, 0, 0x1400000] })] }, BitVec.ofNat 54 (2 ^ 45 + 1),
   ⟨by decide, by decide, by decide, by decide⟩, by decide, by decide, by decide, by decide, by decide, by decide, by decide, by decide, by decide⟩
theorem witness_VectorState : ∃ c : Core, Ready (setCore 0 c State.reset) 0 c ∧ c.status.getLsbD 17 = true ∧ c.mat = [] :=
  ⟨{ run := .run, status := 0x20000 }, ⟨by decide, by decide, by decide, by decide⟩, by decide, rfl⟩

theorem witness_AddressGenerators : ∃ (c : Core) (w : Window) (d : List W32), Ready (setCore 0 c State.reset) 0 c ∧ bits (0#54) 38 32 = 0 ∧
    d = (getAg c 0).desc ∧ (getAg c 0).running = true ∧ (getAg c 0).exhausted = false ∧ db d 9 21 20 = 0 ∧ (visitOff (getAg c 0)).2 = false ∧
    0 < dLanes d ∧ getWin c (getAg c 0).win = some w ∧ w.r = true ∧ w.space = .lcl ∧ 0 ≤ (visitOff (getAg c 0)).1 ∧
    (visitOff (getAg c 0)).1.toNat + dAcc d ≤ w.length ∧ 8 ≤ dLane d ∧ (winAddr w 0).toNat % (dLane d / 8) = 0 ∧ memCleanEn c 0 (List.replicate (dAcc d) true) = true ∧
    (getAg c 1).running = false ∧
    descBad 0 (List.map (fun i => getK 0 c.ld i) (List.range 16)) = false ∧ descBad 0 (List.replicate 16 0) = true ∧ (getAg c 2).exhausted = true ∧ (getAg c 2).late = [] :=
  ⟨{ run := .run, ld := [(9, 0x142C688)], wins := [(0, some { space := .lcl, r := true, w := true, a := false, base := 0, length := 1024 })],
     ag := [(0, { running := true, desc := [0, 0, 0, 0, 0, 0, 0, 0, 0, 0x142C688], pos := [0, 0, 0, 0, 0, 0] }), (2, { running := true, exhausted := true })] }, _, _,
   ⟨by decide, by decide, by decide, by decide⟩, by decide, rfl, by decide, by decide, by decide, by decide, by decide, rfl, rfl, rfl, by decide, by decide, by decide, by decide,
   by decide, by decide, by decide, by decide, by decide, by decide⟩

theorem witness_CoreMessages : ∃ (c : Core) (x : Route) (w : Window) (ch : Chan) (f : Field), Ready (setCore 0 c State.reset) 0 c ∧
    wfK ({} : Core) (setCore 0 c State.reset).cores = true ∧ State.reset.trace.running = false ∧ getRoute c 0 = some x ∧ x.credits ≠ 0 ∧ getWin c 0 = some w ∧ w.space = .lcl ∧ w.r = true ∧
    bits f 25 13 = 8 ∧ (0 + bits f 12 0) % 2 ^ 33 + 8 ≤ w.length ∧ memClean c 0 8 = true ∧ getChan c 0 = some ch ∧ ch.msgs.find? (fun m => !m.received) ≠ none ∧
    ch.msgs.find? (·.received) ≠ none ∧ getRoute c 1 = none ∧ f.getLsbD 48 = false :=
  ⟨{ run := .run, routes := [(0, some { node := 1, chan := 0, share := 2, optional := false, credits := 1 })],
     wins := [(0, some { space := .lcl, r := true, w := true, a := false, base := 0, length := 1024 })],
     chans := [(0, some { base := 0, slotSize := 64, slots := 4, msgs := [{ slot := 0, src := 2, len := 8, poison := false, received := true }, { slot := 1, src := 2, len := 8, poison := false }] })] },
   _, _, _, BitVec.ofNat 54 (8 * 2 ^ 13),
   ⟨by decide, by decide, by decide, by decide⟩, by decide, rfl, rfl, by decide, rfl, rfl, rfl, by decide, by decide, by decide, rfl, by decide, by decide, rfl, by decide⟩

theorem witness_CoreArrivals : ∃ (s : State) (m : DataMsg) (ch : Chan) (x : Route) (p : Pend) (w : Window), accepts s m.dst = true ∧ isCore m.dst = true ∧ getChan (getCore s m.dst) m.chan.toNat = some ch ∧
    m.data.length ≤ ch.slotSize ∧ 0 < ch.slots ∧ ch.msgs = [] ∧ getRoute (getCore s 0) 0 = some x ∧ x.optional = true ∧
    (getCore s 0).pend.find? (fun p => p.tag = 1) = some p ∧ p.returnsData = true ∧ getWin (getCore s 0) p.win = some w ∧ w.tolerant = true ∧
    (getCore s 0).pend.find? (fun p => p.tag = 2) = none ∧ wfK ({} : Core) s.cores = true ∧ accepts State.reset 0 = false ∧ getChan (getCore s 0) 1 = none :=
  ⟨{ setCore 0 {
      run := .run
      routes := [(0, some { node := 1, chan := 0, share := 2, optional := true, credits := 1 })]
      wins := [(0, some { space := .dram, r := true, w := true, a := false, base := 0, length := 1024, tolerant := true })]
      pend := [{ tag := 1, kind := .load 0 2 false, win := 0, off := 0, node := 0x218, space := .dram, issued := 0, pc := 0 }]
      chans := [(0, some { base := 0, slotSize := 64, slots := 4 })] } State.reset with fab := { gated := [] } },
   { src := 1, dst := 0, chan := 0, data := [1] }, _, _, _, _,
   by decide, by decide, rfl, by decide, by decide, rfl, rfl, rfl, rfl, rfl, rfl, rfl, rfl, by decide, by decide, rfl⟩

theorem witness_CoreControl : ∃ s : State, (getCore s 0).run = .idle ∧ (getCore s 0).heldStop = false ∧ (getCore s 0).started = false ∧ (getCore s 0).sig.pair = none ∧
    s.trace.running = false ∧ wfK ({} : Core) s.cores = true ∧ (getCore s 1).run = .wait ∧ (getCore s 1).wait = .reply 3 ∧ (getCore s 1).pend = [] ∧
    freqAllowed s 0 40 = true ∧ (getCore s 1).freqNext = none ∧ (getCore s 0).freqNext = some 60 ∧ (getCore s 2).run = .off ∧ (getCore s 3).wait = .fence ∧ (getCore s 3).run = .wait :=
  ⟨{ State.reset with cores := [(0, { run := .idle, freqNext := some 60 }), (1, { run := .wait, wait := .reply 3 }), (3, { run := .wait, wait := .fence })] },
   rfl, rfl, rfl, rfl, rfl, by decide, rfl, rfl, rfl, by decide, rfl, rfl, rfl, rfl, rfl⟩

theorem witness_FabricFlits : getK none ({ State.reset with fab := { State.reset.fab with transit := [(4, some { src := 0, dst := 1, kind := .data, payload := 64 })] } } : State).fab.transit 4
    = some { src := 0, dst := 1, kind := .data, payload := 64 } := rfl

theorem witness_EndpointRequests : ∃ (s : State) (r : FabReq), accepts s r.dst = true ∧ r.space = .staging ∧ r.atomic = none ∧ wordsClean s.mem.stagingBad (r.addr.toNat % 2 ^ 23) r.len = true ∧
    wordsClean [0] (r.addr.toNat % 2 ^ 23) r.len = false ∧ Memory.wf s.mem.staging = true ∧ r.en = [] ∧ accepts State.reset r.dst = false ∧ s.mem.halted = false ∧ r.data = [] :=
  ⟨{ State.reset with fab := { gated := [] } }, { src := 0, dst := 0x230, tag := 1, space := .staging, addr := 0, len := 8, data := [] },
   by decide, rfl, rfl, by decide, by decide, by decide, rfl, by decide, rfl, rfl⟩

theorem witness_QuiesceProtocol : ∃ s : State, (getIsland s 0x230).closed = false ∧ powered s 0x230 = true ∧ isCore 0x230 = false ∧ (getIsland s 0x218).closed = true ∧
    (getIsland s 0x218).drained = false ∧ (getIsland s 0x218).accepted = [(0, 1)] ∧ (getCore s 0x218).pend = [] ∧ (getIsland s 0x219).drained = true ∧ (getIsland s 0x219).closed = true ∧
    (getIsland s 0x21A).closed = true ∧ (getIsland s 0x21A).accepted = [] ∧ (getIsland s 0x21A).drained = false ∧ wfK ({} : Island) s.fab.islands = true :=
  ⟨{ State.reset with fab := { gated := [], islands := [(0x218, { closed := true, accepted := [(0, 1)] }), (0x219, { closed := true, drained := true }), (0x21A, { closed := true })] } },
   rfl, by decide, by decide, rfl, rfl, rfl, rfl, rfl, rfl, rfl, rfl, rfl, by decide⟩

theorem witness_MemoryTiers : outOfService State.reset 0 = false ∧ outOfService { State.reset with mem := { State.reset.mem with retired := [0] } } 0 = true ∧
    (getK {} State.reset.mem.chan 1).lockLost = none ∧ State.reset.mem.migrating = false ∧ 0 ∈ ({ State.reset with mem := { State.reset.mem with retired := [0] } } : State).mem.retired := by decide

theorem witness_DomainsAndRails : 5 ∈ State.reset.fab.gated ∧ State.reset.trace.gated = [] ∧ State.reset.trace.running = false ∧ 0 ∉ State.reset.fab.gated ∧ gateRefused State.reset 4 = false ∧
    ltnHeld State.reset = false ∧ getK 0 State.reset.ltn.pmFail 0 < 2 ∧ gateRefused State.reset 2 = true ∧
    4 ∉ ({ State.reset with fab := { State.reset.fab with gated := [] } } : State).fab.gated ∧
    2 ≤ getK 0 ({ State.reset with ltn := { State.reset.ltn with pmFail := [(1, 2)] } } : State).ltn.pmFail 1 := by decide

theorem witness_KvManager : ∃ s : State, (getK ({} : KvSeq) s.kv.seqs 1).preempted = true ∧ (getK ({} : KvSeq) s.kv.seqs 0).preempted = false ∧ s.kv.reqs = [] ∧ s.kv.answered = [] ∧
    s.kv.pages.find? (fun x => x.seq = 0 ∧ x.page = 0) = some { seq := 0, page := 0, tier := .chamber 0 0 } ∧ (getK ({} : KvSeq) s.kv.seqs 0).tail = 0 ∧
    s.kv.pages.find? (fun x => x.seq = 0 ∧ x.page = 1) = some { seq := 0, page := 1, tier := .moving 0 0, arrived := true } ∧
    s.kv.pages.find? (fun x => x.seq = 0 ∧ x.page = 2) = some { seq := 0, page := 2, tier := .toSump 1 0 } ∧ s.kv.pages.find? (fun x => x.seq = 7 ∧ x.page = 0) = none ∧
    fld [1, 0, 0, 0] 3 1 % 2 = 0 :=
  ⟨{ State.reset with kv := { State.reset.kv with
      seqs := [(1, { preempted := true })]
      pages := [{ seq := 0, page := 0, tier := .chamber 0 0 }, { seq := 0, page := 1, tier := .moving 0 0, arrived := true }, { seq := 0, page := 2, tier := .toSump 1 0 }] } },
   by decide, by decide, rfl, rfl, by decide, by decide, by decide, by decide, by decide, by decide⟩
theorem witness_KvPlace : ({ core := 0, seq := 0, pages := [1], frame := 0, status := 2 } : KvReq).status = 2 ∧
    ([{ core := 0, seq := 0, pages := [1], frame := 0 }] : List KvReq).find? (fun r => r.core = 0) = some { core := 0, seq := 0, pages := [1], frame := 0 } := by decide

/-- A machine with pair 1 and no signature, verdict or restore. -/
def pairState : State := { State.reset with mir := { State.reset.mir with
  pairs := [{ map := { pair := 1, retry := true, skew := 0, lead := 0, trail := 8, cmp0 := 0x40, cmp1 := 0xC0, suppress := 0, deadline := 0, dRun := 0, ckpt := [] } }] } }
theorem witness_MirroredExecution : (∃ p, getPair pairState 1 = some p ∧ p.restoring = none) ∧ getPair State.reset 1 = none ∧ pairState.mir.cmp0 = [] ∧ pairState.mir.cmp1 = [] ∧
    pairState.mir.verdicts = [] ∧ (getCore pairState 0).sig.first = none := ⟨⟨_, rfl, rfl⟩, rfl, rfl, rfl, rfl, rfl⟩
theorem witness_MirroredPending : ∃ (s : State) (x : PendSig) (v : PendVer), getPair s 1 ≠ none ∧
    s.mir.cmp0.find? (fun x => x.pair = 1 && x.trail != false && x.attempt == false && decide (x.frame = 0) && decide (x.window = 0)) = some x ∧
    s.mir.cmp0.find? (fun x => x.pair = 1 && x.trail == true && decide (x.window = 0)) = some x ∧
    s.mir.verdicts.find? (fun x => x.pair = 1 && x.cmp1 != true && decide (x.window = 0)) = some v ∧ v.verdict = .equal ∧
    s.mir.verdicts.find? (fun x => x.pair = 1 && decide (x.window = 0)) = some v ∧
    8 ≤ (s.mir.cmp1.filter (fun x => x.pair = 1)).length ∧ (s.mir.cmp1.filter (fun x => x.pair = 1)).head? ≠ none ∧
    (getCore s 0).sig.pair = some 1 ∧ (getCore s 0).sig.first = some 0 ∧ (getCore s 0).sig.long = false :=
  ⟨{ setCore 0 { sig := { pair := some 1, first := some 0 } } pairState with mir := { pairState.mir with
      cmp0 := [{ pair := 1, trail := true, attempt := false, frame := 0, window := 0, sig := 0, at_ := 0 }]
      cmp1 := List.replicate 8 { pair := 1, trail := true, attempt := false, frame := 0, window := 9, sig := 0, at_ := 0 }
      verdicts := [{ pair := 1, cmp1 := false, window := 0, verdict := .equal, at_ := 0 }] } },
   { pair := 1, trail := true, attempt := false, frame := 0, window := 0, sig := 0, at_ := 0 }, { pair := 1, cmp1 := false, window := 0, verdict := .equal, at_ := 0 },
   by decide, by decide, by decide, by decide, rfl, by decide, by decide, by decide, by decide, by decide, by decide⟩
theorem witness_MirroredRestore : ∃ s : State, ∃ p x, getPair s 1 = some p ∧ p.restoring = some x :=
  ⟨{ pairState with mir := { pairState.mir with pairs := pairState.mir.pairs.map (fun p => { p with restoring := some 5 }) } }, _, _, rfl, rfl⟩

theorem witness_GptpMessages : ∃ s : State, (getPtp s 0).declared = true ∧ (getPtp s 0).twoStep = some (5, 0) ∧ (getPtp s 0).txts = [] ∧ (getPtp s 0).pdelay = some (7, true) ∧
    (getPtp s 0).pdPrev = none ∧ (getPtp s 0).nrr = 0 ∧ (getPtp s 0).gm = 0 ∧ (getPtp s 1).declared = false ∧ (getPtp s 2).declared = true ∧ (getPtp s 2).gm = 9 ∧
    (getPtp s 2).twoStep = none ∧ (getPtp s 2).pdelay = some (7, false) ∧ s.time.slave = some 0 ∧ bestPort (setPtp 0 { getPtp s 0 with announces := 0, syncAt := none } s) = none ∧
    wfK ({} : PtpPort) s.time.ports = true ∧ s.mbL.waiting.find? (fun w => decide (w.opcode = 0x0502) && decide (w.args.headD 2 = 1)) = some { slot := 0, opcode := 0x0502, args := [1, 0, 0, 0], limit := 0 } :=
  ⟨{ State.reset with
      time := { State.reset.time with
        slave := some 0
        ports := [(0, { declared := true, twoStep := some (5, 0), pdelay := some (7, true) }), (2, { declared := true, gm := 9, pdelay := some (7, false) })] }
      mbL := { State.reset.mbL with waiting := [{ slot := 0, opcode := 0x0502, args := [1, 0, 0, 0], limit := 0 }] } },
   rfl, rfl, rfl, rfl, rfl, rfl, rfl, rfl, rfl, rfl, rfl, rfl, rfl, by decide, by decide, by decide⟩
theorem witness_GptpIdle : State.reset.mbL.waiting = [] ∧ State.reset.time.slave ≠ some 0 := by decide

theorem witness_TriggerOutputs : ∃ s : State, ∃ q q' : Series, (getTrig s 0).series = some q ∧ trigRuns s = true ∧ s.time.status ≠ .unset ∧ q.stopping = false ∧ (getTrig s 0).heldInactive = false ∧
    (getTrig s 0).lastEdge = none ∧ (getTrig s 0).active = false ∧ (getTrig s 1).active = true ∧ (getTrig s 1).series = some q' ∧ q'.stopping = true ∧ (getTrig s 2).lastEdge = some 0 ∧
    (getTrig s 2).series = some q ∧ (now s - 0).toNat * 8589934592 < q.period ∧ (getTrig s 3).heldInactive = true ∧ (getTrig s 3).series = some q ∧ (getTrig State.reset 0).series = none :=
  ⟨{ State.reset with time := { State.reset.time with
      status := .synced
      trig := [(0, { series := some { start := 0, period := 1000, width := 10, next := 0, activeLow := false } }), (1, { active := true, series := some { start := 0, period := 1000, width := 10, next := 0, activeLow := false, stopping := true } }),
        (2, { lastEdge := some 0, series := some { start := 0, period := 1000, width := 10, next := 0, activeLow := false } }), (3, { heldInactive := true, series := some { start := 0, period := 1000, width := 10, next := 0, activeLow := false } })] } },
   _, _, rfl, by decide, by decide, by decide, rfl, rfl, rfl, rfl, rfl, rfl, rfl, rfl, by decide, rfl, rfl, rfl⟩

theorem witness_LedgerFlags : wfK ({} : Stick 32) State.reset.energy.rungFrames = true := by decide

theorem witness_doorbell_busy : (getK {} (getMb .lantern { State.reset with mbL := { slots := [(3, { phase := .busy })] } }).slots ((3 : W32).toNat % 8)).phase ≠ .free := by
  decide

theorem witness_RegisterWrites : (AccW.b32 = .b8 ∨ AccW.b32 = .b16 ∨ (AccW.b32 = .b32 ∧ 6 % 4 ≠ 0) ∨ (AccW.b32 = .b64 ∧ 6 % 8 ≠ 0)) := by decide

theorem witness_HostLinkLoss : (∃ s : State, s.host.attached = true) ∧ State.reset.host.attached = false ∧ State.reset.host.held = [] ∧ (kvPools State.reset).sumpObj = none ∧
    State.reset.host.enabled = false ∧ State.reset.host.bar2Held = [] ∧ State.reset.host.up = false ∧ State.reset.host.holdEnded = true :=
  ⟨⟨{ State.reset with host := { State.reset.host with attached := true } }, rfl⟩, rfl, rfl, rfl, rfl, rfl, rfl, rfl⟩
theorem witness_HostLinkReturn : ∃ s : State, s.host.enabled = true ∧ s.host.perst = false ∧ s.host.cxl = false ∧ s.host.attached = false ∧ s.host.holdEnded = false ∧
    s.host.needAttach = false ∧ s.host.bme = true ∧ s.host.d3 = false ∧ s.host.msixEn = false ∧ s.host.held ≠ [] ∧ (∃ x, s.host.bar2Held = [x]) ∧
    (∃ e, s.host.msix = [(5, e)] ∧ e.pend = true) ∧ s.host.up = true :=
  ⟨{ State.reset with host := { State.reset.host with
      enabled := true, perst := false, holdEnded := false, needAttach := false, bme := true, up := true
      held := [{ obj := none, addr := 0, data := [1] }], bar2Held := [(0, 4, 0)], msix := [(5, { pend := true })] } },
   rfl, rfl, rfl, rfl, rfl, rfl, rfl, rfl, rfl, by decide, ⟨_, rfl⟩, ⟨_, rfl, rfl⟩, rfl⟩
theorem witness_HostLinkDirect : ∃ s : State, s.host.enabled = true ∧ s.host.perst = false ∧ s.host.cxl = false ∧ s.host.msixEn = false ∧ s.host.attached = true :=
  ⟨{ State.reset with host := { State.reset.host with enabled := true, perst := false, attached := true } }, rfl, rfl, rfl, rfl, rfl⟩
theorem witness_HostLinkHold : ∃ s : State, s.host.attached = false ∧ s.host.holdEnded = false ∧ s.host.held = [] ∧ (kvPools s).sumpObj = none :=
  ⟨{ State.reset with host := { State.reset.host with holdEnded := false } }, rfl, rfl, rfl, rfl⟩

theorem witness_HostAccesses : (getInb State.reset 0).bound = false ∧ Memory.wf State.reset.mem.staging = true ∧ (getInb State.reset 0).stream = 0xFF ∧
    State.reset.host.reqs = [] ∧ State.reset.obj.invals = [] := by decide
theorem witness_InboundWindow : ∃ (s : State) (d : Handle × ObjDesc), (getInb s 0).bound = true ∧ 1 < (getInb s 0).nb ∧ (getInb s 0).bufsz = 1 ∧ (getInb s 0).filter = false ∧ (getInb s 0).isHeld 0 = false ∧
    (getInb s 0).isHeld 1 = true ∧ (getInb s 0).stream = 0xFF ∧ (getInb s 1).filter = true ∧ (getInb s 1).rid ≠ 7 ∧ (getInb s 1).bound = true ∧ (getInb s 1).stream ≠ 0xFF ∧
    s.obj.descs.find? (fun d => d.1 = (getInb s 0).obj) = some d ∧ d.2.length ≠ 0 ∧ s.host.inbWait = [] ∧ (getInb s 0).nb ≤ (2 : W32).toNat % 4 :=
  ⟨{ State.reset with
      host := { State.reset.host with inb := [(0, { bound := true, nb := 2, bufsz := 1, held := [(1, none)] }), (1, { bound := true, nb := 1, bufsz := 1, filter := true, stream := 3 })] }
      obj := { State.reset.obj with descs := [(0, { invalidObj with length := 4096, location := 3 })] } },
   (0, { invalidObj with length := 4096, location := 3 }), rfl, by decide, rfl, rfl, rfl, rfl, rfl, rfl, by decide, rfl, by decide, rfl, by decide, rfl, by decide⟩
theorem witness_HostRequest : ∃ (s : State) (q : HReq) (x : Inval), s.host.reqs.find? (fun r => r.tag = 1) = some q ∧ q.what = .coreReq 0 0 0 0 0 ∧
    s.obj.invals.find? (fun x => x.id = 1) = some x ∧ x.applied = true :=
  ⟨{ State.reset with
      host := { State.reset.host with reqs := [{ tag := 1, at_ := 0, what := .coreReq 0 0 0 0 0 }] }
      obj := { State.reset.obj with invals := [{ id := 1, scope := 0, handle := 0, target := 0, event := 0, applied := true }] } }, _, _, rfl, rfl, rfl, rfl⟩

theorem witness_EnergyAndSensors : State.reset.dev.state ≠ .aonOnly ∧ wfK 0 State.reset.energy.meters = true ∧ State.reset.energy.capped = false ∧ curPlan State.reset = none ∧
    raisedNow State.reset .coolantSensor = false ∧ State.reset.energy.coolant = [] ∧ State.reset.energy.coolHist = [] ∧ 0 ∉ State.reset.ltn.tjHot ∧
    0 ∉ State.reset.energy.wrapped ∧ getK 0 State.reset.energy.thresh 0 = 0 ∧ State.reset.ltn.cfg.ceiling ≠ 0 := by decide
theorem artanhSum_zero (n k : Nat) : artanhSum n k 0 0 = 0 := by
  induction n generalizing k with
  | zero => rfl
  | succ n ih => simp [artanhSum, ih]
/-- R528: at half scale the thermistor is at 10 kΩ and 25.00 °C. -/
theorem witness_CoolantNormal : ntcTemp 32768 = 2500 := by
  have h : ntcLn 32768 = 0 := by unfold ntcLn; exact congrArg (2 * ·) (artanhSum_zero 400 0)
  unfold ntcTemp; rw [h]; decide
theorem witness_EnergyReaction : ∃ s : State, s.energy.capped = true ∧ 3 ∈ s.energy.wrapped ∧ 2 ∉ s.energy.wrapped ∧ getK 0 s.energy.thresh 2 ≠ 0 ∧
    (getK 0 s.energy.thresh 2).toNat ≤ (meter s 2).toNat ∧ 2 ∉ s.energy.crossed ∧ 7 ∈ s.ltn.tjHot ∧ s.fc.active = [] ∧ s.ltn.cfg.ceiling < 100 :=
  ⟨{ State.reset with
      energy := { State.reset.energy with capped := true, wrapped := [3], thresh := [(2, 5)], meters := [(2, 6)] }
      ltn := { State.reset.ltn with tjHot := [7], cfg := { State.reset.ltn.cfg with ceiling := 1 } } },
   rfl, by decide, by decide, by decide, by decide, by decide, by decide, rfl, by decide⟩

/-- A plan with nothing in it. -/
def emptyPlan : Loaded :=
  { ctx := 0, img := { bytes := [], rungs := [], cores := [] }, digest := [], scaleDigest := [], period := 0, flags := 0, planner := 0, recalFor := [], map := [], objs := [] }
/-- A running frame loop on that plan. -/
def loopState : State := { State.reset with
  plans := [emptyPlan]
  loop := { State.reset.loop with ctx := some 0 }
  energy := { State.reset.energy with noBudget := true }
  dev := { State.reset.dev with state := .running } }
theorem witness_FrameStart : loopState.loop.ctx = some emptyPlan.ctx ∧ planOf loopState emptyPlan.ctx = some emptyPlan ∧ loopState.loop.cur = none ∧ loopState.fc.active = [] ∧
    loopState.mir.pairs = [] ∧ loopState.obj.invals = [] ∧ loopState.host.inb = [] ∧ loopState.intake.streams = [] ∧ loopState.intake.splitNext = [] ∧ loopState.mbD.waiting = [] ∧
    loopState.dv.compare = false ∧ loopState.dv.twin = false ∧ loopState.dev.state = .running ∧ loopState.energy.noBudget = true ∧ loopState.energy.grant = none ∧ loopState.energy.newGrant = none ∧
    loopState.energy.nextRung = none ∧ loopState.mem.retired = [] ∧ loopState.mem.floor = 0 ∧ loopState.mem.halted = false ∧ loopState.mem.stalled = [] ∧ loopState.ltn.guard.written = false := by decide
theorem witness_FrameEnd : ∃ s : State, s.loop.cur = some { n := 0 } ∧ curPlan s = some emptyPlan ∧ s.dv.twin = false ∧ s.loop.stopAt = none ∧ s.dev.state = .running ∧ s.fc.c3 = false ∧
    s.fc.c4 = false ∧ s.fc.active = [] :=
  ⟨{ loopState with loop := { loopState.loop with cur := some { n := 0 } } }, rfl, rfl, rfl, rfl, rfl, rfl, rfl, rfl⟩

theorem witness_Delivery : ∃ (s : State) (f : Frame), s.loop.past.find? (fun f => f.ended && !f.gated) = some f ∧ windowsJudged s f = true ∧ s.dv.twin = false ∧
    s.loop.past.find? (fun f => f.ended && !f.retired) = some f :=
  ⟨{ State.reset with loop := { State.reset.loop with past := [{ n := 0, ended := true }] } }, { n := 0, ended := true }, rfl, by decide, rfl, rfl⟩
theorem witness_DeliveryWaits : ∃ (s : State) (f : Frame), s.loop.past.find? (fun f => f.ended && !f.gated) = some f ∧ windowsJudged s f = false :=
  ⟨{ State.reset with
      loop := { State.reset.loop with past := [{ n := 0, ended := true }] }
      mir := { State.reset.mir with cmp0 := [{ pair := 1, trail := true, attempt := false, frame := 0, window := 0, sig := 0, at_ := 0 }] } },
   { n := 0, ended := true }, rfl, by decide⟩
theorem witness_DeliveryIdle : State.reset.loop.past = [] ∧ State.reset.adapt.run = none := by decide
theorem witness_Epoch : ∃ (s : State) (a : AdaptRun) (p : Loaded), s.adapt.run = some a ∧ a.epoch + 1 = a.epochs ∧ a.scales = [] ∧ recalPlan s = some p ∧
    p.img.adaptable.contains ((0 : Node), 3) = true ∧ (getK {} (getCore s (servedBy s 0)).clips 3).clip.sat = false ∧ (getK {} (getCore s (servedBy s 0)).clips 3).conv.sat = false ∧
    ([false, true] : List Bool).getD 1 false = true ∧ (∀ i < 1, ([false, true] : List Bool).getD i false = false) :=
  ⟨{ State.reset with
      plans := [{ emptyPlan with img := { bytes := [], rungs := [], cores := [], adaptable := [(0, 3)] } }]
      adapt := { State.reset.adapt with ctxs := some (0, 0), run := some { id := 1, scene := 0, valid := 1, event := 0, seed := 0, epochs := 1 } } },
   { id := 1, scene := 0, valid := 1, event := 0, seed := 0, epochs := 1 }, { emptyPlan with img := { bytes := [], rungs := [], cores := [], adaptable := [(0, 3)] } },
   rfl, rfl, rfl, rfl, by decide, by decide, by decide, rfl, by decide⟩
theorem witness_EpochSat : ∃ s : State, (getK {} (getCore s (servedBy s 0)).clips 3).clip.sat = true := 
  ⟨setCore 0 { clips := [(3, { clip := { val := 0, sat := true } })] } State.reset, by decide⟩
theorem witness_RunOver : ∃ (s : State) (a : AdaptRun), s.adapt.run = some a ∧ a.epochs ≤ a.epoch ∧ s.adapt.ctxs = none ∧ a.faulted = false :=
  ⟨{ State.reset with adapt := { State.reset.adapt with run := some { id := 1, scene := 0, valid := 1, event := 0, seed := 0, epochs := 1, epoch := 1 } } },
   { id := 1, scene := 0, valid := 1, event := 0, seed := 0, epochs := 1, epoch := 1 }, rfl, by decide, rfl, rfl⟩

/-- A stream's declaration. -/
def testDecl : StreamDecl :=
  { id := 1, kind := .csi, port := 0, vc := 0, dt := 0x2B, width := 4, height := 1, rate := 30000 }
/-- A machine with one camera stream. -/
def camState : State := { State.reset with intake := { State.reset.intake with streams := [(1, some { decl := testDecl, open_ := some { dt := 0x2B } })] } }
theorem witness_SensorIntake : State.reset.dev.state ≠ .adapting ∧ vcStreams State.reset 0 0 = [] ∧ (getPort State.reset 0).failSince = none ∧ getStream State.reset 1 = none ∧
    macTakes State.reset 0 { len := 64, dmac := 0, ethertype := 0x800 } = false := by decide
theorem witness_Camera : ∃ t : Stream, camState.dev.state ≠ .adapting ∧ vcStreams camState 0 0 = [t] ∧ getStream camState t.decl.id = some t ∧ wfK none camState.intake.streams = true ∧
    t.open_ = some { dt := 0x2B } ∧ t.decl.dt = 0x2B ∧ 5 * 8 = t.decl.width * dtBits 0x2B ∧ t.fresh = none ∧ t.lost = false ∧ t.reorder = [] ∧ getProfile camState t.decl.profile = none :=
  ⟨{ decl := testDecl, open_ := some { dt := 0x2B } }, by decide, rfl, rfl, by decide, rfl, rfl, by decide, rfl, rfl, rfl, rfl⟩
theorem witness_CameraClosed : ∃ (s : State) (t : Stream), vcStreams s 0 0 = [t] ∧ getStream s t.decl.id = some t ∧ wfK none s.intake.streams = true ∧ t.open_ = none ∧ t.fresh ≠ none ∧
    t.reorder = [(7, 0, [])] ∧ t.rtpNext = some 5 ∧ s.dev.state ≠ .adapting :=
  ⟨{ State.reset with intake := { State.reset.intake with streams := [(1, some { decl := testDecl, fresh := some { stamp := 0 }, reorder := [(7, 0, [])], rtpNext := some 5 })] } },
   { decl := testDecl, fresh := some { stamp := 0 }, reorder := [(7, 0, [])], rtpNext := some 5 }, rfl, rfl, by decide, rfl, by decide, rfl, rfl, by decide⟩
theorem witness_CameraLost : ∃ (s : State) (t : Stream), getStream s t.decl.id = some t ∧ wfK none s.intake.streams = true ∧ t.fresh = none ∧ t.lost = true ∧ s.dev.state = .adapting ∧
    (∃ u, (getPort s 3).failSince = some u) :=
  ⟨{ State.reset with
      dev := { State.reset.dev with state := .adapting }
      intake := { State.reset.intake with streams := [(1, some { decl := testDecl, lost := true })], ports := [(3, { failSince := some 0 })] } },
   { decl := testDecl, lost := true }, rfl, by decide, rfl, rfl, rfl, 0, rfl⟩
/-- A UDP datagram and its frame. -/
def testPkt : IpPkt := { v6 := false, src := 1, dst := 2, sport := 3, dport := 4, payload := [5] }
theorem witness_Ethernet : ∃ (s : State) (f : Flow) (t : Stream) (e : EthFrame), s.dev.state ≠ .adapting ∧ 64 ≤ e.len ∧ e.len ≤ 9022 ∧ e.fcsOk = true ∧ e.ethertype ≠ 0x88F7 ∧ e.ip = some testPkt ∧
    macTakes s 0 e = true ∧ testPkt.unsupported = false ∧ sumsOk testPkt = true ∧ s.intake.flows = [f] ∧ flowMatch 0 e testPkt f = true ∧ f.kind = .udpRaw ∧ flowStream s 0 0 = some t ∧
    getStream s t.decl.id = some t :=
  ⟨{ State.reset with intake := { State.reset.intake with
      macs := [(0, { addr := some 9 })]
      flows := [{ macMask := 1, dst := 2, dport := 4, kind := .udpRaw }]
      streams := [(1, some { decl := { testDecl with kind := .udpRaw, port := 1 } })] } },
   { macMask := 1, dst := 2, dport := 4, kind := .udpRaw }, { decl := { testDecl with kind := .udpRaw, port := 1 } }, { len := 100, dmac := 9, ethertype := 0x800, ip := some testPkt },
   by decide, by decide, by decide, rfl, by decide, rfl, by decide, rfl, rfl, rfl, by decide, rfl, rfl, rfl⟩

theorem witness_ScenesAndPrism : getFile State.reset 0 0 = none ∧ getStream State.reset 0 = none ∧ State.reset.intake.split = [] ∧ State.reset.intake.moved = [] ∧
    State.reset.intake.above < 2 ^ 32 - 1 ∧ State.reset.intake.below < 2 ^ 32 - 1 := by decide
theorem witness_SceneFiles : ∃ (s : State) (f g : MsrFileState), getFile s 0 0 = some f ∧ s.dev.state = .adapting ∧ f.ended = false ∧ f.frame = some 3 ∧ 3 ∉ f.corrupt ∧
    getFile s 0 1 = some g ∧ g.ended = false ∧ g.frame = none ∧ s.intake.above = 99 ∧ (∃ k h, s.intake.split = [(k, h)]) ∧ s.intake.moved = [] ∧ s.intake.splitNext = [] ∧ s.intake.splitAt = none ∧
    s.loop.ctx ≠ none ∧ s.dv.twin = false :=
  ⟨{ State.reset with
      dev := { State.reset.dev with state := .adapting }
      loop := { State.reset.loop with ctx := some 0 }
      intake := { State.reset.intake with above := 99, split := [(1, none)], sets := [(0, [{ frames := 4, indexed := true, frame := some 3 }, { frames := 4, indexed := true }])] } },
   { frames := 4, indexed := true, frame := some 3 }, { frames := 4, indexed := true }, rfl, rfl, rfl, rfl, by decide, rfl, rfl, rfl, rfl, ⟨1, none, rfl⟩, rfl, rfl, rfl, by decide, rfl⟩
/-- The first 28 bytes of a frame record's header. -/
def headBytes : List Byte := [0, 0, 0, 0, 4, 0] ++ List.replicate 22 0
theorem witness_FrameHeader : ∃ r : MsrRec, r.header.length = 32 ∧ (crc32c (r.header.take 28)).toNat = fld r.header 28 4 ∧ fld r.header 4 2 = 4 ∧ fld r.header 24 4 % 2 = 0 := by
  have key : ∀ c : W32, (headBytes ++ leBytes 4 c.toNat).length = 32 ∧ (headBytes ++ leBytes 4 c.toNat).take 28 = headBytes ∧ fld (headBytes ++ leBytes 4 c.toNat) 28 4 = c.toNat ∧
      fld (headBytes ++ leBytes 4 c.toNat) 4 2 = 4 ∧ fld (headBytes ++ leBytes 4 c.toNat) 24 4 % 2 = 0 := fun c =>
    ⟨rfl, rfl, (leVal_leBytes 4 c.toNat).trans (Nat.mod_eq_of_lt c.isLt), rfl, rfl⟩
  have all : ∀ c : W32, c = crc32c headBytes → ∃ r : MsrRec, r.header.length = 32 ∧ (crc32c (r.header.take 28)).toNat = fld r.header 28 4 ∧ fld r.header 4 2 = 4 ∧ fld r.header 24 4 % 2 = 0 := by
    intro c hc
    obtain ⟨h1, h2, h3, h4, h5⟩ := key c
    exact ⟨{ header := headBytes ++ leBytes 4 c.toNat, payload := [], crc := 0 }, h1, (by rw [h2, h3, hc]), h4, h5⟩
  exact all _ rfl
theorem witness_IntakeDone : ∃ (s : State) (t : Stream) (c : CamDecl) (f : Frame) (u : SUnit), getStream s 1 = some t ∧ getCam s 1 = some c ∧ s.loop.cur = some f ∧ t.decl.profile ≠ 255 ∧ t.used = some u ∧
    (∀ b, u.body ≠ .inbound b) ∧ c.routes ≠ [] :=
  ⟨{ loopState with
      plans := [{ emptyPlan with img := { emptyPlan.img with cams := [{ stream := 1, routes := [(0, 0)] }] } }]
      loop := { loopState.loop with cur := some { n := 0 } }
      intake := { State.reset.intake with streams := [(1, some { decl := { testDecl with profile := 1 }, used := some { stamp := 0 } })] } },
   { decl := { testDecl with profile := 1 }, used := some { stamp := 0 } }, { stream := 1, routes := [(0, 0)] }, { n := 0 }, { stamp := 0 }, rfl, rfl, rfl, by decide, rfl,
   (by intro b h; cases h), by decide⟩

/-- A TWIN of two devices with a port in a state. -/
def dvState (x : DvPort) : State := { State.reset with dv := { State.reset.dv with n := 2, twin := true, ports := [(1, x)] }, fab := { State.reset.fab with gated := [] } }
theorem witness_DvorpoIdle : dvOn State.reset = false ∧ (getDv State.reset 0).state ≠ .active ∧ (getDv State.reset 0).state ≠ .training ∧ (getDv State.reset 0).state ≠ .down := by decide
theorem witness_DvorpoTraining : dvOn (dvState { state := .down }) = true ∧ (getDv (dvState { state := .down }) 1).state = .down ∧ (getDv (dvState { state := .down }) 1).adapted = false ∧
    (getDv (dvState { state := .down }) 1).buf = [] ∧ wrongFar (dvState { state := .down }) 1 1 = false ∧ wfK {} (dvState { state := .down }).dv.ports = true := by decide
theorem witness_DvorpoMiswire : ∃ s : State, dvOn s = true ∧ (getDv s 1).state = .down ∧ (getDv s 1).adapted = false ∧ (getDv s 1).buf = [] ∧ wrongFar s 1 3 = true :=
  ⟨{ State.reset with dv := { State.reset.dv with n := 4, twin := true, ports := [(1, { state := .down })] }, fab := { State.reset.fab with gated := [] } }, by decide, rfl, rfl, rfl, by decide⟩
/-- An active port holding flits. -/
def activePort (r : Nat) : DvPort := { state := .active, adapted := true, buf := [{ seq := 0, replays := r, at_ := 0, chan := 2, src := 0, dst := 1, msgId := 0, payload := [] }] }
theorem witness_DvorpoActive : (getDv (dvState { state := .active, adapted := true }) 1).state = .active ∧ (getDv (dvState { state := .active, adapted := true }) 1).buf = [] ∧
    (getDv (dvState (activePort 0)) 1).buf ≠ [] ∧ (∃ f, (getDv (dvState (activePort 4)) 1).buf = [f] ∧ 4 ≤ f.replays) ∧ (∃ f, (getDv (dvState (activePort 0)) 1).buf = [f] ∧ f.replays < 4) ∧
    wfK {} (dvState (activePort 0)).dv.ports = true ∧ (getDv (dvState (activePort 0)) 1).crcAt.length < 1000 ∧ (getDv (dvState { state := .active, adapted := true }) 1).wait = [] :=
  ⟨rfl, rfl, by decide, ⟨_, rfl, by decide⟩, ⟨_, rfl, by decide⟩, by decide, by decide, rfl⟩
/-- The first 248 bytes of a flit: control word, SEQ, channel byte, addresses and HOPS. -/
def flitBytes (kind chan addr hops : Nat) : List Byte := leBytes 2 (kind * 4096) ++ [0, 0] ++ leBytes 1 chan ++ leBytes 1 addr ++ leBytes 1 hops ++ List.replicate 241 0
theorem flit_crc (x : List Byte) (hx : x.length = 248) : ∃ b : List Byte, b.length = 256 ∧ crc64 0xFFFFFFFFFFFFFFFF (b.take 248) = BitVec.ofNat 64 (fld b 248 8) ∧ b.take 248 = x := by
  have all : ∀ c : W64, c = crc64 0xFFFFFFFFFFFFFFFF x → ∃ b : List Byte, b.length = 256 ∧ crc64 0xFFFFFFFFFFFFFFFF (b.take 248) = BitVec.ofNat 64 (fld b 248 8) ∧ b.take 248 = x := by
    intro c hc
    have h2 : (x ++ leBytes 8 c.toNat).take 248 = x := by rw [← hx, List.take_left]
    have h3 : fld (x ++ leBytes 8 c.toNat) 248 8 = c.toNat := by
      unfold fld; rw [← hx, List.drop_left, List.take_of_length_le (by simp), leVal_leBytes]; exact Nat.mod_eq_of_lt c.isLt
    have h1 : (x ++ leBytes 8 c.toNat).length = 256 := by rw [List.length_append, hx, length_leBytes]
    have h4 : BitVec.ofNat 64 (fld (x ++ leBytes 8 c.toNat) 248 8) = c := by rw [h3, BitVec.ofNat_toNat, BitVec.setWidth_eq]
    exact ⟨x ++ leBytes 8 c.toNat, h1, (congrArg _ h2).trans (hc.symm.trans h4.symm), h2⟩
  exact all (crc64 0xFFFFFFFFFFFFFFFF x) rfl
theorem witness_Flits : (flitBytes 0 7 0 9).length = 248 ∧ (flitBytes 1 0 0 0).length = 248 ∧ fld (flitBytes 1 0 0 0) 0 2 / 4096 ≠ 0 ∧ fld (flitBytes 0 7 2 0) 0 2 / 4096 = 0 ∧
    fld (flitBytes 0 7 2 0) 2 2 / 4096 % 4 = 0 ∧ BitVec.ofNat 12 (fld (flitBytes 0 7 2 0) 0 2) = (getDv (dvState { state := .active }) 1).rxSeq + 1 ∧
    fld (flitBytes 0 7 2 0) 5 1 / 8 % 8 = (dvState {}).dv.p ∧ fld (flitBytes 0 7 2 0) 5 1 % 8 ≠ partnerPos (dvState {}) ∧ fld (flitBytes 0 7 2 0) 4 1 % 16 = 7 ∧ (dvState {}).dv.seen = [] ∧
    fld (flitBytes 0 7 8 9) 5 1 / 8 % 8 ≠ (dvState {}).dv.p ∧ (dvState {}).dv.n ≤ fld (flitBytes 0 7 8 9) 6 1 + 1 := by
  have len : ∀ a b c d, (flitBytes a b c d).length = 248 := fun a b c d => by rw [flitBytes, List.length_append, List.length_replicate]; rfl
  refine ⟨len _ _ _ _, len _ _ _ _, ?_, rfl, rfl, rfl, rfl, ?_, rfl, rfl, ?_, ?_⟩
  · show 1 ≠ 0; decide
  · show 2 ≠ 1; decide
  · show 1 ≠ 0; decide
  · show 2 ≤ 10; decide

theorem witness_PartnerTime : State.reset.dv.lost = false ∧ State.reset.dv.twin = false ∧ State.reset.dv.n < 2 ∧ isFollower State.reset = false ∧ partnerPort State.reset = none ∧
    State.reset.dv.t1 = none ∧ State.reset.dv.lowAt = none ∧ State.reset.loop.past = [] := by decide
theorem witness_PartnerLeader : ∃ (s : State) (f : Frame), 2 ≤ s.dv.n ∧ isFollower s = false ∧ s.loop.cur = some f ∧ s.dv.twin = true ∧ s.dv.comparing = true ∧ s.dv.lost = false ∧ s.dv.sigs = [] ∧
    (∃ g : Frame, s.loop.past = [g] ∧ g.ended = true ∧ g.torch = false ∧ g.verdict = 0 ∧ g.unagreed = false ∧ g.realign = false ∧ fromPartner s 5 = g.n) ∧
    (∃ u, s.fc.faultIn = false ∧ s.dv.lowAt = some u ∧ 1000000 ≤ (now s - u).toNat) :=
  ⟨{ dvState {} with
      dv := { (dvState {}).dv with comparing := true, lowAt := some 0 }
      time := { State.reset.time with acc := 5000000 * 2 ^ 32 }
      loop := { State.reset.loop with cur := some { n := 6 }, past := [{ n := 5, ended := true }] } }, { n := 6 }, by decide, by decide, rfl, rfl, rfl, rfl, rfl,
   ⟨{ n := 5, ended := true }, rfl, rfl, rfl, rfl, rfl, rfl, by decide⟩, 0, rfl, rfl, (by show 1000000 ≤ 5000000; omega)⟩
theorem witness_PartnerFollower : ∃ s : State, isFollower s = true ∧ partnerPort s ≠ none ∧ s.dv.t1 = some 9 :=
  ⟨{ State.reset with dv := { State.reset.dv with n := 2, p := 1, t1 := some 9, ports := [(0, { state := .active })] } }, by decide, by decide, rfl⟩

theorem witness_PartnerControl : State.reset.dv.lost = false ∧ State.reset.loop.ctx = none ∧ State.reset.loop.starting = none ∧ State.reset.intake.splitNext = [] ∧ 1 ∉ State.reset.intake.moved ∧
    State.reset.dv.twin = false ∧ State.reset.dev.state ≠ .realign ∧ partnerPort State.reset = none ∧ isFollower State.reset = false ∧ State.reset.dv.test ≠ 2 ∧ sinkOf State.reset 0 0 0 = none ∧ State.reset.dv.n < 2 ∧
    State.reset.fc.faultIn = false := by decide
theorem witness_PartnerRuns : ∃ (s : State) (p : Loaded) (m : PlanCheckMsg), s.dv.lost = false ∧ s.loop.ctx ≠ none ∧ curPlan s = some p ∧ s.dv.twin = true ∧ s.dv.comparing = false ∧ checkFails s p m = 0 ∧
    s.dev.state = .running ∧ ownLtc s 0 ≤ ((startAt s.loop.epoch s.loop.period s.loop.started).toNat : Int) ∧ 2 ≤ s.dv.n ∧ s.dv.test = 1 ∧ s.fc.faultIn = true ∧ (∃ x, s.dv.partner = some x ∧ x.devstate.toNat % 16 = 4) :=
  ⟨{ loopState with
      dv := { (dvState {}).dv with test := 1, partner := some { devstate := 4, cls := 0, rung := 0, frame := 0 } }, fc := { State.reset.fc with faultIn := true } }, emptyPlan,
   { plan := sub [] 0 32, scale := sub [] 0 32, planner := Config.plannerVersion, manifest := sub [] 0 32 }, rfl, by decide, rfl, rfl, rfl, by
    unfold checkFails; rw [if_neg (fun h => h rfl), if_neg (fun h => h rfl), if_neg (fun h => h rfl), if_neg (fun h => h rfl)], rfl, by decide, by decide, rfl, rfl, _, rfl, by decide⟩
theorem witness_PartnerPulse : let s := { State.reset with dv := { State.reset.dv with test := 2 } }
    s.dv.lost = false ∧ partnerPort s = none ∧ isFollower s = false ∧ s.dv.test = 2 := by decide
theorem witness_PartnerPin : ∃ s : State, s.fc.faultIn = true ∧ 2 ≤ s.dv.n ∧ s.dv.test = 0 ∧ s.dv.twin = false ∧ s.dev.state = .realign ∧ s.dv.lost = false ∧ partnerPort s ≠ none ∧
    (∃ x, s.dv.partner = some x ∧ x.devstate.toNat % 16 ≠ 4) ∧ (∃ k, sinkOf s 3 0x200000 4 = some k) :=
  ⟨{ State.reset with
      dv := { State.reset.dv with n := 2, ports := [(1, { state := .active })], partner := some { devstate := 2, cls := 0, rung := 0, frame := 0 } }
      dev := { State.reset.dev with state := .realign }
      fc := { State.reset.fc with faultIn := true }
      plans := [{ emptyPlan with img := { emptyPlan.img with sinks := [{ id := 3, lo := 0x200000, len := 64 }] } }] },
   rfl, by decide, rfl, rfl, rfl, rfl, by decide, ⟨_, rfl, by decide⟩, ⟨{ id := 3, lo := 0x200000, len := 64 }, by decide⟩⟩

theorem witness_FaultReactions : ∃ s : State, s.dv.n < 2 ∧ s.fc.active.find? (fun e => e.is .intakeUndeclared dev) = none ∧ s.fc.active.length < 256 ∧ ltnHeld s = false ∧
    s.log.gap = none ∧ s.log.ring.length < 2048 ∧ clsOf s .intakeUndeclared dev = .c0 ∧ clsOf s .noBudget dev = .c0 ∧ clsOf s .partnerLost dev = .c2 ∧
    s.fc.recovery.inc.val.toNat ≤ s.ltn.cfg.recoveryLimit ∧ clsOf s .colChannelDiffer dev = .c3 ∧ s.dev.state = .running ∧ s.ltn.guard.written = false ∧
    canIssue ({ run := .run } : Core) = true ∧ clsOf s .ltnWatchdog dev = .c4 ∧ Source.coreMemCe.group = 2 ∧ (∃ p, pairOf { s with mir := { s.mir with pairs := [p] } } 5 = some p) :=
  ⟨loopState, by decide, by decide, by decide, by decide, by decide, by decide, by decide, by decide, by decide, by decide, by decide, by decide, by decide, by decide, by decide, by decide,
    { map := { pair := 0, lead := 5, trail := 6, cmp0 := 0, cmp1 := 0, retry := false, skew := 0, suppress := 0, deadline := 0, dRun := 0, ckpt := [] } }, by decide⟩

/-- A plan whose torch section asks for nothing. -/
def torchPlan0 : Loaded := { emptyPlan with img := { emptyPlan.img with torch := some { cores := [], pairs := [], streams := [], energy := 0 } } }
/-- SAFE_HOLD after a C3 raise, with that plan loaded. -/
def holdState : State := { loopState with
  plans := [torchPlan0]
  loop := State.reset.loop
  fc := { State.reset.fc with c3 := true }
  dev := { State.reset.dev with state := .safeHold } }
theorem witness_Torch : torchCheck holdState = .none ∧ holdState.dev.state = .safeHold ∧ holdState.fc.c3 = true ∧ holdState.fc.torch = false ∧
    torchCheck { holdState with plans := [] } ≠ .none := by decide
theorem witness_TorchFrame : ∃ s : State, s.fc.torch = true ∧ s.loop.cur = none ∧ (∃ p, curPlan s = some p) :=
  ⟨{ holdState with fc := { holdState.fc with torch := true }, loop := { holdState.loop with torchCtx := some 0 } }, rfl, rfl, torchPlan0, rfl⟩
theorem witness_TorchFrameEnd : ∃ s : State, s.fc.torch = true ∧ s.loop.cur = some { n := 0, torch := true } ∧ (∃ p, curPlan (frameEnd [] s) = some p) :=
  ⟨{ holdState with fc := { holdState.fc with torch := true }, loop := { holdState.loop with torchCtx := some 0, cur := some { n := 0, torch := true } } }, rfl, rfl, torchPlan0, by decide⟩
theorem witness_Quiet : ∃ e : Active, e.source = .partnerLost ∧ e.inst = dev ∧ e.episode = true ∧ e.raised = false :=
  ⟨{ source := .partnerLost, inst := dev, safety := false, cls := .c2, raised := false, episode := true, first := 0, latest := 0, quietFrom := 0, quiet := 0, scope := 0, frame := 0 }, rfl, rfl, rfl, rfl⟩
theorem witness_Alive : ∃ s : State, s.fc.aliveRun = true ∧ (now s - s.ltn.wdogAt).toNat ≤ 200000 :=
  ⟨{ State.reset with fc := { State.reset.fc with aliveRun := true } }, rfl, by decide⟩

theorem witness_SioSettles : pinEdge { State.reset with fc := { State.reset.fc with safeAt := some 0 } } 0 = some 0 ∧ (now State.reset - 0).toNat < 5000 ∧ pinEdge State.reset 0 = none := by decide
/-- SAFE_A low, with a condition counted. -/
def sioState (k : Nat) : State := { State.reset with
  fc := { State.reset.fc with safeA := false }
  sio := [(0, { cond := 3, count := k })] }
theorem witness_SioGood : let s := sioState 2; let p : PinSample := { pin := 0, level := false, atLimit := false, microAmp := 500 }
    pinEdge s 0 = none ∧ sampleCond s p (pinLevel s 0) = 0 ∧ (sioMode s 0).openDrain = false ∧ pinUsed s 0 = true := by decide
theorem witness_SioClears : let s := sioState 5; let p : PinSample := { pin := 0, level := false, atLimit := false, microAmp := 500 }
    pinEdge s 0 = none ∧ sampleCond s p (pinLevel s 0) = 0 ∧ 5 ≤ (getK {} s.sio 0).count ∧ condShows (sioMode s 0) (getK {} s.sio 0).cond (pinLevel s 0) = true := by decide
theorem witness_SioBad : let s := sioState 4; let p : PinSample := { pin := 0, level := true, atLimit := false, microAmp := 500 }
    pinEdge s 0 = none ∧ sampleCond s p (pinLevel s 0) = 3 ∧ (getK {} s.sio 0).cond = 3 ∧ (getK {} s.sio 0).count = 4 := by decide
theorem witness_SioAgainst : let s := State.reset; againstLoad (sioMode s 0) (pinLevel s 0) = false ∧ againstLoad (sioMode s 0) (!(pinLevel s 0)) = true ∧ (sioMode s 0).openDetect = true := by decide

/-- A good image of rollback step 1. -/
def goodSlot : SlotCheck := { wellFormed := true, signatureOk := true, rollback := 1, version := 2, digest := [] }
/-- A bad image. -/
def badSlot : SlotCheck := { goodSlot with wellFormed := false }
theorem witness_PowerOn : State.reset.dev.lockedLatch = false ∧ strapHalt 4 ≠ 0 ∧ strapHalt 0 = 0 ∧ slotCheck State.reset.ltn.otpSteps goodSlot = 0 ∧ slotCheck State.reset.ltn.otpSteps badSlot ≠ 0 := by decide
theorem witness_Boot : ∃ s : State, s.dev.state = .booting ∧ s.ltn.fw = true ∧ heldCause s = none ∧ s.fc.active = [] ∧ s.fc.c4 = false ∧ clsOf s .sioHarnessSwap dev = .c3 ∧
    (entryFor s .sioHarnessSwap).sticky = true ∧ s.dev.bootClean = true :=
  ⟨{ State.reset with ltn := { State.reset.ltn with fw := true }, dev := { State.reset.dev with bootClean := true } }, rfl, rfl, rfl, rfl, rfl, by decide, by decide, rfl⟩
theorem witness_Wake : ∃ s : State, s.dev.state = .aonOnly ∧ s.ltn.cfgValid = true ∧ slotCheck s.ltn.otpSteps (if s.ltn.fwDispatch.activeB then s.ltn.fwDispatch.slotB else s.ltn.fwDispatch.slotA) = 0 :=
  ⟨{ State.reset with dev := { State.reset.dev with state := .aonOnly }, ltn := { State.reset.ltn with cfgValid := true } }, rfl, rfl, by decide⟩
theorem witness_Flush : ∃ s : State, s.ltn.guard.writing = false ∧ ltnHeld s = false ∧ s.log.urgentFlush = true ∧ ∃ r, (unflushed s.log).getLast? = some r :=
  ⟨{ State.reset with log := { State.reset.log with urgentFlush := true, ring := [{ seq := 0, ltc := 0, kind := 1, cls := 2, code := 0, payload := [] }] } }, rfl, by decide, rfl, _, rfl⟩
theorem witness_Flush128 : ∃ s : State, s.log.urgentFlush = false ∧ ltnHeld s = false ∧ 128 ≤ (unflushed s.log).length :=
  ⟨{ State.reset with log := { State.reset.log with ring := List.replicate 128 { seq := 0, ltc := 0, kind := 1, cls := 0, code := 0, payload := [] } } }, rfl, by decide, by simp [unflushed, State.reset]⟩

theorem witness_FwStageDone : ∃ s : State, staging s = true ∧ ltnHeld s = false ∧ s.ltn.stageImg = some (.lantern, 0, 256) ∧
    stageFailure { rollback := 0, version := 1, digest := [] } s.ltn.otpSteps = none ∧ (∃ st, stageFailure { magic := false, rollback := 0, version := 1, digest := [] } s.ltn.otpSteps = some st) :=
  ⟨{ State.reset with ltn := { State.reset.ltn with stage := .verifying, stageImg := some (.lantern, 0, 256) } }, by decide, by decide, rfl, by decide, 12, by decide⟩
theorem witness_Restart : ∃ s : State, s.ltn.restart ≠ none := ⟨{ State.reset with ltn := { State.reset.ltn with restart := some 0 } }, by decide⟩
theorem witness_ConfigWrite : ∃ s : State, s.ltn.guard.writing = true ∧ ltnHeld s = false ∧ s.ltn.guard.phase = .endorsed ∧ loopRuns s = false ∧
    checkChange { s with ltn := { s.ltn with cfg := { s.ltn.cfg with seq := s.ltn.cfg.seq + 1 }, guard := { s.ltn.guard with writing := false, written := true } } } s.ltn.guard.change = none :=
  ⟨{ State.reset with ltn := { State.reset.ltn with guard := { writing := true, phase := .endorsed, change := .ceiling 40000 } } }, rfl, by decide, rfl, by decide, by decide⟩
theorem witness_ConfigWriteLoop : ∃ s : State, s.ltn.guard.writing = true ∧ ltnHeld s = false ∧ s.ltn.guard.phase = .endorsed ∧ loopRuns s = true :=
  ⟨{ loopState with ltn := { State.reset.ltn with guard := { writing := true, phase := .endorsed } } }, rfl, by decide, rfl, by decide⟩
theorem witness_Expiry : ∃ s : State, s.ltn.guard.phase = .awaiting ∧ ltnHeld s = false := ⟨{ State.reset with ltn := { State.reset.ltn with guard := { phase := .awaiting } } }, rfl, by decide⟩
/-- A LOOP_START waits for the partner. -/
def startState (twin : Bool) : State := { loopState with
  dev := { loopState.dev with state := .attached }
  loop := { State.reset.loop with starting := some (0, 0, 0) }
  mbD := { State.reset.mbD with waiting := [{ slot := 0, opcode := 0x0303, args := [0], limit := 0 }] }
  dv := { State.reset.dv with twin, n := 2, partner := some { devstate := 5, cls := 0, rung := 0, frame := 0 } } }
theorem witness_CheckTimeout : ∃ w, (startState true).loop.starting = some (0, 0, 0) ∧ (startState true).mbD.waiting.find? (fun w => w.opcode = 0x0303) = some w ∧
    (startState true).dev.state = .attached ∧ planOf (startState true) 0 = some emptyPlan ∧ (startState true).dv.lost = false ∧
    (∃ b, (startState true).dv.partner = some b ∧ b.devstate.toNat % 16 = 5) ∧ (startState false).dv.twin = false :=
  ⟨_, rfl, rfl, rfl, rfl, rfl, ⟨_, rfl, by decide⟩, rfl⟩
theorem witness_Reconcile : ∃ s : State, s.dev.dispatchUp = true ∧ s.ltn.restart = none ∧ s.ltn.missed ≠ 2 ∧ s.ltn.disagree = [] ∧ s.ltn.differ = [] ∧
    (∃ x ∈ allUnits, viewsDiffer s x = true) :=
  ⟨{ State.reset with dev := { State.reset.dev with dispatchUp := true }, ltn := { State.reset.ltn with viewDsp := [(.dvorpo 0, .unavailable)] } }, rfl, rfl, by decide, rfl, rfl,
    .dvorpo 0, by simp [allUnits], by decide⟩
theorem witness_Parked : ∃ s : State, s.ltn.parked ≠ none ∧ s.adapt.run = none := ⟨{ State.reset with ltn := { State.reset.ltn with parked := some 0 } }, by decide, rfl⟩
theorem witness_ParkedRun : ∃ (s : State) (a : AdaptRun), s.ltn.parked ≠ none ∧ s.adapt.run = some a :=
  ⟨{ State.reset with ltn := { State.reset.ltn with parked := some 0 }, adapt := { State.reset.adapt with run := some { id := 1, seed := 0, epochs := 1, scene := 0, valid := 1, event := 0 } } }, _, by decide, rfl⟩
theorem witness_Silence : ∃ s : State, s.ltn.spiLost = false ∧ s.ltn.fw = true := ⟨{ State.reset with ltn := { State.reset.ltn with fw := true } }, rfl, rfl⟩
theorem witness_Dap : ∃ s : State, s.trace.jtag = .dap ∧ s.ltn.cfg.lock.getLsbD 0 = false ∧ loopRuns s = false ∧ powered s 0x188 = true :=
  ⟨{ State.reset with trace := { State.reset.trace with jtag := .dap }, ltn := { State.reset.ltn with cfg := { State.reset.ltn.cfg with lock := 0 } }, fab := { State.reset.fab with gated := [] } }, rfl, by decide, by decide, by decide⟩

theorem witness_SpiHeld : ∃ s : State, ltnHeld s = true :=
  ⟨{ State.reset with fc := { State.reset.fc with active := [{ source := .ltnLockstep, inst := dev, safety := false, cls := .c4, raised := true, cause := true, first := 0, latest := 0, quietFrom := 0, quiet := 0, scope := 0, frame := 0 }] } }, by decide⟩
/-- Lantern firmware runs, in a state, with a proposal that awaits its endorsement. -/
def spiState (d : DevState) (p : GPhase) : State := { State.reset with
  dev := { State.reset.dev with state := d }
  ltn := { State.reset.ltn with fw := true, guard := { id := 1, phase := p, deadline := 5 } } }
theorem witness_Spi : ltnHeld (spiState .ready .awaiting) = false ∧ (spiState .bootHalt .none).dev.state = .bootHalt ∧ ltnHeld State.reset = false ∧ State.reset.ltn.fw = false ∧
    State.reset.dev.state ≠ .bootHalt ∧ (spiState .ready .awaiting).ltn.fw = true ∧ (spiState .ready .awaiting).ltn.guard.phase = .awaiting ∧
    (now (spiState .ready .awaiting)).toNat ≤ (spiState .ready .awaiting).ltn.guard.deadline.toNat ∧ (spiState .aonOnly .none).dev.state = .aonOnly := by decide
theorem witness_Endorse (x y : List Byte) (hx : x.length = 32) :
    let b := leBytes 4 1 ++ [0, 0, 0, 0] ++ leBytes 4 0 ++ List.replicate 32 0 ++ x ++ y
    fld b 0 4 = (spiState .ready .awaiting).ltn.guard.id.toNat ∧ fld b 4 1 = (spiState .ready .awaiting).ltn.guard.kind.toNat ∧ fld b 8 4 = (spiState .ready .awaiting).ltn.guard.challenge.toNat ∧
      sub b 12 32 = sub (spiState .ready .awaiting).ltn.guard.digest 0 32 ∧ sub b 44 32 = x := by
  refine ⟨rfl, rfl, rfl, rfl, ?_⟩
  show ((x ++ y).take 32) ++ List.replicate (32 - ((x ++ y).take 32).length) 0 = x
  rw [List.take_append_of_le_length (by omega), List.take_of_length_le (by omega), hx]; simp

/-- A request of `bytes` waits in slot 0 of a mailbox of the device `s`, brought into a state and session 1. -/
def askOn (s : State) (m : Mailbox) (d : DevState) (bytes : List Byte) : State :=
  setMb m { service := true, fifo := [0], req := wrN [] 0 bytes } { s with dev := { s.dev with state := d, session := 1, sessions := [1] } }
/-- The bytes of a request: its opcode, ARGLEN, CFLAGS 0, SESSION 1 and arguments. -/
def askBytes (op : Nat) (args : List Byte) : List Byte := leBytes 2 op ++ [0, 0] ++ leBytes 2 args.length ++ [0, 0, 1, 0, 0, 0, 0, 0, 0, 0] ++ args
/-- What `Asked` says of it. -/
theorem asked_askOn (s : State) (m : Mailbox) (d : DevState) (op : Nat) (bytes : List Byte) (h : (readReqOf m 0 (askOn s m d bytes)).op = op)
    (h1 : judge m (readReqOf m 0 (askOn s m d bytes)) (taken m [] (askOn s m d bytes)) = none) :
    Asked m op 0 [] (readReqOf m 0 (askOn s m d bytes)) (askOn s m d bytes) := by
  cases m <;> exact ⟨rfl, rfl, rfl, h, h1⟩
/-- Tables, one memory object of 4 MiB in DRAM, and one event. -/
def objState : State := { State.reset with
  obj := { State.reset.obj with
    ctxTab := { base := 0, count := 4 }
    objTab := { base := 0, count := 4 }
    evtTab := { base := 0, count := 4 }
    descs := [(0, { location := 1, cacheable := false, readOnly := false, page := 0, length := 4194304, base := 0, generation := 0, releaseEvent := 0xFFFF })] } }
theorem witness_Declined : ∃ s, (getMb .dispatch s).service = true ∧ (getMb .dispatch s).fifo = 0 :: [] ∧ (readReqOf .dispatch 0 s).op = 0x0102 ∧
    judge .dispatch (readReqOf .dispatch 0 s) (taken .dispatch [] s) = some (9, 0) :=
  ⟨askOn State.reset .dispatch .running (askBytes 0x0102 []), rfl, rfl, by decide, by decide⟩
theorem witness_Judge : cmdInfo 0x0102 = some (.dispatch, 0, 0) := rfl
theorem witness_Identify : ∃ s r, Asked .dispatch 0x0104 0 [] r s := ⟨_, _, asked_askOn State.reset .dispatch .attached 0x0104 (askBytes 0x0104 []) (by decide) (by decide)⟩
theorem witness_TornRead : ∃ s r, Asked .dispatch 0x0103 0 [] r s ∧ r.arg 0 2 = 3 := ⟨_, _, asked_askOn State.reset .dispatch .attached 0x0103 (askBytes 0x0103 [3, 0]) (by decide) (by decide), by decide⟩
theorem witness_TornReadBad : ∃ s r, Asked .dispatch 0x0103 0 [] r s ∧ 7 < r.arg 0 2 := ⟨_, _, asked_askOn State.reset .dispatch .attached 0x0103 (askBytes 0x0103 [8, 0]) (by decide) (by decide), by decide⟩
theorem witness_ObjQuery : ∃ s r, Asked .dispatch 0x0201 0 [] r s ∧ r.arg 0 4 < s.obj.objTab.count :=
  ⟨_, _, asked_askOn objState .dispatch .attached 0x0201 (askBytes 0x0201 [3, 0, 0, 0]) (by decide) (by decide), by decide⟩
theorem witness_ObjQueryBad : ∃ s r, Asked .dispatch 0x0201 0 [] r s ∧ s.obj.objTab.count ≤ r.arg 0 4 :=
  ⟨_, _, asked_askOn objState .dispatch .attached 0x0201 (askBytes 0x0201 [4, 0, 0, 0]) (by decide) (by decide), by decide⟩
theorem witness_Invalidate : ∃ s r, Asked .dispatch 0x0202 0 [] r s ∧ r.arg 0 1 ≤ 4 ∧ zeros r.args 1 3 = true ∧ r.arg 4 4 < scopeCount s (r.arg 0 1) ∧ tornObj s (r.arg 4 4) = false ∧ loopRuns s = false :=
  ⟨_, _, asked_askOn objState .dispatch .attached 0x0202 (askBytes 0x0202 [0, 0, 0, 0, 1, 0, 0, 0, 0xFF, 0xFF, 0xFF, 0xFF, 0xFF, 0xFF]) (by decide) (by decide), by decide, by decide, by decide, by decide, by decide⟩
theorem witness_InvalidateLoop : ∃ s r, Asked .dispatch 0x0202 0 [] r s ∧ r.arg 0 1 = 4 ∧ loopRuns s = true ∧ 0 < (BitVec.ofNat 32 (r.arg 8 4) - loopFrame s).toNat ∧
    (BitVec.ofNat 32 (r.arg 8 4) - loopFrame s).toNat ≤ 120 :=
  ⟨_, _, asked_askOn loopState .dispatch .running 0x0202 (askBytes 0x0202 [4, 0, 0, 0, 0, 0, 0, 0, 119, 0, 0, 0, 0xFF, 0xFF]) (by decide) (by decide), by decide, by decide, by decide, by decide⟩
theorem witness_EvtQuery : ∃ s r, Asked .dispatch 0x0203 0 [] r s ∧ evtValid s (r.arg 0 2) = true ∧ s.obj.evts.find? (fun e => e.id = r.arg 0 2) = none :=
  ⟨_, _, asked_askOn objState .dispatch .attached 0x0203 (askBytes 0x0203 [3, 0]) (by decide) (by decide), by decide, by decide⟩
theorem witness_InboundBind : ∃ s r d, Asked .dispatch 0x0210 0 [] r s ∧ r.arg 0 1 ≤ 15 ∧ (getInb s (r.arg 0 1)).bound = false ∧ 1 ≤ r.arg 1 1 ∧ r.arg 1 1 ≤ 4 ∧ r.arg 2 2 = 0 ∧ r.arg 4 4 ≠ 0 ∧
    r.arg 1 1 * r.arg 4 4 ≤ 16383 ∧ r.arg 8 4 < s.obj.objTab.count ∧ tornObj s (r.arg 8 4) = false ∧ r.arg 14 1 = 255 ∧ r.arg 15 1 ≤ 1 ∧
    descOf s [] (BitVec.ofNat 18 (r.arg 8 4)) = some d ∧ d.location ≠ 0 ∧ r.arg 1 1 * r.arg 4 4 * 4096 ≤ d.length ∧ wfK ({} : InbWin) s.host.inb = true :=
  ⟨_, _, _, asked_askOn objState .dispatch .attached 0x0210 (askBytes 0x0210 [15, 4, 0, 0, 1, 0, 0, 0, 0, 0, 0, 0, 0xFF, 0xFF, 255, 0, 0, 0]) (by decide) (by decide), by decide, by decide, by decide, by decide,
    by decide, by decide, by decide, by decide, by decide, by decide, by decide, rfl, by decide, by decide, by decide⟩
theorem witness_InboundUnbind : ∃ s r, Asked .dispatch 0x0211 0 [] r s ∧ r.arg 0 1 ≤ 15 ∧ (getInb s (r.arg 0 1)).bound = true ∧ loopRuns s = false :=
  ⟨_, _, asked_askOn (setInb 2 { bound := true } State.reset) .dispatch .attached 0x0211 (askBytes 0x0211 [2]) (by decide) (by decide), by decide, by decide, by decide⟩
/-- ATTACH's arguments: version 1, empty tables, and a manifest handle. -/
def attachArgs (h : Nat) : List Byte := [1, 0, 0, 0, 0, 0, 0, 0] ++ List.replicate 32 0 ++ [1, 0, 0, 0] ++ List.replicate 12 0 ++ leBytes 4 h
theorem witness_Attach : ∃ s r, Asked .dispatch 0x0101 0 [] r s ∧ s.trace.jtag ≠ .extest ∧ s.trace.jtag ≠ .clamp ∧ s.trace.jtag ≠ .highz ∧ r.arg 0 2 = 1 ∧ zeros r.args 4 4 = true ∧ badTable r = none ∧
    r.flag 0 = false ∧ r.arg 56 4 = 0xFFFFFFFF :=
  ⟨_, _, asked_askOn State.reset .dispatch .ready 0x0101 (askBytes 0x0101 (attachArgs 0xFFFFFFFF)) (by decide) (by decide), by decide, by decide, by decide, by decide, by decide, by decide, by decide, by decide⟩
theorem witness_AttachManifest : ∃ s r, Asked .dispatch 0x0101 0 [] r s ∧ r.arg 0 2 = 1 ∧ zeros r.args 4 4 = true ∧ badTable r = none ∧
    r.flag 0 = false ∧ r.arg 56 4 ≠ 0xFFFFFFFF ∧ r.arg 56 4 < r.arg 40 4 ∧ tornObj s (r.arg 56 4) = false :=
  ⟨_, _, asked_askOn State.reset .dispatch .ready 0x0101 (askBytes 0x0101 (attachArgs 0)) (by decide) (by decide), by decide, by decide, by decide, by decide, by decide, by decide, by decide⟩
theorem witness_Detach : ∃ s r, Asked .dispatch 0x0102 0 [] r s ∧ wfK ({} : InbWin) s.host.inb = true := ⟨_, _, asked_askOn loopState .dispatch .attached 0x0102 (askBytes 0x0102 []) (by decide) (by decide), by decide⟩

theorem witness_PlanLoadFails : ∃ s r c d e, Asked .dispatch 0x0301 0 [] r s ∧ r.arg 0 2 < s.obj.ctxTab.count ∧ planOf s (r.arg 0 2) = none ∧ r.arg 2 2 = 0 ∧ r.arg 4 4 = 0xFFFFFFFF ∧
    parseCtx (r.arg 0 2) ([1, 0, 0, 0, 0, 0, 0, 0, 0xFF, 0xFF, 0xFF, 0xFF, 0xFF, 0xFF, 0xFF, 0xFF] ++ List.replicate 48 0) = some c ∧ descOf s [] c.plan = some d ∧
    planChecks (taken .dispatch [] s) (r.arg 0 2) d.length emptyPlan.img [] = some e :=
  ⟨_, _, _, _, _, asked_askOn objState .dispatch .attached 0x0301 (askBytes 0x0301 [0, 0, 0, 0, 0xFF, 0xFF, 0xFF, 0xFF]) (by decide) (by decide), by decide, by decide, by decide, by decide, rfl, rfl, rfl⟩
theorem witness_PlanUnload : ∃ s r l, Asked .dispatch 0x0302 0 [] r s ∧ planOf s (r.arg 0 2) = some l :=
  ⟨_, _, emptyPlan, asked_askOn { loopState with loop := State.reset.loop } .dispatch .attached 0x0302 (askBytes 0x0302 [0, 0]) (by decide) (by decide), rfl⟩
theorem witness_LoopStart : ∃ s r p, Asked .dispatch 0x0303 0 [] r s ∧ r.arg 2 2 = 0 ∧ 1000 ≤ r.arg 4 4 ∧ r.arg 4 4 ≤ 1000000 ∧ planOf s (r.arg 0 2) = some p ∧ s.loop.starting = none ∧ s.dv.n < 2 :=
  ⟨_, _, emptyPlan, asked_askOn { loopState with loop := State.reset.loop } .dispatch .attached 0x0303 (askBytes 0x0303 [0, 0, 0, 0, 0xE8, 3, 0, 0]) (by decide) (by decide), by decide, by decide, by decide, rfl, rfl, by decide⟩
theorem witness_LoopStartTwin : ∃ s r p, Asked .dispatch 0x0303 0 [] r s ∧ r.arg 2 2 = 0 ∧ r.arg 4 4 = 1000 ∧ planOf s (r.arg 0 2) = some p ∧ s.loop.starting = none ∧ s.dev.state = .attached ∧ 2 ≤ s.dv.n ∧ s.dv.twin = true ∧ s.dv.check = none :=
  ⟨_, _, emptyPlan, asked_askOn { loopState with loop := State.reset.loop, dv := { loopState.dv with n := 2, twin := true } } .dispatch .attached 0x0303 (askBytes 0x0303 [0, 0, 0, 0, 0xE8, 3, 0, 0]) (by decide) (by decide),
    by decide, by decide, rfl, rfl, rfl, by decide, rfl, rfl⟩
theorem witness_LoopStop : ∃ s r, Asked .dispatch 0x0304 0 [] r s ∧ r.arg 0 4 = 0xFFFFFFFF ∧ torchOn s = false ∧ s.loop.cur = none :=
  ⟨_, _, asked_askOn loopState .dispatch .running 0x0304 (askBytes 0x0304 [0xFF, 0xFF, 0xFF, 0xFF]) (by decide) (by decide), by decide, by decide, rfl⟩
theorem witness_LoopStopLater : ∃ s r, Asked .dispatch 0x0304 0 [] r s ∧ torchOn s = false ∧ (BitVec.ofNat 32 (r.arg 0 4) - 0xFFFFFFFF).toNat < 2 ^ 31 ∧ s.loop.started = 0 ∧ r.arg 0 4 = 7 :=
  ⟨_, _, asked_askOn loopState .dispatch .running 0x0304 (askBytes 0x0304 [7, 0, 0, 0]) (by decide) (by decide), by decide, by decide, rfl, by decide⟩
theorem witness_LoopStopTorch : ∃ s r, Asked .dispatch 0x0304 0 [] r s ∧ torchOn s = true ∧ s.ltn.guard.written = false :=
  ⟨_, _, asked_askOn holdState .dispatch .degraded 0x0304 (askBytes 0x0304 [0xFF, 0xFF, 0xFF, 0xFF]) (by decide) (by decide), by decide, rfl⟩
/-- A recalibration plan for a plan, and a fresh report of parked charging. -/
def parkState : State := { loopState with
  plans := [{ emptyPlan with ctx := 1, flags := 0x10, recalFor := List.replicate 32 0 }, emptyPlan]
  loop := State.reset.loop
  ltn := { State.reset.ltn with parked := some 0 }
  energy := { State.reset.energy with coolInvalid := false } }
theorem witness_AdaptEnter : ∃ s r c p, Asked .dispatch 0x0305 0 [] r s ∧ planOf s (r.arg 0 2) = some c ∧ planOf s (r.arg 2 2) = some p ∧ c.flags.getLsbD 4 = true ∧ c.recalFor = sub p.digest 0 32 ∧
    parkedFresh s = true ∧ s.energy.coolInvalid = false :=
  ⟨_, _, _, _, asked_askOn parkState .dispatch .attached 0x0305 (askBytes 0x0305 [1, 0, 0, 0]) (by decide) (by decide), rfl, rfl, by decide, by decide, by decide, rfl⟩
/-- Two record sets are open. -/
def setsState : State := { State.reset with intake := { State.reset.intake with sets := [(0, [{ frames := 4, indexed := true }]), (1, [{ frames := 2, indexed := true }])] } }
theorem witness_AdaptRun : ∃ s r, Asked .dispatch 0x0306 0 [] r s ∧ r.arg 0 1 ≤ 3 ∧ r.arg 1 1 ≤ 3 ∧ r.arg 1 1 ≠ r.arg 0 1 ∧ getK [] s.intake.sets (r.arg 0 1) ≠ [] ∧ getK [] s.intake.sets (r.arg 1 1) ≠ [] ∧
    0 < setFrames s (r.arg 0 1) ∧ setFrames s (r.arg 0 1) < 2 ^ 32 ∧ 1 ≤ r.arg 12 1 ∧ r.arg 12 1 ≤ 64 ∧ s.adapt.run = none :=
  ⟨_, _, asked_askOn setsState .dispatch .adapting 0x0306 (askBytes 0x0306 ([0, 1, 0xFF, 0xFF] ++ List.replicate 8 0 ++ [64])) (by decide) (by decide), by decide, by decide, by decide, by decide, by decide, by decide, by decide, by decide, by decide, rfl⟩
theorem witness_AdaptResult : ∃ s r x, Asked .dispatch 0x0307 0 [] r s ∧ s.adapt.run = none ∧ s.adapt.recs.find? (fun x => x.id.toNat = r.arg 0 4) = some x :=
  ⟨_, _, _, asked_askOn { State.reset with adapt := { State.reset.adapt with recs := [{ id := 1, verdict := 1 }] } } .dispatch .attached 0x0307 (askBytes 0x0307 [1, 0, 0, 0]) (by decide) (by decide), rfl, rfl⟩
theorem witness_AdaptExit : ∃ s r, Asked .dispatch 0x0308 0 [] r s := ⟨_, _, asked_askOn State.reset .dispatch .adapting 0x0308 (askBytes 0x0308 []) (by decide) (by decide)⟩
theorem witness_ClipRead : ∃ s r, Asked .dispatch 0x0309 0 [] r s ∧ isLogical (r.arg 0 2) = true ∧ r.arg 2 2 ≤ 511 ∧ 1 ≤ r.arg 4 1 ∧ r.arg 4 1 ≤ 28 ∧ r.arg 2 2 + r.arg 4 1 ≤ 512 ∧ r.flag 1 = false ∧ loopRuns s = false :=
  ⟨_, _, asked_askOn State.reset .dispatch .attached 0x0309 (askBytes 0x0309 [0, 0, 0xFF, 1, 1]) (by decide) (by decide), by decide, by decide, by decide, by decide, by decide, by decide, by decide⟩
theorem witness_MemStatus : ∃ s r, Asked .dispatch 0x030A 0 [] r s ∧ r.flag 0 = false := ⟨_, _, asked_askOn State.reset .dispatch .attached 0x030A (askBytes 0x030A []) (by decide) (by decide), by decide⟩
theorem witness_CoreStatus : ∃ s r, Asked .dispatch 0x030B 0 [] r s ∧ isLogical (r.arg 0 2) = true := ⟨_, _, asked_askOn State.reset .dispatch .attached 0x030B (askBytes 0x030B [0, 0]) (by decide) (by decide), by decide⟩

theorem witness_StreamStatus : ∃ s r x, Asked .dispatch 0x0401 0 [] r s ∧ getStream s (r.arg 0 1) = some x ∧ x.decl.id = r.arg 0 1 ∧ wfK none s.intake.streams = true :=
  ⟨_, _, _, asked_askOn camState .dispatch .attached 0x0401 (askBytes 0x0401 [1]) (by decide) (by decide), rfl, by decide, by decide⟩
theorem witness_RecordOpen : ∃ s r, Asked .dispatch 0x0402 0 [] r s ∧ r.arg 0 1 ≤ 3 ∧ zeros r.args 1 3 = true ∧ r.arg 4 4 ≠ 0xFFFFFFFF ∧ r.arg 4 4 < s.obj.objTab.count ∧ tornObj s (r.arg 4 4) = false ∧ 64 ≤ r.arg 16 8 ∧
    (getK [] s.intake.sets (r.arg 0 1)).length < 64 :=
  ⟨_, _, asked_askOn objState .dispatch .adapting 0x0402 (askBytes 0x0402 ([3, 0, 0, 0, 3, 0, 0, 0] ++ List.replicate 8 0 ++ [64, 0, 0, 0, 0, 0, 0, 0])) (by decide) (by decide),
    by decide, by decide, by decide, by decide, by decide, by decide, by decide⟩
/-- An MSR header whose CRC is right. -/
def msrHead : List Byte := [0x4D, 0x53, 0x52, 0x31, 1, 0, 0, 0, 64] ++ List.replicate 51 0
theorem witness_MsrHeader : msrHeaderOk (msrHead ++ leBytes 4 (crc32c msrHead).toNat) = true ∧ (crc32c ((msrHead ++ leBytes 4 (crc32c msrHead).toNat).take 60)).toNat = fld (msrHead ++ leBytes 4 (crc32c msrHead).toNat) 60 4 := by
  have g : ∀ c : W32, msrHeaderOk (msrHead ++ leBytes 4 c.toNat) = true ∧ fld (msrHead ++ leBytes 4 c.toNat) 60 4 = c.toNat := by
    intro c
    refine ⟨by simp [msrHeaderOk, msrHead, leBytes, fld, leVal], ?_⟩
    show leVal ((leBytes 4 c.toNat).take 4) = _
    rw [List.take_of_length_le (by simp [length_leBytes]), leVal_leBytes]
    omega
  exact ⟨(g _).1, (g (crc32c msrHead)).2.symm⟩
theorem witness_RecordClose : ∃ s r, Asked .dispatch 0x0403 0 [] r s ∧ r.arg 0 1 ≤ 3 ∧ getK [] s.intake.sets (r.arg 0 1) ≠ [] ∧ s.adapt.run = none :=
  ⟨_, _, asked_askOn setsState .dispatch .adapting 0x0403 (askBytes 0x0403 [1]) (by decide) (by decide), by decide, by decide, rfl⟩
theorem witness_IntakeCounters : ∃ s r, Asked .dispatch 0x0404 0 [] r s ∧ r.flag 0 = false := ⟨_, _, asked_askOn State.reset .dispatch .attached 0x0404 (askBytes 0x0404 []) (by decide) (by decide), by decide⟩
theorem witness_SplitStatus : ∃ s r, Asked .dispatch 0x0405 0 [] r s := ⟨_, _, asked_askOn State.reset .dispatch .attached 0x0405 (askBytes 0x0405 []) (by decide) (by decide)⟩
theorem witness_PrismStatus : ∃ s r, Asked .dispatch 0x0406 0 [] r s := ⟨_, _, asked_askOn State.reset .dispatch .attached 0x0406 (askBytes 0x0406 []) (by decide) (by decide)⟩
theorem witness_TimeStatus : ∃ s r, Asked .lantern 0x0501 0 [] r s ∧ r.flag 0 = false := ⟨_, _, asked_askOn State.reset .lantern .attached 0x0501 (askBytes 0x0501 []) (by decide) (by decide), by decide⟩
theorem witness_TimeStep : ∃ s r, Asked .lantern 0x0502 0 [] r s ∧ r.arg 0 1 = 1 ∧ zeros r.args 1 7 = true ∧ s.mbL.waiting.any (fun w => w.opcode = 0x0502) = false ∧ zeros r.args 14 2 = true ∧
    r.arg 16 4 < 1000000000 ∧ (now s).toNat + 100000 ≤ r.arg 24 8 ∧ r.arg 24 8 ≤ (now s).toNat + 1000000000 :=
  ⟨_, _, asked_askOn State.reset .lantern .attached 0x0502 (askBytes 0x0502 ([1] ++ List.replicate 23 0 ++ leBytes 8 1000000)) (by decide) (by decide), by decide, by decide, by decide, by decide, by decide, by decide, by decide⟩
theorem witness_TimeStepSync : ∃ s r, Asked .lantern 0x0502 0 [] r s ∧ r.arg 0 1 = 0 ∧ zeros r.args 1 7 = true ∧ masterQualified s = false :=
  ⟨_, _, asked_askOn State.reset .lantern .attached 0x0502 (askBytes 0x0502 (List.replicate 32 0)) (by decide) (by decide), by decide, by decide, by decide⟩
theorem witness_TimeConfig : ∃ s r, Asked .lantern 0x0503 0 [] r s ∧ 50 ≤ r.arg 0 2 ∧ r.arg 0 2 ≤ 500 ∧ r.arg 2 1 ≤ 15 ∧ r.arg 3 1 = 0 ∧ wfK ({} : PtpPort) s.time.ports = true :=
  ⟨_, _, asked_askOn State.reset .lantern .attached 0x0503 (askBytes 0x0503 ([50, 0, 15, 0] ++ List.replicate 16 7)) (by decide) (by decide), by decide, by decide, by decide, by decide, by decide⟩
theorem witness_TrigSet : ∃ s r, Asked .lantern 0x0504 0 [] r s ∧ r.arg 0 1 ≤ 11 ∧ (getTrig s (r.arg 0 1)).declared = true ∧ (getTrig s (r.arg 0 1)).heldInactive = false ∧ r.arg 1 1 ≤ 1 ∧ r.arg 2 2 = 0 ∧ r.arg 10 2 = 0 ∧
    r.arg 12 4 < 1000000000 ∧ 1000000 * 2 ^ 32 ≤ r.arg 16 8 ∧ r.arg 16 8 ≤ 2000000000 * 2 ^ 32 ∧ 1000 ≤ r.arg 24 4 ∧ 2 * r.arg 24 4 * 2 ^ 32 ≤ r.arg 16 8 ∧ r.arg 24 4 % 2 = 0 :=
  ⟨_, _, asked_askOn (setTrig 3 { declared := true } State.reset) .lantern .attached 0x0504 (askBytes 0x0504 ([3, 1] ++ List.replicate 14 0 ++ leBytes 8 (1000000 * 2 ^ 32) ++ leBytes 4 1000)) (by decide) (by decide),
    by decide, by decide, by decide, by decide, by decide, by decide, by decide, by decide, by decide, by decide, by decide, by decide⟩
theorem witness_TrigStop : ∃ s r q, Asked .lantern 0x0505 0 [] r s ∧ r.arg 0 1 ≤ 11 ∧ (getTrig s (r.arg 0 1)).series = some q :=
  ⟨_, _, _, asked_askOn (setTrig 3 { declared := true, series := some { start := 0, period := 0, width := 0, activeLow := false, next := 0 } } State.reset) .lantern .attached 0x0505 (askBytes 0x0505 [3]) (by decide) (by decide),
    by decide, rfl⟩
theorem witness_EnergyBudget : ∃ s r, Asked .dispatch 0x0601 0 [] r s ∧ 1 ≤ r.arg 0 4 ∧ r.arg 0 4 ≤ 1200 ∧ r.arg 4 4 = 0 ∧ r.arg 8 8 = 0 :=
  ⟨_, _, asked_askOn loopState .dispatch .running 0x0601 (askBytes 0x0601 ([0xB0, 4] ++ List.replicate 14 0)) (by decide) (by decide), by decide, by decide, by decide, by decide⟩
theorem witness_EnergyLoop : ∃ s r, Asked .dispatch 0x0602 0 [] r s := ⟨_, _, asked_askOn State.reset .dispatch .attached 0x0602 (askBytes 0x0602 [1, 0, 0, 0]) (by decide) (by decide)⟩
theorem witness_EnergyStatus : ∃ s r, Asked .dispatch 0x0603 0 [] r s ∧ loopRuns s = false := ⟨_, _, asked_askOn State.reset .dispatch .attached 0x0603 (askBytes 0x0603 []) (by decide) (by decide), by decide⟩
theorem witness_EnergyStatusLoop : ∃ s r, Asked .dispatch 0x0603 0 [] r s ∧ loopRuns s = true := ⟨_, _, asked_askOn loopState .dispatch .running 0x0603 (askBytes 0x0603 []) (by decide) (by decide), by decide⟩
set_option maxRecDepth 8000 in
theorem witness_EnergyThresh : ∃ s r, Asked .dispatch 0x0604 0 [] r s ∧ (∀ n < 5, r.arg (2 * n) 2 = 0xFFFF ∨ evtValid s (r.arg (2 * n) 2) = true) ∧ zeros r.args 11 5 = true :=
  ⟨_, _, asked_askOn objState .dispatch .attached 0x0604 (askBytes 0x0604 ([3, 0, 0xFF, 0xFF, 0xFF, 0xFF, 0xFF, 0xFF, 0xFF, 0xFF] ++ List.replicate 134 0)) (by decide) (by decide), by decide, by decide⟩
set_option maxRecDepth 8000 in
theorem witness_EnergyThreshBad : ∃ s r, Asked .dispatch 0x0604 0 [] r s ∧ (∃ n < 5, r.arg (2 * n) 2 ≠ 0xFFFF ∧ evtValid s (r.arg (2 * n) 2) = false) :=
  ⟨_, _, asked_askOn objState .dispatch .attached 0x0604 (askBytes 0x0604 ([3, 0, 4, 0, 0xFF, 0xFF, 0xFF, 0xFF, 0xFF, 0xFF] ++ List.replicate 134 0)) (by decide) (by decide), by decide⟩

/-- No proposal is held, and the safety MCU has been heard. -/
def quietGuard : State := { objState with ltn := { State.reset.ltn with spiLast := some 0, guard := { phase := .none } } }
theorem witness_NewProposal : checkChange State.reset (.ceiling 40000) = none ∧ (∃ x, checkChange State.reset (.ceiling 68001) = some x) ∧ proposeBlocked quietGuard = none := ⟨by decide, ⟨_, rfl⟩, by decide⟩
set_option maxRecDepth 8000 in
theorem witness_ProposeScale : ∃ s r, Asked .lantern 0x0701 0 [] r s ∧ proposeBlocked s = none ∧ zeros r.args 1 3 = true ∧ r.arg 0 1 = 3 :=
  ⟨_, _, asked_askOn quietGuard .lantern .attached 0x0701 (askBytes 0x0701 ([3] ++ List.replicate 79 0)) (by decide) (by decide), by decide, by decide, by decide⟩
set_option maxRecDepth 8000 in
theorem witness_ProposeObject : ∃ s r, Asked .lantern 0x0701 0 [] r s ∧ proposeBlocked s = none ∧ zeros r.args 1 3 = true ∧ r.arg 0 1 = 1 ∧ r.arg 4 4 < s.obj.objTab.count ∧ tornObj s (r.arg 4 4) = false ∧ zeros r.args 48 32 = true :=
  ⟨_, _, asked_askOn quietGuard .lantern .attached 0x0701 (askBytes 0x0701 ([1] ++ List.replicate 79 0)) (by decide) (by decide), by decide, by decide, by decide, by decide, by decide, by decide⟩
set_option maxRecDepth 8000 in
theorem witness_ProposeBlocked : ∃ s r x, Asked .lantern 0x0701 0 [] r s ∧ proposeBlocked s = some x :=
  ⟨_, _, _, asked_askOn State.reset .lantern .attached 0x0701 (askBytes 0x0701 ([3] ++ List.replicate 79 0)) (by decide) (by decide), rfl⟩
theorem witness_SpareSubstitute : ∃ s r, Asked .lantern 0x0706 0 [] r s ∧ proposeBlocked s = none ∧ r.arg 0 1 ≤ 3 ∧ r.arg 1 1 ≤ 6 ∧ r.arg 2 1 ≤ 5 ∧ r.arg 3 1 ≤ 1 ∧ r.arg 4 1 ≤ 1 ∧ zeros r.args 5 11 = true :=
  ⟨_, _, asked_askOn quietGuard .lantern .attached 0x0706 (askBytes 0x0706 ([3, 6, 5, 1, 1] ++ List.replicate 11 0)) (by decide) (by decide), by decide, by decide, by decide, by decide, by decide, by decide, by decide⟩
theorem witness_RetireClear : ∃ s r, Asked .lantern 0x0707 0 [] r s ∧ proposeBlocked s = none ∧ zeros r.args 1 15 = true :=
  ⟨_, _, asked_askOn quietGuard .lantern .attached 0x0707 (askBytes 0x0707 (List.replicate 16 0)) (by decide) (by decide), by decide, by decide⟩
theorem witness_Veto : ∃ s r, Asked .lantern 0x0702 0 [] r s ∧ BitVec.ofNat 32 (r.arg 0 4) = s.ltn.guard.id ∧ s.ltn.guard.id ≠ 0 ∧ s.ltn.guard.phase = .awaiting :=
  ⟨_, _, asked_askOn { State.reset with ltn := { State.reset.ltn with guard := { id := 1, phase := .awaiting } } } .lantern .attached 0x0702 (askBytes 0x0702 [1, 0, 0, 0]) (by decide) (by decide), by decide, by decide, rfl⟩
theorem witness_GuardStatus : ∃ s r, Asked .lantern 0x0703 0 [] r s := ⟨_, _, asked_askOn State.reset .lantern .attached 0x0703 (askBytes 0x0703 []) (by decide) (by decide)⟩
theorem witness_Recover : ∃ s r, Asked .lantern 0x0704 0 [] r s ∧ heldCause s = none := ⟨_, _, asked_askOn holdState .lantern .safeHold 0x0704 (askBytes 0x0704 []) (by decide) (by decide), by decide⟩
theorem witness_RecoverHeld : ∃ s r e, Asked .lantern 0x0704 0 [] r s ∧ heldCause s = some e :=
  ⟨_, _, _, asked_askOn { holdState with fc := { holdState.fc with active := [{ source := .partnerLost, inst := dev, safety := false, cls := .c3, raised := true, cause := true, first := 0, latest := 0, quietFrom := 0, quiet := 0, scope := 0, frame := 0 }] } } .lantern .safeHold
    0x0704 (askBytes 0x0704 []) (by decide) (by decide), rfl⟩
theorem witness_FaultRead : ∃ s r, Asked .lantern 0x0705 0 [] r s ∧ 1 ≤ r.arg 2 1 ∧ r.arg 2 1 ≤ 6 := ⟨_, _, asked_askOn State.reset .lantern .attached 0x0705 (askBytes 0x0705 [0, 0, 6]) (by decide) (by decide), by decide, by decide⟩
theorem witness_FwStage (h : 256 ≤ Config.dramPerChannel / 8 * 7) : ∃ s r, Asked .lantern 0x0801 0 [] r s ∧ r.arg 0 1 ≤ 1 ∧ zeros r.args 1 3 = true ∧ r.arg 4 8 + r.arg 12 4 ≤ dramU s ∧ 256 ≤ r.arg 12 4 ∧ r.arg 12 4 ≤ 393216 ∧
    staging s = false := by
  refine ⟨_, _, asked_askOn State.reset .lantern .attached 0x0801 (askBytes 0x0801 ([1] ++ List.replicate 12 0 ++ [1, 0, 0])) (by decide) (by decide), by decide, by decide, ?_, by decide, by decide, by decide⟩
  show 256 ≤ 4 * chanUsable
  unfold chanUsable; omega
theorem witness_FwActivate : ∃ s r, Asked .lantern 0x0802 0 [] r s ∧ r.arg 0 1 = 0 ∧ s.ltn.fwDispatch.staged = true :=
  ⟨_, _, asked_askOn { State.reset with ltn := { State.reset.ltn with fwDispatch := { staged := true } } } .lantern .ready 0x0802 (askBytes 0x0802 [0]) (by decide) (by decide), by decide, rfl⟩
theorem witness_FwStatus : ∃ s r, Asked .lantern 0x0803 0 [] r s ∧ staging s = false := ⟨_, _, asked_askOn State.reset .lantern .ready 0x0803 (askBytes 0x0803 []) (by decide) (by decide), by decide⟩
theorem witness_BootMeasure : ∃ s r, Asked .lantern 0x0804 0 [] r s := ⟨_, _, asked_askOn State.reset .lantern .ready 0x0804 (askBytes 0x0804 [0]) (by decide) (by decide)⟩
theorem witness_TraceConfig : ∃ s r, Asked .dispatch 0x0901 0 [] r s ∧ s.trace.running = false ∧ r.arg 20 1 < 64 ∧ zeros r.args 22 2 = true ∧ r.arg 21 1 = 0 :=
  ⟨_, _, asked_askOn State.reset .dispatch .attached 0x0901 (askBytes 0x0901 (List.replicate 20 0xFF ++ [63] ++ List.replicate 15 0)) (by decide) (by decide), by decide, by decide, by decide, by decide⟩
theorem witness_TraceStart : ∃ s r, Asked .dispatch 0x0902 0 [] r s ∧ s.trace.aon = none := ⟨_, _, asked_askOn State.reset .dispatch .attached 0x0902 (askBytes 0x0902 []) (by decide) (by decide), rfl⟩
theorem witness_TraceStop : ∃ s r, Asked .dispatch 0x0903 0 [] r s := ⟨_, _, asked_askOn State.reset .dispatch .attached 0x0903 (askBytes 0x0903 []) (by decide) (by decide)⟩
theorem witness_TraceStatus : ∃ s r, Asked .dispatch 0x0904 0 [] r s := ⟨_, _, asked_askOn State.reset .dispatch .attached 0x0904 (askBytes 0x0904 []) (by decide) (by decide)⟩
end

section
/-! PROOF. The statements of chapter 0 on the model's plainest parts: the STICK counter (R8), the byte memory (R3) and a write to
BAR0 (R4, R5, R563, R570). -/

open Sys2Proof Sys2Proof.Machine
namespace Sys2Proof.Laws

/-! The STICK counter. -/

/-- A STICK counter is its count as a number together with its flag. -/
theorem stick_ext {w : Nat} {a b : Stick w} (hval : a.val.toNat = b.val.toNat) (hsat : a.sat = b.sat) : a = b := by
  obtain ⟨va, sa⟩ := a
  obtain ⟨vb, sb⟩ := b
  exact congrArg₂ Stick.mk (BitVec.eq_of_toNat_eq hval) hsat

theorem stick_repeat_inc {w : Nat} (c : Stick w) (n : Nat) :
    (Nat.repeat Stick.inc n c).val.toNat = min (c.val.toNat + n) (2 ^ w - 1) ∧
    (Nat.repeat Stick.inc n c).sat = (c.sat || decide (2 ^ w ≤ c.val.toNat + n)) := by
  have hlt := c.val.isLt
  induction n with
  | zero =>
    have hfits : ¬ 2 ^ w ≤ c.val.toNat := by omega
    exact ⟨(min_eq_left (by omega)).symm, by simp [Nat.repeat, hfits]⟩
  | succ n ih =>
    obtain ⟨hval, hsat⟩ := ih
    obtain ⟨hincVal, hincSat⟩ := stick_inc w (Nat.repeat Stick.inc n c)
    rw [hval] at hincVal hincSat
    rw [hsat] at hincSat
    refine ⟨hincVal.trans (by omega), hincSat.trans ?_⟩
    rw [Bool.or_assoc, ← Bool.decide_or]
    have hlost : (2 ^ w ≤ c.val.toNat + n ∨ 2 ^ w ≤ min (c.val.toNat + n) (2 ^ w - 1) + 1) ↔ 2 ^ w ≤ c.val.toNat + (n + 1) := by omega
    simp only [hlost]

theorem stick_add {w : Nat} (c : Stick w) (n : Nat) :
    (c.add n).val.toNat = min (c.val.toNat + n) (2 ^ w - 1) ∧
    (c.add n).sat = (c.sat || decide (2 ^ w ≤ c.val.toNat + n)) := by
  unfold Stick.add
  split
  next hfits =>
    refine ⟨?_, by simp [hfits]⟩
    rw [BitVec.toNat_ofNat, Nat.mod_eq_of_lt hfits]
    omega
  next hover =>
    have hpast : 2 ^ w ≤ c.val.toNat + n := by omega
    refine ⟨?_, by simp [hpast]⟩
    rw [BitVec.toNat_allOnes]
    omega

/-- Settles O8: counting one event at a time and counting all of them at once give the same count and the same flag. -/
theorem stickHolds : Obligations.StickHolds := by
  intro w c n
  obtain ⟨hval, hsat⟩ := stick_repeat_inc c n
  obtain ⟨haddVal, haddSat⟩ := stick_add c n
  exact ⟨hval, hsat, stick_ext (haddVal.trans hval.symm) (haddSat.trans hsat.symm)⟩

/-! The byte memory. -/

@[simp] theorem length_rdN (m : Mem) (a n : Nat) : (rdN m a n).length = n := by simp [rdN]

/-- Bytes read where they were written are the bytes written. -/
theorem rdN_wrN_same {m : Mem} (h : Memory.wf m = true) (a : Nat) (bs : List Byte) : rdN (wrN m a bs) a bs.length = bs := by
  refine List.ext_getElem (length_rdN ..) fun i _ hi => ?_
  have hin : a ≤ a + i ∧ a + i < a + bs.length := by omega
  calc (rdN (wrN m a bs) a bs.length)[i]
      = rd (wrN m a bs) (a + i) := by simp [rdN]
    _ = bs.getD (a + i - a) 0 := by rw [rd_wrN m h, if_pos hin]
    _ = bs[i] := by rw [Nat.add_sub_cancel_left, List.getD_eq_getElem _ _ hi]

/-- Settles O9: the canonical form, the read of each address after a write, and the round trip of a little-endian value (R3). -/
theorem memoryReadAfterWrite : Obligations.MemoryReadAfterWrite := by
  refine ⟨fun m a bs h => ⟨Memory.wf_wrN a bs h, rd_wrN m h a bs⟩, fun m a n v h => ?_⟩
  have hback : rdN (wrN m a (leBytes n v)) a n = leBytes n v := by simpa using rdN_wrN_same h a (leBytes n v)
  rw [hback, leVal_leBytes]

/-! A write to BAR0. -/

theorem exec_registerWrite (off : Nat) (w : AccW) (v : W64) (rid : W16) (s : State) :
    exec (.registerWrite off w v rid) s = .next (registerWrite off w v rid s) := rfl

/-- An aligned 32-bit write reaches the register (R563). -/
theorem registerWrite_b32 {off : Nat} (h : off % 4 = 0) (v : W64) (rid : W16) (s : State) :
    registerWrite off .b32 v rid s = regWrite32 off (v.setWidth 32) rid s := if_pos h

/-- What is neither an aligned 32-bit nor an aligned 64-bit write is discarded with its note (R563). -/
theorem registerWrite_discarded {off : Nat} {w : AccW} (h : w = .b8 ∨ w = .b16 ∨ (w = .b32 ∧ off % 4 ≠ 0) ∨ (w = .b64 ∧ off % 8 ≠ 0))
    (v : W64) (rid : W16) (s : State) : registerWrite off w v rid s = discardNote off s := by
  rcases h with rfl | rfl | ⟨rfl, hmis⟩ | ⟨rfl, hmis⟩
  · rfl
  · rfl
  · exact if_neg hmis
  · exact if_pos hmis

/-- SCRATCH takes the word written (R570). -/
theorem regWrite32_scratch (v : W32) (rid : W16) (s : State) :
    regWrite32 0x44 v rid s = { s with dev := { s.dev with scratch := v } } := rfl

/-- DEVICE_ID is read-only (R4): a write leaves the state as it was. -/
theorem regWrite32_deviceId (v : W32) (rid : W16) (s : State) : regWrite32 0 v rid s = s := rfl

/-- Settles O38: SCRATCH, the discarded writes, and the read-only DEVICE_ID. -/
theorem registerWrites : Obligations.RegisterWrites := by
  refine ⟨fun s v rid => ?scratch, fun s off w v rid h => ?discarded, fun s v rid => ?readOnly⟩
  case scratch => rw [exec_registerWrite, registerWrite_b32 (by decide), regWrite32_scratch]
  case discarded => rw [exec_registerWrite, registerWrite_discarded h, discardNote]
  case readOnly => rw [exec_registerWrite, registerWrite_b32 (by decide), regWrite32_deviceId]

end Sys2Proof.Laws
end

section
/-! PROOF. The trigger outputs: TRIG_EDGE and TRIG_PULSE_END (R27, R278–R280). -/

open Sys2Proof Sys2Proof.Machine
namespace Sys2Proof.Laws

/-! What a time event leaves as it was. -/

theorem msix_time (v : Nat) (s : State) : (msix v s).time = s.time := by
  simp only [msix]
  split <;> rfl

/-- A time event (R283) sets its causes in TIME_EVENT and leaves the rest of the time unit. -/
theorem timeEventSet_time (m : BitVec 6) (s : State) :
    (timeEventSet m s).time = { s.time with event := s.time.event ||| m } := by
  simp only [timeEventSet]
  split
  · rw [msix_time]
  · rfl

/-! A trigger edge. -/

theorem exec_trigEdge (n : Nat) (s : State) : exec (.trigEdge n) s = .next (trigEdge n s) := rfl

/-- Without a series, in a state in which no series runs (R280), or with the PTC UNSET (R278), an edge changes nothing. -/
theorem trigEdge_notRunning {s : State} {n : Nat}
    (h : (getTrig s n).series = none ∨ trigRuns s = false ∨ s.time.status = .unset) : trigEdge n s = s := by
  cases hseries : (getTrig s n).series with
  | none => simp only [trigEdge, hseries]
  | some q =>
    have hstill : ¬ trigRuns s = true ∨ s.time.status = .unset := by simpa [hseries] using h
    simp only [trigEdge, hseries, if_pos hstill]

section Running
variable {s : State} {n : Nat} {q : Series}
variable (hseries : (getTrig s n).series = some q) (hruns : trigRuns s = true) (hset : s.time.status ≠ .unset)
include hseries hruns hset

theorem trigEdge_stopping (hstop : q.stopping = true) :
    trigEdge n s = setTrig n { getTrig s n with series := none } s := by
  simp [trigEdge, hseries, hruns, hset, hstop]

theorem trigEdge_heldInactive (hgo : q.stopping = false) (hheld : (getTrig s n).heldInactive = true) :
    trigEdge n s = setTrig n { getTrig s n with series := some { q with next := q.next + 1 } } s := by
  simp [trigEdge, hseries, hruns, hset, hgo, hheld]

/-- With no edge before it, or with one at least half a period back, the active edge is driven (R278, R279). -/
theorem trigEdge_driven (hgo : q.stopping = false) (hfree : (getTrig s n).heldInactive = false)
    (hfar : ∀ u, (getTrig s n).lastEdge = some u → q.period ≤ (now s - u).toNat * 8589934592) :
    trigEdge n s = emit (.trig n (!q.activeLow)) (setTrig n { getTrig s n with
      series := some { q with next := q.next + 1 }, lastEdge := some (now s), active := true } s) := by
  cases hlast : (getTrig s n).lastEdge with
  | none => simp [trigEdge, hseries, hruns, hset, hgo, hfree, hlast]
  | some u =>
    have hnotNear : ¬ (now s - u).toNat * 8589934592 < q.period := Nat.not_lt.mpr (hfar u hlast)
    simp [trigEdge, hseries, hruns, hset, hgo, hfree, hlast, hnotNear, -BitVec.toNat_sub]

/-- An edge less than half a period after the one before is suppressed and counted, and its time event posted (R279). -/
theorem trigEdge_suppressed (hgo : q.stopping = false) (hfree : (getTrig s n).heldInactive = false) {u : W64}
    (hlast : (getTrig s n).lastEdge = some u) (hnear : (now s - u).toNat * 8589934592 < q.period) :
    trigEdge n s = timeEventSet 32 (setTrig n { getTrig s n with
      series := some { q with next := q.next + 1 }, suppr := (getTrig s n).suppr.inc } s) := by
  simp [trigEdge, hseries, hruns, hset, hgo, hfree, hlast, hnear, -BitVec.toNat_sub]

end Running

/-- A change that keeps the level driven and its date is stored as it stands (R522). -/
theorem setTrig_trig_of_level {s : State} {n : Nat} {x : Trig} (hlevel : trigLevel (getTrig s n) = trigLevel x)
    (hdate : x.edgeAt = (getTrig s n).edgeAt) : (setTrig n x s).time.trig = putK {} s.time.trig n x := by
  simp only [setTrig, edgeTime, if_pos hlevel, ← hdate]

/-- Counting a point and a suppressed edge leaves the level: the series keeps its polarity (R279). -/
theorem trigLevel_counted {x : Trig} {q : Series} (hseries : x.series = some q) (k : Nat) (c : Stick 16) :
    trigLevel x = trigLevel { x with series := some { q with next := k }, suppr := c } := by
  simp only [trigLevel, hseries]

/-! The end of a pulse. -/

theorem exec_trigPulseEnd (n : Nat) (s : State) : exec (.trigPulseEnd n) s = .next (trigPulseEnd n s) := rfl

theorem trigPulseEnd_inactive {s : State} {n : Nat} (h : (getTrig s n).active = false) : trigPulseEnd n s = s :=
  if_neg (by simp [h])

/-- The level driven is the inactive one of the series, and low where no series is left (R278). -/
theorem trigPulseEnd_active {s : State} {n : Nat} (h : (getTrig s n).active = true) :
    trigPulseEnd n s = emit (.trig n ((getTrig s n).series.map (·.activeLow) == some true))
      (setTrig n { getTrig s n with active := false } s) := by
  simp only [trigPulseEnd, if_pos h]
  cases (getTrig s n).series <;> simp

/-- Settles O33: the edge that changes nothing, the four edges of a running series, and the end of a pulse. -/
theorem triggerOutputs : Obligations.TriggerOutputs := by
  refine ⟨fun s n h => ?notRunning,
    fun s n q hseries hruns hset => ⟨fun hstop => ?stopping, fun hgo hheld => ?held, fun hgo hfree hfar => ?driven,
      fun u hgo hfree hlast hnear => ?suppressed⟩,
    fun s n => ⟨fun h => ?inactive, fun h => ?active⟩⟩
  case notRunning => rw [exec_trigEdge, trigEdge_notRunning h]
  case stopping => rw [exec_trigEdge, trigEdge_stopping hseries hruns hset hstop]
  case held => rw [exec_trigEdge, trigEdge_heldInactive hseries hruns hset hgo hheld]
  case driven => rw [exec_trigEdge, trigEdge_driven hseries hruns hset hgo hfree hfar]
  case suppressed =>
    rw [exec_trigEdge, trigEdge_suppressed hseries hruns hset hgo hfree hlast hnear]
    refine ⟨_, rfl, ?_, ?_⟩ <;> rw [timeEventSet_time]
    · simp
    · exact congrArg (getK {} · n) (setTrig_trig_of_level (trigLevel_counted hseries _ _) rfl)
  case inactive => rw [exec_trigPulseEnd, trigPulseEnd_inactive h]
  case active => rw [exec_trigPulseEnd, trigPulseEnd_active h]

end Sys2Proof.Laws
end

section
/-! PROOF. Requests at their endpoints: READ_REQ and WRITE_REQ on hub staging, chambers, core memories and DRAM
(R40, R46, R77, R83, R85, R188, R194). -/

open Sys2Proof Sys2Proof.Machine
namespace Sys2Proof.Laws

theorem exec_readReq (r : FabReq) (s : State) : exec (.readReq r) s = .next (serve false r s) := rfl
theorem exec_writeReq (r : FabReq) (s : State) : exec (.writeReq r) s = .next (serve true r s) := rfl

/-! Which endpoint operation serves a request, and how it is answered. -/

section Serve
variable {s : State} {r : FabReq} {write : Bool}

theorem serve_refused (h : accepts s r.dst = false) : serve write r s = emitFab (.nack r.src (.entry r.tag)) s := by
  simp [serve, h]

/-- Every tier but the host's and DRAM serves an accepted request at once. -/
theorem serve_accepted (h : accepts s r.dst = true) (hhost : r.space ≠ .host) (hdram : r.space ≠ .dram) :
    serve write r s = serveAt write r s := by
  cases hspace : r.space <;> simp_all [serve]

theorem pumpStalled_nil (h : s.mem.stalled = []) : pumpStalled s = s := by
  rw [pumpStalled, h, List.foldl_nil]

/-- A DRAM request is charged and then served while BEST_EFFORT runs (R197, R200). -/
theorem serve_dram (h : accepts s r.dst = true) (hdram : r.space = .dram) (hruns : s.mem.halted = false) (hnone : s.mem.stalled = []) :
    serve write r s = serveAt write r (charge r (max r.len r.data.length) s).2 := by
  simp [serve, h, hdram, hruns, pumpStalled_nil hnone]

theorem answer_ok (bs : List Byte) : answer r (bs, false) s = emitFab (.reply r.src r.tag .ok bs) s := rfl
theorem answer_poison (bs : List Byte) : answer r (bs, true) s = emitFab (.reply r.src r.tag .poison []) s := rfl

theorem serveAt_read (h : r.atomic = none) : serveAt false r s = answer r (endGet r s).1 (endGet r s).2 := by
  simp [serveAt, h]

theorem serveAt_write (h : r.atomic = none) :
    serveAt true r s = emitFab (.reply r.src r.tag .ok []) (endPut r r.data r.en s) := by
  simp [serveAt, h, answer_ok]

/-- A plain READ_REQ outside host memory and DRAM is answered with what its endpoint reads (R40). -/
theorem exec_readReq_accepted (h : accepts s r.dst = true) (hhost : r.space ≠ .host) (hdram : r.space ≠ .dram) (hop : r.atomic = none) :
    exec (.readReq r) s = .next (answer r (endGet r s).1 (endGet r s).2) := by
  rw [exec_readReq, serve_accepted h hhost hdram, serveAt_read hop]

/-- A plain WRITE_REQ outside host memory and DRAM is written at its endpoint and acknowledged (R40, R83). -/
theorem exec_writeReq_accepted (h : accepts s r.dst = true) (hhost : r.space ≠ .host) (hdram : r.space ≠ .dram) (hop : r.atomic = none) :
    exec (.writeReq r) s = .next (emitFab (.reply r.src r.tag .ok []) (endPut r r.data r.en s)) := by
  rw [exec_writeReq, serve_accepted h hhost hdram, serveAt_write hop]

/-- An atomic that writes answers the old bytes over the state with its new bytes (R85). -/
theorem serveAt_atomic_writes {op : AtomicOp} (h : r.atomic = some op) (hspace : r.space ≠ .chamber) {old bs : List Byte} {t : State}
    (hget : endGet r s = ((old, false), t)) (hnew : atomicNew op r.len old r.data = some bs) :
    serveAt write r s = emitFab (.reply r.src r.tag .ok old) (endPut r bs [] t) := by
  simp [serveAt, h, hspace, hget, hnew, answer_ok]

/-- An atomic that does not write answers the old bytes alone (R85). -/
theorem serveAt_atomic_keeps {op : AtomicOp} (h : r.atomic = some op) (hspace : r.space ≠ .chamber) {old : List Byte} {t : State}
    (hget : endGet r s = ((old, false), t)) (hnew : atomicNew op r.len old r.data = none) :
    serveAt write r s = emitFab (.reply r.src r.tag .ok old) t := by
  simp [serveAt, h, hspace, hget, hnew, answer_ok]

end Serve

/-! Reading and writing at each tier. -/

section Tiers
variable {s : State} {r : FabReq}

theorem endGet_staging (h : r.space = .staging) : endGet r s = (stagingGet s.mem (r.addr.toNat % 2 ^ 23) r.len, s) := by
  simp [endGet, h]

theorem endGet_chamber (h : r.space = .chamber) (hplain : r.addr.getLsbD 26 = false) :
    endGet r s = (chamberGet s.mem (r.addr.toNat % 2 ^ 26) r.len, s) := by
  simp only [endGet, h, hplain, Bool.false_eq_true, if_false]

theorem endGet_dram (h : r.space = .dram) : endGet r s = (dramGet s r.addr.toNat r.len, s) := by
  simp [endGet, h]

theorem endGet_peer (h : r.space = .peer) :
    endGet r s = ((rdN (getCore s r.dst).mem (localAddr r.addr) r.len, !memClean (getCore s r.dst) (localAddr r.addr) r.len), s) := by
  simp [endGet, h]

variable {bs : List Byte} {en : List Bool}

theorem endPut_staging (h : r.space = .staging) :
    endPut r bs en s = { s with mem := stagingPut (r.addr.toNat % 2 ^ 23) bs en s.mem } := by
  simp [endPut, h]

theorem endPut_chamber (h : r.space = .chamber) (hplain : r.addr.getLsbD 26 = false) :
    endPut r bs en s = { s with mem := chamberPut (r.addr.toNat % 2 ^ 26) bs en s.mem } := by
  simp only [endPut, h, hplain, Bool.false_eq_true, if_false]

theorem endPut_peer (h : r.space = .peer) : endPut r bs en s = updCore r.dst (coreWrite (localAddr r.addr) bs en) s := by
  simp [endPut, h]

theorem stagingGet_of_clean {m : MemT} {a n : Nat} (h : wordsClean m.stagingBad a n = true) :
    stagingGet m a n = (rdN m.staging a n, false) := by simp [stagingGet, h]

theorem stagingGet_of_bad {m : MemT} {a n : Nat} (h : wordsClean m.stagingBad a n = false) :
    stagingGet m a n = (rdN m.staging a n, true) := by simp [stagingGet, h]

theorem chamberGet_of_clean {m : MemT} {a n : Nat} (h : wordsClean m.chamberBad a n = true) :
    chamberGet m a n = (rdN m.chamber a n, false) := by simp [chamberGet, h]

end Tiers

/-! A write with every byte enabled. -/

theorem wrEn_nil (m : Mem) (a : Nat) (bs : List Byte) : wrEn m a bs [] = wrN m a bs := by
  induction bs generalizing m a with
  | nil => rfl
  | cons b bs ih => exact ih (putK 0 m a b) (a + 1)

theorem stagingPut_full (a : Nat) (bs : List Byte) (m : MemT) : stagingPut a bs [] m =
    { m with staging := wrN m.staging a bs, stagingBad := wordsAfter m.stagingBad a bs.length [] } := by
  rw [stagingPut, wrEn_nil]

/-- A write poisons no word (R188). -/
theorem wordsAfter_subset (bad : List Nat) (a len : Nat) (en : List Bool) : wordsAfter bad a len en ⊆ bad := by
  unfold wordsAfter
  split
  · exact List.filter_subset_self _
  · exact List.Subset.refl bad

theorem rd_wrN_outside {m : Mem} (h : Memory.wf m = true) {a j : Nat} {bs : List Byte} (hj : j < a ∨ a + bs.length ≤ j) :
    rd (wrN m a bs) j = rd m j := by
  rw [rd_wrN m h, if_neg (by omega)]

/-! An atomic on hub staging. -/

theorem length_atomicNew {op : AtomicOp} {len : Nat} {old data bs : List Byte} (h : atomicNew op len old data = some bs) :
    bs.length = len := by
  cases op with
  | fetchAdd =>
    cases h
    exact length_leBytes ..
  | cas =>
    obtain ⟨-, rfl⟩ : leVal old = leVal (sub data 0 len) ∧ sub data len len = bs := by simpa [atomicNew] using h
    exact length_sub ..

/-- The value that an atomic leaves in place of `old`, if it writes (R85). -/
def atomicVal (op : AtomicOp) (len old : Nat) (data : List Byte) : Option Nat :=
  match op with
  | .fetchAdd => some ((old + leVal (sub data 0 len)) % 2 ^ (8 * len))
  | .cas => if old = leVal (sub data 0 len) then some (leVal (sub data len len)) else none

/-- The bytes that an atomic writes have the value R85 gives it. -/
theorem map_leVal_atomicNew (op : AtomicOp) (len : Nat) (old data : List Byte) :
    (atomicNew op len old data).map leVal = atomicVal op len (leVal old) data := by
  cases op with
  | fetchAdd => exact congrArg some (leVal_leBytes ..)
  | cas =>
    by_cases heq : leVal old = leVal (sub data 0 len)
    · simp only [atomicNew, atomicVal, if_pos heq, Option.map_some]
    · simp only [atomicNew, atomicVal, if_neg heq, Option.map_none]

/-- Serving an atomic on clean staging words: the old bytes are answered, the new value stands in their place, and no other byte
and no other part of the state is touched. -/
theorem serve_atomic_staging {s : State} {r : FabReq} {op : AtomicOp} {a : Nat} {old : List Byte} (hacc : accepts s r.dst = true)
    (hspace : r.space = .staging) (hop : r.atomic = some op) (ha : a = r.addr.toNat % 2 ^ 23) (hwf : Memory.wf s.mem.staging = true)
    (hclean : wordsClean s.mem.stagingBad a r.len = true) (hold : old = rdN s.mem.staging a r.len) :
    ∃ g bad, serve true r s = { s with
        mem := { s.mem with staging := g, stagingBad := bad }
        sent := s.sent ++ [.fab (.reply r.src r.tag .ok old)] } ∧
      leVal (rdN g a r.len) = (atomicVal op r.len (leVal old) r.data).getD (leVal old) ∧
      ∀ j, j < a ∨ a + r.len ≤ j → rd g j = rd s.mem.staging j := by
  subst ha hold
  have hget := (endGet_staging (s := s) hspace).trans (by rw [stagingGet_of_clean hclean])
  rw [serve_accepted hacc (by simp [hspace]) (by simp [hspace]), ← map_leVal_atomicNew]
  cases hnew : atomicNew op r.len (rdN s.mem.staging (r.addr.toNat % 2 ^ 23) r.len) r.data with
  | none =>
    rw [serveAt_atomic_keeps hop (by simp [hspace]) hget hnew]
    exact ⟨_, _, rfl, rfl, fun _ _ => rfl⟩
  | some bs =>
    have hlen : bs.length = r.len := length_atomicNew hnew
    rw [serveAt_atomic_writes hop (by simp [hspace]) hget hnew, endPut_staging hspace, stagingPut_full]
    refine ⟨_, _, rfl, ?_, fun j hj => rd_wrN_outside hwf (by rwa [hlen])⟩
    rw [← hlen, rdN_wrN_same hwf]
    rfl

/-! A read of DRAM. -/

/-- Charging a request touches the class counters and the buckets alone (R197, R199). -/
theorem charge_frame (r : FabReq) (n : Nat) (s : State) : ∃ b k o,
    (charge r n s).2 = { s with mem := { s.mem with bytes := b, buckets := k, overrun := o } } := by
  unfold charge chargeTo
  cases bwDecl s r with
  | none => exact ⟨_, _, _, rfl⟩
  | some d =>
    dsimp only
    split
    · exact ⟨_, _, _, rfl⟩
    · exact ⟨_, _, _, rfl⟩

/-- DRAM reads as before once a request has been charged. -/
theorem dramGet_charge (r : FabReq) (n a len : Nat) (s : State) : dramGet (charge r n s).2 a len = dramGet s a len := by
  obtain ⟨b, k, o, h⟩ := charge_frame r n s
  rw [h]
  rfl

/-- A read of DRAM that is there and whose lines hold no poison is answered with its bytes, any other with POISON (R191, R194). -/
theorem answer_dramGet (r : FabReq) (a n : Nat) (s t : State) :
    answer r (dramGet s a n) t = emitFab (if dramBacked s a n ∧ ∀ l ∈ dramLines s.mem a n, l.1 ∉ s.mem.dramBad
      then .reply r.src r.tag .ok (dramGets s.mem a n) else .reply r.src r.tag .poison []) t := by
  split
  next h =>
    have hclean : dramGet s a n = (dramGets s.mem a n, false) := by simpa [dramGet] using h
    rw [hclean, answer_ok]
  next h =>
    have hbad : dramGet s a n = (dramGets s.mem a n, true) := by
      simpa [dramGet, or_iff_not_imp_left] using h
    rw [hbad, answer_poison]

/-- Settles O26: the refused request, then staging, its atomics, a chamber, a core's memory and DRAM. -/
theorem endpointRequests : Obligations.EndpointRequests := by
  refine ⟨fun s r hacc => ?refused, fun s r hacc hspace hop => ?staging, fun s r op hacc hspace hop hwf hclean => ?atomic,
    fun s r hacc hop hspace hplain => ?chamber, fun s r hacc hop hspace => ?peer,
    fun s r hacc hop hspace hruns hnone hdata => ?dram⟩
  case refused =>
    rw [exec_readReq, exec_writeReq, serve_refused hacc, serve_refused hacc]
    exact ⟨rfl, rfl⟩
  case staging =>
    rw [exec_readReq_accepted hacc (by simp [hspace]) (by simp [hspace]) hop, endGet_staging hspace,
      exec_writeReq_accepted hacc (by simp [hspace]) (by simp [hspace]) hop, endPut_staging hspace]
    refine ⟨fun hclean => ?_, fun hbad => ?_, fun hwf hen => ?_⟩
    · rw [stagingGet_of_clean hclean]; rfl
    · rw [stagingGet_of_bad hbad]; rfl
    · rw [hen, stagingPut_full]
      exact ⟨_, rfl, rfl, fun _ hw => wordsAfter_subset s.mem.stagingBad (r.addr.toNat % 2 ^ 23) r.data.length [] hw,
        rd_wrN s.mem.staging hwf _ r.data⟩
  case atomic =>
    obtain ⟨g, bad, hserve, hval, hrest⟩ := serve_atomic_staging hacc hspace hop rfl hwf hclean rfl
    rw [exec_writeReq, hserve]
    refine ⟨_, rfl, rfl, hval.trans ?_, hrest⟩
    cases op <;> rfl
  case chamber =>
    rw [exec_readReq_accepted hacc (by simp [hspace]) (by simp [hspace]) hop, endGet_chamber hspace hplain,
      exec_writeReq_accepted hacc (by simp [hspace]) (by simp [hspace]) hop, endPut_chamber hspace hplain]
    refine ⟨fun hclean => ?_, rfl⟩
    rw [chamberGet_of_clean hclean]; rfl
  case peer =>
    rw [exec_readReq_accepted hacc (by simp [hspace]) (by simp [hspace]) hop, endGet_peer hspace,
      exec_writeReq_accepted hacc (by simp [hspace]) (by simp [hspace]) hop, endPut_peer hspace]
    refine ⟨rfl, fun hclean => ?_⟩
    rw [localAddr, hclean]; rfl
  case dram =>
    refine ⟨?_, ?_⟩
    · obtain ⟨b, k, o, hcharge⟩ := charge_frame r r.len s
      rw [hcharge]
    · rw [exec_readReq, serve_dram hacc hspace hruns hnone, hdata, List.length_nil, Nat.max_zero, serveAt_read hop, endGet_dram hspace,
        dramGet_charge, answer_dramGet]

end Sys2Proof.Laws
end

section
/-! PROOF. Messages of a core: SEND, SENDS, RECV, RELEASE and POLL (R39, R89, R90, R97, R392). -/

open Sys2Proof Sys2Proof.Machine
namespace Sys2Proof.Laws

/-! A core that is ready runs the body of its MESSAGE instruction. -/

section Ready
variable {s : State} {n : Node} {c : Core} (h : Ready s n c) (f : Field)
include h

theorem exec_send_ready : exec (.send n f) s = .next (sendStep n f c s) := issued h _
theorem exec_sends_ready : exec (.sends n f) s = .next (sendsStep n f c s) := issued h _
theorem exec_recv_ready : exec (.recv n f) s = .next (recvStep n f c s) := issued h _
theorem exec_release_ready : exec (.release n f) s = .next (releaseStep n f c s) := issued h _
theorem exec_poll_ready : exec (.poll n f) s = .next (pollStep n f c s) := issued h _

end Ready

/-- Without bit 48 the route of a SEND is the one in the instruction word (R89). -/
theorem sendRoute_immediate (c : Core) {f : Field} (h : f.getLsbD 48 = false) : sendRoute c f = bits f 53 49 := by
  rw [sendRoute, h]
  exact if_neg Bool.false_ne_true

/-! SEND. -/

section Send
variable {s : State} {n : Node} {c : Core} {f : Field}
variable (hpos : 1 ≤ bits f 25 13) (hmax : bits f 25 13 ≤ 4096)
include hpos hmax

/-- A SEND of a size that R89 allows, whose window is LOCAL where it is declared, faults where its route is undeclared. -/
theorem sendStep_undeclared (hlcl : ∀ w, getWin c (bits f 37 34) = some w → w.space = .lcl) (hroute : getRoute c (sendRoute c f) = none) :
    sendStep n f c s = coreFault n .coreRouteUndeclared (sendRoute c f) 0 s := by
  have hempty : ¬ bits f 25 13 = 0 := by omega
  have hlong : ¬ 4096 < bits f 25 13 := by omega
  cases hwin : getWin c (bits f 37 34) with
  | none => simp [sendStep, hempty, hlong, hwin, hroute]
  | some w => simp [sendStep, hempty, hlong, hwin, hlcl w hwin, hroute]

variable {x : Route} {w : Window} {off a : Nat} {data : List Byte} {t : State}
variable (hroute : getRoute c (sendRoute c f) = some x) (hwin : getWin c (bits f 37 34) = some w) (hlcl : w.space = .lcl)
variable (hread : w.r = true) (hoff : off = effOff (getS c (bits f 47 43)).toNat (bits f 12 0)) (hfits : off + bits f 25 13 ≤ w.length)
include hroute hwin hlcl hread hoff hfits

/-- A SEND on a declared route waits without a credit. With one its bytes are folded and sent: it retires over clean words, and
faults after a POISON message over poisoned ones (R89, R97, R392). -/
theorem sendStep_declared (ha : a = localAddr (winAddr w off)) (hdata : data = rdN c.mem a (bits f 25 13))
    (ht : t = setCore n (sigFold (now s) 6 (sendRoute c f) 0 (enMask (bits f 25 13) []) data c) s) :
    sendStep n f c s =
      if x.credits = 0 then coreWait n (.credit (sendRoute c f)) s
      else if memClean c a (bits f 25 13) then retire n (sendData n (sendRoute c f) x data false t)
      else coreFault n .coreMemUe (bits f 37 34) off (sendData n (sendRoute c f) x data true t) := by
  subst hoff ha hdata ht
  have hempty : ¬ bits f 25 13 = 0 := by omega
  have hlong : ¬ 4096 < bits f 25 13 := by omega
  simp [sendStep, hempty, hlong, hwin, hlcl, hroute, winOk_some rfl hread hfits]

end Send

/-! SENDS. -/

section Sends
variable {s : State} {n : Node} {c : Core} {f : Field}
variable (hmin : 4 ≤ bits f 25 13) (hmax : bits f 25 13 ≤ 32) (hwords : bits f 25 13 % 4 = 0)
include hmin hmax hwords

theorem sendsStep_undeclared (hroute : getRoute c (sendRoute c f) = none) :
    sendsStep n f c s = coreFault n .coreRouteUndeclared (sendRoute c f) 0 s := by
  have hsize : ¬ (bits f 25 13 < 4 ∨ 32 < bits f 25 13 ∨ bits f 25 13 % 4 ≠ 0) := by omega
  simp only [sendsStep, if_neg hsize, hroute]

/-- A SENDS on a declared route waits without a credit. With one the registers' bytes are folded and sent, and it retires
(R89, R392). -/
theorem sendsStep_declared {x : Route} (hroute : getRoute c (sendRoute c f) = some x) {data : List Byte}
    (hdata : data = (List.range (bits f 25 13 / 4)).flatMap (fun k => leBytes 4 (getS c (bits f 47 43 + k)).toNat)) :
    sendsStep n f c s =
      if x.credits = 0 then coreWait n (.credit (sendRoute c f)) s
      else retire n (sendData n (sendRoute c f) x data false
        (setCore n (sigFold (now s) 7 (sendRoute c f) 0 (enMask (bits f 25 13) []) data c) s)) := by
  have hsize : ¬ (bits f 25 13 < 4 ∨ 32 < bits f 25 13 ∨ bits f 25 13 % 4 ≠ 0) := by omega
  simp only [sendsStep, if_neg hsize, hroute, hdata]

end Sends

/-! The message that goes out. -/

/-- Outside a trace, a message takes its credit and goes out, and that is all (R39). -/
theorem sendData_untraced {s : State} (h : s.trace.running = false) (n : Node) (r : Nat) (x : Route) (data : List Byte) (poison : Bool) :
    sendData n r x data poison s = emitFab (.data { src := n, dst := x.node, chan := x.chan, poison, data })
      (updCore n (setRoute r { x with credits := x.credits - 1 }) s) := by
  have htrace : (updCore n (setRoute r { x with credits := x.credits - 1 }) s).trace.running = false := h
  simp only [sendData, traceRec_off htrace]

theorem getCore_updCore {s : State} (h : wfK ({} : Core) s.cores = true) (n k : Node) (g : Core → Core) :
    getCore (updCore n g s) k = if k = n then g (getCore s n) else getCore s k := getCore_setCore h n k _

/-! RECV, RELEASE and POLL of a declared channel. -/

section Channel
variable {s : State} {n : Node} {c : Core} {f : Field} {ch : Chan} (hchan : getChan c (bits f 33 31) = some ch)
include hchan

/-- RECV marks the oldest unreceived message received, writes where it lies and whose it is, and sets POISONED for a poisoned one
(R90, R97). -/
theorem recvStep_message (heven : bits f 30 26 % 2 = 0) {m : HeldMsg} (hmsg : ch.msgs.find? (fun m => !m.received) = some m) :
    recvStep n f c s = retire n (traceRec n 0x03 1 (leBytes 1 (bits f 33 31) ++ [0] ++ leBytes 2 m.len ++ leBytes 2 m.src.toNat)
      (setCore n (setChan (bits f 33 31) { ch with msgs := markReceived ch.msgs }
        ((if m.poison then setStatus 2 else id) (setS (bits f 30 26 + 1) (BitVec.ofNat 32 (m.src.toNat * 65536 + m.len))
          (setS (bits f 30 26) (BitVec.ofNat 32 (ch.base + m.slot * ch.slotSize)) c)))) s)) := by
  have hpair : ¬ bits f 30 26 % 2 = 1 := by omega
  simp only [recvStep, if_neg hpair, hchan, hmsg]
  cases m.poison <;> rfl

theorem recvStep_empty (heven : bits f 30 26 % 2 = 0) (hnone : ch.msgs.find? (fun m => !m.received) = none) :
    recvStep n f c s = coreWait n (.recv (bits f 33 31)) s := by
  have hpair : ¬ bits f 30 26 % 2 = 1 := by omega
  simp only [recvStep, if_neg hpair, hchan, hnone]

theorem releaseStep_message {m : HeldMsg} (hmsg : ch.msgs.find? (·.received) = some m) :
    releaseStep n f c s = retire n (returnCredit m.src n (bits f 33 31)
      (setCore n (setChan (bits f 33 31) { ch with msgs := ch.msgs.erase m } c) s)) := by
  simp only [releaseStep, hchan, hmsg]

theorem releaseStep_empty (hnone : ch.msgs.find? (·.received) = none) : releaseStep n f c s = coreFault n .coreIllegalOp 0 0 s := by
  simp only [releaseStep, hchan, hnone]

theorem pollStep_count : pollStep n f c s =
    retireWith n (setS (bits f 30 26) (BitVec.ofNat 32 (ch.msgs.filter (fun m => !m.received)).length) c) s := by
  simp only [pollStep, hchan]

end Channel

/-- Settles O22: SEND, SENDS, the message itself, the three instructions of a channel, and the undeclared route. -/
theorem coreMessages : Obligations.CoreMessages := by
  refine ⟨fun s n c f x w r len a off hready hr hlen hpos hmax hroute hwin hlcl hread hoff hfits ha => ?send,
    fun s n c f x r len bs hready hr hlen hmin hmax hwords hroute hbs => ?sends,
    fun s n r x bs p htrace hwf => ?message,
    fun s n c f ch hready heven hchan => ?channel,
    fun s n c f hready himm hroute => ?undeclared⟩
  case send =>
    subst hr hlen
    rw [exec_send_ready hready, sendStep_declared hpos hmax hroute hwin hlcl hread hoff hfits ha rfl rfl]
    refine ⟨fun hcredit hclean => ?_, fun hcredit hbad => ?_, fun hcredit => ?_⟩
    · rw [if_neg hcredit, if_pos hclean]; rfl
    · rw [if_neg hcredit, if_neg (by simp [hbad])]; rfl
    · rw [if_pos hcredit]; rfl
  case sends =>
    subst hr hlen
    rw [exec_sends_ready hready, sendsStep_declared hmin hmax hwords hroute hbs]
    refine ⟨fun hcredit => ?_, fun hcredit => ?_⟩
    · rw [if_neg hcredit]; rfl
    · rw [if_pos hcredit]; rfl
  case message =>
    rw [sendData_untraced htrace]
    exact ⟨rfl, (getCore_updCore hwf n n _).trans (if_pos rfl), fun k hk => (getCore_updCore hwf n k _).trans (if_neg hk)⟩
  case channel =>
    rw [exec_recv_ready hready, exec_release_ready hready, exec_poll_ready hready, pollStep_count hchan]
    refine ⟨fun m hmsg => ?_, fun hnone => ?_, fun m hmsg => ?_, fun hnone => ?_, rfl⟩
    · rw [recvStep_message hchan heven hmsg]
    · rw [recvStep_empty hchan heven hnone]
    · rw [releaseStep_message hchan hmsg]
    · rw [releaseStep_empty hchan hnone]
  case undeclared =>
    rw [exec_sends_ready hready, exec_send_ready hready]
    rw [← sendRoute_immediate c himm] at hroute ⊢
    refine ⟨fun hmin hmax hwords => ?_, fun hpos hmax hlcl => ?_⟩
    · rw [sendsStep_undeclared hmin hmax hwords hroute]
    · rw [sendStep_undeclared hpos hmax hlcl hroute]

end Sys2Proof.Laws
end


section
/-! PROOF. A core as its surroundings control it: start, pacing, waits, clock and scrubbing (R59, R69, R70, R93, R99, R389, R390). -/

open Sys2Proof Sys2Proof.Machine
namespace Sys2Proof.Laws

theorem exec_controlStart (n : Node) (s : State) : exec (.controlStart n) s = .next (controlStart n s) := rfl
theorem exec_waitRestart (n : Node) (s : State) : exec (.waitRestart n) s = .next (waitRestart n s) := rfl
theorem exec_coreWaitLimit (n : Node) (s : State) : exec (.coreWaitLimit n) s = .next (coreWaitLimit n s) := rfl
theorem exec_frequencyTarget (n : Node) (u : Nat) (s : State) : exec (.frequencyTarget n u) s = .next (frequencyTarget n u s) := rfl
theorem exec_frequencyChange (n : Node) (s : State) : exec (.frequencyChange n) s = .next (frequencyChange n s) := rfl
theorem exec_coreClkRange (n : Node) (mhz : Nat) (s : State) : exec (.coreClkRange n mhz) s = .next (coreClkRange n mhz s) := rfl
theorem exec_scrubSlot (n : Node) (m : CoreMem) (w : Nat) (e : Ecc) (s : State) : exec (.scrubSlot n m w e) s = .next (scrubSlot n m w e s) := rfl

/-! CONTROL START. -/

/-- Outside a trace a change of a core leaves no record (R502). -/
theorem changeCore_untraced {s : State} (h : s.trace.running = false) (n : Node) (f : Core → Core) : changeCore n f s = updCore n f s := by
  have hoff : (updCore n f s).trace.running = false := h
  simp only [changeCore, traceRec_off hoff, ite_self]

/-- A core as CONTROL START leaves it: in RUN at its entry, with window 0 of its run open (R99, R394). -/
def startedCore (frame : W32) (c : Core) : Core :=
  sigStart frame false { c with
    run := .run, wait := .none, pc := c.entry, started := true, retired := 0, pace := 0, nacked := none,
    skewHold := c.sig.pair.isSome && c.sig.trail && decide (c.skew ≠ 0) }

/-- A core of no mirror pair starts without a check of its SKEW (R389). -/
theorem startCore_unpaired {s : State} {n : Node} (htrace : s.trace.running = false) (hpair : (getCore s n).sig.pair = none) :
    ∃ frame, startCore n false s = updCore n (startedCore frame) s := by
  simp only [startCore, changeCore_untraced htrace, hpair, Option.isSome_none, Bool.false_eq_true, false_and, if_false]
  exact ⟨_, rfl⟩

section Start
variable {s : State} {n : Node}

theorem controlStart_starts (hrun : (getCore s n).run = .idle ∨ (getCore s n).run = .done) (hheld : (getCore s n).heldStop = false)
    (hfirst : (getCore s n).resident = false ∨ (getCore s n).started = false) : controlStart n s = startCore n false s := by
  have hfree : ¬((getCore s n).heldStop = true ∨ ((getCore s n).resident = true ∧ (getCore s n).started = true)) := by
    rcases hfirst with h | h <;> simp [hheld, h]
  simp only [controlStart, if_neg hfree]
  rcases hrun with h | h <;> rw [h]

/-- A core that is held, that has started as a RESIDENT one, or that is neither IDLE nor DONE does not start (R99, R399). -/
theorem controlStart_refused (h : (getCore s n).heldStop = true ∨ ((getCore s n).resident = true ∧ (getCore s n).started = true) ∨
    ((getCore s n).run ≠ .idle ∧ (getCore s n).run ≠ .done)) : controlStart n s = s := by
  rw [← or_assoc] at h
  simp only [controlStart]
  rcases h with hheld | ⟨hidle, hdone⟩
  · rw [if_pos hheld]
  · split
    · rfl
    · split
      next hrun => exact absurd hrun hidle
      next hrun => exact absurd hrun hdone
      next => rfl

end Start

/-! WAIT_RESTART and CORE_WAIT_LIMIT. -/

section Wait
variable {s : State} {n : Node}

theorem waitRestart_notWaiting (h : (getCore s n).run ≠ .wait) : waitRestart n s = s := if_pos (.inl h)

theorem coreWaitLimit_notWaiting (h : (getCore s n).run ≠ .wait) : coreWaitLimit n s = s := if_neg h

theorem coreWaitLimit_waiting (h : (getCore s n).run = .wait) : coreWaitLimit n s = coreFault n .coreWaitLimit 0 0 s := if_pos h

/-- An instruction whose reply has come, so that its entry is gone, is complete (R82). -/
theorem waitRestart_reply (h : (getCore s n).run = .wait) {tag : W16} (hwait : (getCore s n).wait = .reply tag)
    (hcome : ∀ p ∈ (getCore s n).pend, p.tag ≠ tag) : waitRestart n s = retire n (resumeRun n s) := by
  have hready : waitReady s n (getCore s n) = true := by simpa [waitReady, waitOver, hwait] using hcome
  simp [waitRestart, h, hwait, hready]

/-- An ordering or group wait ends with the command, and the instruction is issued again (R70). -/
theorem waitRestart_ended (h : (getCore s n).run = .wait) (hwait : (getCore s n).wait = .fence ∨ (getCore s n).wait = .groups ∨
    (getCore s n).wait = .operands) : waitRestart n s = resumeRun n s := by
  rcases hwait with hwait | hwait | hwait <;> simp [waitRestart, waitReady, waitOver, h, hwait]

end Wait

/-! The clock. -/

theorem frequencyTarget_latched {s : State} {n : Node} {u : Nat} (h : 40 ≤ u ∧ u ≤ 125 ∧ freqAllowed s n u = true) :
    frequencyTarget n u s = setCore n { getCore s n with freqNext := some u } s := if_pos h

theorem frequencyTarget_refused {s : State} {n : Node} {u : Nat} (h : u < 40 ∨ 125 < u ∨ freqAllowed s n u = false) :
    frequencyTarget n u s = s := by
  refine if_neg fun ⟨hlo, hhi, hrail⟩ => ?_
  rcases h with hlow | hhigh | hno
  · omega
  · omega
  · simp [hno] at hrail

theorem frequencyChange_applied {s : State} {n : Node} {u : Nat} (hnext : (getCore s n).freqNext = some u) (hrun : (getCore s n).run ≠ .wait) :
    frequencyChange n s = setCore n { getCore s n with freq := u, freqNext := none } s := by
  simp only [frequencyChange, hnext, if_neg hrun]

theorem frequencyChange_none {s : State} {n : Node} (hnext : (getCore s n).freqNext = none) : frequencyChange n s = s := by
  simp only [frequencyChange, hnext]

theorem coreClkRange_outside {n : Node} {mhz : Nat} (s : State) (h : mhz < 380 ∨ 1300 < mhz) :
    coreClkRange n mhz s = raise .coreClkRange { node := n } (leBytes 4 mhz) s := if_pos h

theorem coreClkRange_inside {n : Node} {mhz : Nat} (s : State) (h : 380 ≤ mhz ∧ mhz ≤ 1300) : coreClkRange n mhz s = s := if_neg (by omega)

/-! Scrubbing. -/

theorem scrubSlot_off {s : State} {n : Node} (h : (getCore s n).run = .off) (m : CoreMem) (w : Nat) (e : Ecc) : scrubSlot n m w e s = s := if_pos h

theorem scrubSlot_clean (n : Node) (m : CoreMem) (w : Nat) (s : State) : scrubSlot n m w .clean s = s := by
  simp only [scrubSlot, ite_self]

/-- What the scrubber finds in a word of a core that is not OFF (R59): a corrected word is reported, an uncorrectable one is
poisoned and then reported. -/
theorem scrubSlot_found {s : State} {n : Node} (h : (getCore s n).run ≠ .off) (w : Nat) :
    scrubSlot n .cmem w .corrected s = raise .coreMemCe { node := n } (leBytes 4 w) s ∧
    scrubSlot n .imem w .corrected s = raise .coreImemCe { node := n } (leBytes 4 w) s ∧
    scrubSlot n .cmem w .uncorrectable s = raise .coreMemUe { node := n } (leBytes 4 w)
      (setCore n { getCore s n with memBad := (getCore s n).memBad.erase w ++ [w] } s) ∧
    scrubSlot n .imem w .uncorrectable s = raise .coreImemUe { node := n } (leBytes 4 w)
      (setCore n { getCore s n with imemBad := (getCore s n).imemBad.erase w ++ [w] } s) :=
  ⟨if_neg h, if_neg h, if_neg h, if_neg h⟩

/-- Settles O24: the start and what refuses it, the trail's hold and pace, the waits, the clock and the scrubber. -/
theorem coreControl : Obligations.CoreControl := by
  refine ⟨fun s n hrun hheld hfirst hpair htrace hwf => ?start, fun s n h => ?refused, fun s n k => ⟨rfl, rfl⟩,
    fun s n h => ?notWaiting, fun s n h => ⟨fun tag hwait hcome => ?reply, fun hwait => ?ended, ?limit⟩,
    fun s n u => ⟨fun h => ?latched, fun h => ?notLatched, fun hnext hrun => ?applied, fun hnext => ?noTarget⟩,
    fun s n mhz => ⟨fun h => ?outside, fun h => ?inside⟩, fun s n m w => ⟨fun h e => ?off, ?clean, fun h => ?found⟩⟩
  case start =>
    obtain ⟨frame, hstart⟩ := startCore_unpaired htrace hpair
    rw [exec_controlStart, controlStart_starts hrun hheld hfirst, hstart]
    have hself : getCore (updCore n (startedCore frame) s) n = startedCore frame (getCore s n) := (getCore_updCore hwf n n _).trans (if_pos rfl)
    exact ⟨_, rfl, rfl, congrArg Core.run hself, congrArg Core.pc hself, congrArg Core.retired hself, congrArg Core.started hself,
      fun r => by rw [hself]; rfl, by rw [hself]; rfl, fun k hk => (getCore_updCore hwf n k _).trans (if_neg hk)⟩
  case refused => rw [exec_controlStart, controlStart_refused h]
  case notWaiting =>
    rw [exec_waitRestart, exec_coreWaitLimit, waitRestart_notWaiting h, coreWaitLimit_notWaiting h]
    exact ⟨rfl, rfl⟩
  case reply => rw [exec_waitRestart, waitRestart_reply h hwait hcome, resumeRun]
  case ended => rw [exec_waitRestart, waitRestart_ended h hwait, resumeRun]
  case limit => rw [exec_coreWaitLimit, coreWaitLimit_waiting h]
  case latched => rw [exec_frequencyTarget, frequencyTarget_latched h]
  case notLatched => rw [exec_frequencyTarget, frequencyTarget_refused h]
  case applied => rw [exec_frequencyChange, frequencyChange_applied hnext hrun]
  case noTarget => rw [exec_frequencyChange, frequencyChange_none hnext]
  case outside => rw [exec_coreClkRange, coreClkRange_outside s h]
  case inside => rw [exec_coreClkRange, coreClkRange_inside s h]
  case off => rw [exec_scrubSlot, scrubSlot_off h]
  case clean => rw [exec_scrubSlot, scrubSlot_clean]
  case found =>
    obtain ⟨hmemCe, himemCe, hmemUe, himemUe⟩ := scrubSlot_found h w
    simp only [exec_scrubSlot, hmemCe, himemCe, hmemUe, himemUe, and_self]

end Sys2Proof.Laws
end

section
/-! PROOF. What a reaction of the fault collector reaches through the shared operations: the records, answers, events, traces and
announcements it makes leave the device's state, the collector, the frame loop and every core's run state as they were. -/

open Sys2Proof Sys2Proof.Machine
namespace Sys2Proof.Laws

/-! Members of a sparse table. -/

theorem getK_eq_default_or_mem {α : Type} (d : α) (m : SMap α) (k : Nat) : getK d m k = d ∨ ∃ e ∈ m, e.2 = getK d m k := by
  induction m with
  | nil => exact .inl rfl
  | cons x m ih =>
    rw [getK]
    split
    · exact .inr ⟨x, List.mem_cons_self, rfl⟩
    · exact ih.imp_right fun ⟨e, he, hv⟩ => ⟨e, List.mem_cons_of_mem _ he, hv⟩

theorem mem_putK {α : Type} [DecidableEq α] {d : α} {m : SMap α} {k : Nat} {v : α} {e : Nat × α} (h : e ∈ putK d m k v) : e ∈ m ∨ e = (k, v) := by
  induction m with
  | nil =>
    rw [putK] at h
    split at h
    · exact absurd h List.not_mem_nil
    · exact .inr (List.mem_singleton.mp h)
  | cons x m ih =>
    rw [putK] at h
    split at h
    · split at h
      · exact .inl h
      · exact (List.mem_cons.mp h).symm
    · split at h
      · split at h
        · exact .inl (List.mem_cons_of_mem _ h)
        · exact (List.mem_cons.mp h).symm.imp_left (List.mem_cons_of_mem _)
      · rcases List.mem_cons.mp h with rfl | h
        · exact .inl List.mem_cons_self
        · exact (ih h).imp_left (List.mem_cons_of_mem _)

/-! What is kept. -/

/-- From `s` to `t` the device's state, the collector, the frame loop, the adaptation and the mailboxes' service stand, and what
holds of the run state and torch mark of every core listed in `s`, and of a core at reset, holds of every core listed in `t`. -/
structure Keeps (s t : State) : Prop where
  dev : t.dev = s.dev
  fc : t.fc = s.fc
  loop : t.loop = s.loop
  adapt : t.adapt = s.adapt
  serviceD : t.mbD.service = s.mbD.service
  serviceL : t.mbL.service = s.mbL.service
  cores : ∀ p : RunState → Bool → Prop, p .off false → (∀ e ∈ s.cores, p e.2.run e.2.torch) → ∀ e ∈ t.cores, p e.2.run e.2.torch

theorem Keeps.refl (s : State) : Keeps s s := ⟨rfl, rfl, rfl, rfl, rfl, rfl, fun _ _ h => h⟩

theorem Keeps.trans {s t u : State} (h : Keeps s t) (k : Keeps t u) : Keeps s u :=
  ⟨k.dev.trans h.dev, k.fc.trans h.fc, k.loop.trans h.loop, k.adapt.trans h.adapt, k.serviceD.trans h.serviceD, k.serviceL.trans h.serviceL,
    fun p hoff hs => k.cores p hoff (h.cores p hoff hs)⟩

/-- A change of other fields alone. -/
theorem Keeps.other (s : State) {pending : List Instr} {free : Nat} {sent : List Out} {mbD mbL : Mbx} {urg : Urg} {log : Log} {ltn : Ltn}
    {time : TimeU} {energy : Energy} {mem : MemT} {kv : Kv} {fab : Fabric} {mir : Mir} {host : HostLink} {obj : Obj} {plans : List Loaded}
    {intake : Intake} {dv : Dv} {trace : TraceU} {sio : SMap SioPin} (hD : mbD.service = s.mbD.service) (hL : mbL.service = s.mbL.service) :
    Keeps s (State.mk pending free sent s.dev mbD mbL urg s.fc log ltn time energy mem kv fab s.cores mir host obj s.loop plans intake dv
      s.adapt trace sio) := ⟨rfl, rfl, rfl, rfl, hD, hL, fun _ _ h => h⟩

theorem Keeps.setTrace {s t : State} (h : Keeps s t) (x : TraceU) : Keeps s { t with trace := x } := h.trans (.other t rfl rfl)

theorem Keeps.ite {s a b : State} {c : Prop} {d : Decidable c} (ha : Keeps s a) (hb : Keeps s b) : Keeps s (if c then a else b) := by
  split <;> assumption

theorem Keeps.foldl {α : Type} {f : State → α → State} (hf : ∀ s x, Keeps s (f s x)) (l : List α) (s : State) : Keeps s (l.foldl f s) := by
  induction l generalizing s with
  | nil => exact .refl s
  | cons x l ih => exact (hf s x).trans (ih _)

/-- A core that keeps its run state and its torch mark. -/
theorem updCore_keeps {n : Node} {f : Core → Core} (s : State) (hrun : (f (getCore s n)).run = (getCore s n).run)
    (htorch : (f (getCore s n)).torch = (getCore s n).torch) : Keeps s (updCore n f s) := by
  refine ⟨rfl, rfl, rfl, rfl, rfl, rfl, fun p hoff hs e he => ?_⟩
  rcases mem_putK he with he | rfl
  · exact hs e he
  · show p (f (getCore s n)).run (f (getCore s n)).torch
    rw [hrun, htorch]
    rcases getK_eq_default_or_mem {} s.cores n.toNat with h | ⟨e, he, h⟩
    · rw [getCore, h]; exact hoff
    · rw [getCore, ← h]; exact hs e he

theorem setCore_keeps {n : Node} {c : Core} (s : State) (hrun : c.run = (getCore s n).run) (htorch : c.torch = (getCore s n).torch) :
    Keeps s (setCore n c s) := updCore_keeps (f := fun _ => c) s hrun htorch

/-! Records of the log. -/

theorem logPut_keeps (kind cls : Byte) (code : W16) (p : List Byte) (s : State) : Keeps s (logPut kind cls code p s) := by
  unfold logPut
  split
  · exact .refl s
  · dsimp only
    split <;> split <;> exact .other s rfl rfl

theorem logRec_keeps (kind cls : Byte) (code : W16) (p : List Byte) (s : State) : Keeps s (logRec kind cls code p s) := by
  unfold logRec
  dsimp only
  split
  · exact (logPut_keeps kind cls code p s).trans ((Keeps.other _ rfl rfl).trans (logPut_keeps ..))
  · exact logPut_keeps ..

/-! Posted writes, events and interrupts. -/

theorem msix_keeps (v : Nat) (s : State) : Keeps s (msix v s) := by
  unfold msix
  dsimp only
  split <;> exact .other s rfl rfl

theorem discardPosted_keeps (flag : BitVec 4) (w : Posted) (s : State) : Keeps s (discardPosted flag w s) := by
  unfold discardPosted
  split
  · exact .other s rfl rfl
  · exact .refl s

theorem postWrite_keeps (w : Posted) (s : State) : Keeps s (postWrite w s) := by
  have hlost (flag : BitVec 4) (h : HostLink) : Keeps s (discardPosted flag w { s with host := h }) :=
    (Keeps.other s rfl rfl).trans (discardPosted_keeps ..)
  exact .ite (hlost ..) (.ite (.other s rfl rfl) (.ite (hlost ..) (.ite (hlost ..) (.other s rfl rfl))))

theorem setEvt_keeps (e : EvtSlot) (s : State) : Keeps s (setEvt e s) := .other s rfl rfl

theorem deliverTo_keeps (e : EvtSlot) (r : EvtRec) (s : State) : Keeps s (deliverTo e r s) := by
  unfold deliverTo
  dsimp only
  split
  · exact (postWrite_keeps ..).trans (setEvt_keeps ..)
  · have hrec (w : Posted) : Keeps s (if e.record then postWrite w s else s) := .ite (postWrite_keeps w s) (.refl s)
    have hset (w x : Posted) (y : EvtSlot) : Keeps s (setEvt y (postWrite x (if e.record then postWrite w s else s))) :=
      ((hrec w).trans (postWrite_keeps x _)).trans (setEvt_keeps y _)
    exact .ite ((hset ..).trans (msix_keeps ..)) (hset ..)

theorem postEvent_keeps (event kind : W16) (p : List Byte) (s : State) : Keeps s (postEvent event kind p s) := by
  unfold postEvent
  dsimp only
  split
  · exact .refl s
  · split
    · exact .other s rfl rfl
    · split
      · split
        · exact .other s rfl rfl
        · exact deliverTo_keeps ..
      · split <;> exact .other s rfl rfl

theorem notifyAll_keeps (kind : W16) (p : List Byte) (s : State) : Keeps s (notifyAll kind p s) :=
  .foldl (f := fun s (c : CtxSlot) => postEvent c.notify kind p s) (fun s c => postEvent_keeps c.notify kind p s) _ s

/-! Answers of the mailboxes. -/

/-- A mailbox that serves as before. -/
theorem setMb_keeps {m : Mailbox} {b : Mbx} {s : State} (h : b.service = (getMb m s).service) : Keeps s (setMb m b s) := by
  cases m
  · exact .other s h rfl
  · exact .other s rfl h

theorem respond_keeps (m : Mailbox) (k : Nat) (st dt : W16) (bs : List Byte) (s : State) : Keeps s (respond m k st dt bs s) := by
  unfold respond
  split
  · exact .refl s
  · refine .ite (Keeps.trans ?_ (msix_keeps ..)) ?_
    · exact setMb_keeps rfl
    · exact setMb_keeps rfl

theorem abandon_keeps (m : Mailbox) (ops : List W16) (s : State) : Keeps s (abandon m ops s) := by
  refine Keeps.trans ?_ (.foldl (f := fun s (w : Waiting) => respond m w.slot 9 0 [] s) (fun s w => respond_keeps m w.slot 9 0 [] s) _ _)
  exact setMb_keeps rfl

theorem answerOne_keeps (w : Waiting) (s : State) : Keeps s (answerOne w s) := by
  unfold answerOne
  split
  · exact (updCore_keeps s rfl rfl).trans (respond_keeps ..)
  · exact (Keeps.ite (.other s rfl rfl) (.refl s)).trans (respond_keeps ..)
  · exact .refl s

/-! Guarded changes. -/

theorem guardPhase_keeps (p : GPhase) (reason : Nat) (s : State) : Keeps s (guardPhase p reason s) :=
  (Keeps.other s rfl rfl).trans (logRec_keeps ..)

theorem restoreCopy_keeps (s : State) : Keeps s (restoreCopy s) := .other s rfl rfl

/-- Applying a guarded change at a frame boundary (R486) touches the configuration area, the outputs' samples and the trace's mask. -/
theorem applyDue_keeps (s : State) : Keeps s (applyDue s) := by
  unfold applyDue
  dsimp only
  split
  · exact .refl s
  · split
    · exact (guardPhase_keeps ..).trans (restoreCopy_keeps _)
    · split <;> exact (Keeps.other s rfl rfl).trans (guardPhase_keeps ..)

theorem answerBoundary_keeps (s : State) : Keeps s (answerBoundary s) := by
  refine (applyDue_keeps s).trans (Keeps.trans ?_ (.foldl (f := fun s (w : Waiting) => answerOne w s) (fun s w => answerOne_keeps w s) _ _))
  exact .other _ rfl rfl

/-! Traces. -/

theorem tracePut_keeps (r : List Byte) (s : State) : Keeps s (tracePut r s) := by
  unfold tracePut
  dsimp only
  split
  · exact .other s rfl rfl
  · exact .other s rfl rfl

theorem tracePut_cores (r : List Byte) (s : State) : (tracePut r s).cores = s.cores := by
  unfold tracePut
  dsimp only
  split <;> rfl

theorem traceFunnel_keeps (kind dom : Nat) (p : List Byte) (s : State) : Keeps s (traceFunnel kind dom p s) :=
  (Keeps.other s rfl rfl).trans (tracePut_keeps ..)

theorem foldl_tracePut_cores (l : List (List Byte)) (s : State) : (l.foldl (fun s r => tracePut r s) s).cores = s.cores := by
  induction l generalizing s with
  | nil => rfl
  | cons r l ih => exact (ih _).trans (tracePut_cores r s)

theorem getCore_of_cores {s t : State} (h : t.cores = s.cores) (n : Node) : getCore t n = getCore s n := by rw [getCore, h, getCore]

theorem traceRec_keeps (n : Node) (kind bit : Nat) (p : List Byte) (s : State) : Keeps s (traceRec n kind bit p s) := by
  unfold traceRec
  dsimp only
  split
  · exact .refl s
  · split
    · have hfold := Keeps.foldl (fun s r => tracePut_keeps r s) (getCore s n).traceFifo s
      have hcores := foldl_tracePut_cores (getCore s n).traceFifo s
      generalize (getCore s n).traceFifo.foldl (fun s r => tracePut r s) s = t at hfold hcores ⊢
      have hcore : getCore t n = getCore s n := getCore_of_cores hcores n
      split
      · exact (hfold.trans (setCore_keeps t (by rw [hcore]) (by rw [hcore]))).trans (tracePut_keeps ..)
      · have hsame : getCore (traceFunnel 0x11 0 (leBytes 4 (getCore s n).traceLost ++ leBytes 2 n.toNat) t) n = getCore s n :=
          (getCore_of_cores (tracePut_cores ..) n).trans hcore
        exact ((hfold.trans (traceFunnel_keeps ..)).trans (setCore_keeps _ (by rw [hsame]) (by rw [hsame]))).trans (tracePut_keeps ..)
    · split
      · exact setCore_keeps s rfl rfl
      · refine Keeps.setTrace ?_ _
        exact setCore_keeps s rfl rfl

theorem traceRun_keeps (before : SMap Core) (src : W16) (s : State) : Keeps s (traceRun before src s) :=
  .foldl (fun s _ => .ite (.refl s) (traceRec_keeps ..)) _ s

/-! Announcements to the partner. -/

theorem dvPump_keeps (fuel k : Nat) (s : State) : Keeps s (dvPump fuel k s) := by
  induction fuel generalizing s with
  | zero => exact .refl s
  | succ fuel ih =>
    unfold dvPump
    dsimp only
    split
    · exact .refl s
    · exact .ite (.refl s) ((Keeps.other s rfl rfl).trans (ih _))

theorem dvSend_keeps (k chan dst : Nat) (p : List Byte) (s : State) : Keeps s (dvSend k chan dst p s) :=
  (Keeps.other s rfl rfl).trans (dvPump_keeps ..)

theorem toPartner_keeps (chan : Nat) (p : List Byte) (s : State) : Keeps s (toPartner chan p s) := by
  unfold toPartner
  split
  · exact dvSend_keeps ..
  · exact .refl s

theorem announce_keeps (s : State) : Keeps s (announce s) := by
  have hside (k pos : Nat) (p : List Byte) (s : State) :
      Keeps s (if pos = partnerPos s then s else if (getK {} s.dv.ports k).state = .active then dvSend k 2 pos p s else s) :=
    .ite (.refl s) (.ite (dvSend_keeps ..) (.refl s))
  exact .ite (.refl s) (.ite (toPartner_keeps ..) (((hside ..).trans (hside ..)).trans (toPartner_keeps ..)))

/-- A lone device announces nothing (R425). -/
theorem announce_lone {s : State} (h : s.dv.n < 2) : announce s = s := if_pos h

/-! A change of the device's state. -/

/-- The state entered, before it is recorded and announced: STATE_SEQ counts it and FAULT_OUT follows it (R361, R362, R428). -/
def entered (st : DevState) (prior : Option DevState) (s : State) : State :=
  driveFault (faultOutOf st s.fc.aliveRun) { s with dev := { s.dev with state := st, prior, stateSeq := s.dev.stateSeq + 1 } }

theorem transition_keeps (st : DevState) (prior : Option DevState) (cause : W16) (s : State) :
    Keeps (entered st prior s) (transition st prior cause s) := (logRec_keeps ..).trans (notifyAll_keeps ..)

theorem enter_keeps (st : DevState) (prior : Option DevState) (cause : W16) (s : State) :
    Keeps (entered st prior s) (enter st prior cause s) := (transition_keeps ..).trans (announce_keeps _)

/-! Cores stopped, and the frame loop ended. -/

theorem stopCores_keeps (p : Core → Bool) (s : State) :
    Keeps { s with cores := s.cores.map (fun e => if p e.2 then (e.1, stopCore e.2) else e) } (stopCores p s) := traceRun_keeps ..

/-- A core that has been stopped does not run, wait or rest at its end (R70). -/
theorem stopCore_run (c : Core) : (stopCore c).run ≠ .run ∧ (stopCore c).run ≠ .wait ∧ (stopCore c).run ≠ .done := by
  unfold stopCore
  cases hrun : c.run <;> simp [hrun]

theorem stopCore_torch (c : Core) : (stopCore c).torch = c.torch := by
  unfold stopCore
  split <;> rfl

/-- The loop ended: the frame in progress stands last among those that wait for their delivery (R445, R449). -/
def endedLoop (s : State) : Loop :=
  { s.loop with
    ctx := none, cur := none, stopAt := none, starting := none
    past := match s.loop.cur with | some f => s.loop.past ++ [{ f with ended := true, endLtc := now s }] | none => s.loop.past
    torchCtx := match s.loop.ctx with | some c => some c | none => s.loop.torchCtx }

theorem endLoop_keeps (s : State) : Keeps { s with loop := endedLoop s } (endLoop s) :=
  (abandon_keeps ..).trans (answerBoundary_keeps _)

end Sys2Proof.Laws
end

section
/-! PROOF. Raises of the fault collector: registration, the reaction of each class, and the commands that raise (R56, R439–R449,
R457, R458, R462, R469). -/

open Sys2Proof Sys2Proof.Machine
namespace Sys2Proof.Laws

/-! Which raise a report is. -/

theorem exec_faultRaise (src : Source) (i : Inst) (d : List Byte) (s : State) : exec (.faultRaise src i d) s = .next (faultRaise src i d s) := rfl

/-- A core that may issue and finds an error in what its instruction uses faults (R56, R57, R60). -/
theorem faultRaise_core {s : State} {src : Source} {i : Inst} (hsrc : src = .coreRegPe ∨ src = .coreImemUe ∨ src = .coreMemUe)
    (hissue : canIssue (getCore s i.node) = true) (d : List Byte) : faultRaise src i d s = coreFault i.node src 0 0 s := if_pos ⟨hsrc, hissue⟩

theorem faultRaise_other {s : State} {src : Source} {i : Inst}
    (h : (src ≠ .coreRegPe ∧ src ≠ .coreImemUe ∧ src ≠ .coreMemUe) ∨ canIssue (getCore s i.node) = false) (d : List Byte) :
    faultRaise src i d s = raise src i d s := by
  refine if_neg fun ⟨hsrc, hissue⟩ => ?_
  rcases h with ⟨hreg, himem, hmem⟩ | h
  · rcases hsrc with h | h | h
    · exact hreg h
    · exact himem h
    · exact hmem h
  · simp [h] at hissue

/-- A CORE source on a core of a mirror pair is the pair's mismatch (R440). -/
theorem raise_paired {s : State} {src : Source} {i : Inst} {p : Pair} (hgroup : src.group = 0x02) (hsrc : src ≠ .destAbsent)
    (hpair : pairOf s i.node = some p) (d : List Byte) : raise src i d s = mismatch p d (register src i .c1 false d true s) := by
  simp only [raise, if_pos (And.intro hgroup hsrc), hpair]

theorem raise_unpaired {s : State} {src : Source} {i : Inst} (h : src.group ≠ 0x02 ∨ src = .destAbsent ∨ pairOf s i.node = none) (d : List Byte) :
    raise src i d s = raiseAs src i (clsOf s src i) false d s := by
  have hnone : (if src.group = 0x02 ∧ src ≠ .destAbsent then pairOf s i.node else none) = none := by
    split
    next hcore => simpa [hcore.1, hcore.2] using h
    next => rfl
  simp only [raise, hnone]

/-! Registration of what is not yet in the active table. -/

/-- The entry that a first raise makes (R462). -/
def firstEntry (s : State) (src : Source) (i : Inst) (cls : Cls) : Active :=
  let en := entryFor s src
  { source := src, inst := i, safety := isSafety s src i, cls
    raised := en.level || en.sticky
    episode := false
    cause := (cls = .c3 && (en.level || en.sticky)) || cls = .c4
    first := now s, latest := now s, quietFrom := now s
    quiet := if en.quiet = 0 then s.ltn.cfg.defaultQuiet else en.quiet
    scope := en.scope
    cnt := ({} : Stick 16).inc, fromPartner := false
    frame := frameNo s }

/-- The payload of the log record of a raise (R469). -/
def raisePayload (s : State) (src : Source) (i : Inst) (cnt : Stick 16) (d : List Byte) : List Byte :=
  leBytes 4 (instWord i (isSafety s src i)).toNat ++ leBytes 2 cnt.val.toNat ++ leBytes 4 (frameNo s).toNat
    ++ (if src = .mbStateRefused then sub d 0 2 else [])

/-- The twelve bytes that the record keeps begin with what was raised, the count and the frame (R469). -/
theorem take_raisePayload (s : State) (src : Source) (i : Inst) (cnt : Stick 16) (d : List Byte) :
    (sub (raisePayload s src i cnt d) 0 12).take 10 =
      leBytes 4 (instWord i (isSafety s src i)).toNat ++ leBytes 2 cnt.val.toNat ++ leBytes 4 (frameNo s).toNat := by
  have hlen : (leBytes 4 (instWord i (isSafety s src i)).toNat ++ leBytes 2 cnt.val.toNat ++ leBytes 4 (frameNo s).toNat).length = 10 := by simp
  unfold raisePayload
  generalize leBytes 4 (instWord i (isSafety s src i)).toNat ++ leBytes 2 cnt.val.toNat ++ leBytes 4 (frameNo s).toNat = a at hlen ⊢
  generalize (if src = .mbStateRefused then sub d 0 2 else []) = b
  have hprefix : 10 ≤ ((a ++ b).take 12).length := by simp [hlen]
  rw [sub, List.drop_zero, List.take_append_of_le_length hprefix, List.take_take, List.take_append_of_le_length (by simp [hlen]),
    List.take_of_length_le (by simp [hlen])]

/-- With room in the ring and nothing lost before it, a record stands at the ring's end (R469, R470). -/
theorem logRec_appends {s : State} (hheld : ltnHeld s = false) (hgap : s.log.gap = none) (hroom : s.log.ring.length < 2048)
    (kind cls : Byte) (code : W16) (p : List Byte) : ∃ mem log, logRec kind cls code p s = { s with mem, log } ∧
      log.ring = s.log.ring ++ [{ seq := s.log.seq, ltc := now s, kind, cls, code, payload := sub p 0 12 }] := by
  have hput : ∃ mem log, logPut kind cls code p s = { s with mem, log } ∧ log.gap = none ∧
      log.ring = s.log.ring ++ [{ seq := s.log.seq, ltc := now s, kind, cls, code, payload := sub p 0 12 }] := by
    have hfits : (s.log.ring ++ [({ seq := s.log.seq, ltc := now s, kind, cls, code, payload := sub p 0 12 } : LogRec)]).length ≤ 2048 := by
      simp; omega
    simp only [logPut, hheld, Bool.false_eq_true, if_false]
    rw [if_pos hfits]
    split <;> exact ⟨_, _, rfl, hgap, rfl⟩
  obtain ⟨mem, log, heq, hgap', hring⟩ := hput
  refine ⟨mem, log, ?_, hring⟩
  simp only [logRec, heq, hgap']

theorem msix_frame (v : Nat) (s : State) : ∃ sent host, msix v s = { s with sent, host } := by
  unfold msix
  dsimp only
  split <;> exact ⟨_, _, rfl⟩

/-- A report reaches the urgent slot, and the host through vector 0, alone (R339). -/
theorem report_frame (r : Report) (s : State) : ∃ urg sent host, report r s = { s with urg, sent, host } := by
  unfold report
  split
  · exact ⟨_, _, _, rfl⟩
  · unfold loadUrgent
    split
    · obtain ⟨sent, host, h⟩ := msix_frame 0 { s with urg := _ }
      exact ⟨_, sent, host, h⟩
    · exact ⟨_, _, _, rfl⟩

theorem reportIf_frame (c : Bool) (r : Report) (s : State) :
    ∃ urg sent host, (if c then report r s else s) = { s with urg, sent, host } := by
  split
  · exact report_frame r s
  · exact ⟨_, _, _, rfl⟩

theorem insertActive_appends {s : State} {e : Active} (hnew : s.fc.active.find? (fun x => x.is e.source e.inst) = none)
    (hroom : s.fc.active.length < 256) : insertActive e s = { s with fc := { s.fc with active := s.fc.active ++ [e] } } := by
  have hany : ¬ s.fc.active.any (fun x => x.is e.source e.inst) = true := by simpa using hnew
  rw [insertActive, if_neg hany, if_pos hroom]

/-- What is raised is not in the active table, and table and log have room. -/
structure FirstRaise (s : State) (src : Source) (i : Inst) : Prop where
  new : s.fc.active.find? (fun e => e.is src i) = none
  room : s.fc.active.length < 256
  held : ltnHeld s = false
  gap : s.log.gap = none
  ring : s.log.ring.length < 2048

/-- Registering a first raise (R461, R462, R469): one record in the log, one entry in the active table, and a report where the class
or the reaction table asks for one. -/
theorem register_first {s : State} {src : Source} {i : Inst} (h : FirstRaise s src i) (cls : Cls) (d : List Byte) :
    ∃ mem log urg sent host, register src i cls false d false s =
        { s with mem, log, urg, sent, host, fc := { s.fc with active := s.fc.active ++ [firstEntry s src i cls] } } ∧
      log.ring = s.log.ring ++ [{ seq := s.log.seq, ltc := now s, kind := 1, cls := BitVec.ofNat 8 cls.num, code := src.code,
                                  payload := sub (raisePayload s src i ({} : Stick 16).inc d) 0 12 }] := by
  obtain ⟨mem, log, hlog, hring⟩ := logRec_appends h.held h.gap h.ring 1 (BitVec.ofNat 8 cls.num) src.code
    (raisePayload s src i ({} : Stick 16).inc d)
  have hinsert : insertActive (firstEntry s src i cls) { s with mem, log } =
      { s with mem, log, fc := { s.fc with active := s.fc.active ++ [firstEntry s src i cls] } } := insertActive_appends h.new h.room
  unfold raisePayload at hlog
  unfold firstEntry at hinsert
  simp only [register, h.new, hlog, hinsert]
  obtain ⟨urg, sent, host, hrep⟩ := reportIf_frame _ _ _
  exact ⟨mem, log, urg, sent, host, hrep, hring⟩

/-! What raises besides registration: nothing for C0 and C1, the reaction of the class for the others. -/

/-- A raise that neither exceeds RECOVERY_LIMIT nor meets a torch plan ends with its own registration and reaction (R456, R458). -/
theorem raiseAs_ends {src : Source} {i : Inst} {cls : Cls} {d : List Byte} {s t : State} (h : raise1 src i cls false d false s = (t, false))
    (htorch : cls = .c3 → t.dev.state ≠ .degraded ∧ t.dev.state ≠ .realign) : raiseAs src i cls false d s = t := by
  have hquiet : ¬ ((cls = .c3 ∨ False) ∧ (t.dev.state = .degraded ∨ (t.dev.state = .realign ∧ t.dev.prior = some .degraded)) ∧ torchCheck t ≠ .none) := by
    rintro ⟨hcls | hno, hst, -⟩
    · obtain ⟨hdeg, hre⟩ := htorch hcls
      rcases hst with hst | ⟨hst, -⟩
      · exact hdeg hst
      · exact hre hst
    · exact hno
  simp only [raiseAs, h, Bool.false_eq_true, false_and, if_false, if_neg hquiet]

/-- A first raise of C0 or C1 on a lone device is its registration (R442). -/
theorem raiseAs_minor {s : State} {src : Source} {i : Inst} (h : FirstRaise s src i) (hlone : s.dv.n < 2) {cls : Cls}
    (hcls : cls = .c0 ∨ cls = .c1) (d : List Byte) : raiseAs src i cls false d s = register src i cls false d false s := by
  obtain ⟨mem, log, urg, sent, host, hreg, -⟩ := register_first h cls d
  have hdv : (register src i cls false d false s).dv.n < 2 := by rw [hreg]; exact hlone
  refine raiseAs_ends ?_ ?_
  · rcases hcls with rfl | rfl <;> simp [raise1, announce_lone hdv]
  · rcases hcls with rfl | rfl <;> simp

/-! C2: a recovery episode. -/

theorem map_is_eq_self {l : List Active} {src : Source} {i : Inst} (h : l.find? (fun e => e.is src i) = none) (e' : Active) :
    l.map (fun x => if x.is src i then e' else x) = l := by
  have hnone : ∀ x ∈ l, ¬ x.is src i = true := by simpa using h
  calc l.map (fun x => if x.is src i then e' else x) = l.map id := List.map_congr_left fun x hx => if_neg (hnone x hx)
    _ = l := List.map_id l

/-- The C2 reaction opens an episode for the entry just made and counts it, within RECOVERY_LIMIT (R457, R458). -/
theorem c2Reaction_opens {u : State} {src : Source} {i : Inst} {l : List Active} {e : Active} (hactive : u.fc.active = l ++ [e])
    (hnew : l.find? (fun e => e.is src i) = none) (his : e.is src i = true) (hepisode : e.episode = false)
    (hlimit : u.fc.recovery.inc.val.toNat ≤ u.ltn.cfg.recoveryLimit) : ∃ v, c2Reaction src i u = (v, false) ∧
      v.dv = u.dv ∧ v.dev = u.dev ∧ v.cores = u.cores ∧ v.loop.ctx = u.loop.ctx ∧
      v.fc = { u.fc with recovery := u.fc.recovery.inc, active := l ++ [{ e with episode := true, expired := false }] } := by
  have hfind : u.fc.active.find? (fun e => e.is src i) = some e := by rw [hactive, List.find?_append, hnew]; simp [his]
  have hmap (e' : Active) : u.fc.active.map (fun x => if x.is src i then e' else x) = l ++ [e'] := by
    rw [hactive, List.map_append, map_is_eq_self hnew]; simp [his]
  have hwithin : ¬ u.ltn.cfg.recoveryLimit < u.fc.recovery.inc.val.toNat := Nat.not_lt.mpr hlimit
  simp only [c2Reaction, hfind, hepisode, Bool.not_false, if_true, Bool.true_and]
  split
  · simp only [hmap, hwithin, decide_false, Bool.or_false]
    exact ⟨_, rfl, rfl, rfl, rfl, rfl, rfl⟩
  · simp only [markOutputs, hmap, hwithin, decide_false, Bool.or_false]
    exact ⟨_, rfl, rfl, rfl, rfl, rfl, rfl⟩
  · simp only [markOutputs, hmap, hwithin, decide_false, Bool.or_false]
    exact ⟨_, rfl, rfl, rfl, rfl, rfl, rfl⟩

theorem raiseAs_c2 {s : State} {src : Source} {i : Inst} (h : FirstRaise s src i) (hlone : s.dv.n < 2)
    (hlimit : s.fc.recovery.inc.val.toNat ≤ s.ltn.cfg.recoveryLimit) (d : List Byte) : ∃ v, raiseAs src i .c2 false d s = v ∧
      v.dev = s.dev ∧ v.cores = s.cores ∧ v.loop.ctx = s.loop.ctx ∧
      v.fc = { s.fc with
        recovery := s.fc.recovery.inc
        active := s.fc.active ++ [{ firstEntry s src i .c2 with episode := true, expired := false }] } := by
  obtain ⟨mem, log, urg, sent, host, hreg, -⟩ := register_first h .c2 d
  have his : (firstEntry s src i .c2).is src i = true := by simp [Active.is, firstEntry]
  obtain ⟨v, hc2, hdv, hdev, hcores, hctx, hfc⟩ := c2Reaction_opens (u := register src i .c2 false d false s) (by rw [hreg]) h.new his rfl
    (by rw [hreg]; exact hlimit)
  rw [hreg] at hdv hdev hcores hctx hfc
  have hquiet : announce v = v := announce_lone (by rw [hdv]; exact hlone)
  exact ⟨v, raiseAs_ends (by simp [raise1, hc2, hquiet]) nofun, hdev, hcores, hctx, hfc⟩

/-! What a C3 and a C4 reaction stop. -/

/-- The machine stopped: the cores for which `p` holds, the frame loop, and a recalibration run. -/
@[irreducible] def halted (p : Core → Bool) (s : State) : State := dropRun (endLoop (stopCores p s))

theorem halted_dev (p : Core → Bool) (s : State) : (halted p s).dev = s.dev := by
  simp only [halted, dropRun, (endLoop_keeps (stopCores p s)).dev, (stopCores_keeps p s).dev]

theorem halted_fc (p : Core → Bool) (s : State) : (halted p s).fc = s.fc := by
  simp only [halted, dropRun, (endLoop_keeps (stopCores p s)).fc, (stopCores_keeps p s).fc]

theorem halted_loop (p : Core → Bool) (s : State) : (halted p s).loop = endedLoop (stopCores p s) := by
  simp only [halted, dropRun, (endLoop_keeps (stopCores p s)).loop]

theorem halted_run (p : Core → Bool) (s : State) : (halted p s).adapt.run = none := by simp only [halted, dropRun]

/-- The frame in progress waits for its delivery (R445, R449). -/
theorem halted_past {s : State} {f : Frame} (hcur : s.loop.cur = some f) (p : Core → Bool) :
    ∃ g ∈ (halted p s).loop.past, g.n = f.n ∧ g.ended = true ∧ g.recs = f.recs := by
  have hcur' : (stopCores p s).loop.cur = some f := by rw [(stopCores_keeps p s).loop]; exact hcur
  refine ⟨{ f with ended := true, endLtc := now (stopCores p s) }, ?_, rfl, rfl, rfl⟩
  rw [halted_loop]
  simp only [endedLoop, hcur']
  exact List.mem_append_right _ List.mem_cons_self

/-- What holds of every core stopped, of every core left alone and of a core at reset holds of every core. -/
theorem halted_cores {p : Core → Bool} {q : RunState → Bool → Prop} (hoff : q .off false) (hstop : ∀ c, p c = true → q (stopCore c).run c.torch)
    (hleft : ∀ c, p c = false → q c.run c.torch) (s : State) : ∀ e ∈ (halted p s).cores, q e.2.run e.2.torch := by
  have hstopped : ∀ e ∈ s.cores.map (fun e => if p e.2 then (e.1, stopCore e.2) else e), q e.2.run e.2.torch := by
    intro e he
    obtain ⟨x, -, rfl⟩ := List.mem_map.mp he
    cases hp : p x.2 with
    | true =>
      show q (stopCore x.2).run (stopCore x.2).torch
      rw [stopCore_torch]
      exact hstop x.2 hp
    | false => exact hleft x.2 hp
  simp only [halted, dropRun]
  exact (endLoop_keeps (stopCores p s)).cores q hoff ((stopCores_keeps p s).cores q hoff hstopped)

theorem mark_all_invalid (cls : Cls) (src : Source) (f : Frame) : ∀ r ∈ (f.mark (fun _ => true) cls src).recs, r.invalid = true := by
  intro r hr
  obtain ⟨k, hk, rfl⟩ := List.mem_mapIdx.mp hr
  rw [if_pos rfl, OutRec.mark]
  split
  next h => exact h
  next => rfl

/-! C3: SAFE_HOLD. -/

/-- The state once a C3 reaction has asserted the pins and marked the records of the frame in progress (R445, R449). -/
def c3Begun (src : Source) (i : Inst) (s : State) : State :=
  markOutputs (fun _ => true) .c3 src <| driveSafe true { s with fc := { s.fc with
    c3 := true, c3At := if s.fc.c3 then s.fc.c3At else now s,
    lastLtc := now s, lastSrc := src.code, lastCls := .c3, lastInst := instWord i (isSafety s src i),
    chan0 := { s.fc.chan0 with highest := s.fc.chan0.highest.max .c3 },
    chan1 := { s.fc.chan1 with highest := s.fc.chan1.highest.max .c3 } } }

/-- The torch conditions judged now (R454). -/
def judgeTorch (s : State) : State := { s with fc := { s.fc with torchReason := torchCheck s } }

/-- What a C3 reaction asks of a core's run state and torch mark: outside the torch section it is at rest (R445). -/
def mainAtRest (r : RunState) (torch : Bool) : Prop := torch = false → r ≠ .run ∧ r ≠ .wait ∧ r ≠ .done

section C3
variable {s : State} (hst : s.dev.state = .ready ∨ s.dev.state = .attached ∨ s.dev.state = .running ∨ s.dev.state = .adapting)
include hst

theorem c3Reaction_live (src : Source) (i : Inst) :
    c3Reaction src i s = transition .safeHold none src.code (judgeTorch (halted (fun c => !c.torch) (c3Begun src i s))) := by
  have hdev : (c3Begun src i s).dev.state = s.dev.state := rfl
  rcases hst with h | h | h | h <;> rw [h] at hdev <;> unfold c3Begun at hdev <;> simp only [c3Reaction, hdev, halted, c3Begun, judgeTorch]

theorem c3Reaction_keeps (src : Source) (i : Inst) :
    Keeps (entered .safeHold none (judgeTorch (halted (fun c => !c.torch) (c3Begun src i s)))) (c3Reaction src i s) := by
  rw [c3Reaction_live hst]
  exact transition_keeps ..

theorem c3Reaction_dev (src : Source) (i : Inst) :
    (c3Reaction src i s).dev = { s.dev with state := .safeHold, prior := none, stateSeq := s.dev.stateSeq + 1 } := by
  have hdev : (halted (fun c => !c.torch) (c3Begun src i s)).dev = s.dev := halted_dev ..
  rw [(c3Reaction_keeps hst src i).dev, ← hdev]
  rfl

/-- The pins are asserted; SAFE_B_N is high only while SIO_HARNESS_SWAP is raised (R364, R428, R445, R524). -/
theorem c3Reaction_pins (src : Source) (i : Inst) :
    (c3Reaction src i s).fc.c3 = true ∧ (c3Reaction src i s).fc.safeA = true ∧ (c3Reaction src i s).fc.faultOut = .marked ∧
    (c3Reaction src i s).fc.safeBN = s.fc.active.any (fun e => e.source = .sioHarnessSwap && e.raised) := by
  have hfc := halted_fc (fun c => !c.torch) (c3Begun src i s)
  rw [(c3Reaction_keeps hst src i).fc]
  refine ⟨?_, ?_, rfl, ?_⟩
  · exact congrArg Fc.c3 hfc
  · exact congrArg Fc.safeA hfc
  · exact congrArg Fc.safeBN hfc

theorem c3Reaction_stops (src : Source) (i : Inst) :
    (c3Reaction src i s).loop.ctx = none ∧ (c3Reaction src i s).loop.cur = none ∧ (c3Reaction src i s).adapt.run = none ∧
    (∀ e ∈ (c3Reaction src i s).cores, e.2.torch = false → e.2.run ≠ .run ∧ e.2.run ≠ .wait ∧ e.2.run ≠ .done) ∧
    (∀ f, s.loop.cur = some f → ∃ g ∈ (c3Reaction src i s).loop.past, g.n = f.n ∧ g.ended = true ∧ ∀ r ∈ g.recs, r.invalid = true) := by
  have hkeeps := c3Reaction_keeps hst src i
  have hloop := halted_loop (fun c => !c.torch) (c3Begun src i s)
  refine ⟨?_, ?_, ?_, ?_, fun f hcur => ?_⟩
  · rw [hkeeps.loop]; exact congrArg Loop.ctx hloop
  · rw [hkeeps.loop]; exact congrArg Loop.cur hloop
  · rw [hkeeps.adapt]; exact halted_run ..
  · exact hkeeps.cores mainAtRest (by simp [mainAtRest])
      (halted_cores (by simp [mainAtRest]) (fun c _ _ => stopCore_run c) (fun c hc htorch => by simp [htorch] at hc) _)
  · have hmarked : (c3Begun src i s).loop.cur = some (f.mark (fun _ => true) .c3 src) := congrArg (Option.map _) hcur
    obtain ⟨g, hg, hn, hended, hrecs⟩ := halted_past hmarked (fun c => !c.torch)
    rw [hkeeps.loop]
    exact ⟨g, hg, hn, hended, hrecs ▸ mark_all_invalid .c3 src f⟩

/-- A C3 raise on a device at work: registration, then the reaction. -/
theorem raiseAs_c3 {src : Source} {i : Inst} (h : FirstRaise s src i) (d : List Byte) : ∃ u, u.dev = s.dev ∧ u.loop = s.loop ∧
    u.fc.active = s.fc.active ++ [firstEntry s src i .c3] ∧ Keeps (c3Reaction src i u) (raiseAs src i .c3 false d s) := by
  have hnot : s.dev.state ≠ .degraded := by rcases hst with h | h | h | h <;> simp [h]
  obtain ⟨v, hraise, hfirst, hdev, hloop, hactive, hentry⟩ : ∃ v, raise1 src i .c3 false d false s =
      (announce (c3Reaction src i (register src i .c3 false d false v)), false) ∧ FirstRaise v src i ∧ v.dev = s.dev ∧ v.loop = s.loop ∧
      v.fc.active = s.fc.active ∧ firstEntry v src i .c3 = firstEntry s src i .c3 :=
    ⟨{ s with fc := { s.fc with c3List := s.fc.c3List ++ [(src, i)]
                                torchReason := torchCheck { s with fc := { s.fc with c3List := s.fc.c3List ++ [(src, i)] } } } },
      by simp [raise1, hnot, Cls.ge], ⟨h.new, h.room, h.held, h.gap, h.ring⟩, rfl, rfl, rfl, rfl⟩
  obtain ⟨mem, log, urg, sent, host, hreg, -⟩ := register_first hfirst .c3 d
  have hudev : (register src i .c3 false d false v).dev = s.dev := by rw [hreg]; exact hdev
  refine ⟨register src i .c3 false d false v, hudev, by rw [hreg]; exact hloop, by rw [hreg, ← hactive, ← hentry], ?_⟩
  have hkeeps := announce_keeps (c3Reaction src i (register src i .c3 false d false v))
  rw [raiseAs_ends hraise]
  · exact hkeeps
  · intro _
    rw [hkeeps.dev, c3Reaction_dev (by rw [hudev]; exact hst)]
    simp

end C3

/-! C4: LOCKED. -/

/-- The state once a C4 reaction has asserted the pins, stopped ALIVE and marked the records (R446, R447, R449). -/
def c4Begun (src : Source) (i : Inst) (s : State) : State :=
  markOutputs (fun _ => true) .c4 src <| driveSafe true { s with fc := { s.fc with
    c4 := true, lastLtc := now s, lastSrc := src.code, lastCls := .c4,
    lastInst := instWord i (isSafety s src i), torch := false, torchReason := .c4,
    aliveRun := false, alive := false, aliveAt := edgeTime s.fc.alive false s.fc.aliveAt s,
    chan0 := { s.fc.chan0 with highest := .c4 }, chan1 := { s.fc.chan1 with highest := .c4 } } }

/-- What a C4 reaction asks of a core's run state, whatever its torch mark: it is at rest (R446). -/
def atRest (r : RunState) (_torch : Bool) : Prop := r ≠ .run ∧ r ≠ .wait ∧ r ≠ .done

/-- The latch set, the dispatch complex and both mailboxes shut, and the trigger outputs inactive (R446, R460). -/
def shut (s : State) : State :=
  { s with dev := { s.dev with lockedLatch := true, dispatchUp := false, dspFwVer := 0 },
           mbD := { s.mbD with service := false }, mbL := { s.mbL with service := false },
           time := { s.time with trig := s.time.trig.map (fun e => (e.1, { e.2 with active := false, edgeAt := edgeTime e.2.active false e.2.edgeAt s })) } }

theorem c4Reaction_unlocked {s : State} (hst : s.dev.state ≠ .locked) (src : Source) (i : Inst) :
    c4Reaction src i s = transition .locked none src.code (shut (halted (fun _ => true) (c4Begun src i s))) := by
  have hdev : ¬ (c4Begun src i s).dev.state = .locked := hst
  unfold c4Begun at hdev
  simp only [c4Reaction, if_neg hdev, halted, c4Begun, shut]

theorem c4Reaction_keeps {s : State} (hst : s.dev.state ≠ .locked) (src : Source) (i : Inst) :
    Keeps (entered .locked none (shut (halted (fun _ => true) (c4Begun src i s)))) (c4Reaction src i s) := by
  rw [c4Reaction_unlocked hst]
  exact transition_keeps ..

theorem c4Reaction_locks {s : State} (hst : s.dev.state ≠ .locked) (src : Source) (i : Inst) :
    (c4Reaction src i s).dev.state = .locked ∧ (c4Reaction src i s).dev.lockedLatch = true ∧ (c4Reaction src i s).dev.dispatchUp = false ∧
    (c4Reaction src i s).fc.c4 = true ∧ (c4Reaction src i s).fc.safeA = true ∧ (c4Reaction src i s).fc.alive = false ∧
    (c4Reaction src i s).fc.aliveRun = false ∧ (c4Reaction src i s).fc.faultOut = .high ∧
    (c4Reaction src i s).mbD.service = false ∧ (c4Reaction src i s).mbL.service = false ∧
    (c4Reaction src i s).loop.ctx = none ∧ (c4Reaction src i s).loop.cur = none ∧
    (∀ e ∈ (c4Reaction src i s).cores, e.2.run ≠ .run ∧ e.2.run ≠ .wait ∧ e.2.run ≠ .done) := by
  have hkeeps := c4Reaction_keeps hst src i
  have hfc := halted_fc (fun _ => true) (c4Begun src i s)
  have hloop := halted_loop (fun _ => true) (c4Begun src i s)
  rw [hkeeps.dev, hkeeps.fc, hkeeps.loop, hkeeps.serviceD, hkeeps.serviceL]
  exact ⟨rfl, rfl, rfl, congrArg Fc.c4 hfc, congrArg Fc.safeA hfc, congrArg Fc.alive hfc, congrArg Fc.aliveRun hfc, rfl, rfl, rfl,
    congrArg Loop.ctx hloop, congrArg Loop.cur hloop,
    hkeeps.cores atRest (by simp [atRest])
      (halted_cores (q := atRest) (by simp [atRest]) (fun c _ => stopCore_run c) (fun _ hc => Bool.noConfusion hc) (c4Begun src i s))⟩

/-- A C4 raise: registration, then the reaction. -/
theorem raiseAs_c4 {s : State} {src : Source} {i : Inst} (h : FirstRaise s src i) (d : List Byte) : ∃ u, u.dev = s.dev ∧
    Keeps (c4Reaction src i u) (raiseAs src i .c4 false d s) := by
  obtain ⟨mem, log, urg, sent, host, hreg, -⟩ := register_first h .c4 d
  refine ⟨register src i .c4 false d false s, by rw [hreg], ?_⟩
  have hraise : raise1 src i .c4 false d false s = (announce (c4Reaction src i (register src i .c4 false d false s)), false) := by
    simp [raise1, Cls.ge, Cls.num]
  rw [raiseAs_ends hraise nofun]
  exact announce_keeps _

theorem exec_colChannelDiffer (s : State) : exec .colChannelDiffer s = .next (raise .colChannelDiffer dev [] s) := rfl
theorem exec_ltnWatchdog (s : State) : exec .ltnWatchdog s = .next (raise .ltnWatchdog dev [] s) := rfl

/-- Settles O51: the core's own error, the mirror pair, the reaction of each class, and the two sources of a fixed class. -/
theorem faultReactions : Obligations.FaultReactions := by
  refine ⟨fun s src i d hsrc hissue => ?core, fun s src i d p hgroup hsrc hpair hother => ?pair,
    fun s src i d hunpaired hother hlone hnew hroom hheld hgap hring => ?raised, fun s => ⟨?differ, rfl, ?watchdog, rfl⟩⟩
  case core => rw [exec_faultRaise, faultRaise_core hsrc hissue]
  case pair => rw [exec_faultRaise, faultRaise_other hother, raise_paired hgroup hsrc hpair]
  case differ => rw [exec_colChannelDiffer, exec_faultRaise, faultRaise_other (.inl (by decide))]
  case watchdog => rw [exec_ltnWatchdog, exec_faultRaise, faultRaise_other (.inl (by decide))]
  case raised =>
    have hfirst : FirstRaise s src i := ⟨hnew, hroom, hheld, hgap, hring⟩
    refine ⟨raiseAs src i (clsOf s src i) false d s, by rw [exec_faultRaise, faultRaise_other hother, raise_unpaired hunpaired],
      fun hcls => ?minor, fun hcls hlimit => ?c2, fun hcls hst _ => ?c3, fun hcls hst _ => ?c4⟩
    case minor =>
      obtain ⟨mem, log, urg, sent, host, hreg, hlog⟩ := register_first hfirst (clsOf s src i) d
      rw [raiseAs_minor hfirst hlone hcls, hreg]
      have hcause : (firstEntry s src i (clsOf s src i)).cause = false := by rcases hcls with h | h <;> simp [firstEntry, h]
      exact ⟨⟨_, rfl, rfl, rfl, rfl, rfl, rfl, rfl, hcause⟩, ⟨_, hlog, length_sub .., take_raisePayload ..⟩, rfl, rfl, rfl, rfl, rfl, rfl⟩
    case c2 =>
      rw [hcls]
      obtain ⟨v, hraise, hdev, hcores, hctx, hfc⟩ := raiseAs_c2 hfirst hlone hlimit d
      rw [hraise, hfc]
      exact ⟨hdev, hcores, rfl, rfl, hctx, _, rfl, rfl, rfl, rfl, rfl, rfl⟩
    case c3 =>
      rw [hcls]
      obtain ⟨u, hdev, hloop, hactive, hkeeps⟩ := raiseAs_c3 hst hfirst d
      have hst' : u.dev.state = .ready ∨ u.dev.state = .attached ∨ u.dev.state = .running ∨ u.dev.state = .adapting := by rw [hdev]; exact hst
      obtain ⟨hc3, hsafeA, hfaultOut, hsafeBN⟩ := c3Reaction_pins hst' src i
      obtain ⟨hctx, hcur, hrun, hcores, hpast⟩ := c3Reaction_stops hst' src i
      rw [hkeeps.dev, hkeeps.fc, hkeeps.loop, hkeeps.adapt, c3Reaction_dev hst', hdev, ← hloop]
      refine ⟨rfl, rfl, rfl, hc3, hsafeA, fun hsrc hswap => ?_, hfaultOut, hctx, hcur, hrun, ?_, hpast⟩
      · rw [hsafeBN, hactive]
        simpa [firstEntry, hsrc] using fun e he hsame => absurd hsame (hswap e he)
      · exact hkeeps.cores mainAtRest (by simp [mainAtRest]) hcores
    case c4 =>
      rw [hcls]
      obtain ⟨u, hdev, hkeeps⟩ := raiseAs_c4 hfirst d
      obtain ⟨hlocked, hlatch, hup, hc4, hsafeA, halive, haliveRun, hfaultOut, hmbD, hmbL, hctx, hcur, hcores⟩ :=
        c4Reaction_locks (by rw [hdev]; exact hst) src i
      rw [hkeeps.dev, hkeeps.fc, hkeeps.loop, hkeeps.serviceD, hkeeps.serviceL]
      exact ⟨hlocked, hlatch, hup, hc4, hsafeA, halive, haliveRun, hfaultOut, hmbD, hmbL, hctx, hcur,
        hkeeps.cores atRest (by simp [atRest]) hcores⟩

end Sys2Proof.Laws
end

section
/-! PROOF. The guard, fault, firmware and trace commands of the mailboxes (R52, R193, R352–R355, R459, R462, R477, R478, R484, R487). -/

open Sys2Proof Sys2Proof.Machine
namespace Sys2Proof.Laws

/-! How a command that has passed the common checks ends. -/

section Served
variable {m : Mailbox} {op k : Nat} {ks : List Nat} {r : Req} {s : State} (h : Asked m op k ks r s) {body : Req → State → State}
include h

theorem serve_gives {t : State} (hbody : body r (taken m ks s) = t) : (.next (serveCmd m op body s) : Res) = .next (settle 8 m t) := by
  rw [serve_asked h, hbody]

theorem serve_refuses {st dt : W16} {t : State} (hbody : body r (taken m ks s) = refuse m r st dt [] t) :
    (.next (serveCmd m op body s) : Res) = .next (declined m r st dt [] t) := serve_gives h hbody

theorem serve_answers {bs : List Byte} {t : State} (hbody : body r (taken m ks s) = ok m r bs t) :
    (.next (serveCmd m op body s) : Res) = .next (answered m k bs t) := by
  rw [serve_gives h hbody, ok, asked_slot h, answered]

end Served

/-! A record of the log touches the log and its mirror in staging alone (R469, R470). -/

theorem logPut_frame (kind cls : Byte) (code : W16) (p : List Byte) (s : State) : ∃ mem log, logPut kind cls code p s = { s with mem, log } := by
  unfold logPut
  split
  · exact ⟨_, _, rfl⟩
  · dsimp only
    split <;> split <;> exact ⟨_, _, rfl⟩

theorem logRec_frame (kind cls : Byte) (code : W16) (p : List Byte) (s : State) : ∃ mem log, logRec kind cls code p s = { s with mem, log } := by
  obtain ⟨mem, log, h⟩ := logPut_frame kind cls code p s
  simp only [logRec, h]
  split
  · obtain ⟨mem', log', h'⟩ := logPut_frame 0x0A 0 0 _ { s with mem, log := { log with gap := none } }
    exact ⟨mem', log', h'⟩
  · exact ⟨mem, log, rfl⟩

/-! Proposals. -/

theorem nextGuardId_ne_zero (id : W32) : nextGuardId id ≠ 0 := by
  unfold nextGuardId
  split
  · decide
  · assumption

theorem nextGuardId_of_ne {id : W32} (h : id + 1 ≠ 0) : nextGuardId id = id + 1 := if_neg h

theorem challengeOf_ne_zero (n : Nat) : challengeOf n ≠ 0 := by
  unfold challengeOf
  split
  · decide
  · assumption

/-- A proposal can be made when none is held and the safety MCU has been heard in the last 100 ms (R353, R487). -/
theorem proposeBlocked_eq_none {s : State} : proposeBlocked s = none ↔
    s.ltn.guard.phase ≠ .awaiting ∧ s.ltn.guard.phase ≠ .endorsed ∧ ∃ t, s.ltn.spiLast = some t ∧ (now s - t).toNat ≤ 100000000 := by
  have hfresh : spiFresh s = true ↔ ∃ t, s.ltn.spiLast = some t ∧ (now s - t).toNat ≤ 100000000 := by
    unfold spiFresh
    cases s.ltn.spiLast with
    | none => simp
    | some t => simp only [decide_eq_true_eq, Option.some.injEq, exists_eq_left']
  rw [← hfresh]
  cases hphase : s.ltn.guard.phase <;> simp [proposeBlocked, hphase]

/-- The proposal that a change becomes (R484). -/
def proposalOf (r : Req) (kind : Byte) (digest plan : List Byte) (change : GChange) (s : State) : Guard :=
  let g := s.ltn.guard
  { id := nextGuardId g.id, phase := .awaiting, kind, digest, planDigest := plan, args := r.argBytes 0 16,
    challenge := challengeOf g.drawn, deadline := now s + 500000000, drawn := g.drawn + 1, change,
    writing := g.writing, failCnt := g.failCnt }

theorem newProposal_refused {s : State} {c : GChange} {st dt : W16} (h : checkChange s c = some (st, dt)) (r : Req) (kind : Byte) (dg plan : List Byte) :
    newProposal r kind dg plan c s = refuse .lantern r st dt [] s := by simp only [newProposal, h]

theorem newProposal_accepted {s : State} {c : GChange} (h : checkChange s c = none) (r : Req) (kind : Byte) (dg plan : List Byte) : ∃ t,
    newProposal r kind dg plan c s = ok .lantern r
      (leBytes 4 t.ltn.guard.id.toNat ++ leBytes 4 t.ltn.guard.challenge.toNat ++ leBytes 8 (now s + 500000000).toNat ++ sub dg 0 32) t ∧
    t.ltn = { s.ltn with guard := t.ltn.guard } ∧ t.ltn.guard = proposalOf r kind dg plan c s ∧ t.dev = s.dev := by
  obtain ⟨mem, log, hlog⟩ := logRec_frame 3 0 0 (leBytes 4 (nextGuardId s.ltn.guard.id).toNat ++ [kind] ++ leBytes 1 1 ++ leBytes 1 0)
    (updGuard (fun _ => proposalOf r kind dg plan c s) s)
  refine ⟨{ s with ltn := { s.ltn with guard := proposalOf r kind dg plan c s }, mem, log }, ?_, rfl, rfl, rfl⟩
  simp only [newProposal, h]
  exact congrArg _ hlog

/-! PROPOSE. -/

section Propose
variable {s : State} {r : Req} {staged : Option (List Byte)}

theorem propose_blocked {st dt : W16} (h : proposeBlocked s = some (st, dt)) : propose staged r s = refuse .lantern r st dt [] s := by
  simp only [propose, h]

theorem propose_noKind (hfree : proposeBlocked s = none) (hkind : r.arg 0 1 = 0 ∨ 6 < r.arg 0 1) : propose staged r s = bad .lantern r 16 s := by
  simp only [propose, hfree, if_pos hkind]

theorem propose_inline (hfree : proposeBlocked s = none) (hzero : zeros r.args 1 3 = true) {kind : Nat} (hkind : r.arg 0 1 = kind) (hlow : 3 ≤ kind)
    (hhigh : kind ≤ 6) : propose staged r s = proposeInline kind r s := by
  have hknown : ¬(kind = 0 ∨ 6 < kind) := by omega
  have hobject : ¬(kind = 1 ∨ kind = 2) := by omega
  simp only [propose, hfree, hkind, if_neg hknown, hzero, not_true_eq_false, if_false, if_neg hobject]

theorem propose_object (hfree : proposeBlocked s = none) (hzero : zeros r.args 1 3 = true) {kind : Nat} (hkind : r.arg 0 1 = kind)
    (hobject : kind = 1 ∨ kind = 2) : propose staged r s = proposeObject kind staged r s := by
  have hknown : ¬(kind = 0 ∨ 6 < kind) := by omega
  simp only [propose, hfree, hkind, if_neg hknown, hzero, not_true_eq_false, if_false, if_pos hobject]

theorem proposeInline_scaleRevert {x : ScaleRec} (hrec : scaleRec s.ltn.cfg (r.argBytes 48 32) = some x) (hprev : x.previous ≠ [])
    (hgiven : x.previous = r.argBytes 16 32) :
    proposeInline 4 r s = newProposal r 4 (r.argBytes 16 32) (r.argBytes 48 32) (.scaleRevert (r.argBytes 48 32) (r.argBytes 16 32)) s := by
  simp only [proposeInline, hrec, if_neg hprev, if_neg (not_not.mpr hgiven)]

theorem proposeInline_noScale (hrec : scaleRec s.ltn.cfg (r.argBytes 48 32) = none) : proposeInline 4 r s = refuse .lantern r 5 64 [] s := by
  simp only [proposeInline, hrec]

/-- The kinds CEILING and DEBUG_UNLOCK propose argument bytes 0 to 15, whose digest is given (R353). -/
theorem proposeInline_arguments {kind : Nat} (hkind : kind = 5 ∨ kind = 6) (hzero : zeros r.args 48 32 = true) :
    proposeInline kind r s = if sha256 (r.argBytes 0 16) ≠ r.argBytes 16 32 then bad .lantern r 32 s
      else newProposal r (BitVec.ofNat 8 kind) (sha256 (r.argBytes 0 16)) [] (if kind = 5 then .ceiling (r.arg 8 8) else .debugUnlock (r.arg 8 8)) s := by
  rcases hkind with rfl | rfl <;> simp only [proposeInline, hzero, not_true_eq_false, if_false]

/-- A staged object is copied before its digest is checked (R483). -/
theorem proposeObject_copied {kind : Nat} {b : List Byte} (hcount : r.arg 4 4 < s.obj.objTab.count) (htorn : tornObj s (r.arg 4 4) = false)
    (hzero : zeros r.args 48 32 = true) (hlen : b.length ≤ (if kind = 1 then 262144 else 1048576)) :
    proposeObject kind (some b) r s = if sha256 b ≠ r.argBytes 16 32 then bad .lantern r 32 (stageCopy b s)
      else if kind = 1 then newProposal r 1 (sha256 b) [] (.config b) (stageCopy b s)
      else if manifestOk b b.length then newProposal r 2 (sha256 b) [] (.manifest (sub b 32 32)) (stageCopy b s)
      else refuse .lantern r 12 1 [] (stageCopy b s) := by
  simp only [proposeObject, if_neg (Nat.not_le.mpr hcount), htorn, Bool.false_eq_true, hzero, not_true_eq_false, if_false, if_neg (Nat.not_lt.mpr hlen)]

end Propose

/-! The other proposing commands, VETO, and what they leave of a proposal. -/

section Guarded
variable {s : State} {r : Req}

theorem spareSubstitute_blocked {st dt : W16} (h : proposeBlocked s = some (st, dt)) : spareSubstitute r s = refuse .lantern r st dt [] s := by
  simp only [spareSubstitute, h]

theorem spareSubstitute_noGallery (hfree : proposeBlocked s = none) (h : 3 < r.arg 0 1) : spareSubstitute r s = bad .lantern r 16 s := by
  simp only [spareSubstitute, hfree, if_pos h]

theorem spareSubstitute_proposes (hfree : proposeBlocked s = none) (hgallery : r.arg 0 1 ≤ 3) (hcolumn : r.arg 1 1 ≤ 6) (hrow : r.arg 2 1 ≤ 5)
    (hspare : r.arg 3 1 ≤ 1) (hrevoke : r.arg 4 1 ≤ 1) (hzero : zeros r.args 5 11 = true) :
    spareSubstitute r s = newProposal r 7 (sha256 (r.argBytes 0 16)) []
      (.spare { gallery := BitVec.ofNat 2 (r.arg 0 1), column := BitVec.ofNat 3 (r.arg 1 1), row := BitVec.ofNat 3 (r.arg 2 1), spare := r.arg 3 1 }
        (decide (r.arg 4 1 = 1))) s := by
  simp only [spareSubstitute, hfree, if_neg (Nat.not_lt.mpr hgallery), if_neg (Nat.not_lt.mpr hcolumn), if_neg (Nat.not_lt.mpr hrow),
    if_neg (Nat.not_lt.mpr hspare), if_neg (Nat.not_lt.mpr hrevoke), hzero, not_true_eq_false, if_false]

theorem retireClear_blocked {st dt : W16} (h : proposeBlocked s = some (st, dt)) : retireClear r s = refuse .lantern r st dt [] s := by
  simp only [retireClear, h]

theorem retireClear_proposes (hfree : proposeBlocked s = none) (hzero : zeros r.args 1 15 = true) :
    retireClear r s = newProposal r 8 (sha256 (r.argBytes 0 16)) [] (.retireClear (r.arg 0 1)) s := by
  simp only [retireClear, hfree, hzero, not_true_eq_false, if_false]

theorem hostVeto_refused (h : BitVec.ofNat 32 (r.arg 0 4) ≠ s.ltn.guard.id ∨ BitVec.ofNat 32 (r.arg 0 4) = 0 ∨
    (s.ltn.guard.phase ≠ .awaiting ∧ s.ltn.guard.phase ≠ .endorsed)) : hostVeto r s = refuse .lantern r 5 16 [] s := by
  have hno : vetoProposal (BitVec.ofNat 32 (r.arg 0 4)) 1 s = (false, s) := by
    unfold vetoProposal
    dsimp only
    split
    next => rfl
    next hid =>
      obtain ⟨hsame, hnonzero⟩ := not_or.mp hid
      have hphase : s.ltn.guard.phase ≠ .awaiting ∧ s.ltn.guard.phase ≠ .endorsed := by
        rcases h with h | h | h
        · exact absurd (not_not.mp hsame).symm h
        · exact absurd h hnonzero
        · exact h
      split
      next hawaiting => exact absurd hawaiting hphase.1
      next hendorsed => exact absurd hendorsed hphase.2
      next => rfl
  simp only [hostVeto, hno, Bool.false_eq_true, if_false]

theorem guardPhase_frame (p : GPhase) (reason : Nat) (s : State) : ∃ mem log,
    guardPhase p reason s = { s with ltn := { s.ltn with guard := { s.ltn.guard with phase := p } }, mem, log } := logRec_frame ..

/-- A VETO of the proposal held ends it VETOED, and restores a copy already written (R487). -/
theorem hostVeto_accepted (hid : BitVec.ofNat 32 (r.arg 0 4) = s.ltn.guard.id) (hnonzero : BitVec.ofNat 32 (r.arg 0 4) ≠ 0)
    (hphase : s.ltn.guard.phase = .awaiting ∨ s.ltn.guard.phase = .endorsed) : ∃ t, hostVeto r s = ok .lantern r [] t ∧
      t.ltn.guard.phase = .vetoed ∧ t.ltn.guard.id = s.ltn.guard.id ∧ t.dev = s.dev := by
  have hheld : ¬(s.ltn.guard.id ≠ BitVec.ofNat 32 (r.arg 0 4) ∨ BitVec.ofNat 32 (r.arg 0 4) = 0) :=
    not_or.mpr ⟨not_not.mpr hid.symm, hnonzero⟩
  obtain ⟨mem, log, hveto⟩ := guardPhase_frame .vetoed 1 s
  rcases hphase with hphase | hphase
  · simp only [hostVeto, vetoProposal, if_neg hheld, hphase, hveto, if_true]
    exact ⟨_, rfl, rfl, rfl, rfl⟩
  · simp only [hostVeto, vetoProposal, if_neg hheld, hphase, hveto, if_true]
    split <;> exact ⟨_, rfl, rfl, rfl, rfl⟩

end Guarded

/-! RECOVER. -/

/-- The C3 reaction over, with no frame in progress (R459). -/
def reactionOver (past : List Frame) (s : State) : State :=
  { s with
    fc := { s.fc with
            torch := false, torchReason := .none, c3 := false, c3List := []
            active := s.fc.active.map (fun e => if e.cls = .c3 then { e with cause := false, episode := false, expired := false } else e) }
    loop := { s.loop with cur := none, past, clearNext := true, reload := true } }

/-- The torch plan stopped and the C3 reaction over, with the frame boundary that this is (R459). -/
@[irreducible] def recovered (past : List Frame) (s : State) : State := answerBoundary (reactionOver past (stopCores (fun c => c.torch) s))

theorem recovered_dev (past : List Frame) (s : State) : (recovered past s).dev = s.dev := by
  simp only [recovered, (answerBoundary_keeps _).dev, reactionOver, (stopCores_keeps (fun c => c.torch) s).dev]

theorem recovered_fc (past : List Frame) (s : State) : (recovered past s).fc.torch = false ∧ (recovered past s).fc.torchReason = .none ∧
    (recovered past s).fc.c3 = false ∧ (recovered past s).fc.c3List = [] := by
  simp only [recovered, (answerBoundary_keeps _).fc, reactionOver, and_self]

theorem recovered_loop (past : List Frame) (s : State) : (recovered past s).loop.cur = none ∧ (recovered past s).loop.reload = true := by
  simp only [recovered, (answerBoundary_keeps _).loop, reactionOver, and_self]

/-- The highest class still in force in both reaction channels, and no realignment under way (R445, R459). -/
def channelsLowered (s : State) : State :=
  { s with
    fc := { s.fc with chan0 := { s.fc.chan0 with highest := highest s }, chan1 := { s.fc.chan1 with highest := highest s } }
    dv := { s.dv with entry := none, exitAt := none } }

theorem recoverNow_eq (s : State) : ∃ past, recoverNow s = enter .attached none 0x0704 (driveSafe true (channelsLowered (recovered past s))) := by
  simp only [recoverNow, recovered, reactionOver, channelsLowered]
  exact ⟨_, rfl⟩

/-- An accepted RECOVER ends the reaction and the torch plan in ATTACHED, with the pins still asserted (R459). -/
theorem recoverNow_attaches (s : State) : (recoverNow s).dev.state = .attached ∧ (recoverNow s).dev.prior = none ∧
    (recoverNow s).dev.stateSeq = s.dev.stateSeq + 1 ∧ (recoverNow s).fc.c3 = false ∧ (recoverNow s).fc.c3List = [] ∧
    (recoverNow s).fc.torch = false ∧ (recoverNow s).fc.torchReason = .none ∧ (recoverNow s).fc.safeA = true ∧
    (recoverNow s).fc.faultOut = .low ∧ (recoverNow s).loop.cur = none ∧ (recoverNow s).loop.reload = true := by
  obtain ⟨past, heq⟩ := recoverNow_eq s
  have hkeeps := enter_keeps .attached none 0x0704 (driveSafe true (channelsLowered (recovered past s)))
  have hdev := recovered_dev past s
  obtain ⟨htorch, hreason, hc3, hlist⟩ := recovered_fc past s
  obtain ⟨hcur, hreload⟩ := recovered_loop past s
  rw [heq, hkeeps.dev, hkeeps.fc, hkeeps.loop, ← hdev]
  exact ⟨rfl, rfl, rfl, hc3, hlist, htorch, hreason, rfl, rfl, hcur, hreload⟩

section Recover
variable {s : State} {r : Req}

theorem recover_held {e : Active} (h : heldCause s = some e) : recover r s = refuse .lantern r 6 e.source.code [] s := by simp only [recover, h]

theorem recover_accepted (h : heldCause s = none) : recover r s = ok .lantern r [devByte (recoverNow s).dev] (recoverNow s) := by simp only [recover, h]

/-! FAULT_READ. -/

theorem faultRead_badCount (h : r.arg 2 1 = 0 ∨ 6 < r.arg 2 1) : faultRead r s = bad .lantern r 18 s := by
  have hout : r.arg 2 1 < 1 ∨ 6 < r.arg 2 1 := by omega
  simp only [faultRead, if_pos hout]

/-- FAULT_READ answers the records asked for and, with CLEAR, returns their counts to 0 (R352, R462). -/
theorem faultRead_reads (hlow : 1 ≤ r.arg 2 1) (hhigh : r.arg 2 1 ≤ 6) : ∃ active, faultRead r s = ok .lantern r
      (leBytes 1 ((s.fc.active.drop (r.arg 0 2)).take (r.arg 2 1)).length ++ List.replicate 7 0
        ++ ((s.fc.active.drop (r.arg 0 2)).take (r.arg 2 1)).flatMap activeBytes) { s with fc := { s.fc with active } } ∧
    ∀ k : Nat, active[k]? = (s.fc.active[k]?).map
      (fun e => if r.flag 0 = true ∧ r.arg 0 2 ≤ k ∧ k < r.arg 0 2 + r.arg 2 1 then { e with cnt := {} } else e) := by
  have hin : ¬(r.arg 2 1 < 1 ∨ 6 < r.arg 2 1) := by omega
  cases hclear : r.flag 0 with
  | false =>
    refine ⟨s.fc.active, by simp only [faultRead, if_neg hin, hclear, Bool.false_eq_true, if_false], fun k => ?_⟩
    simp
  | true =>
    refine ⟨_, by simp only [faultRead, if_neg hin, hclear, if_true]; rfl, fun k => ?_⟩
    simp

end Recover

/-! Firmware. -/

/-- The verification of a staged image begun, with nothing of its body staged (R477). -/
def stageBegun (b : FwBody) (off len : Nat) (s : State) : State :=
  { setFw b { getFw b s with staged := false } s with
    ltn := { (setFw b { getFw b s with staged := false } s).ltn with stage := .verifying, stageImg := some (b, off, len), stageFail := 0 } }

theorem stageBegun_fwLantern (b : FwBody) (off len : Nat) (s : State) : (stageBegun b off len s).ltn.fwLantern =
    if b = .lantern then { s.ltn.fwLantern with staged := false } else s.ltn.fwLantern := by cases b <;> rfl

theorem stageBegun_fwDispatch (b : FwBody) (off len : Nat) (s : State) : (stageBegun b off len s).ltn.fwDispatch =
    if b = .dispatch then { s.ltn.fwDispatch with staged := false } else s.ltn.fwDispatch := by cases b <;> rfl

section Firmware
variable {s : State} {r : Req}

theorem fwStage_badTarget (v w : W32) (h : 1 < r.arg 0 1) : fwStage v w r s = bad .lantern r 16 s := by simp only [fwStage, if_pos h]

section Staging
variable (v w : W32) (htarget : r.arg 0 1 ≤ 1) (hzero : zeros r.args 1 3 = true)
include htarget hzero

theorem fwStage_outside (h : dramU s < r.arg 4 8 + r.arg 12 4) : fwStage v w r s = bad .lantern r 20 s := by
  simp only [fwStage, if_neg (Nat.not_lt.mpr htarget), hzero, not_true_eq_false, if_false, if_pos h]

variable (hinside : r.arg 4 8 + r.arg 12 4 ≤ dramU s)
include hinside

theorem fwStage_badLength (h : r.arg 12 4 < 256 ∨ (if r.arg 0 1 = 1 then 393216 else 4194304) < r.arg 12 4) : fwStage v w r s = bad .lantern r 28 s := by
  simp only [fwStage, if_neg (Nat.not_lt.mpr htarget), hzero, not_true_eq_false, if_false, if_neg (Nat.not_lt.mpr hinside), if_pos h]

variable (hmin : 256 ≤ r.arg 12 4) (hmax : r.arg 12 4 ≤ (if r.arg 0 1 = 1 then 393216 else 4194304))
include hmin hmax

theorem fwStage_busy (h : staging s = true) : fwStage v w r s = refuse .lantern r 6 (Config.suggestedWait 5) [] s := by
  have hlen : ¬(r.arg 12 4 < 256 ∨ (if r.arg 0 1 = 1 then 393216 else 4194304) < r.arg 12 4) := by omega
  simp only [fwStage, if_neg (Nat.not_lt.mpr htarget), hzero, not_true_eq_false, if_false, if_neg (Nat.not_lt.mpr hinside), if_neg hlen, h, if_true]

theorem fwStage_begins (h : staging s = false) : fwStage v w r s = ok .lantern r (leBytes 4 v.toNat ++ leBytes 4 w.toNat)
    (updateLog 1 [if r.arg 0 1 = 1 then 1 else 0] (stageBegun (if r.arg 0 1 = 1 then .lantern else .dispatch) (r.arg 4 8) (r.arg 12 4) s)) := by
  have hlen : ¬(r.arg 12 4 < 256 ∨ (if r.arg 0 1 = 1 then 393216 else 4194304) < r.arg 12 4) := by omega
  simp only [fwStage, if_neg (Nat.not_lt.mpr htarget), hzero, not_true_eq_false, if_false, if_neg (Nat.not_lt.mpr hinside), if_neg hlen, h,
    Bool.false_eq_true, stageBegun]

end Staging

theorem fwActivate_refused (h : 1 < r.arg 0 1 ∨ (r.arg 0 1 = 0 ∧ s.ltn.fwDispatch.staged = false) ∨ (r.arg 0 1 = 1 ∧ s.ltn.fwLantern.staged = false)) :
    fwActivate r s = bad .lantern r 16 s := by
  rcases h with h | ⟨htarget, h⟩ | ⟨htarget, h⟩
  · simp [fwActivate, h]
  · simp [fwActivate, htarget, getFw, h]
  · simp [fwActivate, htarget, getFw, h]

/-- The slot that a switch answers (R354): A where B was active. -/
theorem slotByte_not (b : Bool) : (if (!b) = true then (1 : Byte) else 0) = if b = true then 0 else 1 := by cases b <;> rfl

/-- The other slot of a body active, and nothing of it staged (R478). -/
def switched (f : FwSlots) : FwSlots := { f with activeB := !f.activeB, staged := false }

theorem fwActivate_dispatch (htarget : r.arg 0 1 = 0) (hstaged : s.ltn.fwDispatch.staged = true) : ∃ t,
    fwActivate r s = ok .lantern r [if s.ltn.fwDispatch.activeB then 0 else 1] t ∧ t.ltn.fwDispatch = switched s.ltn.fwDispatch ∧
    t.ltn.fwLantern = s.ltn.fwLantern ∧ t.ltn.bootSeq = s.ltn.bootSeq + 1 ∧ t.dev.dispatchUp = false ∧ t.mbD.service = false ∧
    t.ltn.restart = some (now s) := by
  obtain ⟨mem, log, hlog⟩ := logRec_frame 4 0 4 (leBytes 1 0 ++ [if !s.ltn.fwDispatch.activeB then 1 else 0])
    { s with ltn := { s.ltn with bootSeq := s.ltn.bootSeq + 1, fwDispatch := switched s.ltn.fwDispatch } }
  unfold switched at hlog
  simp only [fwActivate, updateLog, htarget, getFw, setFw, hstaged, hlog, Nat.zero_ne_one, Nat.not_lt_zero, not_true_eq_false, or_self, if_false]
  rw [slotByte_not]
  exact ⟨_, rfl, rfl, rfl, rfl, rfl, rfl, rfl⟩

theorem fwActivate_lantern (htarget : r.arg 0 1 = 1) (hstaged : s.ltn.fwLantern.staged = true) : ∃ t,
    fwActivate r s = ok .lantern r [if s.ltn.fwLantern.activeB then 0 else 1] t ∧ t.ltn.fwLantern = switched s.ltn.fwLantern ∧
    t.ltn.fwDispatch = s.ltn.fwDispatch ∧ t.ltn.bootSeq = s.ltn.bootSeq + 1 ∧ t.dev = s.dev ∧ t.ltn.restart = s.ltn.restart := by
  obtain ⟨mem, log, hlog⟩ := logRec_frame 4 0 4 (leBytes 1 1 ++ [if !s.ltn.fwLantern.activeB then 1 else 0])
    { s with ltn := { s.ltn with bootSeq := s.ltn.bootSeq + 1, fwLantern := switched s.ltn.fwLantern } }
  unfold switched at hlog
  simp only [fwActivate, updateLog, htarget, getFw, setFw, hstaged, hlog, Nat.lt_irrefl, not_true_eq_false, or_self, if_false, if_true]
  rw [slotByte_not]
  exact ⟨_, rfl, rfl, rfl, rfl, rfl, rfl⟩

/-- FW_STATUS answers the phase, the failure and the anti-rollback count at their places, and draws the free value of a progress
(R354; log entries 2 and 15). -/
theorem fwStatus_reads (r : Req) (s : State) : ∃ b, fwStatus r s = ok .lantern r b { s with free := s.free + 1 } ∧
    b.take 1 = leBytes 1 (stageNum s.ltn.stage) ∧ (b.drop 2).take 2 = leBytes 2 s.ltn.stageFail.toNat ∧
    (b.drop 36).take 1 = leBytes 1 s.ltn.otpSteps ∧ (staging s = false → s.ltn.stage = .done → (b.drop 1).take 1 = [100]) := by
  refine ⟨_, rfl, rfl, rfl, rfl, fun hstill hdone => ?_⟩
  simp only [hstill, hdone]
  rfl

end Firmware

/-! Trace. -/

/-- The fabric address of a core site names its gallery, column and row (R33, R50). -/
theorem site_inj {g c r g' c' r' : Nat} (hg : g < 4) (hc : c < 7) (hr : r < 6) (hg' : g' < 4) (hc' : c' < 7) (hr' : r' < 6)
    (h : BitVec.ofNat 10 (g * 128 + c * 8 + r) = BitVec.ofNat 10 (g' * 128 + c' * 8 + r')) : g = g' ∧ c = c' ∧ r = r' := by
  have hnat : (g * 128 + c * 8 + r) % 2 ^ 10 = (g' * 128 + c' * 8 + r') % 2 ^ 10 := by
    simpa only [BitVec.toNat_ofNat] using congrArg BitVec.toNat h
  omega

theorem coreSites_nodup : coreSites.Nodup := by
  refine List.nodup_flatMap.mpr ⟨fun g hg => List.nodup_flatMap.mpr ⟨fun c hc => ?rows, ?columns⟩, ?galleries⟩
  case rows =>
    refine List.nodup_range.map_on fun r hr r' hr' h => ?_
    rw [List.mem_range] at hg hc hr hr'
    exact (site_inj hg hc hr hg hc hr' h).2.2
  case columns =>
    refine List.nodup_range.pairwise_of_forall_ne fun c hc c' hc' hne x hx hx' => hne ?_
    obtain ⟨r, hr, rfl⟩ := List.mem_map.mp hx
    obtain ⟨r', hr', h⟩ := List.mem_map.mp hx'
    rw [List.mem_range] at hg hc hc' hr hr'
    exact (site_inj hg hc hr hg hc' hr' h.symm).2.1
  case galleries =>
    refine List.nodup_range.pairwise_of_forall_ne fun g hg g' hg' hne x hx hx' => hne ?_
    obtain ⟨c, hc, hx⟩ := List.mem_flatMap.mp hx
    obtain ⟨c', hc', hx'⟩ := List.mem_flatMap.mp hx'
    obtain ⟨r, hr, rfl⟩ := List.mem_map.mp hx
    obtain ⟨r', hr', h⟩ := List.mem_map.mp hx'
    rw [List.mem_range] at hg hg' hc hc' hr hr'
    exact (site_inj hg hc hr hg' hc' hr' h.symm).1

theorem logicalCores_nodup : logicalCores.Nodup := coreSites_nodup.filter _

/-- Bit `i` of TRACE_CONFIG's bitmap enables the `i`-th logical core (R505; log entry 15). -/
theorem mem_traceEnabled {bitmap i : Nat} {x : Node} (hi : i < 160) (hx : logicalCores[i]? = some x) :
    x ∈ (logicalCores.zip (List.range 160)).filterMap (fun (e : Node × Nat) => if bitmap / 2 ^ e.2 % 2 = 1 then some e.1 else none) ↔
      bitmap.testBit i = true := by
  rw [Nat.testBit_eq_decide_div_mod_eq, decide_eq_true_eq, List.mem_filterMap]
  constructor
  · rintro ⟨⟨y, j⟩, hmem, hbit⟩
    obtain ⟨k, hk⟩ := List.mem_iff_getElem?.mp hmem
    obtain ⟨hy, hj⟩ := List.getElem?_zip_eq_some.mp hk
    obtain ⟨_, hkj⟩ := List.getElem?_eq_some_iff.mp hj
    rw [List.getElem_range] at hkj
    subst hkj
    split at hbit
    next hset =>
      obtain rfl : y = x := by simpa using hbit
      have hlt : i < logicalCores.length := (List.getElem?_eq_some_iff.mp hx).1
      rwa [(List.getElem?_inj hlt logicalCores_nodup).mp (hx.trans hy.symm)]
    next => exact absurd hbit nofun
  · intro hset
    refine ⟨(x, i), List.mem_iff_getElem?.mpr ⟨i, List.getElem?_zip_eq_some.mpr ⟨hx, by simp [hi]⟩⟩, if_pos hset⟩

section Trace
variable {s : State} {r : Req}

theorem traceConfig_running (h : s.trace.running = true) : traceConfig r s = refuse .dispatch r 6 (Config.suggestedWait 6) [] s := by
  simp only [traceConfig, if_pos h]

section Stopped
variable (hstopped : s.trace.running = false)
include hstopped

theorem traceConfig_badMask (h : 128 ≤ r.arg 20 1) : traceConfig r s = bad .dispatch r 36 s := by
  simp only [traceConfig, hstopped, Bool.false_eq_true, if_false, if_pos h]

variable (hmask : r.arg 20 1 < 128)
include hmask

/-- Payload tracing is refused while the debug lock holds it (R509). -/
theorem traceConfig_locked (hpayload : 64 ≤ r.arg 20 1) (hlock : s.ltn.cfg.lock.getLsbD 1 = true) : traceConfig r s = refuse .dispatch r 8 6 [] s := by
  have hbit : r.arg 20 1 / 64 % 2 = 1 := by omega
  simp only [traceConfig, hstopped, Bool.false_eq_true, if_false, if_neg (Nat.not_le.mpr hmask), hbit, hlock, and_self, if_true]

omit hstopped in
theorem payload_allowed (hallowed : r.arg 20 1 < 64 ∨ s.ltn.cfg.lock.getLsbD 1 = false) :
    ¬(r.arg 20 1 / 64 % 2 = 1 ∧ s.ltn.cfg.lock.getLsbD 1 = true) := by
  rintro ⟨hbit, hlock⟩
  rcases hallowed with h | h
  · omega
  · rw [h] at hlock
    exact Bool.false_ne_true hlock

variable (hallowed : r.arg 20 1 < 64 ∨ s.ltn.cfg.lock.getLsbD 1 = false)
include hallowed

theorem traceConfig_badTarget (h : 1 < r.arg 21 1) : traceConfig r s = bad .dispatch r 37 s := by
  simp only [traceConfig, hstopped, Bool.false_eq_true, if_false, if_neg (Nat.not_le.mpr hmask), if_neg (payload_allowed hmask hallowed), if_pos h]

/-- A configuration that passes every check is stored: 256 KiB of the hub's staging, or the window of device DRAM named (R505). -/
theorem traceConfig_sets (hzero : zeros r.args 22 2 = true) {n : Nat} (hbuffer : r.arg 21 1 = 0 ∧ n = 262144 ∨ r.arg 21 1 = 1 ∧ n = r.arg 32 4 ∧
      r.arg 24 8 % 4096 = 0 ∧ r.arg 24 8 + r.arg 32 4 ≤ dramU s ∧ r.arg 32 4 % 4096 = 0 ∧ 65536 ≤ r.arg 32 4 ∧ r.arg 32 4 ≤ 1073741824) :
    ∃ enabled, traceConfig r s = ok .dispatch r [] { s with trace := { s.trace with
        enabled, mask := BitVec.ofNat 8 (r.arg 20 1), dram := r.arg 21 1 = 1, off := if r.arg 21 1 = 1 then r.arg 24 8 else 0, size := n
        stopFull := r.flag 0 } } ∧
      ∀ i < 160, ∀ x, logicalCores[i]? = some x → (x ∈ enabled ↔ (r.arg 0 20).testBit i = true) := by
  have htarget : ¬ 1 < r.arg 21 1 := by omega
  have hplaced : ¬(r.arg 21 1 = 1 ∧ (r.arg 24 8 % 4096 ≠ 0 ∨ dramU s < r.arg 24 8 + r.arg 32 4)) := by omega
  have hsized : ¬(r.arg 21 1 = 1 ∧ (r.arg 32 4 % 4096 ≠ 0 ∨ r.arg 32 4 < 65536 ∨ 1073741824 < r.arg 32 4)) := by omega
  have hsize : (if r.arg 21 1 = 1 then r.arg 32 4 else 262144) = n := by split <;> omega
  simp only [traceConfig, hstopped, Bool.false_eq_true, if_false, if_neg (Nat.not_le.mpr hmask), if_neg (payload_allowed hmask hallowed),
    if_neg htarget, hzero, not_true_eq_false, if_neg hplaced, if_neg hsized, hsize]
  exact ⟨_, rfl, fun i hi x hx => mem_traceEnabled hi hx⟩

end Stopped

theorem tracePut_time (p : List Byte) (s : State) : (tracePut p s).time = s.time := by
  unfold tracePut
  dsimp only
  split <;> rfl

/-- The trace started, with its counters restarted (R506). -/
def traceRestarted (s : State) : State :=
  { s with trace := { s.trace with running := true, full := false, bytes := {}, records := {}, gaps := {}, drops := {}, aon := none } }

theorem traceStart_fresh (h : s.trace.aon = none) : traceStart r s = ok .dispatch r (leBytes 8 (now s).toNat) (traceRestarted s) := by
  simp only [traceStart, h, traceRestarted]
  rfl

/-- After AON_ONLY the first record is a GAP of the time without a trace (R508). -/
theorem traceStart_gap {a b : W64} (h : s.trace.aon = some (a, b)) : traceStart r s = ok .dispatch r (leBytes 8 (now s).toNat)
    (traceFunnel 0x10 0xFF (leBytes 8 a.toNat ++ leBytes 8 b.toNat)
      { traceRestarted s with trace := { (traceRestarted s).trace with gaps := ({} : Stick 32).inc } }) := by
  have hnow (u : State) (p : List Byte) : now (traceFunnel 0x10 0xFF p u) = now u := by
    simp only [now, traceFunnel, tracePut_time]
  simp only [traceStart, h, hnow, traceRestarted]
  rfl

end Trace

/-- Settles O60: each command is the check or the effect that its own lemma gives, answered as every command is (R352–R355). -/
theorem guardFirmwareTraceCommands : Obligations.GuardFirmwareTraceCommands := by
  unfold Obligations.GuardFirmwareTraceCommands
  refine ⟨fun s r kind dg plan c => ⟨fun st d h => newProposal_refused h r kind dg plan, fun h => ?proposal⟩,
    fun s => proposeBlocked_eq_none, ?commands⟩
  case proposal =>
    obtain ⟨t, heq, hltn, hguard, hdev⟩ := newProposal_accepted h r kind dg plan
    refine ⟨t, heq, hltn, ?_⟩
    rw [hguard]
    exact ⟨rfl, rfl, rfl, rfl, rfl, rfl, rfl, rfl, rfl, rfl, nextGuardId_ne_zero _, challengeOf_ne_zero _, nextGuardId_of_ne, hdev⟩
  intro s k ks r
  dsimp only
  refine ⟨fun staged hask => ?propose, fun hask => ?spareSubstitute, fun hask => ?retireClear, fun hask => ?veto, fun hask => ?guardStatus,
    fun hask => ?recover, fun hask => ?faultRead, fun v w hask => ?fwStage, fun hask => ?fwActivate, fun hask => ?fwStatus, fun hask => ?bootMeasure,
    fun hask => ?traceConfig, fun hask => ?traceStart, fun hask => ?traceStop, fun hask => ?traceStatus⟩
  case propose =>
    refine ⟨fun st d hno => serve_refuses hask (propose_blocked hno), fun hfree hkind => serve_refuses hask (propose_noKind hfree hkind),
      fun hfree hzero => ⟨fun hkind => ?scaleCommit, fun x hkind hrec hprev hgiven => ?scaleRevert, fun hkind hrec => ?noScale,
        fun hkind hrest => ?arguments, fun b hkind hcount htorn hrest hstaged hlen => ?object⟩⟩
    all_goals replace hfree : proposeBlocked (taken .lantern ks s) = none := hfree
    case scaleCommit => exact serve_gives hask (propose_inline hfree hzero hkind (by decide) (by decide))
    case scaleRevert =>
      have hbody := proposeInline_scaleRevert (s := taken .lantern ks s) hrec hprev hgiven
      exact serve_gives hask ((propose_inline hfree hzero hkind (by decide) (by decide)).trans hbody)
    case noScale =>
      have hbody := proposeInline_noScale (s := taken .lantern ks s) hrec
      exact serve_refuses hask ((propose_inline hfree hzero hkind (by decide) (by decide)).trans hbody)
    case arguments =>
      have hbody := (propose_inline (staged := staged) hfree hzero rfl (by omega) (by omega)).trans (proposeInline_arguments hkind hrest)
      exact ⟨fun hne => serve_refuses hask (hbody.trans (if_pos hne)),
        fun heq => serve_gives hask (hbody.trans (by rw [if_neg (not_not.mpr heq), heq]))⟩
    case object =>
      subst hstaged
      have hbody := (propose_object (staged := some b) hfree hzero rfl hkind).trans (proposeObject_copied hcount htorn hrest hlen)
      refine ⟨fun hne => serve_refuses hask (hbody.trans (if_pos hne)), fun heq hone => ?config, fun heq htwo hok => ?manifest,
        fun heq htwo hbad => ?badManifest⟩
      all_goals rw [if_neg (not_not.mpr heq), heq] at hbody
      case config => exact serve_gives hask (hbody.trans (if_pos hone))
      case manifest => exact serve_gives hask (hbody.trans ((if_neg (by omega)).trans (if_pos hok)))
      case badManifest => exact serve_refuses hask (hbody.trans ((if_neg (by omega)).trans (if_neg (by simp [hbad]))))
  case spareSubstitute =>
    exact ⟨fun st d hno => serve_refuses hask (spareSubstitute_blocked hno),
      fun hfree hgallery => serve_refuses hask (spareSubstitute_noGallery hfree hgallery),
      fun hfree hgallery hcolumn hrow hspare hrevoke hzero =>
        serve_gives hask (spareSubstitute_proposes hfree hgallery hcolumn hrow hspare hrevoke hzero)⟩
  case retireClear =>
    exact ⟨fun st d hno => serve_refuses hask (retireClear_blocked hno), fun hfree hzero => serve_gives hask (retireClear_proposes hfree hzero)⟩
  case veto =>
    refine ⟨fun hno => serve_refuses hask (hostVeto_refused hno), fun hid hnonzero hphase => ?_⟩
    obtain ⟨t, heq, hended⟩ := hostVeto_accepted (s := taken .lantern ks s) hid hnonzero hphase
    exact ⟨t, serve_answers hask heq, hended⟩
  case guardStatus => exact serve_answers hask rfl
  case recover =>
    refine ⟨fun e hheld => serve_refuses hask (recover_held hheld), fun hnone => ?_⟩
    exact ⟨_, serve_answers hask (recover_accepted hnone), recoverNow_attaches (taken .lantern ks s)⟩
  case faultRead =>
    refine ⟨fun hbad => serve_refuses hask (faultRead_badCount hbad), fun hlow hhigh => ?_⟩
    obtain ⟨active, heq, hactive⟩ := faultRead_reads (s := taken .lantern ks s) hlow hhigh
    exact ⟨_, serve_answers hask heq, rfl, hactive⟩
  case fwStage =>
    refine ⟨fun hbad => serve_refuses hask (fwStage_badTarget v w hbad), fun htarget hzero =>
      ⟨fun hout => serve_refuses hask (fwStage_outside v w htarget hzero hout),
        fun hin hlen => serve_refuses hask (fwStage_badLength v w htarget hzero hin hlen),
        fun hin hmin hmax hbusy => serve_refuses hask (fwStage_busy v w htarget hzero hin hmin hmax hbusy), fun hin hmin hmax hidle => ?_⟩⟩
    have hbody := fwStage_begins (s := taken .lantern ks s) v w htarget hzero hin hmin hmax hidle
    obtain ⟨mem, log, hlog⟩ := logRec_frame 4 0 1 [if r.arg 0 1 = 1 then 1 else 0]
      (stageBegun (if r.arg 0 1 = 1 then .lantern else .dispatch) (r.arg 4 8) (r.arg 12 4) (taken .lantern ks s))
    rw [updateLog, hlog] at hbody
    exact ⟨_, serve_answers hask hbody, rfl, rfl, rfl, rfl, stageBegun_fwLantern .., stageBegun_fwDispatch ..⟩
  case fwActivate =>
    refine ⟨fun hbad => serve_refuses hask (fwActivate_refused (.inl hbad)),
      fun htarget hempty => serve_refuses hask (fwActivate_refused (.inr (.inl ⟨htarget, hempty⟩))),
      fun htarget hempty => serve_refuses hask (fwActivate_refused (.inr (.inr ⟨htarget, hempty⟩))),
      fun htarget hstaged => ?dispatch, fun htarget hstaged => ?lantern⟩
    case dispatch =>
      obtain ⟨t, heq, hswitched⟩ := fwActivate_dispatch (s := taken .lantern ks s) htarget hstaged
      exact ⟨t, serve_answers hask heq, hswitched⟩
    case lantern =>
      obtain ⟨t, heq, hswitched⟩ := fwActivate_lantern (s := taken .lantern ks s) htarget hstaged
      exact ⟨t, serve_answers hask heq, hswitched⟩
  case fwStatus =>
    obtain ⟨b, heq, hbytes⟩ := fwStatus_reads r (taken .lantern ks s)
    exact ⟨b, serve_answers hask heq, hbytes⟩
  case bootMeasure => exact serve_answers hask rfl
  case traceConfig =>
    refine ⟨fun hrun => serve_refuses hask (traceConfig_running hrun), fun hstop hbad => serve_refuses hask (traceConfig_badMask hstop hbad),
      fun hstop hmask => ⟨fun hpayload hlock => serve_refuses hask (traceConfig_locked hstop hmask hpayload hlock),
        fun hallowed => ⟨fun hbad => serve_refuses hask (traceConfig_badTarget hstop hmask hallowed hbad), fun n hzero hbuffer => ?_⟩⟩⟩
    obtain ⟨enabled, heq, hbits⟩ := traceConfig_sets (s := taken .dispatch ks s) hstop hmask hallowed hzero hbuffer
    exact ⟨_, serve_answers hask heq, rfl, hbits⟩
  case traceStart =>
    exact ⟨fun hnone => serve_answers hask (traceStart_fresh hnone), fun a b hsome => serve_answers hask (traceStart_gap hsome)⟩
  case traceStop => exact serve_answers hask rfl
  case traceStatus => exact serve_answers hask rfl

end Sys2Proof.Laws
end

section
/-! PROOF. What the core instructions of chapter 4 share: the body that a ready core runs, the fields of an instruction word, and
the reserved bits of SYSTEM (R72, R73). -/

open Sys2Proof Sys2Proof.Machine
namespace Sys2Proof.Laws

section Ready
variable {s : State} {n : Node} {c : Core} (h : Ready s n c)
include h

theorem exec_scalar_ready (op : ScalarOp) (f : Field) : exec (.scalar n op f) s = .next (scalarStep n op f c s) := issued h _
theorem exec_branch_ready (op : BranchOp) (f : Field) : exec (.branch n op f) s = .next (branchStep n op f c s) := issued h _
theorem exec_end_ready (f : Field) : exec (.end_ n f) s = .next (endStep n f c s) := issued h _
theorem exec_nop_ready (f : Field) : exec (.nop n f) s = .next (nopStep n f c s) := issued h _
theorem exec_fence_ready (f : Field) : exec (.fence n f) s = .next (fenceStep n f c s) := issued h _
theorem exec_a1mode_ready (f : Field) : exec (.a1mode n f) s = .next (a1modeStep n f c s) := issued h _
theorem exec_sigmark_ready (f : Field) : exec (.sigmark n f) s = .next (sigmarkStep n f c s) := issued h _
theorem exec_tracemark_ready (f : Field) : exec (.tracemark n f) s = .next (tracemarkStep n f c s) := issued h _
theorem exec_clrflag_ready (f : Field) : exec (.clrflag n f) s = .next (clrflagStep n f c s) := issued h _
theorem exec_status_ready (f : Field) : exec (.status n f) s = .next (statusStep n f c s) := issued h _

end Ready

theorem bits_lt (f : Field) (hi lo : Nat) : bits f hi lo < 2 ^ (hi + 1 - lo) := Nat.mod_lt _ (Nat.two_pow_pos _)

theorem testBit_bits (f : Field) (hi lo i : Nat) : (bits f hi lo).testBit i = (decide (i < hi + 1 - lo) && f.getLsbD (i + lo)) := by
  rw [bits, Nat.testBit_mod_two_pow, Nat.testBit_div_two_pow, BitVec.testBit_toNat]

/-- A field of one bit is 1 where the bit is set. -/
theorem bits_single_eq_one (f : Field) (k : Nat) : bits f k k = 1 ↔ f.getLsbD k = true := by
  have hlt : bits f k k < 2 := by simpa using bits_lt f k k
  have hbit : (bits f k k).testBit 0 = f.getLsbD k := by rw [testBit_bits]; simp
  rw [← hbit, Nat.testBit_zero, decide_eq_true_iff]
  omega

/-- A word with no bit outside its lowest 16 is its field IMM[15:0]. -/
theorem bits_of_low16 {f : Field} (h : f &&& ~~~0xFFFF = 0) : bits f 15 0 = f.toNat := by
  have hlow : f = f &&& 0xFFFF := by
    refine BitVec.eq_of_getLsbD_eq fun i hi => ?_
    have hbit : (f &&& ~~~0xFFFF).getLsbD i = false := by rw [h]; simp
    rw [BitVec.getLsbD_and, BitVec.getLsbD_not] at hbit
    rw [BitVec.getLsbD_and]
    revert hbit
    cases f.getLsbD i <;> simp [hi]
  have hnat : f.toNat = f.toNat % 2 ^ 16 := by
    rw [← Nat.and_two_pow_sub_one_eq_mod]
    exact congrArg BitVec.toNat hlow
  simpa [bits] using hnat.symm

/-- A SYSTEM instruction is legal when no bit outside its fields is set (R73). -/
theorem not_sysReserved {f : Field} {used : BitVec 54} (h : f &&& ~~~used = 0) : ¬ sysReserved f used = true := by
  simp [sysReserved, h]

theorem sysReserved_eq_true {f : Field} {used : BitVec 54} (h : f &&& ~~~used ≠ 0) : sysReserved f used = true := decide_eq_true h

end Sys2Proof.Laws
end

section
/-! PROOF. SCALAR: the result of every operation on the integers its operands stand for, and the two ways an instruction ends
(R72, R73). -/

open Sys2Proof Sys2Proof.Machine
namespace Sys2Proof.Laws

/-- The high half of a signed product fits a register. -/
theorem toInt_mul_high (a b : W32) : (BitVec.ofInt 32 (a.toInt * b.toInt / 2 ^ 32)).toInt = a.toInt * b.toInt / 2 ^ 32 := by
  have hsize (x : W32) : |x.toInt| ≤ 2 ^ 31 := abs_le.mpr ⟨x.le_toInt, le_of_lt x.toInt_lt⟩
  have hprod : |a.toInt * b.toInt| ≤ 2 ^ 31 * 2 ^ 31 := by
    rw [abs_mul]
    exact mul_le_mul (hsize a) (hsize b) (abs_nonneg _) (by norm_num)
  obtain ⟨hlo, hhi⟩ := abs_le.mp hprod
  rw [BitVec.toInt_ofInt]
  exact Int.bmod_eq_of_le (by omega) (by omega)

theorem toNat_mul_high (a b : W32) : (BitVec.ofNat 32 (a.toNat * b.toNat / 2 ^ 32)).toNat = a.toNat * b.toNat / 2 ^ 32 := by
  have hprod : a.toNat * b.toNat < 2 ^ 32 * 2 ^ 32 := Nat.mul_lt_mul'' a.isLt b.isLt
  exact Nat.mod_eq_of_lt (Nat.div_lt_of_lt_mul hprod)

/-- Every operation gives what R72 asks of it. -/
theorem scalarResult_gives (op : ScalarOp) (a b : W32) : ScalarGives op a b (scalarResult op a b) := by
  cases op with
  | add => exact BitVec.toNat_add a b
  | sub => exact BitVec.toInt_sub
  | and => exact fun i _ => BitVec.getLsbD_and
  | or => exact fun i _ => BitVec.getLsbD_or
  | xor => exact fun i _ => BitVec.getLsbD_xor
  | shl =>
    intro h
    rw [scalarResult, if_pos h, BitVec.toNat_shiftLeft, Nat.shiftLeft_eq]
  | shr =>
    intro h
    rw [scalarResult, if_pos h, BitVec.toNat_ushiftRight, Nat.shiftRight_eq_div_pow]
  | sar =>
    intro h
    rw [scalarResult, if_pos h, BitVec.toInt_sshiftRight, Int.shiftRight_eq_div_pow, Nat.cast_pow, Nat.cast_ofNat]
  | mulLo => exact BitVec.toNat_mul a b
  | mulHi => exact toInt_mul_high a b
  | mulHiU => exact toNat_mul_high a b
  | min =>
    simp only [ScalarGives, scalarResult, BitVec.slt_iff_toInt_lt, min_def]
    split <;> split <;> omega
  | max =>
    simp only [ScalarGives, scalarResult, BitVec.slt_iff_toInt_lt, max_def]
    split <;> split <;> omega
  | minU =>
    simp only [ScalarGives, scalarResult, BitVec.ult_iff_toNat_lt, min_def]
    split <;> split <;> omega
  | maxU =>
    simp only [ScalarGives, scalarResult, BitVec.ult_iff_toNat_lt, max_def]
    split <;> split <;> omega
  | setEq => exact apply_ite BitVec.toNat _ _ _
  | setNe => exact apply_ite BitVec.toNat _ _ _
  | setLt =>
    simp only [ScalarGives, scalarResult, BitVec.slt_iff_toInt_lt]
    exact apply_ite BitVec.toNat _ _ _
  | setGe =>
    simp only [ScalarGives, scalarResult, BitVec.slt_iff_toInt_lt, ← not_lt, ite_not]
    exact apply_ite BitVec.toNat _ _ _
  | setLtU =>
    simp only [ScalarGives, scalarResult, BitVec.ult_iff_toNat_lt]
    exact apply_ite BitVec.toNat _ _ _
  | setGeU =>
    simp only [ScalarGives, scalarResult, BitVec.ult_iff_toNat_lt, ← not_lt, ite_not]
    exact apply_ite BitVec.toNat _ _ _
  | movImm => rfl
  | undefinedOp => trivial

section Step
variable (n : Node) {op : ScalarOp} {f : Field} (c : Core) (s : State)

/-- A legal SCALAR writes its result to SD; its second operand is IMM with bit I or for the move, else SB (R73). -/
theorem scalarStep_retires (hop : op ≠ .undefinedOp) (hzero : bits f 37 32 = 0) :
    scalarStep n op f c s = retireWith n (setS (bits f 53 49) (scalarResult op (getS c (bits f 48 44))
      (if bits f 38 38 = 1 ∨ op = .movImm then BitVec.ofNat 32 (bits f 31 0) else getS c (bits f 43 39))) c) s :=
  if_neg (not_or.mpr ⟨hop, not_not.mpr hzero⟩)

theorem scalarStep_illegal (h : op = .undefinedOp ∨ bits f 37 32 ≠ 0) : scalarStep n op f c s = coreFault n .coreIllegalOp 0 0 s := if_pos h

end Step

/-- Settles O12: a legal SCALAR retires with the result that R72 asks for, an illegal one faults. -/
theorem scalarInstructions : Obligations.ScalarInstructions := by
  refine ⟨fun s n c op f hready hop hzero => ⟨_, scalarResult_gives op _ _, ?retires⟩, fun s n c op f hready hbad => ?illegal⟩
  case retires => rw [exec_scalar_ready hready, scalarStep_retires n c s hop hzero]
  case illegal => rw [exec_scalar_ready hready, scalarStep_illegal n c s hbad]

end Sys2Proof.Laws
end

section
/-! PROOF. BRANCH: the condition codes, the taken branch with its trace record, and the illegal forms (R72, R73, R502). -/

open Sys2Proof Sys2Proof.Machine
namespace Sys2Proof.Laws

/-- The condition codes 0 to 6 are defined, and mean what R73 says of the numbers in the registers. -/
theorem condHolds_defined {k : Nat} (hk : k ≤ 6) (a b : W32) : ∃ d, condHolds k a b = some d ∧ (d = true ↔ BranchTaken k a b) := by
  interval_cases k <;>
    exact ⟨_, rfl, by simp [BranchTaken, BitVec.slt_eq_decide, BitVec.ult]⟩

theorem condHolds_undefined {k : Nat} (hk : 6 < k) (a b : W32) : condHolds k a b = none := by
  obtain ⟨j, rfl⟩ : ∃ j, k = j + 7 := ⟨k - 7, by omega⟩
  rfl

/-- A core goes on at `t` and the branch leaves its trace record (R502). -/
def branchesTo (n : Node) (c : Core) (t : BitVec 13) (s : State) : State :=
  retireTo n t (traceRec n 0x01 0 (leBytes 2 c.pc.toNat ++ leBytes 2 t.toNat) s)

/-- TARGET has 13 bits. -/
theorem toNat_target (f : Field) : (BitVec.ofNat 13 (bits f 12 0)).toNat = bits f 12 0 := Nat.mod_eq_of_lt (bits_lt f 12 0)

section Step
variable (n : Node) {f : Field} (c : Core) (s : State)

theorem branchStep_illegal {op : BranchOp} (h : op = .undefinedOp ∨ bits f 39 13 ≠ 0) : branchStep n op f c s = coreFault n .coreIllegalOp 0 0 s :=
  if_pos h

variable (hzero : bits f 39 13 = 0)
include hzero

theorem branchStep_jump : branchStep n .jump f c s = branchesTo n c (BitVec.ofNat 13 (bits f 12 0)) s := by
  simp [branchStep, hzero, branchesTo]

theorem branchStep_jumpReg : branchStep n .jumpReg f c s = branchesTo n c ((getS c (bits f 53 49)).setWidth 13) s := by
  simp [branchStep, hzero, branchesTo]

theorem branchStep_taken (h : condHolds (bits f 43 40) (getS c (bits f 53 49)) (getS c (bits f 48 44)) = some true) :
    branchStep n .cond f c s = branchesTo n c (BitVec.ofNat 13 (bits f 12 0)) s := by
  simp [branchStep, hzero, h, branchesTo]

theorem branchStep_notTaken (h : condHolds (bits f 43 40) (getS c (bits f 53 49)) (getS c (bits f 48 44)) = some false) :
    branchStep n .cond f c s = retireTo n (c.pc + 1) s := by
  simp [branchStep, hzero, h]

theorem branchStep_undefinedCond (h : condHolds (bits f 43 40) (getS c (bits f 53 49)) (getS c (bits f 48 44)) = none) :
    branchStep n .cond f c s = coreFault n .coreIllegalOp 0 0 s := by
  simp [branchStep, hzero, h]

end Step

/-- Settles O13: the conditional branch taken and not taken, the two jumps, and the illegal forms. -/
theorem branchInstructions : Obligations.BranchInstructions := by
  refine ⟨fun s n c op f hready _ hzero hop hcode => ?cond, fun s n c f hready hzero => ⟨?jump, ?jumpReg⟩,
    fun s n c op f hready hbad => ?illegal, fun s n c f hready hzero hcode => ?undefinedCond⟩
  case cond =>
    subst hop
    obtain ⟨d, hcond, hmeans⟩ := condHolds_defined hcode (getS c (bits f 53 49)) (getS c (bits f 48 44))
    rw [exec_branch_ready hready, ← hmeans]
    refine ⟨fun htaken => ?_, fun hnot => ?_⟩
    · rw [branchStep_taken n c s hzero (hcond.trans (congrArg some htaken)), branchesTo, toNat_target]
    · rw [branchStep_notTaken n c s hzero (hcond.trans (congrArg some (Bool.eq_false_of_not_eq_true hnot)))]
  case jump => rw [exec_branch_ready hready, branchStep_jump n c s hzero, branchesTo, toNat_target]
  case jumpReg => rw [exec_branch_ready hready, branchStep_jumpReg n c s hzero, branchesTo]
  case illegal => rw [exec_branch_ready hready, branchStep_illegal n c s hbad]
  case undefinedCond => rw [exec_branch_ready hready, branchStep_undefinedCond n c s hzero (condHolds_undefined hcode _ _)]

end Sys2Proof.Laws
end

section
/-! PROOF. SYSTEM: what each of END, NOP, FENCE, A1MODE, SIGMARK, TRACEMARK, CLRFLAG and STATUS does with its reserved bits 0 and
nothing to wait for, and the fault where one is set (R66, R73, R75, R84, R99, R394, R502). -/

open Sys2Proof Sys2Proof.Machine
namespace Sys2Proof.Laws

section End
variable (n : Node) {f : Field} {c : Core} (s : State)

theorem endStep_illegal (h : f ≠ 0) : endStep n f c s = coreFault n .coreIllegalOp 0 0 s := if_pos h

theorem endStep_done (h : outstanding c = false) : endStep n 0 c s =
    changeCore n (fun c => { c with run := .done, retired := c.retired + 1 }) (sendPace n true (sigClose n s)) := by
  simp [endStep, h]

theorem endStep_waits (h : outstanding c = true) : endStep n 0 c s = coreWait n .drain s := by
  simp [endStep, h]

end End

section Legal
variable (n : Node) {f : Field} (c : Core) (s : State)

theorem nopStep_illegal (h : f ≠ 0) : nopStep n f c s = coreFault n .coreIllegalOp 0 0 s := if_pos h

theorem nopStep_retires : nopStep n 0 c s = retire n s := if_neg (not_not.mpr rfl)

/-- FENCE waits exactly for an unacknowledged write to a space of MASK (R84). -/
theorem fenceStep_eq (h : f &&& ~~~0x3F = 0) : fenceStep n f c s =
    if c.pend.any (fun p => p.isWrite && f.getLsbD (spaceCode p.space)) then coreWait n .fence s else retire n s :=
  if_neg (not_sysReserved h)

theorem fenceStep_illegal (h : f &&& ~~~0x3F ≠ 0) : fenceStep n f c s = coreFault n .coreIllegalOp 0 0 s := if_pos (sysReserved_eq_true h)

theorem sigmarkStep_retires (h : f &&& ~~~0xFFFF = 0) : sigmarkStep n f c s =
    retire n (sigClose n (setCore n (sigFold (now s) 8 0 0 3 (leBytes 2 f.toNat) c) s)) := by
  have hmask : enMask 2 [] = 3 := by decide
  rw [← bits_of_low16 h, ← hmask]
  exact if_neg (not_sysReserved h)

theorem sigmarkStep_illegal (h : f &&& ~~~0xFFFF ≠ 0) : sigmarkStep n f c s = coreFault n .coreIllegalOp 0 0 s := if_pos (sysReserved_eq_true h)

theorem tracemarkStep_retires (h : f &&& ~~~0xFFFF = 0) : tracemarkStep n f c s =
    retire n (traceRec n 0x04 2 (leBytes 2 f.toNat ++ leBytes 2 c.pc.toNat) s) := by
  rw [← bits_of_low16 h]
  exact if_neg (not_sysReserved h)

theorem tracemarkStep_illegal (h : f &&& ~~~0xFFFF ≠ 0) : tracemarkStep n f c s = coreFault n .coreIllegalOp 0 0 s :=
  if_pos (sysReserved_eq_true h)

theorem statusStep_illegal (h : f &&& ~~~0x3E000000000000 ≠ 0) : statusStep n f c s = coreFault n .coreIllegalOp 0 0 s :=
  if_pos (sysReserved_eq_true h)

theorem a1modeStep_illegal (h : f &&& ~~~0x38000000000000 ≠ 0) : a1modeStep n f c s = coreFault n .coreIllegalOp 0 0 s :=
  if_pos (sysReserved_eq_true h)

theorem clrflagStep_illegal (h : f &&& ~~~0x1F ≠ 0) : clrflagStep n f c s = coreFault n .coreIllegalOp 0 0 s :=
  if_pos (sysReserved_eq_true h)

end Legal

/-! The status word that A1MODE and CLRFLAG leave, bit by bit (R75). -/

/-- The status word after A1MODE: A1STATE is bit 17, AFMT bits 18 and 19. -/
def a1Status (f : Field) (status : W32) : W32 :=
  let base := status &&& ~~~(0xE0000 : W32)
  if bits f 53 53 = 1 then base ||| (0x20000 : W32) ||| (BitVec.ofNat 32 (bits f 52 51) <<< 18) else base

theorem getLsbD_a1Mask (i : Nat) : (0xE0000 : W32).getLsbD i = decide (17 ≤ i ∧ i < 20) := by
  by_cases hi : i < 32
  · revert i; decide
  · rw [BitVec.getLsbD_of_ge _ _ (by omega)]
    exact (decide_eq_false (by omega)).symm

theorem getLsbD_a1State (i : Nat) : (0x20000 : W32).getLsbD i = decide (i = 17) := by
  by_cases hi : i < 32
  · revert i; decide
  · rw [BitVec.getLsbD_of_ge _ _ (by omega)]
    exact (decide_eq_false (by omega)).symm

theorem getLsbD_afmt (f : Field) (i : Nat) :
    (BitVec.ofNat 32 (bits f 52 51) <<< 18).getLsbD i = (decide (18 ≤ i ∧ i < 20) && f.getLsbD (i + 33)) := by
  rw [BitVec.getLsbD_shiftLeft, BitVec.getLsbD_ofNat, testBit_bits]
  by_cases hi : 18 ≤ i ∧ i < 20
  · obtain rfl | rfl : i = 18 ∨ i = 19 := by omega
    · simp
    · simp
  · by_cases hlow : i < 18
    · simp [hlow]
    · have hhigh : ¬ i - 18 < 2 := by omega
      simp [hhigh]; omega

/-- A1MODE writes the bits 17, 18 and 19 of the status word from the bits 53, 51 and 52 of the instruction, and no other. -/
theorem getLsbD_a1Status (f : Field) (status : W32) (i : Nat) : (a1Status f status).getLsbD i =
    if 17 ≤ i ∧ i < 20 then f.getLsbD 53 && (decide (i = 17) || f.getLsbD (i + 33)) else status.getLsbD i := by
  have hbase : (status &&& ~~~(0xE0000 : W32)).getLsbD i = (status.getLsbD i && !decide (17 ≤ i ∧ i < 20)) := by
    by_cases hi : i < 32
    · rw [BitVec.getLsbD_and, BitVec.getLsbD_not, getLsbD_a1Mask, decide_eq_true hi, Bool.true_and]
    · rw [BitVec.getLsbD_of_ge _ _ (by omega), BitVec.getLsbD_of_ge _ _ (by omega), Bool.false_and]
  simp only [a1Status, bits_single_eq_one]
  split
  next hset =>
    rw [BitVec.getLsbD_or, BitVec.getLsbD_or, hbase, getLsbD_a1State, getLsbD_afmt, hset]
    by_cases hi : 17 ≤ i ∧ i < 20
    · rw [if_pos hi]
      by_cases h17 : i = 17
      · simp [h17]
      · have h18 : 18 ≤ i ∧ i < 20 := by omega
        simp [hi, h17, h18]
    · have h17 : i ≠ 17 := by omega
      have h18 : ¬ (18 ≤ i ∧ i < 20) := by omega
      simp [hi, h17, h18]
  next hclear =>
    rw [hbase, Bool.eq_false_of_not_eq_true hclear]
    by_cases hi : 17 ≤ i ∧ i < 20
    · simp [hi]
    · simp [hi]

/-- The status bits that CLRFLAG clears: the flags of MASK, and CLIPFIRST with CLIPEV (R75). -/
def clearedFlags (f : Field) : W32 :=
  let m : W32 := BitVec.ofNat 32 (bits f 4 0)
  if m.getLsbD 4 then m ||| (0x1FF00 : W32) else m

theorem getLsbD_clearedFlags (f : Field) {i : Nat} (hi : i < 32) : (clearedFlags f).getLsbD i =
    ((decide (i ≤ 4) && f.getLsbD i) || (decide (8 ≤ i) && decide (i ≤ 16) && f.getLsbD 4)) := by
  have hmask (k : Nat) (hk : k < 32) : (BitVec.ofNat 32 (bits f 4 0)).getLsbD k = (decide (k ≤ 4) && f.getLsbD k) := by
    rw [BitVec.getLsbD_ofNat, testBit_bits]
    simp [hk, Nat.lt_succ_iff]
  have hclip : (0x1FF00 : W32).getLsbD i = (decide (8 ≤ i) && decide (i ≤ 16)) := by
    revert i; decide
  simp only [clearedFlags, hmask 4 (by decide), le_refl, decide_true, Bool.true_and]
  split
  next hset => rw [BitVec.getLsbD_or, hmask i hi, hclip, hset, Bool.and_true]
  next hclear => rw [hmask i hi, Bool.eq_false_of_not_eq_true hclear, Bool.and_false, Bool.or_false]

section Flags
variable (n : Node) {f : Field} {c : Core} (s : State) (hmat : c.mat = [])
include hmat

theorem a1modeStep_retires (h : f &&& ~~~0x38000000000000 = 0) :
    a1modeStep n f c s = retireWith n { c with status := a1Status f c.status } s := by
  have hidle : ¬ c.mat.any (fun m => m.bank || m.feed) = true := by simp [hmat]
  exact (if_neg (not_sysReserved h)).trans (if_neg hidle)

variable (hpend : c.pend = [])
include hpend

/-- No operation that may set a status bit is under way on a core without entries and array operations (R75). -/
theorem noFlagPending : ¬ (¬ c.mat.isEmpty ∨ c.pend.any (fun p => !p.isWrite)) := by simp [hmat, hpend]

theorem clrflagStep_retires (h : f &&& ~~~0x1F = 0) :
    clrflagStep n f c s = retireWith n { c with status := c.status &&& ~~~clearedFlags f } s :=
  (if_neg (not_sysReserved h)).trans (if_neg (noFlagPending hmat hpend))

theorem statusStep_retires (h : f &&& ~~~0x3E000000000000 = 0) :
    statusStep n f c s = retireWith n (setS (bits f 53 49) c.status c) s :=
  (if_neg (not_sysReserved h)).trans (if_neg (noFlagPending hmat hpend))

end Flags

/-- Settles O14: the eight instructions of the SYSTEM class, and their reserved bits. -/
theorem systemInstructions : Obligations.SystemInstructions := by
  refine ⟨fun s n c hready => ⟨fun hpend hmat hag => ?endDone, fun hpend => ?endWaits, ?nop⟩,
    fun s n c f hready hlegal => ⟨fun hnone => ?fenceRetires, fun hsome => ?fenceWaits⟩,
    fun s n c f hready hlegal hmat => ?a1mode,
    fun s n c f hready hlegal => ⟨?sigmark, ?tracemark⟩,
    fun s n c f hready hlegal hmat hpend => ?clrflag,
    fun s n c f hready hlegal hmat hpend => ?status,
    fun s n c f hready => ?reserved⟩
  case endDone => rw [exec_end_ready hready, endStep_done n s (by simp [outstanding, hpend, hmat, hag])]
  case endWaits =>
    rw [exec_end_ready hready, endStep_waits n s (by simp [outstanding, hpend])]
    rfl
  case nop => rw [exec_nop_ready hready, nopStep_retires]
  case fenceRetires => rw [exec_fence_ready hready, fenceStep_eq n c s hlegal, if_neg (ne_true_of_eq_false hnone)]
  case fenceWaits =>
    rw [exec_fence_ready hready, fenceStep_eq n c s hlegal, if_pos hsome]
    rfl
  case a1mode =>
    refine ⟨_, (exec_a1mode_ready hready f).trans (congrArg _ (a1modeStep_retires n s hmat hlegal)), fun i hi => ?_, ?_, ?_, ?_, fun i hi => ?_⟩
    · rw [getLsbD_a1Status, if_neg (by omega)]
    · exact (getLsbD_a1Status f _ 17).trans (by simp)
    · exact (getLsbD_a1Status f _ 18).trans (by simp)
    · exact (getLsbD_a1Status f _ 19).trans (by simp)
    · rw [getLsbD_a1Status, if_neg (by omega)]
  case sigmark => rw [exec_sigmark_ready hready, sigmarkStep_retires n c s hlegal]
  case tracemark => rw [exec_tracemark_ready hready, tracemarkStep_retires n c s hlegal]
  case clrflag =>
    refine ⟨_, (exec_clrflag_ready hready f).trans (congrArg _ (clrflagStep_retires n s hmat hpend hlegal)), fun i hi => ?_⟩
    rw [BitVec.getLsbD_and, BitVec.getLsbD_not, getLsbD_clearedFlags f hi, decide_eq_true hi, Bool.true_and, Bool.not_or,
      ← Bool.and_assoc (c.status.getLsbD i)]
  case status => rw [exec_status_ready hready, statusStep_retires n s hmat hpend hlegal]
  case reserved =>
    rw [exec_end_ready hready, exec_nop_ready hready, exec_fence_ready hready, exec_a1mode_ready hready, exec_sigmark_ready hready,
      exec_tracemark_ready hready, exec_clrflag_ready hready, exec_status_ready hready]
    refine ⟨fun h => ⟨?_, ?_⟩, fun h => ?_, fun h => ?_, fun h => ⟨?_, ?_⟩, fun h => ?_, fun h => ?_⟩
    · rw [endStep_illegal n s h]
    · rw [nopStep_illegal n c s h]
    · rw [fenceStep_illegal n c s h]
    · rw [a1modeStep_illegal n c s h]
    · rw [sigmarkStep_illegal n c s h]
    · rw [tracemarkStep_illegal n c s h]
    · rw [clrflagStep_illegal n c s h]
    · rw [statusStep_illegal n c s h]

end Sys2Proof.Laws
end

section
/-! PROOF. Atomics: what fetch-add and compare-and-swap do once their checks pass, and the spaces without atomics (R78, R79, R85,
R388, R392). -/

open Sys2Proof Sys2Proof.Machine
namespace Sys2Proof.Laws

/-- The operand bytes of an atomic (R85): the addend, or the compare value and then the new one, of 4 or of 8 bytes. -/
def atomicOperands (cas : Bool) (f : Field) (c : Core) (sd : Nat) : List Byte :=
  if bits f 39 38 = 3 then
    (if cas then leBytes 8 (getS2 c sd).toNat ++ leBytes 8 (getS2 c (sd + 2)).toNat else leBytes 8 (getS2 c sd).toNat)
  else (if cas then leBytes 4 (getS c sd).toNat ++ leBytes 4 (getS c (sd + 1)).toNat else leBytes 4 (getS c sd).toNat)

/-- A ready core runs either atomic by their shared course. -/
theorem exec_atomic_ready {s : State} {n : Node} {c : Core} (h : Ready s n c) (f : Field) (cas : Bool) :
    exec (if cas then .compareAndSwap n f else .fetchAdd n f) s =
      .next (atomicStep n (if cas then .cas else .fetchAdd) f (atomicOperands cas f c) cas c s) := by
  cases cas with
  | true => exact issued h _
  | false => exact issued h _

/-- The core once an atomic at `off` of its window has folded the operand bytes `data` (R392). -/
def atomicFolded (f : Field) (off : Nat) (data : List Byte) (c : Core) (s : State) : Core :=
  sigFold (now s) 5 (bits f 43 40) off (enMask data.length []) data c

/-- An atomic whose checks have passed: suppressed it reads 0, else it waits for what stops it or sends its request (R85, R388). -/
def atomicAccess (n : Node) (op : AtomicOp) (f : Field) (w : Window) (off : Nat) (data : List Byte) (c : Core) (s : State) : State :=
  if suppressed c (bits f 43 40) then
    retireWith n (loadDest (bits f 53 49) (bits f 39 38) false (List.replicate (2 ^ bits f 39 38) 0) (atomicFolded f off data c s)) s
  else match accessWait c n w off true s with
    | some why => waitFor n w off why s
    | none => coreWait n (.reply c.nextTag) (sendReq n (.atomic (bits f 53 49) (bits f 39 38)) (bits f 43 40) off w
        (2 ^ bits f 39 38) data [] (some op) false (setCore n (atomicFolded f off data c s) s))

theorem atomicSpace_of_ne {sp : Space} (hlcl : sp ≠ .lcl) (hpeer : sp ≠ .peer) : atomicSpace sp = true := by
  cases sp with
  | lcl => exact absurd rfl hlcl
  | peer => exact absurd rfl hpeer
  | chamber | staging | dram | host => rfl

section Step
variable {n : Node} {op : AtomicOp} {f : Field} {regs : Nat → List Byte} {align4 : Bool} {c : Core} {s : State} {w : Window}
variable (hwin : getWin c (bits f 43 40) = some w)
include hwin

/-- An atomic through a window whose space has none faults (R85). -/
theorem atomicStep_illegalSpace (hspace : w.space = .lcl ∨ w.space = .peer) : atomicStep n op f regs align4 c s =
    coreFault n .coreIllegalOp (bits f 43 40) (effOff (getS c (bits f 48 44)).toNat (bits f 31 0)) s := by
  have hnone : atomicSpace w.space = false := by
    rcases hspace with h | h
    · rw [h]; rfl
    · rw [h]; rfl
  simp [atomicStep, smemFields, hwin, hnone]

/-- The checks of an atomic pass with legal registers, a size of 4 or 8, and an aligned word within a window that grants A and
whose space has atomics (R78, R79, R85). -/
theorem atomicStep_passes {off : Nat} (hzero : bits f 36 32 = 0) (hsize : 2 ≤ bits f 39 38)
    (hreg : bits f 39 38 = 3 → bits f 53 49 % (if align4 then 4 else 2) = 0)
    (hoff : off = effOff (getS c (bits f 48 44)).toNat (bits f 31 0)) (hacc : w.a = true) (hlcl : w.space ≠ .lcl) (hpeer : w.space ≠ .peer)
    (hfits : off + 2 ^ bits f 39 38 ≤ w.length) (halign : (winAddr w off).toNat % 2 ^ bits f 39 38 = 0) :
    atomicStep n op f regs align4 c s = atomicAccess n op f w off (regs (bits f 53 49)) c s := by
  subst hoff
  have hlegal : ¬ (bits f 36 32 ≠ 0 ∨ bits f 39 38 < 2 ∨
      (bits f 39 38 = 3 ∧ (if align4 then bits f 53 49 % 4 ≠ 0 else bits f 53 49 % 2 = 1))) := by
    rintro (hbad | hsmall | ⟨h8, hodd⟩)
    · exact hbad hzero
    · omega
    · have heven := hreg h8
      cases align4 with
      | true => exact hodd heven
      | false => exact absurd (heven.symm.trans hodd) (by decide)
  simp only [atomicStep, smemFields, if_neg hlegal, hwin, atomicSpace_of_ne hlcl hpeer, winOk_some rfl hacc hfits, halign]
  rfl

end Step

section Access
variable {n : Node} {f : Field} {c : Core} {s : State} {w : Window} {off : Nat} (op : AtomicOp) (data : List Byte)

theorem atomicAccess_suppressed (h : suppressed c (bits f 43 40) = true) : atomicAccess n op f w off data c s =
    retireWith n (loadDest (bits f 53 49) (bits f 39 38) false (List.replicate (2 ^ bits f 39 38) 0) (atomicFolded f off data c s)) s :=
  if_pos h

theorem atomicAccess_sent (h : suppressed c (bits f 43 40) = false) (hgo : accessWait c n w off true s = none) :
    atomicAccess n op f w off data c s = coreWait n (.reply c.nextTag) (sendReq n (.atomic (bits f 53 49) (bits f 39 38)) (bits f 43 40) off w
      (2 ^ bits f 39 38) data [] (some op) false (setCore n (atomicFolded f off data c s) s)) := by
  rw [atomicAccess, h, hgo]
  rfl

end Access

/-- Settles O17: both atomics, suppressed and sent, and the two spaces that have none. -/
theorem atomics : Obligations.Atomics := by
  refine ⟨fun s n c f w off bs cas hready hzero hsize hreg hoff hwin hacc hlcl hpeer hfits halign hbs => ?legal,
    fun s n c f w hready hwin hspace => ⟨?fetchAdd, ?swap⟩⟩
  case legal =>
    have hdata : atomicOperands cas f c (bits f 53 49) = bs := hbs.symm
    dsimp only
    rw [exec_atomic_ready hready, atomicStep_passes hwin hzero hsize hreg hoff hacc hlcl hpeer hfits halign, hdata]
    refine ⟨fun hsup => ?_, fun hnot hroom horder hhost => ?_⟩
    · rw [atomicAccess_suppressed _ _ hsup, atomicFolded]
    · rw [atomicAccess_sent _ _ hnot (accessWait_none hroom horder hhost true), atomicFolded]
  case fetchAdd => exact (exec_atomic_ready hready f false).trans (congrArg _ (atomicStep_illegalSpace hwin hspace))
  case swap => exact (exec_atomic_ready hready f true).trans (congrArg _ (atomicStep_illegalSpace hwin hspace))

end Sys2Proof.Laws
end

section
/-! PROOF. Address generators: BIND and the AGEN instructions of a ready core, a visit of AG0 or AG1 on a LOCAL window, and the end
of a run (R102, R104, R105, R109, R110, R112). -/

open Sys2Proof Sys2Proof.Machine
namespace Sys2Proof.Laws

section Ready
variable {s : State} {n : Node} {c : Core} (h : Ready s n c) (f : Field)
include h

theorem exec_bind_ready : exec (.bind n f) s = .next (bindStep n f c s) := issued h _
theorem exec_agenStart_ready : exec (.agenStart n f) s = .next (agenStartStep n f c s) := issued h _
theorem exec_agenWait_ready : exec (.agenWait n f) s = .next (agenWaitStep n f c s) := issued h _

end Ready

theorem exec_agAccess (n : Node) (k : Nat) (bs : List Byte) (s : State) : exec (.agAccess n k bs) s = .next (agVisit n k bs s) := rfl
theorem exec_agRunEnd (n : Node) (k : Nat) (s : State) : exec (.agRunEnd n k) s = .next (agRunEnd n k s) := rfl

/-! The AGEN instructions with reserved bits 0, an even slot and one of the three generators (R102, R110). -/

section Agen
variable (n : Node) {f : Field} {c : Core} (s : State)
variable (hzero : bits f 38 32 = 0) (hslot : bits f 51 48 % 2 = 0) (hgen : bits f 53 52 ≠ 3)
include hzero hslot hgen

/-- The reserved bits, the slot and the generator of an AGEN instruction are legal. -/
theorem agenOperands_legal : ¬ (bits f 38 32 ≠ 0 ∨ bits f 51 48 % 2 = 1 ∨ bits f 53 52 = 3) := by
  rintro (hbad | hodd | hthree)
  · exact hbad hzero
  · omega
  · exact hgen hthree

theorem bindStep_retires : bindStep n f c s = retireWith n (setAg (bits f 53 52) { getAg c (bits f 53 52) with
    slot := bits f 51 48, win := bits f 47 44, base := effOff (getS c (bits f 43 39)).toNat (bits f 31 0) } c) s :=
  if_neg (agenOperands_legal hzero hslot hgen)

theorem agenStartStep_waits (hrun : (getAg c (bits f 53 52)).running = true) : agenStartStep n f c s = coreWait n (.agen (bits f 53 52)) s :=
  (if_neg (agenOperands_legal hzero hslot hgen)).trans (if_pos hrun)

theorem agenWaitStep_eq : agenWaitStep n f c s =
    if (getAg c (bits f 53 52)).running then coreWait n (.agen (bits f 53 52)) s else retire n s :=
  if_neg (agenOperands_legal hzero hslot hgen)

/-- START of a generator that does not run latches the 16 words of its slot pair and checks them (R110). -/
theorem agenStartStep_stopped {g : AddrGen} {d : List W32} {t : State} (hg : g = getAg c (bits f 53 52))
    (hd : d = (List.range 16).map (fun i => getK 0 c.ld (8 * g.slot + i)))
    (ht : t = traceRec n 0x06 4 (leBytes 1 (bits f 53 52) ++ leBytes 1 g.slot ++ [0, 0] ++ leBytes 2 c.pc.toNat) s) (hrun : g.running = false) :
    agenStartStep n f c s =
      if descBad (bits f 53 52) d then coreFault n .agBadDescriptor g.win g.base s
      else retireWith n (setAg (bits f 53 52) { g with
        running := true, desc := d, pos := [0, 0, 0, 0, 0, 0], exhausted := false, startPc := c.pc,
        maskN := 0, rowMask := 0, colMask := 0, out := [], late := [] } (getCore t n)) t := by
  subst hg hd ht
  exact (if_neg (agenOperands_legal hzero hslot hgen)).trans (if_neg (ne_true_of_eq_false hrun))

end Agen

/-! Visits and run ends of a generator that does not run, and the end of an exhausted run (R104). -/

section Run
variable (n : Node) (k : Nat) (s : State)

theorem agVisit_stopped (bs : List Byte) (h : (getAg (getCore s n) k).running = false) : agVisit n k bs s = s :=
  if_pos (Or.inl (ne_true_of_eq_false h))

theorem agRunEnd_stopped (h : (getAg (getCore s n) k).running = false) : agRunEnd n k s = s :=
  if_neg fun hends => ne_true_of_eq_false h hends.1

theorem agRunEnd_ends {g : AddrGen} {t : State} (hg : g = getAg (getCore s n) k) (hrun : g.running = true) (hdone : g.exhausted = true)
    (hlate : g.late = []) (ht : t = traceRec n 0x06 4 (leBytes 1 k ++ leBytes 1 g.slot ++ [1, 0] ++ leBytes 2 g.startPc.toNat) s) :
    agRunEnd n k s = setCore n (drainMat (setAg k { g with running := false } (getCore t n))) t := by
  subst hg ht
  exact if_pos ⟨hrun, hdone, List.isEmpty_iff.mpr hlate⟩

end Run

/-! A visit without mask and without padding touches every lane, so every byte of its access (R104, R106, R108, R109). -/

section Unmasked
variable {g : AddrGen} (h : db g.desc 9 21 20 = 0)
include h

theorem visitMasks_unmasked (c : Core) : visitMasks c g = some (g, BitVec.allOnes 32, BitVec.allOnes 32) := by
  simp [visitMasks, h]

theorem maskPoisoned_unmasked (c : Core) : maskPoisoned c g = false := by
  simp [maskPoisoned, h]

theorem visitLanes_unmasked (k : Nat) (row col : W32) : visitLanes k g row col false = List.replicate (dLanes g.desc) true := by
  simp [visitLanes, h]

end Unmasked

/-- A lane is at most 32 bits wide and an access is a whole number of 16 bytes, so an access holds whole lanes (R103). -/
theorem dLane_dvd_access (d : List W32) : dLane d ∣ dAcc d * 8 := by
  have hcode : db d 9 25 24 ≤ 3 := Nat.le_of_lt_succ (Nat.mod_lt _ (by decide))
  calc dLane d ∣ 4 * 2 ^ 3 := Nat.mul_dvd_mul_left 4 (pow_dvd_pow 2 hcode)
    _ ∣ dAcc d * 8 := ⟨4 * 2 ^ db d 9 23 22, by rw [dAcc]; ring⟩

/-- With lanes of whole bytes, every byte of an access lies in one of its lanes. -/
theorem laneBytes_allLanes {d : List W32} (hlane : 8 ≤ dLane d) :
    laneBytes (dLane d) (List.replicate (dLanes d) true) (dAcc d) = List.replicate (dAcc d) true := by
  refine List.eq_replicate_iff.mpr ⟨by simp [laneBytes], fun e he => ?_⟩
  obtain ⟨b, hb, rfl⟩ := List.mem_map.mp he
  rw [List.mem_range] at hb
  have hin : b * 8 / dLane d < dLanes d := Nat.div_lt_div_of_lt_of_dvd (dLane_dvd_access d) (by omega)
  have hwide : dLane d ≠ 4 := by omega
  simp [hwide, List.getD_eq_getElem?_getD, hin]

/-- A whole access inside the window passes the check of its bytes (R112). -/
theorem bytesOk_within {off : Int} {m len : Nat} (hoff : 0 ≤ off) (hfits : off.toNat + m ≤ len) :
    bytesOk off (List.replicate m true) len = true := by
  refine List.all_eq_true.mpr fun b hb => ?_
  rw [List.length_replicate, List.mem_range] at hb
  have hbelow : off + b < len := by omega
  simp [hoff, hbelow]

/-- A visit of AG0 or AG1 that touches every lane of a clean, aligned access inside a readable LOCAL window delivers those lanes and
moves to the next iteration (R104, R105, R109, R112). -/
theorem agVisit_local {s : State} {n : Node} {k : Nat} (bs : List Byte) {g : AddrGen} {w : Window} {a : Nat} (hg : g = getAg (getCore s n) k)
    (hk : k < 2) (hrun : g.running = true) (hmore : g.exhausted = false) (hmask : db g.desc 9 21 20 = 0) (hpad : (visitOff g).2 = false)
    (hlanes : 0 < dLanes g.desc) (hwin : getWin (getCore s n) g.win = some w) (hread : w.r = true) (hlcl : w.space = .lcl)
    (hoff : 0 ≤ (visitOff g).1) (hfits : (visitOff g).1.toNat + dAcc g.desc ≤ w.length) (hlane : 8 ≤ dLane g.desc)
    (halign : (winAddr w (visitOff g).1.toNat).toNat % (dLane g.desc / 8) = 0) (ha : a = localAddr (winAddr w (visitOff g).1.toNat))
    (hclean : memCleanEn (getCore s n) a (List.replicate (dAcc g.desc) true) = true) :
    agVisit n k bs s = setCore n (drainMat (setAg k (agFlush { g with
      pos := (nextPos g.desc g.pos 6).1, exhausted := (nextPos g.desc g.pos 6).2,
      late := g.late ++ [(0, some (lanesOf (dLane g.desc) (rdN (getCore s n).mem a (dAcc g.desc)) (List.replicate (dLanes g.desc) true)))] })
        (getCore s n))) s := by
  subst hg ha
  have htouched : ¬ (List.replicate (dLanes (getAg (getCore s n) k).desc) true).all (!·) = true := by
    simp [Nat.pos_iff_ne_zero.mp hlanes]
  simp [agVisit, hrun, hmore, visitMasks_unmasked hmask, maskPoisoned_unmasked hmask, hpad, visitLanes_unmasked hmask, htouched,
    laneBytes_allLanes hlane, hwin, hk, hread, bytesOk_within hoff hfits, halign, hlcl, hclean]

/-- Settles O21: BIND, START and WAIT of a ready core, the visit that changes nothing, the visit of a LOCAL window, and the run's end. -/
theorem addressGenerators : Obligations.AddressGenerators := by
  refine ⟨fun s n c f hready hzero hslot hgen => ?bind,
    fun s n c f g d hready hzero hslot hgen hg hd => ⟨fun hrun hgood => ?starts, fun hrun hbad => ?refused, fun hrun => ⟨?startWaits, ?waits⟩,
      fun hrun => ?waitEnds⟩,
    fun s n k bs hrun => ⟨?visitStopped, ?endStopped⟩,
    fun s n k bs g w hg hk hrun hmore hmask hpad hlanes hwin hread hlcl hoff hfits hlane halign hclean => ?visit,
    fun s n k g hg hrun hdone hlate => ?runEnds⟩
  case bind =>
    rw [exec_bind_ready hready, bindStep_retires n s hzero hslot hgen]
    rfl
  case starts =>
    rw [exec_agenStart_ready hready, agenStartStep_stopped n s hzero hslot hgen hg hd rfl hrun, if_neg (ne_true_of_eq_false hgood)]
  case refused => rw [exec_agenStart_ready hready, agenStartStep_stopped n s hzero hslot hgen hg hd rfl hrun, if_pos hbad]
  case startWaits => rw [exec_agenStart_ready hready, agenStartStep_waits n s hzero hslot hgen (hg ▸ hrun)]
  case waits => rw [exec_agenWait_ready hready, agenWaitStep_eq n s hzero hslot hgen, if_pos (hg ▸ hrun)]
  case waitEnds => rw [exec_agenWait_ready hready, agenWaitStep_eq n s hzero hslot hgen, if_neg (ne_true_of_eq_false (hg ▸ hrun))]
  case visitStopped => rw [exec_agAccess, agVisit_stopped n k s bs hrun]
  case endStopped => rw [exec_agRunEnd, agRunEnd_stopped n k s hrun]
  case visit =>
    rw [exec_agAccess, agVisit_local bs hg hk hrun hmore hmask hpad hlanes hwin hread hlcl hoff hfits hlane halign rfl hclean]
  case runEnds => exact congrArg _ (agRunEnd_ends n k s hg hrun hdone hlate rfl)

end Sys2Proof.Laws
end

section
/-! PROOF. What the parts of a plan command leave alone: traces, events, announcements and power domains touch neither the plans nor the
frame loop, the recalibration, the intake and the pins (R361, R501–R507, R537, R538). -/

open Sys2Proof Sys2Proof.Machine
namespace Sys2Proof.Laws

/-! What a plan command's parts leave alone. -/

/-- From `s` to `t` the device's state, the pins, the frame loop, the recalibration, the plans, the pairs, the intake and the retire count
stand: only cores, power domains, memories, records, requests and announcements change. -/
structure Spares (s t : State) : Prop where
  dev : t.dev = s.dev
  fc : t.fc = s.fc
  loop : t.loop = s.loop
  adapt : t.adapt = s.adapt
  plans : t.plans = s.plans
  mir : t.mir = s.mir
  intake : t.intake = s.intake
  retired : t.obj.retired = s.obj.retired
  canonical : wfK ({} : Core) s.cores = true → wfK ({} : Core) t.cores = true

theorem Spares.refl (s : State) : Spares s s := ⟨rfl, rfl, rfl, rfl, rfl, rfl, rfl, rfl, id⟩

theorem Spares.trans {s t u : State} (h : Spares s t) (k : Spares t u) : Spares s u :=
  ⟨k.dev.trans h.dev, k.fc.trans h.fc, k.loop.trans h.loop, k.adapt.trans h.adapt, k.plans.trans h.plans, k.mir.trans h.mir,
    k.intake.trans h.intake, k.retired.trans h.retired, fun hwf => k.canonical (h.canonical hwf)⟩

/-- A change of other fields, and of the cores as a canonical table. -/
theorem Spares.other (s : State) {pending : List Instr} {free : Nat} {sent : List Out} {mbD mbL : Mbx} {urg : Urg} {log : Log} {ltn : Ltn}
    {time : TimeU} {energy : Energy} {mem : MemT} {kv : Kv} {fab : Fabric} {cores : SMap Core} {host : HostLink} {obj : Obj} {dv : Dv}
    {trace : TraceU} {sio : SMap SioPin} (hretired : obj.retired = s.obj.retired := by rfl)
    (hcores : wfK ({} : Core) s.cores = true → wfK ({} : Core) cores = true := by exact id) :
    Spares s (State.mk pending free sent s.dev mbD mbL urg s.fc log ltn time energy mem kv fab cores s.mir host obj s.loop s.plans
      s.intake dv s.adapt trace sio) := ⟨rfl, rfl, rfl, rfl, rfl, rfl, rfl, hretired, hcores⟩

theorem Spares.foldl {α : Type} {f : State → α → State} (hf : ∀ s x, Spares s (f s x)) (l : List α) (s : State) : Spares s (l.foldl f s) :=
  List.foldlRecOn l f (.refl s) fun t h x _ => h.trans (hf t x)

theorem setCore_spares (n : Node) (c : Core) (s : State) : Spares s (setCore n c s) := .other s rfl (wfK_putK ({} : Core) n.toNat c)

/-- From `s` to `t` only records, requests and announcements change: beyond what `Spares` says, the domains, the commands that wait and
the partner's check stand, and every core keeps its run state and its count of retired instructions. (`Keeps` follows the torch marks
and the mailboxes' service through a reaction; this follows what a plan command's answer depends on.) -/
structure Reports (s t : State) : Prop extends Spares s t where
  fab : t.fab = s.fab
  waiting : t.mbD.waiting = s.mbD.waiting
  twin : t.dv.twin = s.dv.twin
  check : t.dv.check = s.dv.check
  core : wfK ({} : Core) s.cores = true → ∀ n, (getCore t n).run = (getCore s n).run ∧ (getCore t n).retired = (getCore s n).retired

theorem Reports.refl (s : State) : Reports s s := ⟨.refl s, rfl, rfl, rfl, rfl, fun _ _ => ⟨rfl, rfl⟩⟩

theorem Reports.trans {s t u : State} (h : Reports s t) (k : Reports t u) : Reports s u :=
  ⟨h.toSpares.trans k.toSpares, k.fab.trans h.fab, k.waiting.trans h.waiting, k.twin.trans h.twin, k.check.trans h.check, fun hwf n =>
    ⟨(k.core (h.canonical hwf) n).1.trans (h.core hwf n).1, (k.core (h.canonical hwf) n).2.trans (h.core hwf n).2⟩⟩

/-- A change of other fields alone. -/
theorem Reports.other (s : State) {pending : List Instr} {free : Nat} {sent : List Out} {mbD mbL : Mbx} {urg : Urg} {log : Log} {ltn : Ltn}
    {time : TimeU} {energy : Energy} {mem : MemT} {kv : Kv} {host : HostLink} {obj : Obj} {dv : Dv} {trace : TraceU} {sio : SMap SioPin}
    (hretired : obj.retired = s.obj.retired := by rfl) (hwaiting : mbD.waiting = s.mbD.waiting := by rfl)
    (htwin : dv.twin = s.dv.twin := by rfl) (hcheck : dv.check = s.dv.check := by rfl) :
    Reports s (State.mk pending free sent s.dev mbD mbL urg s.fc log ltn time energy mem kv s.fab s.cores s.mir host obj s.loop s.plans
      s.intake dv s.adapt trace sio) := ⟨.other s hretired id, rfl, hwaiting, htwin, hcheck, fun _ _ => ⟨rfl, rfl⟩⟩

theorem Reports.foldl {α : Type} {f : State → α → State} (hf : ∀ s x, Reports s (f s x)) (l : List α) (s : State) :
    Reports s (l.foldl f s) :=
  List.foldlRecOn l f (.refl s) fun t h x _ => h.trans (hf t x)

theorem Reports.ite {s a b : State} {c : Prop} {d : Decidable c} (ha : Reports s a) (hb : Reports s b) : Reports s (if c then a else b) := by
  split <;> assumption

/-- A core that keeps its run state and its count. -/
theorem setCore_reports {n : Node} {c : Core} {s : State} (hrun : c.run = (getCore s n).run := by rfl)
    (hretired : c.retired = (getCore s n).retired := by rfl) :
    Reports s (setCore n c s) := by
  refine ⟨setCore_spares n c s, rfl, rfl, rfl, rfl, fun hwf k => ?_⟩
  rw [getCore_setCore hwf]
  split
  next h => subst h; exact ⟨hrun, hretired⟩
  next => exact ⟨rfl, rfl⟩

/-! Traces. -/

theorem tracePut_frame (r : List Byte) (s : State) : ∃ mem trace, tracePut r s = { s with mem, trace } := by
  unfold tracePut
  dsimp only
  split <;> exact ⟨_, _, rfl⟩

theorem foldl_tracePut_frame (l : List (List Byte)) (s : State) : ∃ mem trace, l.foldl (fun s r => tracePut r s) s = { s with mem, trace } := by
  induction l generalizing s with
  | nil => exact ⟨_, _, rfl⟩
  | cons r l ih =>
    obtain ⟨mem, trace, hput⟩ := tracePut_frame r s
    rw [List.foldl_cons, hput]
    exact ih _

theorem tracePut_reports (r : List Byte) (s : State) : Reports s (tracePut r s) := by
  obtain ⟨mem, trace, hput⟩ := tracePut_frame r s
  rw [hput]
  exact .other s

theorem traceFunnel_reports (kind dom : Nat) (p : List Byte) (s : State) : Reports s (traceFunnel kind dom p s) :=
  (Reports.other s).trans (tracePut_reports ..)

theorem traceFunnel_frame (kind dom : Nat) (p : List Byte) (s : State) : ∃ mem trace, traceFunnel kind dom p s = { s with mem, trace } :=
  tracePut_frame ..

theorem traceRec_reports (n : Node) (kind bit : Nat) (p : List Byte) (s : State) : Reports s (traceRec n kind bit p s) := by
  unfold traceRec
  dsimp only
  split
  · exact .refl s
  · split
    · obtain ⟨mem, trace, hfold⟩ := foldl_tracePut_frame (getCore s n).traceFifo s
      rw [hfold]
      split
      · exact ((Reports.other s).trans setCore_reports).trans (tracePut_reports ..)
      · obtain ⟨mem', trace', hlost⟩ := traceFunnel_frame 0x11 0 (leBytes 4 (getCore s n).traceLost ++ leBytes 2 n.toNat) { s with mem, trace }
        rw [hlost]
        exact ((Reports.other s).trans setCore_reports).trans (tracePut_reports ..)
    · exact .ite setCore_reports (.trans setCore_reports (.other _))

theorem traceRun_reports (before : SMap Core) (src : W16) (s : State) : Reports s (traceRun before src s) :=
  .foldl (fun s _ => .ite (.refl s) (traceRec_reports ..)) _ s

/-- A change of a core is the change and its record. -/
theorem changeCore_reports (n : Node) (f : Core → Core) (s : State) : Reports (updCore n f s) (changeCore n f s) :=
  .ite (.refl _) (traceRec_reports ..)

theorem changeCore_spares (n : Node) (f : Core → Core) (s : State) : Spares s (changeCore n f s) :=
  (setCore_spares n _ s).trans (changeCore_reports n f s).toSpares

/-! Events and requests to the host. -/

theorem msix_reports (v : Nat) (s : State) : Reports s (msix v s) := by
  obtain ⟨sent, host, h⟩ := msix_frame v s
  rw [h]
  exact .other s

theorem discardPosted_reports (flag : BitVec 4) (w : Posted) (s : State) : Reports s (discardPosted flag w s) := by
  unfold discardPosted
  split
  · exact .other s
  · exact .refl s

theorem postWrite_reports (w : Posted) (s : State) : Reports s (postWrite w s) := by
  have hhost (h : HostLink) (sent : List Out) : Reports s { s with host := h, sent } := .other s
  have hlost (flag : BitVec 4) (h : HostLink) : Reports s (discardPosted flag w { s with host := h }) :=
    (hhost h s.sent).trans (discardPosted_reports ..)
  exact .ite (hlost ..) (.ite (hhost ..) (.ite (hlost ..) (.ite (hlost ..) (hhost ..))))

theorem setEvt_reports (e : EvtSlot) (s : State) : Reports s (setEvt e s) := .other s

theorem deliverTo_reports (e : EvtSlot) (r : EvtRec) (s : State) : Reports s (deliverTo e r s) := by
  unfold deliverTo
  dsimp only
  split
  · exact (postWrite_reports ..).trans (setEvt_reports ..)
  · have hset (w x : Posted) (y : EvtSlot) : Reports s (setEvt y (postWrite x (if e.record then postWrite w s else s))) :=
      ((Reports.ite (postWrite_reports w s) (.refl s)).trans (postWrite_reports x _)).trans (setEvt_reports y _)
    exact .ite ((hset ..).trans (msix_reports ..)) (hset ..)

theorem postEvent_reports (event kind : W16) (p : List Byte) (s : State) : Reports s (postEvent event kind p s) := by
  unfold postEvent
  dsimp only
  split
  · exact .refl s
  · split
    · exact .other s
    · split
      · exact .ite (.other s) (deliverTo_reports ..)
      · exact .ite (.other s) (.other s)

theorem notifyAll_reports (kind : W16) (p : List Byte) (s : State) : Reports s (notifyAll kind p s) :=
  .foldl (f := fun s (c : CtxSlot) => postEvent c.notify kind p s) (fun s c => postEvent_reports c.notify kind p s) _ s

/-! Announcements, and a change of the device's state. -/

theorem dvPump_reports (fuel k : Nat) (s : State) : Reports s (dvPump fuel k s) := by
  induction fuel generalizing s with
  | zero => exact .refl s
  | succ fuel ih =>
    unfold dvPump
    dsimp only
    split
    · exact .refl s
    · exact .ite (.refl s) ((Reports.other s).trans (ih _))

theorem dvSend_reports (k chan dst : Nat) (p : List Byte) (s : State) : Reports s (dvSend k chan dst p s) :=
  (Reports.other s).trans (dvPump_reports ..)

theorem toPartner_reports (chan : Nat) (p : List Byte) (s : State) : Reports s (toPartner chan p s) := by
  unfold toPartner
  split
  · exact dvSend_reports ..
  · exact .refl s

theorem announce_reports (s : State) : Reports s (announce s) := by
  have hside (k pos : Nat) (p : List Byte) (s : State) :
      Reports s (if pos = partnerPos s then s else if (getK {} s.dv.ports k).state = .active then dvSend k 2 pos p s else s) :=
    .ite (.refl s) (.ite (dvSend_reports ..) (.refl s))
  exact .ite (.refl s) (.ite (toPartner_reports ..) (((hside ..).trans (hside ..)).trans (toPartner_reports ..)))

theorem enter_reports (st : DevState) (prior : Option DevState) (cause : W16) (s : State) :
    Reports (entered st prior s) (enter st prior cause s) := by
  have hlog : Reports (entered st prior s) (logRec 2 0 cause [devByte s.dev, devByte (entered st prior s).dev] (entered st prior s)) := by
    obtain ⟨mem, log, h⟩ := logRec_frame 2 0 cause [devByte s.dev, devByte (entered st prior s).dev] (entered st prior s)
    rw [h]
    exact .other _
  exact (hlog.trans (notifyAll_reports ..)).trans (announce_reports _)

/-! Power domains. -/

/-- Powering a domain up changes its cores and islands, and reports it (R538). -/
theorem domainOn_eq (d : Nat) (s : State) : ∃ x, Spares s x ∧ x.fab.gated.contains d = false ∧ Reports x (domainOn d s) := by
  unfold domainOn
  dsimp only
  split
  next h => exact ⟨s, .refl s, by simpa using h, .refl s⟩
  next =>
    have hsites := Spares.foldl (f := fun (s : State) (n : Node) => setIsland n {} (setCore n { run := .held } s))
      (fun s n => (setCore_spares n _ s).trans (.other _)) (sitesOf d) { s with fab := { s.fab with gated := s.fab.gated.filter (fun x => x ≠ d) } }
    have hgated : ((sitesOf d).foldl (fun (s : State) (n : Node) => setIsland n {} (setCore n { run := .held } s))
        { s with fab := { s.fab with gated := s.fab.gated.filter (fun x => x ≠ d) } }).fab.gated = s.fab.gated.filter (fun x => x ≠ d) :=
      List.foldlRecOn (motive := fun t : State => t.fab.gated = _) _ _ rfl (fun t h _ _ => h)
    generalize List.foldl _ _ (sitesOf d) = t at hsites hgated ⊢
    refine ⟨t, .trans (.other s) hsites, by rw [hgated]; simp, .trans ?_ (traceRun_reports ..)⟩
    split
    · exact .ite (.trans (.trans (.other t) (.other _)) (traceFunnel_reports ..)) (.other t)
    · exact .refl t

theorem domainOn_spares (d : Nat) (s : State) : Spares s (domainOn d s) := by
  obtain ⟨x, hspares, -, hreports⟩ := domainOn_eq d s
  exact hspares.trans hreports.toSpares

theorem powerHalves_spares (img : PlanImage) (map : List MapPair) (s : State) : Spares s (powerHalves img map s) :=
  .foldl (fun s d => domainOn_spares d s) _ s

theorem domainOff_spares (d : Nat) (s : State) : Spares s (domainOff d s) := by
  unfold domainOff
  dsimp only
  split
  · exact .refl s
  · have hsites := Spares.foldl (f := fun (s : State) (n : Node) => setCore n {} (setIsland n {} s))
      (fun s n => .trans (.other s) (setCore_spares n _ _)) (sitesOf d) s
    refine hsites.trans (.trans ?_ (traceRun_reports ..).toSpares)
    split
    · exact .other _
    · exact .other _

theorem gateUnused_spares (s : State) : Spares s (gateUnused s) := by
  refine .foldl (fun s d => ?_) _ s
  split
  · exact .refl s
  · exact domainOff_spares d s

end Sys2Proof.Laws
end

section
/-! PROOF. Plans: the sections that PLAN_LOAD places, the plan it enters in the table, and PLAN_UNLOAD (R345, R346, R357). -/

open Sys2Proof Sys2Proof.Machine
namespace Sys2Proof.Laws

/-! Sections loaded into their cores. -/

/-- A core as a plan places it: IDLE, with nothing retired (R99). -/
def Placed (c : Core) : Prop := c.run = .idle ∧ c.retired = 0

theorem loadSection_eq (p : PlanImage) (map : List MapPair) (keep : Bool) (c : CoreSect) (s : State) :
    ∃ new : Core, Placed new ∧ loadSection p map keep c s = changeCore c.site (fun _ => new) s := ⟨_, ⟨rfl, rfl⟩, rfl⟩

theorem loadSection_spares (p : PlanImage) (map : List MapPair) (keep : Bool) (c : CoreSect) (s : State) :
    Spares s (loadSection p map keep c s) := by
  obtain ⟨new, -, hload⟩ := loadSection_eq p map keep c s
  rw [hload]
  exact changeCore_spares ..

theorem loadSections_spares (p : PlanImage) (map : List MapPair) (keep : Bool) (s : State) : Spares s (loadSections p map keep s) :=
  .foldl (fun s c => loadSection_spares p map keep c s) _ s

theorem Reports.placed {s t : State} (h : Reports s t) (hwf : wfK ({} : Core) s.cores = true) {n : Node} (hn : Placed (getCore s n)) :
    Placed (getCore t n) :=
  ⟨(h.core hwf n).1.trans hn.1, (h.core hwf n).2.trans hn.2⟩

theorem loadSection_placed {p : PlanImage} {map : List MapPair} {keep : Bool} {c : CoreSect} {s : State}
    (hwf : wfK ({} : Core) s.cores = true) {n : Node} (hn : n = c.site ∨ Placed (getCore s n)) :
    Placed (getCore (loadSection p map keep c s) n) := by
  obtain ⟨new, hnew, hload⟩ := loadSection_eq p map keep c s
  rw [hload]
  refine (changeCore_reports c.site (fun _ => new) s).placed (wfK_putK _ _ _ hwf) ?_
  rw [getCore_updCore hwf]
  split
  next => exact hnew
  next hne => exact hn.resolve_left hne

/-- A core is placed once its section is loaded, and stays placed as the others are. -/
theorem foldl_loadSection_placed {p : PlanImage} {map : List MapPair} {keep : Bool} {l : List CoreSect} {s : State}
    (hwf : wfK ({} : Core) s.cores = true) {n : Node} (hn : n ∈ l.map (·.site) ∨ Placed (getCore s n)) :
    Placed (getCore (l.foldl (fun s c => loadSection p map keep c s) s) n) := by
  induction l generalizing s with
  | nil => exact hn.resolve_left List.not_mem_nil
  | cons c l ih =>
    refine ih ((loadSection_spares p map keep c s).canonical hwf) ?_
    rcases hn with hn | hn
    · rcases List.mem_cons.mp hn with hsite | hn
      · exact .inr (loadSection_placed hwf (.inl hsite))
      · exact .inl hn
    · exact .inr (loadSection_placed hwf (.inr hn))

theorem loadSections_placed {p : PlanImage} {map : List MapPair} {keep : Bool} {s : State} (hwf : wfK ({} : Core) s.cores = true) :
    ∀ x ∈ p.cores, Placed (getCore (loadSections p map keep s) x.site) :=
  fun _ hx => foldl_loadSection_placed hwf (.inl (List.mem_map_of_mem hx))

/-! Translations, references and context slots. -/

theorem putTrans_reports (e : TransEnt) (g : Option Nat) (s : State) : Reports s (putTrans e g s) :=
  .trans (.other s) (.foldl (fun s _ => .other s) _ _)

theorem slotFault_reports (f : SlotFaultOf) (s : State) : Reports s (slotFault f s) := .ite (.refl s) (.other s)

theorem takeRef_reports (h : Handle) (s : State) : Reports s (takeRef h s) := .ite (.other s) (.other s)

theorem dropRef_reports (h : Handle) (s : State) : Reports s (dropRef h s) := by
  have hposted (w : Posted) : Reports s (postWrite w { s with obj := { s.obj with refs := s.obj.refs.erase h } }) :=
    .trans (.other s) (postWrite_reports ..)
  exact .ite (hposted _) ((hposted _).trans (.other _))

theorem slotRoom_reports {s t : State} (h : slotRoom s = some t) : Reports s t := by
  unfold slotRoom at h
  dsimp only at h
  split at h
  · cases h; exact .refl s
  · split at h <;> cases h
    · exact .other s
    · exact .other s
    · exact .ite (.other s) (.other s)

theorem measure_reports (code : W32) (digest : List Byte) (s : State) : Reports s (measure code digest s) := .other s

theorem openRegions_reports (p : PlanImage) (s : State) : Reports s (openRegions p s) := .other s

/-! A plan that passes every check. -/

/-- The substitution in force and the gallery halves of a plan powered, before its sections are loaded (R345, R537). -/
def planPowered (p : PlanImage) (s : State) : State :=
  powerHalves (physImage s p) (mapFor s (planDigest p))
    { s with dev := { s.dev with subst := s.ltn.cfg.subst }, energy := { s.energy with k := 2 ^ 32 } }

theorem planPowered_spares (p : PlanImage) (s : State) : Spares { s with dev := { s.dev with subst := s.ltn.cfg.subst } } (planPowered p s) :=
  .trans (.other _) (powerHalves_spares ..)

/-- The plan's sections loaded into its cores (R345). -/
def planPlaced (p : PlanImage) (s : State) : State := loadSections (physImage s p) (mapFor s (planDigest p)) false (planPowered p s)

theorem planPlaced_spares (p : PlanImage) (s : State) : Spares { s with dev := { s.dev with subst := s.ltn.cfg.subst } } (planPlaced p s) :=
  (planPowered_spares p s).trans (loadSections_spares ..)

theorem planPlaced_placed (p : PlanImage) {s : State} (hwf : wfK ({} : Core) s.cores = true) :
    ∀ x ∈ (physImage s p).cores, Placed (getCore (planPlaced p s) x.site) := loadSections_placed ((planPowered_spares p s).canonical hwf)

/-- The plan as PLAN_LOAD enters it in the table (R345, R357). -/
def loadedPlan (c : CtxSlot) (p : PlanImage) (s : State) : Loaded :=
  let q := physImage s p
  { ctx := c.id, img := q, digest := planDigest p, scaleDigest := (scaleCheck s p).1, period := BitVec.ofNat 64 (hdr q 0x28 8),
    flags := BitVec.ofNat 32 (hdr q 0x0C 4), planner := BitVec.ofNat 32 (hdr q 0x18 4), recalFor := sub q.bytes 0x80 32,
    map := mapFor s (planDigest p), objs := planRefs c q }

/-- Loading a plan places its cores and enters it in the table; what is left are requests and references for its context and its
objects, and its measurements (R315–R319, R373). -/
theorem planLoaded_reports (c : CtxSlot) (p : PlanImage) (objs : List (Handle × List Byte)) (s : State) :
    Reports { planPlaced p s with plans := (planPlaced p s).plans ++ [loadedPlan c p s] } (planLoaded c p objs s) := by
  refine .trans ?_ ((measure_reports ..).trans (measure_reports ..))
  refine .trans ?_ (.foldl (fun s h => takeRef_reports h s) _ _)
  refine .trans ?_ (.foldl (fun s e => ?pins) _ _)
  refine .trans ?_ (.foldl (fun s e => .ite (.refl s) ?descs) _ _)
  case descs =>
    split
    · exact .other s
    · exact .refl s
  case pins =>
    split
    · exact .ite (putTrans_reports ..) (.foldl (fun s k => slotFault_reports _ s) _ s)
    · exact slotFault_reports ..
  refine .trans (openRegions_reports _ _) (.ite (.other _) ?_)
  split
  next hroom => exact (slotRoom_reports hroom).trans (.other _)
  next => exact .refl _

/-! PLAN_LOAD. -/

/-- What PLAN_LOAD leaves once a plan has passed every check (R345, R346). -/
theorem planLoaded_places (c : CtxSlot) (p : PlanImage) (objs : List (Handle × List Byte)) (s : State) :
    (planLoaded c p objs s).plans = s.plans ++ [loadedPlan c p s] ∧ (planLoaded c p objs s).dev.state = s.dev.state ∧
    (wfK ({} : Core) s.cores = true → ∀ x ∈ (physImage s p).cores, Placed (getCore (planLoaded c p objs s) x.site)) := by
  have hreports := planLoaded_reports c p objs s
  have hspares := planPlaced_spares p s
  refine ⟨?_, ?_, fun hwf x hx => hreports.placed (hspares.canonical hwf) ?_⟩
  · rw [hreports.plans, hspares.plans]
  · rw [hreports.dev, hspares.dev]
  · exact planPlaced_placed p hwf x hx

/-- The context's slot, or the one that its entry in host memory becomes (R315). -/
def contextSlot (ctx : List Byte) (n : Nat) (s : State) : Option CtxSlot :=
  match s.obj.ctxs.find? (fun c => c.id = n) with
  | some c => some c
  | none => parseCtx n ctx

theorem contextSlot_eq_some {ctx : List Byte} {n : Nat} {s : State} {c : CtxSlot} (h : contextSlot ctx n s = some c) :
    s.obj.ctxs.find? (fun c => c.id = n) = some c ∨ (s.obj.ctxs.find? (fun c => c.id = n) = none ∧ parseCtx n ctx = some c) := by
  unfold contextSlot at h
  split at h
  next hfind => exact .inl (hfind.trans h)
  next hfind => exact .inr ⟨hfind, h⟩

section PlanLoad
variable {ctx : List Byte} {img : Option PlanImage} {objs : List (Handle × List Byte)} {r : Req} {s : State}

theorem planLoad_noContext (h : s.obj.ctxTab.count ≤ r.arg 0 2) : planLoad ctx img objs r s = refuse .dispatch r 5 16 [] s := if_pos h

theorem planLoad_loadedContext (hctx : r.arg 0 2 < s.obj.ctxTab.count) (h : (planOf s (r.arg 0 2)).isSome = true) :
    planLoad ctx img objs r s = bad .dispatch r 16 s := (if_neg (Nat.not_le.mpr hctx)).trans (if_pos h)

/-- A request that names a context, a plan and a state object which are there is answered as the plan's checks end (R345, R357). -/
theorem planLoad_checks {c : CtxSlot} {p : PlanImage} {d : ObjDesc} (hctx : r.arg 0 2 < s.obj.ctxTab.count) (hnone : planOf s (r.arg 0 2) = none)
    (hzero : r.arg 2 2 = 0) (hobj : r.arg 4 4 = 0xFFFFFFFF ∨ (r.arg 4 4 < s.obj.objTab.count ∧ tornObj s (r.arg 4 4) = false))
    (hslot : contextSlot ctx (r.arg 0 2) s = some c) (hdesc : descOf s objs c.plan = some d) :
    ∃ rest, planLoad ctx (some p) objs r s = match planChecks s (r.arg 0 2) d.length p objs with
      | some e => refuse .dispatch r e.status e.detail (leBytes 2 e.check ++ leBytes 1 e.rung ++ leBytes 1 e.sub_ ++ leBytes 4 e.offset) s
      | none => ok .dispatch r (planDigest p ++ rest) (planLoaded c p objs s) := by
  have hbelow : ¬(r.arg 4 4 ≠ 0xFFFFFFFF ∧ s.obj.objTab.count ≤ r.arg 4 4) := by omega
  have hwhole : ¬(r.arg 4 4 ≠ 0xFFFFFFFF ∧ tornObj s (r.arg 4 4) = true) := by
    rintro ⟨hne, htorn⟩
    obtain ⟨-, hnot⟩ := hobj.resolve_left hne
    exact Bool.false_ne_true (hnot.symm.trans htorn)
  rcases contextSlot_eq_some hslot with hfind | ⟨hfind, hslot⟩
  all_goals
    simp only [planLoad, if_neg (Nat.not_le.mpr hctx), hnone, Option.isSome_none, Bool.false_eq_true, if_neg (not_not.mpr hzero), if_neg hbelow,
      if_neg hwhole, if_false, hfind, hslot, hdesc, List.append_assoc]
    exact ⟨_, rfl⟩

end PlanLoad

/-! PLAN_UNLOAD. -/

theorem unload_removes (l : Loaded) (s : State) : (unload l s).plans = s.plans.filter (fun p => p.ctx ≠ l.ctx) ∧
    (unload l s).obj.retired = s.obj.retired ∧ (unload l s).dev = s.dev := by
  unfold unload
  dsimp only
  have hsites : Spares s ((l.img.cores.map (fun c => c.site)).foldl (fun (s' : State) (n : Node) =>
      if (s.plans.filter (fun p => p.ctx ≠ l.ctx)).any (fun p => (sectAt p.img n).isSome) then s'
      else changeCore n (fun c => if c.run = .off then c else { coreReset c with wins := [], routes := [], chans := [] }) s') s) := by
    refine .foldl (fun s n => ?_) _ s
    split
    · exact .refl s
    · exact changeCore_spares ..
  generalize List.foldl _ s (l.img.cores.map _) = t at hsites ⊢
  have hrefs := Reports.foldl (f := fun s (h : Handle) => dropRef h s) (fun s h => dropRef_reports h s) l.objs
  exact ⟨(hrefs _).plans, (hrefs _).retired.trans hsites.retired, (hrefs _).dev.trans hsites.dev⟩

/-- Unloading a plan removes it, and is a retire point (R320, R345). -/
theorem planUnload_removes {r : Req} {s : State} {l : Loaded} (h : planOf s (r.arg 0 2) = some l) :
    ∃ t, planUnload r s = ok .dispatch r (leBytes 8 t.obj.retired.toNat) t ∧ t.plans = s.plans.filter (fun p => p.ctx ≠ l.ctx) ∧
      t.obj.retired = s.obj.retired + 1 ∧ t.dev = s.dev := by
  obtain ⟨hplans, hretired, hdev⟩ := unload_removes l s
  have hgated := gateUnused_spares (retireStep (unload l s))
  refine ⟨gateUnused (retireStep (unload l s)), by simp only [planUnload, h], hgated.plans.trans hplans, ?_, hgated.dev.trans hdev⟩
  rw [hgated.retired, retireStep, hretired]

theorem planUnload_unknown {r : Req} {s : State} (h : planOf s (r.arg 0 2) = none) : planUnload r s = refuse .dispatch r 5 16 [] s := by
  simp only [planUnload, h]

end Sys2Proof.Laws
end

section
/-! PROOF. The frame loop: LOOP_START on a lone device and on a TWIN, and LOOP_STOP (R276, R345, R347, R361, R364, R365). -/

open Sys2Proof Sys2Proof.Machine
namespace Sys2Proof.Laws

/-! LOOP_START. -/

theorem decisionPoint_reports (s : State) : Reports s (decisionPoint s) := by
  unfold decisionPoint
  split
  · exact .refl s
  · exact .ite (.refl s) (.ite (.trans (.other s) (toPartner_reports ..)) (.other s))

theorem respond_reports (m : Mailbox) (k : Nat) (st dt : W16) (bs : List Byte) (s : State) : Reports s (respond m k st dt bs s) := by
  have hset (b : Mbx) (hwaiting : b.waiting = (getMb m s).waiting) : Reports s (setMb m b s) := by
    cases m
    · exact .other s rfl hwaiting
    · exact .other s
  exact .ite (.refl s) (.ite (.trans (hset _ (by rfl)) (msix_reports ..)) (hset _ rfl))

/-- The frame loop of a plan at its start (R276, R347). -/
def begunLoop (p : Loaded) (e : W64) (s : State) : Loop :=
  { ctx := some p.ctx, epoch := e, period := p.period, torchCtx := some p.ctx, clearNext := s.loop.clearNext, past := s.loop.past }

/-- The loop begun, before its first decision point and before RUNNING is entered (R276, R347). -/
structure Begun (p : Loaded) (e : W64) (s t : State) : Prop where
  dev : t.dev = s.dev
  fc : t.fc = s.fc
  loop : t.loop = begunLoop p e s
  pairs : t.mir.pairs = pairsFor p

/-- A lone device tells no partner of the start, and answers it at once (R347). -/
theorem startLoop_lone {s : State} (h : s.dv.n < 2) (p : Loaded) (k : Nat) (e : W64) :
    ∃ t, Begun p e s t ∧ Reports (entered .running none (decisionPoint t)) (startLoop p k e false s) := by
  have hpair : decide (2 ≤ s.dv.n) = false := decide_eq_false (Nat.not_le.mpr h)
  have hload : Spares s (if s.loop.reload then loadSections p.img p.map true s else s) := by
    split
    · exact loadSections_spares ..
    · exact .refl s
  simp only [startLoop, hpair, Bool.false_eq_true, false_and, if_false]
  generalize (if s.loop.reload then loadSections p.img p.map true s else s) = t at hload ⊢
  refine ⟨_, ?begun, .trans (enter_reports ..) (respond_reports ..)⟩
  exact ⟨hload.dev, hload.fc, by rw [begunLoop, ← hload.loop], rfl⟩

/-- A lone device enters RUNNING with frame 0 at the epoch, the pins as they were (R276, R347, R361, R364). -/
theorem startLoop_runs {s : State} (h : s.dv.n < 2) (p : Loaded) (k : Nat) (e : W64) :
    (startLoop p k e false s).dev = { s.dev with state := .running, prior := none, stateSeq := s.dev.stateSeq + 1 } ∧
    (startLoop p k e false s).loop = begunLoop p e s ∧ (startLoop p k e false s).mir.pairs = pairsFor p ∧
    (startLoop p k e false s).fc.safeA = s.fc.safeA := by
  obtain ⟨b, hbegun, hreports⟩ := startLoop_lone h p k e
  have hdecided := decisionPoint_reports b
  refine ⟨?_, ?_, ?_, ?_⟩
  · rw [hreports.dev, ← hbegun.dev, ← hdecided.dev]; rfl
  · exact hreports.loop.trans (hdecided.loop.trans hbegun.loop)
  · exact (congrArg Mir.pairs (hreports.mir.trans hdecided.mir)).trans hbegun.pairs
  · rw [hreports.fc, ← hbegun.fc, ← hdecided.fc]; rfl

theorem planOf_ctx {s : State} {n : Nat} {p : Loaded} (h : planOf s n = some p) : p.ctx = n := by simpa using List.find?_some h

/-- A start waits while the partner's plan check is not there (R347). -/
theorem tryStart_unchecked {s : State} {c : Nat} {own limit : W64} {p : Loaded} (hstarting : s.loop.starting = some (c, own, limit))
    (hplan : startPlan s c = some p) (htwin : s.dv.twin = true) (hcheck : s.dv.check = none) : tryStart s = s := by
  simp only [tryStart, hstarting]
  cases s.mbD.waiting.find? (fun w => w.opcode = 0x0303) with
  | none => rfl
  | some w => simp only [hplan, htwin, hcheck, if_true]

/-- The start that a device of a pair proposes, and the command that waits for it at most 100 ms (R347). -/
def startProposed (p : Loaded) (k : Nat) (e : W64) (s : State) : State :=
  { s with
    mbD := { s.mbD with waiting := s.mbD.waiting ++ [{ slot := k, opcode := 0x0303, args := [p.ctx], limit := now s + 100000000 }] }
    loop := { s.loop with starting := some (p.ctx, e, now s + 100000000) } }

section LoopStart
variable {r : Req} {s : State}

theorem loopStart_reserved (h : r.arg 2 2 ≠ 0) : loopStart r s = bad .dispatch r 18 s := if_pos h

variable (hzero : r.arg 2 2 = 0)
include hzero

theorem loopStart_badLead (h : r.arg 4 4 < 1000 ∨ 1000000 < r.arg 4 4) : loopStart r s = bad .dispatch r 20 s :=
  (if_neg (not_not.mpr hzero)).trans (if_pos h)

variable (hlead : ¬(r.arg 4 4 < 1000 ∨ 1000000 < r.arg 4 4))
include hlead

theorem loopStart_unknown (h : planOf s (r.arg 0 2) = none) : loopStart r s = refuse .dispatch r 5 16 [] s := by
  simp only [loopStart, hzero, ne_eq, not_true_eq_false, if_false, if_neg hlead, h]

variable {p : Loaded} (hplan : planOf s (r.arg 0 2) = some p)
include hplan

theorem loopStart_busy (h : s.loop.starting ≠ none) : loopStart r s = refuse .dispatch r 6 (Config.suggestedWait 0) [] s := by
  simp only [loopStart, hzero, ne_eq, not_true_eq_false, if_false, if_neg hlead, hplan, Option.isSome_iff_ne_none.mpr h, if_true]

variable (hidle : s.loop.starting = none)
include hidle

theorem loopStart_lone (h : s.dv.n < 2) : loopStart r s = startLoop p r.slot (now s + BitVec.ofNat 64 (r.arg 4 4 * 1000)) false s := by
  simp only [loopStart, hzero, ne_eq, not_true_eq_false, if_false, if_neg hlead, hplan, hidle, Option.isSome_none, Bool.false_eq_true, if_pos h]

/-- A TWIN without its partner's check sends its own and its proposal, and waits (R347). -/
theorem loopStart_twin (hattached : s.dev.state = .attached) (hpair : 2 ≤ s.dv.n) (htwin : s.dv.twin = true) (hcheck : s.dv.check = none) :
    Reports (startProposed p r.slot (now s + BitVec.ofNat 64 (r.arg 4 4 * 1000)) s) (loopStart r s) := by
  simp only [loopStart, hzero, ne_eq, not_true_eq_false, if_false, if_neg hlead, hplan, hidle, Option.isSome_none, Bool.false_eq_true,
    if_neg (Nat.not_lt.mpr hpair), htwin, if_true]
  refine (?_ : Reports (startProposed p r.slot _ s) (tryStart _))
  generalize hsent : toPartner 2 (proposeBytes _ 0 false) (toPartner 2 _ _) = t
  have hreports : Reports (startProposed p r.slot (now s + BitVec.ofNat 64 (r.arg 4 4 * 1000)) s) t := by
    rw [← hsent]
    exact (toPartner_reports ..).trans (toPartner_reports ..)
  have hstart : startPlan t p.ctx = some p := by
    rw [startPlan, hreports.dev, planOf, hreports.plans, planOf_ctx hplan]
    exact (if_pos hattached).trans hplan
  rw [tryStart_unchecked (by rw [hreports.loop]; rfl) hstart (hreports.twin.trans htwin) (hreports.check.trans hcheck)]
  exact hreports

end LoopStart

/-! LOOP_STOP. -/

/-- The torch plan stopped, with the frame in progress waiting for its delivery (R365, R453). -/
theorem stopTorch_holds (reason : TorchReason) (cause : W16) (s : State) : (stopTorch reason cause s).dev.state = .safeHold ∧
    (stopTorch reason cause s).fc.torch = false ∧ (stopTorch reason cause s).loop.cur = none := by
  have hkeeps := enter_keeps .safeHold none cause
  unfold stopTorch
  dsimp only
  rw [(hkeeps _).dev, (hkeeps _).fc, (hkeeps _).loop]
  exact ⟨rfl, (congrArg Fc.torch (answerBoundary_keeps _).fc :), (congrArg Loop.cur (answerBoundary_keeps _).loop :)⟩

/-- The loop ended at once, with the pins asserted (R345, R364). -/
theorem finishStop_attaches (last : W32) (s : State) : (finishStop last s).dev.state = .attached ∧ (finishStop last s).loop.ctx = none ∧
    (finishStop last s).loop.stopAt = none ∧ (finishStop last s).fc.safeA = true := by
  have hanswers (l : List Waiting) (t : State) : Keeps t (l.foldl (fun s w => respond .dispatch w.slot 0 0 (leBytes 4 last.toNat) s) t) :=
    .foldl (fun s w => respond_keeps ..) l t
  have hended (u : State) : Keeps (entered .attached none u) (answerBoundary (enter .attached none 0x0304 u)) :=
    (enter_keeps ..).trans (answerBoundary_keeps _)
  unfold finishStop
  dsimp only
  rw [(hanswers _ _).dev, (hanswers _ _).loop, (hanswers _ _).fc, (hended _).dev, (hended _).loop, (hended _).fc]
  exact ⟨rfl, rfl, rfl, rfl⟩

section LoopStop
variable {r : Req} {s : State}

theorem loopStop_torch (h : torchOn s = true) :
    loopStop r s = ok .dispatch r (leBytes 4 (frameNo s).toNat) (stopTorch .none 0x0304 s) := if_pos h

/-- The last frame begun, all ones before frame 0. -/
def lastFrame (s : State) : W32 := if s.loop.started = 0 then 0xFFFFFFFF else s.loop.next - 1

/-- The frame that LOOP_STOP names: the last one begun for all ones (R345). -/
def stopFrame (r : Req) (s : State) : W32 := if r.arg 0 4 = 0xFFFFFFFF then lastFrame s else BitVec.ofNat 32 (r.arg 0 4)

/-- The command waits for the loop's end. -/
def stopWaits (r : Req) (s : State) : State :=
  { s with mbD := { s.mbD with waiting := s.mbD.waiting ++ [{ slot := r.slot, opcode := 0x0304, args := [(stopFrame r s).toNat], limit := 0 }] } }

variable (hmain : torchOn s = false)
include hmain

theorem loopStop_past (h : 2 ^ 31 ≤ (stopFrame r s - lastFrame s).toNat) : loopStop r s = bad .dispatch r 16 s :=
  (if_neg (ne_true_of_eq_false hmain)).trans (if_pos h)

theorem loopStop_waits (h : (stopFrame r s - lastFrame s).toNat < 2 ^ 31) : loopStop r s =
    if stopFrame r s = lastFrame s ∧ s.loop.cur.isNone = true then finishStop (stopFrame r s) (stopWaits r s)
    else { stopWaits r s with loop := { s.loop with stopAt := some (stopFrame r s) } } :=
  (if_neg (ne_true_of_eq_false hmain)).trans (if_neg (Nat.not_le.mpr h))

end LoopStop

end Sys2Proof.Laws
end

section
/-! PROOF. Recalibration and the status commands of the plans' group (R178, R345, R381, R382). -/

open Sys2Proof Sys2Proof.Machine
namespace Sys2Proof.Laws

/-! Recalibration. -/

section Adapt
variable {r : Req} {s : State}

theorem adaptEnter_unknown (h : planOf s (r.arg 0 2) = none) : adaptEnter r s = refuse .dispatch r 5 16 [] s := by simp only [adaptEnter, h]

/-- The contexts of the recalibration plan and of the plan it recalibrates (R381). -/
def contextsNamed (c p : Loaded) (s : State) : State := { s with adapt := { s.adapt with ctxs := some (c.ctx, p.ctx) } }

section Named
variable {c p : Loaded} (hc : planOf s (r.arg 0 2) = some c) (hp : planOf s (r.arg 2 2) = some p)
include hc hp

theorem adaptEnter_wrongPlan (h : c.flags.getLsbD 4 = false ∨ c.recalFor ≠ sub p.digest 0 32) : adaptEnter r s = bad .dispatch r 16 s := by
  have hwrong : ¬c.flags.getLsbD 4 = true ∨ c.recalFor ≠ sub p.digest 0 32 := h.imp_left ne_true_of_eq_false
  simp only [adaptEnter, hc, hp, if_pos hwrong]

variable (hflag : c.flags.getLsbD 4 = true) (hfor : c.recalFor = sub p.digest 0 32)
include hflag hfor

theorem adaptEnter_judged : adaptEnter r s = if ¬parkedFresh s = true ∨ s.energy.coolInvalid = true then refuse .dispatch r 6 1000 [] s
    else ok .dispatch r [] (enter .adapting none 0x0305 (driveSafe true (domainOn 4 (contextsNamed c p s)))) := by
  have hright : ¬(¬c.flags.getLsbD 4 = true ∨ c.recalFor ≠ sub p.digest 0 32) := by simp [hflag, hfor]
  simp only [adaptEnter, hc, hp, if_neg hright, contextsNamed]

theorem adaptEnter_notParked (h : parkedFresh s = false ∨ s.energy.coolInvalid = true) : adaptEnter r s = refuse .dispatch r 6 1000 [] s :=
  (adaptEnter_judged hc hp hflag hfor).trans (if_pos (h.imp_left ne_true_of_eq_false))

/-- ADAPTING is entered with the pins asserted and the decoder's domain powered (R345, R364, R381, R538). -/
theorem adaptEnter_enters (hparked : parkedFresh s = true) (hcool : s.energy.coolInvalid = false) : ∃ t, adaptEnter r s = ok .dispatch r [] t ∧
    t.dev.state = .adapting ∧ t.dev.prior = none ∧ t.adapt.ctxs = some (c.ctx, p.ctx) ∧ t.fc.safeA = true ∧ t.fab.gated.contains 4 = false := by
  have hparked' : ¬(¬parkedFresh s = true ∨ s.energy.coolInvalid = true) := by simp [hparked, hcool]
  obtain ⟨x, hspares, hgated, hreports⟩ := domainOn_eq 4 (contextsNamed c p s)
  have henter := enter_reports .adapting none 0x0305 (driveSafe true (domainOn 4 (contextsNamed c p s)))
  refine ⟨_, (adaptEnter_judged hc hp hflag hfor).trans (if_neg hparked'), ?_, ?_, ?_, ?_, ?_⟩
  · rw [henter.dev]; rfl
  · rw [henter.dev]; rfl
  · exact (congrArg Adapt.ctxs (henter.adapt.trans (hreports.adapt.trans hspares.adapt)) :)
  · rw [henter.fc]; rfl
  · rw [henter.fab, ← hgated, ← hreports.fab]; rfl

end Named

theorem adaptRun_noSet (h : 3 < r.arg 0 1) : adaptRun r s = bad .dispatch r 16 s := if_pos h

/-- The run that ADAPT_RUN starts (R181, R258, R345). -/
def newRun (r : Req) (s : State) : AdaptRun :=
  { id := s.adapt.nextId, scene := r.arg 0 1, valid := r.arg 1 1, event := BitVec.ofNat 16 (r.arg 2 2), seed := BitVec.ofNat 64 (r.arg 4 8),
    epochs := r.arg 12 1, order := epochOrder s (r.arg 0 1) (BitVec.ofNat 64 (r.arg 4 8)) 0 }

/-- The run started, with both record sets at their beginning (R181, R345). -/
def runStarted (r : Req) (s : State) : State :=
  rewind (r.arg 1 1) (rewind (r.arg 0 1) { s with adapt := { s.adapt with run := some (newRun r s), recs := [], nextId := s.adapt.nextId + 1 } })

theorem adaptRun_judged (hscene : r.arg 0 1 ≤ 3) (hvalid : r.arg 1 1 ≤ 3) (hne : r.arg 1 1 ≠ r.arg 0 1)
    (hsets : getK [] s.intake.sets (r.arg 0 1) ≠ []) (hsetv : getK [] s.intake.sets (r.arg 1 1) ≠ []) (hframes : 0 < setFrames s (r.arg 0 1))
    (hlimit : setFrames s (r.arg 0 1) < 2 ^ 32) (hlow : 1 ≤ r.arg 12 1) (hhigh : r.arg 12 1 ≤ 64) : adaptRun r s =
      if s.adapt.run.isSome = true then refuse .dispatch r 6 (Config.suggestedWait 2) [] s
      else ok .dispatch r (leBytes 4 s.adapt.nextId.toNat) (runStarted r s) := by
  have hdiffer : ¬(3 < r.arg 1 1 ∨ r.arg 1 1 = r.arg 0 1) := by omega
  have hcount : ¬(setFrames s (r.arg 0 1) = 0 ∨ 2 ^ 32 ≤ setFrames s (r.arg 0 1)) := by omega
  have hepochs : ¬(r.arg 12 1 < 1 ∨ 64 < r.arg 12 1) := by omega
  simp only [adaptRun, if_neg (Nat.not_lt.mpr hscene), if_neg hdiffer, List.isEmpty_eq_false_iff.mpr hsets, List.isEmpty_eq_false_iff.mpr hsetv,
    Bool.false_eq_true, if_false, if_neg hcount, if_neg hepochs, runStarted, newRun]

theorem adaptResult_running {a : AdaptRun} (h : s.adapt.run = some a) : adaptResult r s =
    if a.id.toNat = r.arg 0 4 then ok .dispatch r (List.replicate 48 0) s else refuse .dispatch r 5 16 [] s := by simp only [adaptResult, h]

theorem adaptResult_unknown (hrun : s.adapt.run = none) (h : s.adapt.recs.find? (fun x => x.id.toNat = r.arg 0 4) = none) :
    adaptResult r s = refuse .dispatch r 5 16 [] s := by simp only [adaptResult, hrun, h]

theorem adaptResult_ended {x : AdaptRec} (hrun : s.adapt.run = none) (h : s.adapt.recs.find? (fun x => x.id.toNat = r.arg 0 4) = some x) :
    adaptResult r s = ok .dispatch r (leBytes 1 x.verdict ++ leBytes 1 x.first ++ leBytes 2 x.corrupt ++ sub x.candidate 0 32
      ++ leBytes 4 x.worstClip.toNat ++ leBytes 4 x.worstHead.toNat ++ leBytes 4 x.worstWino.toNat) s := by simp only [adaptResult, hrun, h]

/-- The verdict of the last run, 0 before any (R345). -/
def lastVerdict (s : State) : Nat := match s.adapt.recs.getLast? with | some x => x.verdict | none => 0

/-- The record of a run that ends aborted (R382). -/
def abortedRec (a : AdaptRun) (s : State) : AdaptRec := { id := a.id, verdict := 3, corrupt := corruptCount s a }

theorem abortRun_running {s : State} {a : AdaptRun} (h : s.adapt.run = some a) :
    (abortRun s).adapt = { s.adapt with run := none, recs := s.adapt.recs ++ [abortedRec a s] } := by
  simp only [abortRun, h, endRun, (postEvent_reports ..).adapt, abortedRec]

theorem abortRun_idle {s : State} (h : s.adapt.run = none) : abortRun s = s := by simp only [abortRun, h]

theorem abortRun_run (s : State) : (abortRun s).adapt.run = none := by
  cases h : s.adapt.run with
  | none => rw [abortRun_idle h, h]
  | some a => rw [abortRun_running h]

theorem abortRun_verdict {s : State} (h : s.adapt.run ≠ none) : lastVerdict (abortRun s) = 3 := by
  obtain ⟨a, ha⟩ := Option.ne_none_iff_exists'.mp h
  rw [lastVerdict, abortRun_running ha, List.getLast?_concat, abortedRec]

/-- The run aborted, the record sets closed and the contexts let go (R381, R382). -/
def adaptEnded (s : State) : State :=
  { closeSets (abortRun s) with adapt := { (abortRun s).adapt with ctxs := none } }

/-- ADAPTING is left for ATTACHED, with the run aborted and the record sets closed (R345, R381, R382). -/
theorem adaptExit_leaves (r : Req) (s : State) : ∃ v t, adaptExit r s = ok .dispatch r (leBytes 1 v) t ∧
    t.dev.state = .attached ∧ t.dev.prior = none ∧ t.adapt.run = none ∧ t.adapt.ctxs = none ∧ t.intake.sets = [] ∧ (s.adapt.run ≠ none → v = 3) ∧
    (∀ x, s.adapt.run = none → s.adapt.recs.getLast? = some x → v = x.verdict) := by
  have hspares := (enter_reports .attached none 0x0308 (adaptEnded s)).toSpares.trans (gateUnused_spares _)
  refine ⟨lastVerdict (abortRun s), gateUnused (enter .attached none 0x0308 (adaptEnded s)), rfl, ?_, ?_, ?_, ?_, ?_,
    abortRun_verdict, fun x hnone hlast => ?_⟩
  · rw [hspares.dev]; rfl
  · rw [hspares.dev]; rfl
  · rw [hspares.adapt]; exact abortRun_run s
  · rw [hspares.adapt]; rfl
  · rw [hspares.intake]; rfl
  · rw [abortRun_idle hnone, lastVerdict, hlast]

end Adapt

/-! CLIP_READ, MEM_STATUS and CORE_STATUS. -/

section Status
variable {r : Req} {s : State}

theorem clipRead_noCore (h : isLogical (r.arg 0 2) = false) : clipRead r s = bad .dispatch r 16 s := if_pos (ne_true_of_eq_false h)

section Logical
variable (hcore : isLogical (r.arg 0 2) = true)
include hcore

theorem clipRead_badFirst (h : 511 < r.arg 2 2) : clipRead r s = bad .dispatch r 18 s := (if_neg (not_not.mpr hcore)).trans (if_pos h)

variable (hfirst : r.arg 2 2 ≤ 511)
include hfirst

theorem clipRead_badCount (h : r.arg 4 1 < 1 ∨ 28 < r.arg 4 1 ∨ 512 < r.arg 2 2 + r.arg 4 1) : clipRead r s = bad .dispatch r 20 s := by
  simp only [clipRead, hcore, not_true_eq_false, if_false, if_neg (Nat.not_lt.mpr hfirst), if_pos h]

variable (hcount : ¬(r.arg 4 1 < 1 ∨ 28 < r.arg 4 1 ∨ 512 < r.arg 2 2 + r.arg 4 1))
include hcount

theorem clipRead_held (h : r.flag 1 = true) :
    clipRead r s = ok .dispatch r (clipResults (servedBy s (BitVec.ofNat 10 (r.arg 0 2))) (r.arg 2 2) (r.arg 4 1) s) s := by
  simp only [clipRead, hcore, not_true_eq_false, if_false, if_neg (Nat.not_lt.mpr hfirst), if_neg hcount, h, if_true]

/-- CLIP_READ held until the frame boundary (R178, R345). -/
def clipWaits (r : Req) (s : State) : State :=
  { s with mbD := { s.mbD with waiting := s.mbD.waiting ++
      [{ slot := r.slot, opcode := 0x0309, limit := 0
         args := [(servedBy s (BitVec.ofNat 10 (r.arg 0 2))).toNat, r.arg 2 2, r.arg 4 1, if r.flag 0 = true then 1 else 0] }] } }

/-- A fresh snapshot is taken at once with no frame loop, and at the frame boundary otherwise (R178). -/
theorem clipRead_fresh (h : r.flag 1 = false) : clipRead r s =
    if loopRuns s = true then clipWaits r s
    else
      let t := snapClips (servedBy s (BitVec.ofNat 10 (r.arg 0 2))) (r.flag 0) s
      ok .dispatch r (clipResults (servedBy s (BitVec.ofNat 10 (r.arg 0 2))) (r.arg 2 2) (r.arg 4 1) t) t := by
  simp only [clipRead, hcore, not_true_eq_false, if_false, if_neg (Nat.not_lt.mpr hfirst), if_neg hcount, h, Bool.false_eq_true, clipWaits]

end Logical

theorem coreStatus_noCore (h : isLogical (r.arg 0 2) = false) : coreStatus r s = bad .dispatch r 16 s := if_pos (ne_true_of_eq_false h)

theorem coreStatus_reads (h : isLogical (r.arg 0 2) = true) :
    let n := servedBy s (BitVec.ofNat 10 (r.arg 0 2))
    let c := getCore s n
    coreStatus r s = ok .dispatch r (leBytes 1 c.run.code ++ [0] ++ leBytes 2 n.toNat ++ leBytes 4 c.status.toNat ++ faultRecBytes c) s :=
  if_neg (not_not.mpr h)

/-- A channel with its counts of corrected and uncorrectable errors at 0. -/
def countsCleared (x : Channel) : Channel := { x with ce := {}, ue := {} }

/-- Clearing the channels of a list clears each of them, and no channel's counts come back. -/
theorem foldl_cleared {l : List Nat} {m : SMap Channel} (hwf : wfK ({} : Channel) m = true) {k : Nat}
    (hk : k ∈ l ∨ ((getK {} m k).ce = {} ∧ (getK {} m k).ue = {})) :
    (getK {} (l.foldl (fun (m : SMap Channel) c => updK {} m c countsCleared) m) k).ce = {} ∧
    (getK {} (l.foldl (fun (m : SMap Channel) c => updK {} m c countsCleared) m) k).ue = {} := by
  induction l generalizing m with
  | nil => exact hk.resolve_left List.not_mem_nil
  | cons c l ih =>
    refine ih (wfK_putK _ _ _ hwf) ?_
    have hget := getK_putK {} hwf c k (countsCleared (getK {} m c))
    unfold updK
    rw [hget]
    split
    next => exact .inr ⟨rfl, rfl⟩
    next hne => exact hk.imp_left fun hmem => (List.mem_cons.mp hmem).resolve_left hne

/-- The counts of the memories returned to 0 (R345). -/
def memCleared (s : State) : State :=
  { s with mem := { s.mem with
      bytes := [], overrun := [], chan := (List.range 4).foldl (fun (m : SMap Channel) c => updK {} m c countsCleared) s.mem.chan } }

/-- MEM_STATUS answers the plannable bandwidth and each channel's counts at their places, and returns the counts to 0 with CLEAR (R345). -/
theorem memStatus_reads (r : Req) (s : State) : ∃ b, memStatus r s = ok .dispatch r b (if r.flag 0 = true then memCleared s else s) ∧
    b.take 4 = leBytes 4 (plannable s) ∧
    (b.drop 12).take 16 = (List.range 4).flatMap (fun c =>
      leBytes 2 (getK {} s.mem.chan c).ce.val.toNat ++ leBytes 2 (getK {} s.mem.chan c).ue.val.toNat) :=
  ⟨_, rfl, rfl, rfl⟩

end Status

/-- Settles O58: each command is the refusal or the effect that its own lemma gives, answered or held as every command is. -/
theorem plansLoopsAndRecalibration : Obligations.PlansLoopsAndRecalibration := by
  intro s k ks r
  dsimp only
  refine ⟨fun ctx img objs hask => ?planLoad, fun hask => ?planUnload, fun hask => ?loopStart, fun hask => ?loopStop, fun hask => ?adaptEnter,
    fun hask => ?adaptRun, fun hask => ?adaptResult, fun hask => ?adaptExit, fun hask => ?clipRead, fun hask => ?memStatus, fun hask => ?coreStatus⟩
  case planLoad =>
    refine ⟨fun hout => serve_refuses hask (planLoad_noContext hout), fun hctx hsome => serve_refuses hask (planLoad_loadedContext hctx hsome),
      fun c p d hctx hnone hzero hobj hslot himg hdesc => ?_⟩
    subst himg
    obtain ⟨rest, hbody⟩ := planLoad_checks (s := taken .dispatch ks s) hctx hnone hzero hobj hslot hdesc
    refine ⟨fun e he => serve_gives hask (by rw [hbody, he]), fun he => ?_⟩
    obtain ⟨hplans, hstate, hplaced⟩ := planLoaded_places c p objs (taken .dispatch ks s)
    rw [he] at hbody
    exact ⟨rest, planLoaded c p objs (taken .dispatch ks s), loadedPlan c p (taken .dispatch ks s), serve_answers hask hbody, hplans, rfl, rfl, rfl,
      hstate, hplaced⟩
  case planUnload =>
    refine ⟨fun hnone => serve_refuses hask (planUnload_unknown hnone), fun l hsome => ?_⟩
    obtain ⟨t, heq, hremoved⟩ := planUnload_removes (s := taken .dispatch ks s) hsome
    exact ⟨t, serve_answers hask heq, hremoved⟩
  case loopStart =>
    refine ⟨fun hne => serve_refuses hask (loopStart_reserved hne), fun hzero hbad => serve_refuses hask (loopStart_badLead hzero hbad),
      fun hzero hlow hhigh => ?_⟩
    have hlead : ¬(r.arg 4 4 < 1000 ∨ 1000000 < r.arg 4 4) := by omega
    refine ⟨fun hnone => serve_refuses hask (loopStart_unknown hzero hlead hnone),
      fun p hplan hbusy => serve_refuses hask (loopStart_busy hzero hlead hplan hbusy), fun p hplan hidle hlone => ?lone,
      fun p hplan hidle hattached hpair htwin hcheck => ?twin⟩
    case lone =>
      have hbody := loopStart_lone (s := taken .dispatch ks s) hzero hlead hplan hidle hlone
      obtain ⟨hdev, hloop, hpairs, hsafe⟩ :=
        startLoop_runs (s := taken .dispatch ks s) hlone p k (now (taken .dispatch ks s) + BitVec.ofNat 64 (r.arg 4 4 * 1000))
      rw [asked_slot hask] at hbody
      refine ⟨_, serve_gives hask hbody, rfl, ?_⟩
      rw [hdev, hloop]
      exact ⟨rfl, rfl, rfl, rfl, rfl, rfl, rfl, rfl, rfl, hpairs, hsafe⟩
    case twin =>
      have hreports := loopStart_twin (s := taken .dispatch ks s) hzero hlead hplan hidle hattached hpair htwin hcheck
      rw [asked_slot hask] at hreports
      exact ⟨_, serve_gives hask rfl, hreports.loop, hreports.dev, hreports.waiting⟩
  case loopStop =>
    refine ⟨fun htorch _ => ⟨_, serve_answers hask (loopStop_torch htorch), stopTorch_holds .none 0x0304 (taken .dispatch ks s)⟩,
      fun hmain hpast => serve_refuses hask (loopStop_past hmain hpast), fun hmain hahead => ?_⟩
    have hbody := loopStop_waits (s := taken .dispatch ks s) hmain hahead
    rw [stopWaits, asked_slot hask] at hbody
    refine ⟨fun hsame hcur => ?now, fun hlater => ?later⟩
    case now =>
      exact ⟨_, serve_gives hask (hbody.trans (if_pos ⟨hsame, Option.isNone_iff_eq_none.mpr hcur⟩)), rfl, finishStop_attaches _ _⟩
    case later =>
      refine serve_gives hask (hbody.trans (if_neg fun ⟨hsame, hcur⟩ => ?_))
      rcases hlater with hne | hsome
      · exact hne hsame
      · exact hsome (Option.isNone_iff_eq_none.mp hcur)
  case adaptEnter =>
    refine ⟨fun hnone => serve_refuses hask (adaptEnter_unknown hnone), fun c p hc hp =>
      ⟨fun hwrong => serve_refuses hask (adaptEnter_wrongPlan hc hp hwrong), fun hflag hfor =>
        ⟨fun hnot => serve_refuses hask (adaptEnter_notParked hc hp hflag hfor hnot), fun hparked hcool => ?_⟩⟩⟩
    obtain ⟨t, heq, hentered⟩ := adaptEnter_enters (s := taken .dispatch ks s) hc hp hflag hfor hparked hcool
    exact ⟨t, serve_answers hask heq, hentered⟩
  case adaptRun =>
    refine ⟨fun hno => serve_refuses hask (adaptRun_noSet hno), fun hscene hvalid hne hsets hsetv hframes hlimit hlow hhigh => ?_⟩
    have hbody := adaptRun_judged (s := taken .dispatch ks s) hscene hvalid hne hsets hsetv hframes hlimit hlow hhigh
    exact ⟨fun hbusy => serve_refuses hask (hbody.trans (if_pos (Option.isSome_iff_ne_none.mpr hbusy))),
      fun hidle => ⟨_, serve_answers hask (hbody.trans (if_neg fun hsome => Option.isSome_iff_ne_none.mp hsome hidle)), rfl, rfl, rfl, rfl⟩⟩
  case adaptResult =>
    exact ⟨fun a hrun hid => serve_answers hask ((adaptResult_running (s := taken .dispatch ks s) hrun).trans (if_pos hid)),
      fun a hrun hid => serve_refuses hask ((adaptResult_running (s := taken .dispatch ks s) hrun).trans (if_neg hid)),
      fun hnone hrec => serve_refuses hask (adaptResult_unknown hnone hrec),
      fun x hnone hrec => serve_answers hask (adaptResult_ended hnone hrec)⟩
  case adaptExit =>
    obtain ⟨v, t, heq, hleft⟩ := adaptExit_leaves r (taken .dispatch ks s)
    exact ⟨v, t, serve_answers hask heq, hleft⟩
  case clipRead =>
    refine ⟨fun hno => serve_refuses hask (clipRead_noCore hno), fun hcore hbad => serve_refuses hask (clipRead_badFirst hcore hbad),
      fun hcore hfirst hbad => serve_refuses hask (clipRead_badCount hcore hfirst (by omega)), fun hcore hfirst hlow hhigh hend => ?_⟩
    have hcount : ¬(r.arg 4 1 < 1 ∨ 28 < r.arg 4 1 ∨ 512 < r.arg 2 2 + r.arg 4 1) := by omega
    refine ⟨fun hheld => serve_answers hask (clipRead_held hcore hfirst hcount hheld), fun hfresh hidle => ?now, fun hfresh hruns => ?boundary⟩
    all_goals have hbody := clipRead_fresh (s := taken .dispatch ks s) hcore hfirst hcount hfresh
    case now => exact serve_answers hask (hbody.trans (if_neg (ne_true_of_eq_false hidle)))
    case boundary =>
      rw [clipWaits, asked_slot hask] at hbody
      exact serve_gives hask (hbody.trans (if_pos hruns))
  case memStatus =>
    obtain ⟨b, heq, hplannable, hcounts⟩ := memStatus_reads r (taken .dispatch ks s)
    refine ⟨b, _, serve_answers hask heq, hplannable, hcounts, fun hkeep => if_neg (ne_true_of_eq_false hkeep), fun hclear => ?_⟩
    rw [if_pos hclear]
    exact ⟨rfl, fun hwf c hc => foldl_cleared hwf (.inl (List.mem_range.mpr hc))⟩
  case coreStatus =>
    exact ⟨fun hno => serve_refuses hask (coreStatus_noCore hno), fun hcore => serve_answers hask (coreStatus_reads hcore)⟩

end Sys2Proof.Laws
end

section
/-! PROOF. The memory tiers as their surroundings drive them: scrubbing of chambers, staging and DRAM, PHY lock, retirement and the
end of migration (R188, R191, R193, R194, R200). -/

open Sys2Proof Sys2Proof.Machine
namespace Sys2Proof.Laws

theorem exec_chamberScrub (b : Bool) (a : Nat) (e : Ecc) (s : State) : exec (.chamberScrub b a e) s = .next (chamberScrub b a e s) := rfl
theorem exec_patrolScrub (k l : Nat) (e : Ecc) (s : State) : exec (.patrolScrub k l e) s = .next (patrolScrub k l e s) := rfl
theorem exec_phyLockLoss (k : Nat) (s : State) :
    exec (.phyLockLoss k) s = .next (if outOfService s k then s else setLock k (some (now s)) s) := rfl
theorem exec_phyLockRegain (k : Nat) (s : State) : exec (.phyLockRegain k) s = .next (setLock k none s) := rfl
theorem exec_phyRetrainTimeout (k : Nat) (s : State) : exec (.phyRetrainTimeout k) s = .next (phyRetrainTimeout k s) := rfl
theorem exec_migrationComplete (s : State) : exec .migrationComplete s = .next (migrationComplete s) := rfl

/-! Chambers and staging. -/

theorem chamberScrub_clean (b : Bool) (a : Nat) (s : State) : chamberScrub b a .clean s = s := rfl

/-- What a scrub finds in a word of hub staging (R188): a corrected word is reported, an uncorrectable one is poisoned and then reported. -/
theorem chamberScrub_staging (a : Nat) (s : State) :
    chamberScrub true a .corrected s = raise .stgCe { node := 0x230 } (leBytes 4 a) s ∧
    chamberScrub true a .uncorrectable s = raise .stgUe { node := 0x230 } (leBytes 4 a)
      { s with mem := { s.mem with stagingBad := s.mem.stagingBad.erase (a / 8) ++ [a / 8] } } := ⟨rfl, rfl⟩

/-- What a scrub finds in a word of a chamber, named by its port and bank (R187, R188). -/
theorem chamberScrub_chamber (a : Nat) (s : State) :
    chamberScrub false a .corrected s = raise .chmCe (chamberInst a) (leBytes 4 a) s ∧
    chamberScrub false a .uncorrectable s = raise .chmUe (chamberInst a) (leBytes 4 a)
      { s with mem := { s.mem with chamberBad := s.mem.chamberBad.erase (a / 8) ++ [a / 8] } } := ⟨rfl, rfl⟩

/-! Patrol scrubbing of DRAM. -/

/-- The state with one line of a channel poisoned (R191). -/
def poisonLine (k l : Nat) (s : State) : State :=
  { s with mem := { s.mem with dramBad := s.mem.dramBad.erase (k * 2 ^ 34 + l) ++ [k * 2 ^ 34 + l] } }

section Patrol
variable {s : State} {k : Nat}

/-- A channel whose pair is out of service is not scrubbed (R194). -/
theorem patrolScrub_outOfService (h : outOfService s k = true) (l : Nat) (e : Ecc) : patrolScrub k l e s = s := if_pos h

theorem patrolScrub_clean (k l : Nat) (s : State) : patrolScrub k l .clean s = s := by
  simp only [patrolScrub, ite_self]

/-- A corrected error of a channel in service is counted and raised with its address (R191, R192). -/
theorem dramCe_inService (h : outOfService s k = false) (a : Nat) : dramCe k a s = raise .dramCe (dramInst k) (leBytes 8 a)
    { s with mem := { s.mem with chan := putK {} s.mem.chan k { getK {} s.mem.chan k with ce := (getK {} s.mem.chan k).ce.inc } } } :=
  if_neg (ne_true_of_eq_false h)

/-- What the patrol finds in a line of a channel in service (R191): a corrected line is an error of its device address, an
uncorrectable one is poisoned and then an error of that address. -/
theorem patrolScrub_found (h : outOfService s k = false) (l : Nat) :
    patrolScrub k l .corrected s = dramCe k (dramAddr s.mem k (l * 64)) s ∧
    patrolScrub k l .uncorrectable s = dramUe k (dramAddr s.mem k (l * 64)) (poisonLine k l s) :=
  ⟨if_neg (ne_true_of_eq_false h), if_neg (ne_true_of_eq_false h)⟩

end Patrol

/-! PHY lock and retirement. -/

section Lock
variable {s : State} {k : Nat}

/-- A note of a channel's lock changes that note alone. -/
theorem setLock_eq (k : Nat) (l : Option W64) (s : State) : setLock k l s =
    { s with mem := { s.mem with chan := putK {} s.mem.chan k { getK {} s.mem.chan k with lockLost := l } } } := rfl

theorem phyRetrainTimeout_locked (h : (getK {} s.mem.chan k).lockLost = none) : phyRetrainTimeout k s = s := by
  simp only [phyRetrainTimeout, h]

/-- A channel still without lock retires its pair, and its note is cleared (R193). -/
theorem phyRetrainTimeout_unlocked {t : W64} (h : (getK {} s.mem.chan k).lockLost = some t) :
    phyRetrainTimeout k s = retirePair (k / 2) (setLock k none s) := by
  simp only [phyRetrainTimeout, h]

theorem retirePair_again {p : Nat} (h : p ∈ s.mem.retired) : retirePair p s = s := if_pos (List.contains_iff_mem.mpr h)

end Lock

/-! The end of migration. -/

section Migration
variable {s : State}

/-- With nothing waiting, BEST_EFFORT resumes by the change of its own fields alone (R200). -/
theorem resumeBestEffort_idle (hstalled : s.mem.stalled = []) (hheld : s.host.bar2Held = []) : resumeBestEffort s =
    { s with mem := { s.mem with halted := false, bulk := 65536, stalled := [] }, host := { s.host with bar2Held := [] } } := by
  simp only [resumeBestEffort, hstalled, hheld, List.foldl_nil]

theorem migrationComplete_none (h : s.mem.migrating = false) : migrationComplete s = s := if_neg (ne_true_of_eq_false h)

/-- What is still uncopied goes to its shadow, migration ends, and BEST_EFFORT resumes (R194, R200). -/
theorem migrationComplete_running (h : s.mem.migrating = true) : migrationComplete s =
    resumeBestEffort { s with mem := { finishCopy s.mem with migrating := false, copied := [] } } := if_pos h

end Migration

/-- Settles O28: the scrubs of chambers and staging, the patrol and the lock of a channel, retirement, and the end of migration. -/
theorem memoryTiers : Obligations.MemoryTiers := by
  refine ⟨fun s b a => ?scrub, fun s k l => ⟨fun hout => ?outOfService, ?clean, fun hin => ?inService⟩,
    fun s k => ⟨?regain, fun hlocked => ?locked, fun t hlost => ?unlocked⟩, fun s p => retirePair_again,
    fun s hnone => ?notMigrating, fun s hruns hstalled hheld => ?migrated⟩
  case scrub =>
    obtain ⟨hstgCe, hstgUe⟩ := chamberScrub_staging a s
    obtain ⟨hchmCe, hchmUe⟩ := chamberScrub_chamber a s
    simp only [exec_chamberScrub, chamberScrub_clean, hstgCe, hstgUe, hchmCe, hchmUe, and_self]
  case outOfService =>
    refine ⟨fun e => ?patrol, ?loss⟩
    case patrol => rw [exec_patrolScrub, patrolScrub_outOfService hout]
    case loss => rw [exec_phyLockLoss, if_pos hout]
  case clean => rw [exec_patrolScrub, patrolScrub_clean]
  case inService =>
    obtain ⟨hce, hue⟩ := patrolScrub_found hin l
    refine ⟨?corrected, ?loss, poisonLine k l s, rfl, ?uncorrectable, rfl⟩
    case corrected => rw [exec_patrolScrub, hce, dramCe_inService hin, dramInst]
    case loss => rw [exec_phyLockLoss, if_neg (ne_true_of_eq_false hin), setLock_eq]
    case uncorrectable => rw [exec_patrolScrub, hue]
  case regain => rw [exec_phyLockRegain, setLock_eq]
  case locked => rw [exec_phyRetrainTimeout, phyRetrainTimeout_locked hlocked]
  case unlocked => rw [exec_phyRetrainTimeout, phyRetrainTimeout_unlocked hlost, setLock_eq]
  case notMigrating => rw [exec_migrationComplete, migrationComplete_none hnone]
  case migrated =>
    have hwaiting : (finishCopy s.mem).stalled = [] := (finishCopy_stalled s.mem).trans hstalled
    exact congrArg Host.Outcome.next ((migrationComplete_running hruns).trans (resumeBestEffort_idle hwaiting hheld))

end Sys2Proof.Laws
end

section
/-! PROOF. The ledger's flags and meters, the electrical ceiling, the rung decision, coolant, junctions and rails (R202, R203, R208,
R209, R211, R215, R217, R218, R466, R528, R555). -/

open Sys2Proof Sys2Proof.Machine
namespace Sys2Proof.Laws

/-! Tables written entry by entry. -/

/-- A table after each listed entry that `p` names has been changed by `f`: those entries are changed once, the others stand. -/
theorem getK_foldl_updK {α : Type} [DecidableEq α] {d : α} {m : SMap α} (hwf : wfK d m = true) (p : Nat → Bool) (f : Nat → α → α)
    {l : List Nat} (hl : l.Nodup) (k : Nat) :
    getK d (l.foldl (fun m n => if p n = true then updK d m n (f n) else m) m) k =
      if k ∈ l ∧ p k = true then f k (getK d m k) else getK d m k := by
  induction l generalizing m with
  | nil => simp
  | cons n l ih =>
    obtain ⟨hn, hl⟩ := List.nodup_cons.mp hl
    rw [List.foldl_cons]
    by_cases hp : p n = true
    · have hget : getK d (updK d m n (f n)) k = if k = n then f n (getK d m n) else getK d m k := getK_putK d hwf n k _
      have hcanonical : wfK d (updK d m n (f n)) = true := wfK_putK d n _ hwf
      rw [if_pos hp, ih hcanonical hl, hget]
      by_cases hk : k = n
      · subst hk; simp [hn, hp]
      · simp [hk]
    · rw [if_neg hp, ih hwf hl]
      by_cases hk : k = n
      · subst hk; simp [hn, hp]
      · simp [hk]

/-! LEDGER_FLAGS. -/

theorem exec_ledgerFlags (v : W32) (s : State) : exec (.ledgerFlags v) s = .next (ledgerFlags v s) := rfl

/-- RUNG_FRAMES_n returns to 0 where its bit is written 1 (R217). -/
theorem ledgerFlags_rungFrames {s : State} (hwf : wfK {} s.energy.rungFrames = true) (v : W32) {n : Nat} (hn : n < 6) :
    getK {} (ledgerFlags v s).energy.rungFrames n = if v.getLsbD (23 + n) then {} else getK {} s.energy.rungFrames n := by
  have hfold := getK_foldl_updK hwf (fun n => v.getLsbD (23 + n)) (fun _ _ => {}) List.nodup_range (l := List.range 6) n
  simp only [List.mem_range, hn, true_and] at hfold
  exact hfold

/-- Settles O35: each of the nine counters is cleared by its own bit, and the ledger's other values stand. -/
theorem ledgerFlags : Obligations.LedgerFlags := by
  intro s v hwf
  exact ⟨_, exec_ledgerFlags v s, rfl, fun n hn => ledgerFlags_rungFrames hwf v hn, rfl, rfl, rfl, rfl, rfl⟩

/-! CEILING_INTERVAL. -/

theorem exec_ceilingInterval (uj : List Nat) (s : State) : exec (.ceilingInterval uj) s = .next (ceilingInterval uj s) := rfl

theorem meter_countMeter {s : State} (hwf : wfK 0 s.energy.meters = true) (m uj k : Nat) :
    meter (countMeter m uj s) k = if k = m then meter s m + BitVec.ofNat 64 (uj * getK 65536 s.energy.trim m / 65536) else meter s k :=
  getK_putK 0 hwf m k _

/-- The meters from `m` up count by their estimates, scaled by their trims; those below `m` stand (R202, R203). -/
theorem meter_countMeters {us : List Nat} {m : Nat} {s : State} (hon : s.dev.state ≠ .aonOnly) (hwf : wfK 0 s.energy.meters = true) (k : Nat) :
    meter (countMeters m us s) k = if m ≤ k ∧ k < m + us.length then
      meter s k + BitVec.ofNat 64 (us.getD (k - m) 0 * getK 65536 s.energy.trim k / 65536) else meter s k := by
  induction us generalizing m s with
  | nil => rw [countMeters, if_neg (by simp only [List.length_nil]; omega)]
  | cons u us ih =>
    have hstep : countMeters m (u :: us) s = countMeters (m + 1) us (countMeter m u s) := by
      rw [countMeters, if_neg fun h => hon h.1]
    rw [hstep, ih (s := countMeter m u s) hon (wfK_putK 0 m _ hwf), meter_countMeter hwf]
    by_cases hfirst : k = m
    · subst hfirst
      rw [if_neg (by omega), if_pos rfl, if_pos (by simp only [List.length_cons]; omega)]
      simp
    · rw [if_neg hfirst]
      by_cases hrest : m + 1 ≤ k ∧ k < m + 1 + us.length
      · have hindex : k - m = (k - (m + 1)) + 1 := by omega
        rw [if_pos hrest, if_pos (by simp only [List.length_cons]; omega), hindex, List.getD_cons_succ]
        rfl
      · rw [if_neg hrest, if_neg (by simp only [List.length_cons]; omega)]

/-- The sum of a 100 µs interval in µJ, over what each meter has counted (R202). -/
def intervalSum (s t : State) : Nat := ((List.range 16).map (fun k => (getK 0 t.energy.meters k - getK 0 s.energy.meters k).toNat)).sum

section Ceiling
variable {s : State} {uj : List Nat}

/-- A sum of at most the ceiling, with no reaction in force, leaves the meters counted and nothing else (R215). -/
theorem ceilingInterval_below (h : intervalSum s (countMeters 0 (uj.take 16) s) * 10 ≤ s.ltn.cfg.ceiling) (hfree : s.energy.capped = false) :
    ceilingInterval uj s = countMeters 0 (uj.take 16) s := by
  obtain ⟨e, hframe, hcapped, -⟩ := countMeters_frame (uj.take 16) 0 s
  unfold ceilingInterval
  rw [hframe] at h ⊢
  simp only [hcapped, hfree, Bool.false_eq_true, if_false]
  exact if_neg (Nat.not_lt.mpr h)

/-- What the first interval above the ceiling does to a core (R215). -/
def coreCapped (e : Nat × Core) : Nat × Core := if e.2.run = .off ∨ e.2.safety = true then e else (e.1, { e.2 with freqNext := some 40 })

/-- What a further interval above the ceiling does to a core (R215). -/
def coreLowered (e : Nat × Core) : Nat × Core :=
  if e.2.run = .off ∨ e.2.safety = false then e else (e.1, { e.2 with freqNext := some (max 40 (min 125 (e.2.freqNext.getD e.2.freq - 5))) })

theorem mapCores_capped (s : State) : mapCores (fun k => if k.safety then k else setTarget 40 k) s = { s with cores := s.cores.map coreCapped } := by
  have hcore : (fun e : Nat × Core => if e.2.run = .off then e else (e.1, if e.2.safety then e.2 else setTarget 40 e.2)) = coreCapped := by
    funext e
    by_cases hoff : e.2.run = .off
    · simp [coreCapped, hoff]
    · by_cases hsafe : e.2.safety = true <;> simp [coreCapped, hoff, hsafe, setTarget]
  rw [mapCores, hcore]

theorem mapCores_lowered (s : State) :
    mapCores (fun k => if k.safety then setTarget (targetOf k - 5) k else k) s = { s with cores := s.cores.map coreLowered } := by
  have hcore : (fun e : Nat × Core => if e.2.run = .off then e else (e.1, if e.2.safety then setTarget (targetOf e.2 - 5) e.2 else e.2)) = coreLowered := by
    funext e
    by_cases hoff : e.2.run = .off
    · simp [coreLowered, hoff]
    · by_cases hsafe : e.2.safety = true <;> simp [coreLowered, hoff, hsafe, setTarget, targetOf]
  rw [mapCores, hcore]

variable (h : s.ltn.cfg.ceiling < intervalSum s (countMeters 0 (uj.take 16) s) * 10)
include h

/-- The first interval above the ceiling raises PWR_CEILING and lowers every core that is not marked safety (R215). -/
theorem ceilingInterval_raises (hfree : s.energy.capped = false) : ceilingInterval uj s =
    raise .pwrCeiling dev [] { countMeters 0 (uj.take 16) s with
      energy := { (countMeters 0 (uj.take 16) s).energy with capped := true, below := 0, ceilingCnt := s.energy.ceilingCnt.inc }
      cores := s.cores.map coreCapped } := by
  obtain ⟨e, hframe, hcapped, hcnt⟩ := countMeters_frame (uj.take 16) 0 s
  unfold ceilingInterval
  rw [hframe] at h ⊢
  simp only [hcapped, hfree, Bool.false_eq_true, if_false, hcnt, mapCores_capped]
  exact if_pos h

/-- A further interval above the ceiling lowers every safety core's target (R215). -/
theorem ceilingInterval_lowers (hcap : s.energy.capped = true) : ceilingInterval uj s =
    { countMeters 0 (uj.take 16) s with
      energy := { (countMeters 0 (uj.take 16) s).energy with below := 0 }
      cores := s.cores.map coreLowered } := by
  obtain ⟨e, hframe, hcapped, -⟩ := countMeters_frame (uj.take 16) 0 s
  unfold ceilingInterval
  rw [hframe] at h ⊢
  simp only [hcapped, hcap, if_true, mapCores_lowered]
  exact if_pos h

end Ceiling

/-! METER_TRIM and METER_THRESHOLD. -/

theorem exec_meterTrim_one {m : Nat} (h : m < 16) (k : Nat) (s : State) :
    exec (.meterTrim [(m, k)]) s = .next { s with energy := { s.energy with trim := putK 65536 s.energy.trim m k } } := by
  show execMeterTrim [(m, k)] s = _
  simp only [execMeterTrim, List.foldl_cons, List.foldl_nil, if_pos h]

theorem exec_meterThreshold (m : Nat) (s : State) : exec (.meterThreshold m) s = .next (meterThreshold m s) := rfl

/-- The payload of METER_THRESHOLD (R218). -/
def thresholdPayload (s : State) (m : Nat) : List Byte := leBytes 1 m ++ List.replicate 7 0 ++ leBytes 8 (meter s m).toNat

section Threshold
variable {s : State} {m : Nat}

theorem meterThreshold_wrapped (h : m ∈ s.energy.wrapped) : meterThreshold m s =
    ledgerEvent 4 (thresholdPayload s m) { s with energy := { s.energy with wrapped := s.energy.wrapped.erase m } } :=
  if_pos (List.contains_iff_mem.mpr h)

variable (hwrap : m ∉ s.energy.wrapped)
include hwrap

theorem meterThreshold_notWrapped : meterThreshold m s =
    if getK 0 s.energy.thresh m ≠ 0 ∧ (getK 0 s.energy.thresh m).toNat ≤ (meter s m).toNat ∧ m ∉ s.energy.crossed then
      ledgerEvent 4 (thresholdPayload s m) { s with energy := { s.energy with crossed := s.energy.crossed ++ [m] } }
    else s := by
  simp only [meterThreshold, List.contains_iff_mem, if_neg hwrap, thresholdPayload]

theorem meterThreshold_crosses (hset : getK 0 s.energy.thresh m ≠ 0) (hreach : (getK 0 s.energy.thresh m).toNat ≤ (meter s m).toNat)
    (hnew : m ∉ s.energy.crossed) : meterThreshold m s =
    ledgerEvent 4 (thresholdPayload s m) { s with energy := { s.energy with crossed := s.energy.crossed ++ [m] } } :=
  (meterThreshold_notWrapped hwrap).trans (if_pos ⟨hset, hreach, hnew⟩)

theorem meterThreshold_silent (h : getK 0 s.energy.thresh m = 0 ∨ (meter s m).toNat < (getK 0 s.energy.thresh m).toNat ∨ m ∈ s.energy.crossed) :
    meterThreshold m s = s := by
  refine (meterThreshold_notWrapped hwrap).trans (if_neg fun ⟨hset, hreach, hnew⟩ => ?_)
  rcases h with h | h | h
  · exact hset h
  · exact Nat.not_lt.mpr hreach h
  · exact hnew h

end Threshold

/-! DECISION_POINT. -/

theorem exec_decisionPoint (s : State) : exec .decisionPoint s = .next (decisionPoint s) := rfl

theorem decisionPoint_idle {s : State} (h : curPlan s = none ∨ torchOn s = true) : decisionPoint s = s := by
  unfold decisionPoint
  cases hplan : curPlan s with
  | none => rfl
  | some p => exact if_pos (h.resolve_left (by simp [hplan]))

/-- A lone device decides its next rung and tells nobody (R211, R214). -/
theorem decisionPoint_decides {s : State} {p : Loaded} (hplan : curPlan s = some p) (htorch : torchOn s = false) (htwin : s.dv.twin = false) :
    decisionPoint s = { s with energy := { s.energy with nextRung := some (chooseRung s p) } } := by
  simp only [decisionPoint, hplan, htorch, htwin, Bool.false_eq_true, if_false]

/-- With no window and rung 0 before, the rung chosen is the first that fits the allowance of one frame, and 5 where none fits
(R211). -/
theorem chooseRung_free {s : State} {p : Loaded} (hrung : s.energy.rung = 0) (hwindow : nextWindow s p = none) :
    let cap := min (allowance s) s.ltn.cfg.ceiling * p.period.toNat
    let r := ((List.range 6).find? (fun i => ePred s p i * 1000000 ≤ cap)).getD 5
    chooseRung s p = (r, decide (cap < ePred s p r * 1000000)) := by
  simp only [chooseRung, hwindow, hrung, Nat.mul_one, Nat.not_lt_zero, false_and, if_false]

/-- Where a rung fits, the one chosen fits and none below it does (R211). -/
theorem chooseRung_least {s : State} {p : Loaded} (hrung : s.energy.rung = 0) (hwindow : nextWindow s p = none) {i : Nat} (hi : i < 6)
    (hfits : ePred s p i * 1000000 ≤ min (allowance s) s.ltn.cfg.ceiling * p.period.toNat) :
    (chooseRung s p).1 ≤ i ∧ ePred s p (chooseRung s p).1 * 1000000 ≤ min (allowance s) s.ltn.cfg.ceiling * p.period.toNat ∧
      (chooseRung s p).2 = false := by
  rw [chooseRung_free hrung hwindow]
  dsimp only
  generalize min (allowance s) s.ltn.cfg.ceiling * p.period.toNat = cap at hfits ⊢
  cases hfind : (List.range 6).find? (fun i => decide (ePred s p i * 1000000 ≤ cap)) with
  | none => exact absurd (decide_eq_true hfits) (List.find?_eq_none.mp hfind i (List.mem_range.mpr hi))
  | some r =>
    obtain ⟨hr, -, hbefore⟩ := List.find?_range_eq_some.mp hfind
    have hfit : ePred s p r * 1000000 ≤ cap := of_decide_eq_true hr
    have hleast : r ≤ i := by
      by_contra hlt
      simpa [hfits] using hbefore i (Nat.lt_of_not_le hlt)
    exact ⟨hleast, hfit, decide_eq_false (Nat.not_lt.mpr hfit)⟩

/-! LOOP_HEAT_EXPIRY. -/

theorem exec_loopHeatExpiry (s : State) : exec .loopHeatExpiry s = .next { s with energy := { s.energy with heat := none } } := rfl

/-! COOLANT_SAMPLE. -/

theorem exec_coolantSample (v : Nat) (s : State) : exec (.coolantSample v) s = .next (coolantSample v s) := rfl

/-- T reads as T_top, invalid (R209). -/
def coolantAtTop (s : State) : State := { s with energy := { s.energy with coolT := s.energy.tTop, coolInvalid := true } }

/-- An open or shorted sensor (R528) gives no sample, and raises its source unless it is raised (R209). -/
theorem coolantSample_openOrShort {v : Nat} (h : 98 * 65536 < v * 100 ∨ v * 100 < 2 * 65536) (s : State) : coolantSample v s =
    if raisedNow s .coolantSensor = true then coolantAtTop s else raise .coolantSensor dev [] (coolantAtTop s) := by
  have hfault : (decide (98 * 65536 < v * 100) || decide (v * 100 < 2 * 65536)) = true := by simpa using h
  simp only [coolantSample, hfault, Bool.true_or, if_true, true_or]
  rfl

/-- The first sample in range is T, and both coolant sources are clear (R207, R209). -/
theorem coolantSample_first {v : Nat} {s : State} (hnone : s.energy.coolant = []) (hhist : s.energy.coolHist = []) (hcold : -3000 ≤ ntcTemp v)
    (hhot : ntcTemp v ≤ 6000) (hlow : 2 * 65536 ≤ v * 100) (hhigh : v * 100 ≤ 98 * 65536) : coolantSample v s =
    clearLevel .coolantRange dev (clearLevel .coolantSensor dev { s with energy := { s.energy with
      coolant := [ntcTemp v], coolHist := [ntcTemp v], coolT := ntcTemp v, coolInvalid := false } }) := by
  have hvalid : (decide (98 * 65536 < v * 100) || decide (v * 100 < 2 * 65536) || decide (ntcTemp v < -4000) || decide (9000 < ntcTemp v)) = false := by
    simp only [Bool.or_eq_false_iff, decide_eq_false_iff_not]
    omega
  have hinside : ¬(6000 < ntcTemp v ∨ ntcTemp v < -3000) := by omega
  have hmean : meanTemp [ntcTemp v] = ntcTemp v := by simp [meanTemp]
  simp only [coolantSample, hvalid, hnone, hhist, Bool.false_eq_true, if_false, List.take_succ_cons, List.take_nil, hmean, List.any_cons, List.any_nil,
    sub_self, Int.natAbs_zero, Nat.not_lt_zero, decide_false, Bool.or_false, or_self, if_neg hinside]

/-! JUNCTION_SAMPLE. -/

/-- The hottest reading of a table, 0 with none (R208). -/
def hottest (l : SMap Int) : Int := match l with | [] => 0 | e :: es => es.foldl (fun m x => max m x.2) e.2

theorem exec_junctionSample_one (k : Nat) (t : Int) (s : State) : exec (.junctionSample [(k, t)]) s =
    .next { tjSample k t s with energy := { (tjSample k t s).energy with tj := hottest (tjSample k t s).ltn.tj } } := rfl

theorem le_foldl_max (l : SMap Int) (m : Int) :
    m ≤ l.foldl (fun m x => max m x.2) m ∧ ∀ e ∈ l, e.2 ≤ l.foldl (fun m x => max m x.2) m := by
  induction l generalizing m with
  | nil => exact ⟨le_rfl, fun e he => absurd he List.not_mem_nil⟩
  | cons x l ih =>
    obtain ⟨hstart, hrest⟩ := ih (max m x.2)
    refine ⟨(le_max_left ..).trans hstart, fun e he => ?_⟩
    rcases List.mem_cons.mp he with rfl | he
    · exact (le_max_right ..).trans hstart
    · exact hrest e he

theorem le_hottest {l : SMap Int} {e : Nat × Int} (he : e ∈ l) : e.2 ≤ hottest l := by
  cases l with
  | nil => exact absurd he List.not_mem_nil
  | cons x l =>
    obtain ⟨hstart, hrest⟩ := le_foldl_max l x.2
    rcases List.mem_cons.mp he with rfl | he
    · exact hstart
    · exact hrest e he

section Junction
variable {s : State} {k : Nat} {t : Int}

/-- A junction's sample is kept with what is known of its last one (R466). -/
def tjKept (k : Nat) (t : Int) (hot : List Nat) (s : State) : State := { s with ltn := { s.ltn with tj := putK 0 s.ltn.tj k t, tjHot := hot } }

theorem tjSample_cool (h : t ≤ 12500) :
    tjSample k t s = clearLevel .tjHigh (sub_ 0x3FF k) (tjKept k t (s.ltn.tjHot.erase k) s) := by
  simp only [tjSample, decide_eq_false (Int.not_lt.mpr h), Bool.false_eq_true, if_false, tjKept]

theorem tjSample_firstHot (h : 12500 < t) (hnew : k ∉ s.ltn.tjHot) : tjSample k t s = tjKept k t (s.ltn.tjHot ++ [k]) s := by
  simp only [tjSample, decide_eq_true h, if_true, List.contains_iff_mem, hnew, if_false, false_and, tjKept]

/-- The second hot sample in a row raises TJ_HIGH unless it is raised (R466). -/
theorem tjSample_secondHot (h : 12500 < t) (hagain : k ∈ s.ltn.tjHot) (hquiet : ∀ e ∈ s.fc.active, e.is .tjHigh (sub_ 0x3FF k) = false) :
    tjSample k t s = raise .tjHigh (sub_ 0x3FF k) [] (tjKept k t s.ltn.tjHot s) := by
  have hnone : ¬s.fc.active.any (fun e => e.is .tjHigh (sub_ 0x3FF k) && e.raised) = true := by
    simp only [List.any_eq_true, Bool.and_eq_true, not_exists, not_and]
    exact fun e he his => absurd ((hquiet e he).symm.trans his) Bool.false_ne_true
  simp only [tjSample, decide_eq_true h, if_true, List.contains_iff_mem, hagain, true_and, tjKept, if_pos hnone]

end Junction

/-! RAIL_CURRENT_SAMPLE, RAIL_RANGE and CLK_REF_RANGE. -/

theorem exec_railCurrentSample_one (k ma : Nat) (s : State) :
    exec (.railCurrentSample [(k, ma)]) s = .next { s with ltn := { s.ltn with railMa := putK 0 s.ltn.railMa k ma } } := rfl
theorem exec_railRange (k : Nat) (s : State) : exec (.railRange k) s = .next (raise .railRange (sub_ 0x3FF k) [] s) := rfl
theorem exec_clkRefRange (s : State) : exec .clkRefRange s = .next (raise .clkRefRange dev [] s) := rfl

/-- Settles O43: each command is the count, the reaction or the sample that its own lemma gives. -/
theorem energyAndSensors : Obligations.EnergyAndSensors := by
  refine ⟨fun s uj hon => ⟨fun hwf k hk => ?meters, fun hsum hfree => ?below, fun hsum hfree => ?raises, fun hsum hcap => ?lowers⟩,
    fun s m k hm => exec_meterTrim_one hm k s, fun s h => ?idle, fun s p hplan htorch htwin => ⟨?decides, fun hrung hwindow i hi hfits => ?least⟩,
    fun s m => ⟨fun hwrap => ?wrapped, fun hwrap hset hreach hnew => ?crosses, fun hwrap hstill => ?silent⟩, exec_loopHeatExpiry,
    fun s v hfault => ⟨fun hraised => ?again, fun hfresh => ?sensor⟩, fun s v hnone hhist hcold hhot hlow hhigh => ?first,
    fun s k t => ⟨fun hcool => ?cool, fun hhot hnew => ?firstHot, fun hhot hagain hquiet => ?secondHot⟩,
    fun s k ma => ⟨exec_railCurrentSample_one k ma s, exec_railRange k s, exec_clkRefRange s⟩⟩
  case meters =>
    rw [meter_countMeters hon hwf, if_pos (by omega), Nat.sub_zero]
    have hlt : k < 16 := hk.trans_le (List.length_take_le ..)
    simp only [List.getD_eq_getElem?_getD, List.getElem?_take_of_lt hlt]
  case below => rw [exec_ceilingInterval, ceilingInterval_below hsum hfree]
  case raises => rw [exec_ceilingInterval, ceilingInterval_raises hsum hfree]; rfl
  case lowers => rw [exec_ceilingInterval, ceilingInterval_lowers hsum hcap]; rfl
  case idle => rw [exec_decisionPoint, decisionPoint_idle h]
  case decides => rw [exec_decisionPoint, decisionPoint_decides hplan htorch htwin]
  case least => exact chooseRung_least hrung hwindow hi hfits
  case wrapped => exact congrArg _ (meterThreshold_wrapped hwrap)
  case crosses => exact congrArg _ (meterThreshold_crosses hwrap hset hreach hnew)
  case silent => exact congrArg _ (meterThreshold_silent hwrap hstill)
  case again => exact congrArg _ ((coolantSample_openOrShort hfault s).trans (if_pos hraised))
  case sensor => exact congrArg _ ((coolantSample_openOrShort hfault s).trans (if_neg (ne_true_of_eq_false hfresh)))
  case first => rw [exec_coolantSample, coolantSample_first hnone hhist hcold hhot hlow hhigh]
  case cool =>
    refine ⟨_, exec_junctionSample_one k t s, ?_⟩
    rw [tjSample_cool hcool]
    exact ⟨rfl, rfl, fun e he => le_hottest he⟩
  case firstHot => exact ⟨_, by rw [exec_junctionSample_one, tjSample_firstHot hhot hnew]; rfl⟩
  case secondHot => exact ⟨_, by rw [exec_junctionSample_one, tjSample_secondHot hhot hagain hquiet]; rfl⟩

end Sys2Proof.Laws
end

section
/-! PROOF. The partner's control messages, DATA and the fault sideband (R201, R214, R260, R280, R281, R347, R425–R427, R429, R430,
R432, R433, R435). -/

open Sys2Proof Sys2Proof.Machine
namespace Sys2Proof.Laws

/-! A message to the partner. -/

/-- What waits at a port goes out through the port alone (R413). -/
theorem dvPump_frame (fuel k : Nat) (s : State) : ∃ sent ports, dvPump fuel k s = { s with sent, dv := { s.dv with ports } } := by
  induction fuel generalizing s with
  | zero => exact ⟨_, _, rfl⟩
  | succ fuel ih =>
    unfold dvPump
    dsimp only
    split
    · exact ⟨_, _, rfl⟩
    · split
      · exact ⟨_, _, rfl⟩
      · obtain ⟨sent, ports, h⟩ := ih (emit _ { s with dv := { s.dv with ports := _ } })
        exact ⟨sent, ports, h⟩

/-- A message to the partner changes the ports, the message IDs and what is sent (R411, R417). -/
theorem toPartner_frame (chan : Nat) (p : List Byte) (s : State) : ∃ sent ports ids, toPartner chan p s = { s with sent, dv := { s.dv with ports, ids } } := by
  unfold toPartner
  split
  next k _ =>
    obtain ⟨sent, ports, h⟩ := dvPump_frame 65 k _
    exact ⟨sent, ports, _, h⟩
  next => exact ⟨_, _, _, rfl⟩

theorem toPartner_p (chan : Nat) (p : List Byte) (s : State) : (toPartner chan p s).dv.p = s.dv.p := by
  obtain ⟨sent, ports, ids, h⟩ := toPartner_frame chan p s
  rw [h]

theorem toPartner_unrouted {s : State} (h : partnerPort s = none) (chan : Nat) (p : List Byte) : toPartner chan p s = s := by
  simp only [toPartner, h]

/-- A message from a partner that is not lost is dated, and nothing else (R426). -/
theorem heardNow_present {s : State} (h : s.dv.lost = false) : heardNow s = { s with dv := { s.dv with heard := some (now s) } } := by
  simp only [heardNow, h, Bool.false_eq_true, if_false]

/-! PLAN_CHECK and LOOP_PROPOSE. -/

theorem exec_planCheck (m : PlanCheckMsg) (s : State) : exec (.planCheck m) s = .next (planCheckIn m s) := rfl
theorem exec_loopPropose (e : W64) (n : W32) (r : Bool) (s : State) : exec (.loopPropose e n r) s = .next (loopProposeIn e n r s) := rfl

theorem tryStart_idle {s : State} (h : s.loop.starting = none) : tryStart s = s := by simp only [tryStart, h]

/-- A PLAN_CHECK is kept with the LTC of its arrival (R347). -/
def checkKept (m : PlanCheckMsg) (s : State) : State := { s with dv := { s.dv with heard := some (now s), check := some m, checkAt := now s } }
/-- A LOOP_PROPOSE is kept with the LTC of its arrival (R347). -/
def proposeKept (e : W64) (n : W32) (r : Bool) (s : State) : State :=
  { s with dv := { s.dv with heard := some (now s), propose := some (e, n, r), proposeAt := now s } }

section Propose
variable {s : State} (hhere : s.dv.lost = false)
include hhere

theorem heardNow_checkKept (m : PlanCheckMsg) : heardNow { s with dv := { s.dv with check := some m, checkAt := now s } } = checkKept m s :=
  heardNow_present hhere
theorem heardNow_proposeKept (e : W64) (n : W32) (r : Bool) :
    heardNow { s with dv := { s.dv with propose := some (e, n, r), proposeAt := now s } } = proposeKept e n r s := heardNow_present hhere

theorem planCheckIn_idle (hidle : s.loop.ctx = none) (hstart : s.loop.starting = none) (m : PlanCheckMsg) : planCheckIn m s = checkKept m s := by
  unfold planCheckIn
  rw [heardNow_checkKept hhere m]
  have hloop : (checkKept m s).loop.ctx = none := hidle
  simp only [hloop]
  exact tryStart_idle hstart

theorem loopProposeIn_idle (hidle : s.loop.ctx = none) (hstart : s.loop.starting = none) (e : W64) (n : W32) (r : Bool) :
    loopProposeIn e n r s = proposeKept e n r s := by
  unfold loopProposeIn
  rw [heardNow_proposeKept hhere e n r]
  have hloop : (proposeKept e n r s).loop.ctx = none := hidle
  simp only [hloop]
  exact tryStart_idle hstart

/-- A device that runs unchecked answers a check that passes with its own, and comparison begins at its next frame (R432). -/
theorem planCheckIn_passes {p : Loaded} {m : PlanCheckMsg} (hrun : s.loop.ctx ≠ none) (hplan : curPlan s = some p) (htwin : s.dv.twin = true)
    (hplain : s.dv.comparing = false) (hpass : checkFails s p m = 0) :
    let t := toPartner 2 (planCheckBytes s p) (checkKept m s)
    planCheckIn m s = { t with dv := { t.dv with compare := true, absent := false } } := by
  obtain ⟨c, hctx⟩ := Option.ne_none_iff_exists'.mp hrun
  unfold planCheckIn
  rw [heardNow_checkKept hhere m]
  have hloop : (checkKept m s).loop.ctx = some c := hctx
  have hcur : curPlan (checkKept m s) = some p := hplan
  have hanswers : ¬(¬(checkKept m s).dv.twin = true ∨ (checkKept m s).dv.comparing = true) := by simp [checkKept, htwin, hplain]
  have hchecked : checkFails (toPartner 2 (planCheckBytes (checkKept m s) p) (checkKept m s)) p m = 0 := by
    obtain ⟨sent, ports, ids, hsent⟩ := toPartner_frame 2 (planCheckBytes (checkKept m s) p) (checkKept m s)
    rw [hsent]
    exact hpass
  simp only [hloop, hcur, if_neg hanswers, hchecked, if_true]
  rfl

/-- The next frame mapped to the partner's frame `n` (R281, R432). -/
def nextMapped (e : W64) (n : W32) (s : State) : State :=
  { s with
    dv := { s.dv with heard := some (now s), propose := some (e, n, false), proposeAt := now s, offset := lastDelta s, mapped := true }
    time := { s.time with alignOwn := s.loop.next, alignPartner := n, alignOffset := lastDelta s } }

/-- A device that runs answers a proposal for an epoch not later than its next frame with that frame; a leader's pulse follows
(R430, R432). -/
theorem loopProposeIn_answers {e : W64} {n : W32} (hrun : s.loop.ctx ≠ none)
    (hepoch : ownLtc s e ≤ ((startAt s.loop.epoch s.loop.period s.loop.started).toNat : Int)) :
    let u := toPartner 2 (proposeBytes (startAt s.loop.epoch s.loop.period s.loop.started) s.loop.next true) (nextMapped e n s)
    loopProposeIn e n false s = if s.dv.p % 2 = 0 then sidebandPulse u else u := by
  obtain ⟨c, hctx⟩ := Option.ne_none_iff_exists'.mp hrun
  unfold loopProposeIn
  rw [heardNow_proposeKept hhere e n false]
  have hloop : (proposeKept e n false s).loop.ctx = some c := hctx
  have hshort : ownLtc (proposeKept e n false s) e - ((startAt (proposeKept e n false s).loop.epoch (proposeKept e n false s).loop.period
      (proposeKept e n false s).loop.started).toNat : Int) ≤ 0 := Int.sub_nonpos_of_le hepoch
  simp only [hloop, Bool.false_eq_true, if_false, if_pos hshort, BitVec.add_zero, toPartner_p]
  rfl

end Propose

/-! RUNG_ENERGY, RUNG_FLOOR and SPLIT_MOVE. -/

/-- The LTC of the partner's latest message (R426). -/
def heardAt (s : State) : State := { s with dv := { s.dv with heard := some (now s) } }

section Present
variable {s : State} (hhere : s.dv.lost = false)
include hhere

theorem heardNow_heardAt : heardNow s = heardAt s := heardNow_present hhere

theorem exec_rungEnergy_present (k : Nat) (f : W32) : exec (.rungEnergy k f) s =
    .next { heardAt s with energy := { s.energy with partnerRung := some (fromPartner s f, k) } } := by
  show execRungEnergy k f s = _
  rw [execRungEnergy, heardNow_heardAt hhere]
  rfl

theorem exec_rungFloor_present (k : Nat) (f : W32) : exec (.rungFloor k f) s =
    .next { heardAt s with mem := { s.mem with partnerFloors := (fromPartner s f, k) :: s.mem.partnerFloors } } := by
  show execRungFloor k f s = _
  rw [execRungFloor, heardNow_heardAt hhere]
  rfl

/-- With no move decided, a stream not yet moved moves two frames later (R260). -/
theorem splitMoveIn_moves (hnone : s.intake.splitNext = []) {k : Nat} (hhome : k ∉ s.intake.moved) (f : W32) :
    splitMoveIn k true f s = { heardAt s with intake := { s.intake with splitNext := [(k, true, fromPartner s f + 2)] } } := by
  have hnew : ¬((heardAt s).intake.splitNext.any (fun e => e.1 = k) = true ∨ (heardAt s).intake.moved.contains k = true) := by
    simp [heardAt, hnone, hhome]
  rw [splitMoveIn, heardNow_heardAt hhere]
  refine (if_neg hnew).trans ?_
  simp only [heardAt, hnone, List.nil_append]
  rfl

/-- A stream that has not moved does not come back (R260). -/
theorem splitMoveIn_home {k : Nat} (hhome : k ∉ s.intake.moved) (f : W32) : splitMoveIn k false f s = heardAt s := by
  have hhere' : (heardAt s).intake.moved.contains k = false := by simpa [heardAt] using hhome
  rw [splitMoveIn, heardNow_heardAt hhere]
  exact if_pos (.inr hhere')

/-! REALIGN_ENTER and REALIGN_EXIT. -/

theorem exec_realignEnter_alone (htwin : s.dv.twin = false) (f : W32) (d : Int) : exec (.realignEnter f d) s = .next (heardAt s) := by
  show execRealignEnter f d s = _
  have halone : ¬(heardAt s).dv.twin = true := by simp [heardAt, htwin]
  rw [execRealignEnter, heardNow_heardAt hhere, enterRealign, if_pos halone]

/-- REALIGN is entered from RUNNING in the frame in progress (R433). -/
theorem exec_realignEnter_running (htwin : s.dv.twin = true) (hrun : s.dev.state = .running) (f : W32) (d : Int) : exec (.realignEnter f d) s =
    .next (enter .realign (some .running) 0 { s with
      dv := { s.dv with heard := some (now s), entry := some (frameNo s), exitAt := none, beyond := 0, within := 0 } }) := by
  show execRealignEnter f d s = _
  have hpair : ¬¬(heardAt s).dv.twin = true := by simp [heardAt, htwin]
  have hstate : (heardAt s).dev.state = .running := hrun
  simp only [execRealignEnter, heardNow_heardAt hhere, enterRealign, if_neg hpair, hstate]
  rfl

theorem exec_realignExit_present (f : W32) : exec (.realignExit f) s =
    .next (if s.dev.state = .realign then { heardAt s with dv := { (heardAt s).dv with exitAt := some f } } else heardAt s) := by
  show execRealignExit f s = _
  rw [execRealignExit, heardNow_heardAt hhere]
  rfl

/-! SIDEBAND_TEST. -/

theorem sidebandIn_request (r : Bool) : sidebandIn 0 r s = { s with dv := { s.dv with heard := some (now s), test := 1 } } := by
  simp only [sidebandIn, heardNow_heardAt hhere, heardAt]

theorem sidebandIn_pulse (r : Bool) : sidebandIn 1 r s = heardAt s := by simp only [sidebandIn, heardNow_heardAt hhere]

theorem sidebandIn_result (r : Bool) : sidebandIn 3 r s = if r = true then heardAt s else raise .dvFaultPin dev [] (heardAt s) := by
  simp only [sidebandIn, heardNow_heardAt hhere]

/-- The pulse released at a leader that has no route to answer on (R430). -/
def pulseOver (s : State) : State := { s with dv := { s.dv with heard := some (now s), test := 0 } }

theorem sidebandIn_released (hroute : partnerPort s = none) (hleader : isFollower s = false) (r : Bool) :
    sidebandIn 2 r s = if s.dv.test = 2 then pulseOver s else raise .dvFaultPin dev [] (pulseOver s) := by
  have hunrouted : partnerPort (pulseOver s) = none := hroute
  have hturn : isFollower (pulseOver s) = false := hleader
  have hpulse : { heardAt s with dv := { (heardAt s).dv with test := 0 } } = pulseOver s := rfl
  simp only [sidebandIn, heardNow_heardAt hhere, hpulse, toPartner_unrouted hunrouted, hturn, Bool.false_eq_true, if_false, decide_eq_true_eq]
  rfl

end Present

/-! DATA_MESSAGE. -/

theorem exec_dataMessage (id off : Nat) (bs : List Byte) (l : Bool) (s : State) : exec (.dataMessage id off bs l) s = .next (dataMessage id off bs l s) := rfl

theorem dataMessage_noSink {s : State} {id off : Nat} {bs : List Byte} (h : sinkOf s id off bs.length = none) (l : Bool) :
    dataMessage id off bs l s = raise .dvDataDrop (at_ 0x228) [] s := by simp only [dataMessage, h]

theorem dataMessage_sink {s : State} {id off : Nat} {bs : List Byte} {k : Sink} (h : sinkOf s id off bs.length = some k) (l : Bool) :
    dataMessage id off bs l s =
      if l = true then postEvent k.event (Config.evtKind 15) (leBytes 2 id) { s with mem := stagingPut off bs [] s.mem }
      else { s with mem := stagingPut off bs [] s.mem } := by simp only [dataMessage, h]

/-! PARTNER_LOST. -/

theorem exec_partnerLost_none {s : State} (h : s.dv.n < 2 ∨ partnerPort s = none ∨ s.dv.lost = true) : exec .partnerLost s = .next s := by
  show execPartnerLost s = _
  unfold execPartnerLost
  split
  next hroute =>
    obtain ⟨hpair, hport⟩ := hroute
    have hlost : s.dv.lost = true := (h.resolve_left (by omega)).resolve_left (Option.isSome_iff_ne_none.mp hport)
    rw [losePartner, if_pos hlost]
  next => rfl

theorem exec_partnerLost_routed {s : State} (hpair : 2 ≤ s.dv.n) (hport : partnerPort s ≠ none) (hhere : s.dv.lost = false) :
    exec .partnerLost s = .next (raise .partnerLost dev [] { s with dv := { s.dv with lost := true } }) := by
  show execPartnerLost s = _
  rw [execPartnerLost, if_pos ⟨hpair, Option.isSome_iff_ne_none.mpr hport⟩, losePartner, if_neg (ne_true_of_eq_false hhere)]

/-! The fault sideband. -/

theorem exec_faultIn (s : State) : exec .faultIn s = .next (faultInSense s) := rfl
theorem exec_faultInClassify (b : Bool) (s : State) : exec (.faultInClassify b) s = .next (faultInClassify b s) := rfl

theorem faultInSense_lone {s : State} (h : s.dv.n < 2) : faultInSense s = s := if_pos h

/-- FAULT_IN sensed high now (R429). -/
def faultInHigh (s : State) : State :=
  { s with fc := { s.fc with faultIn := true, faultInAt := now s, faultInFell := false }, dv := { s.dv with lowAt := none } }

theorem faultInSense_paired {s : State} (h : 2 ≤ s.dv.n) : faultInSense s =
    if s.dv.test = 1 then { faultInHigh s with dv := { (faultInHigh s).dv with test := 2 } }
    else
      let t := { faultInHigh s with fc := { (faultInHigh s).fc with partnerClass := none }, dv := { (faultInHigh s).dv with uncheck := true } }
      raiseAs .partnerFault dev (clsOf t .partnerFault dev) true [] t := by
  rw [faultInSense, if_neg (Nat.not_lt.mpr h)]
  rfl

theorem faultInClassify_low {s : State} (h : s.fc.faultIn = false) (b : Bool) : faultInClassify b s = s := if_pos (.inl (ne_true_of_eq_false h))

/-- A pulse means C3; with none the class is C4, and a survivor in TWIN takes over (R280, R429). -/
theorem faultInClassify_high {s : State} (hhigh : s.fc.faultIn = true) (hpair : 2 ≤ s.dv.n) (htest : s.dv.test = 0) (b : Bool) :
    faultInClassify b s =
      let c : Cls := if b then .c3 else .c4
      let t := classifyReport c { s with fc := { s.fc with partnerClass := some c } }
      if b then t else takeover t :=
  if_neg (by simp [hhigh, htest]; omega)

theorem takeover_alone {s : State} (h : s.dv.twin = false) : takeover s = s := if_pos (ne_true_of_eq_false h)

theorem exec_faultInLow (s : State) : exec .faultInLow s = .next (if s.fc.faultIn = true then
    clearLevel .dvFaultPin dev { s with fc := { s.fc with faultIn := false, faultInFell := true, partnerClass := none }, dv := { s.dv with lowAt := some (now s) } }
  else s) := rfl

theorem exec_dvFaultPin_low {s : State} (h : s.fc.faultIn = false) : exec .dvFaultPin s = .next s := by
  show execDvFaultPin s = _
  simp only [execDvFaultPin, h, Bool.false_and, Bool.false_eq_true, if_false]

theorem exec_dvFaultPin_high {s : State} {x : Beat} (hhigh : s.fc.faultIn = true) (hbeat : s.dv.partner = some x) :
    exec .dvFaultPin s = .next (if x.devstate.toNat % 16 = 4 then raise .dvFaultPin dev [] s else s) := by
  show execDvFaultPin s = _
  simp only [execDvFaultPin, hhigh, hbeat, Bool.true_and, decide_eq_true_eq]

/-- Settles O50: each message and each sense of the pin is the branch that its own lemma gives. -/
theorem partnerControl : Obligations.PartnerControl := by
  refine ⟨fun s m e n r hhere hidle hstart => ?idle, fun s m p hhere hrun hplan htwin hplain => ?passes,
    fun s e n hhere hrun => ?answers, fun s k f hhere => ⟨?energy, ?floor, fun hnone hhome => ⟨?move, ?home⟩⟩, fun s f d hhere => ?realign,
    fun s r hhere => ?sideband, fun s id off bs l => ⟨fun h => ?drop, fun k h => ?sink⟩,
    fun s => ⟨exec_partnerLost_none, exec_partnerLost_routed⟩, fun s => ?sense, fun s b => ?classify⟩
  case idle =>
    rw [exec_planCheck, exec_loopPropose, planCheckIn_idle hhere hidle hstart, loopProposeIn_idle hhere hidle hstart]
    exact ⟨rfl, rfl⟩
  case passes =>
    intro t hpass
    exact congrArg Host.Outcome.next (planCheckIn_passes hhere hrun hplan htwin hplain hpass)
  case answers =>
    intro t hepoch
    exact congrArg Host.Outcome.next (loopProposeIn_answers hhere hrun hepoch)
  case energy => exact exec_rungEnergy_present hhere k f
  case floor => exact exec_rungFloor_present hhere k f
  case move => exact congrArg Host.Outcome.next (splitMoveIn_moves hhere hnone hhome f)
  case home => exact congrArg Host.Outcome.next (splitMoveIn_home hhere hhome f)
  case realign =>
    have hexit := exec_realignExit_present hhere f
    exact ⟨fun htwin => exec_realignEnter_alone hhere htwin f d, fun htwin hrun => exec_realignEnter_running hhere htwin hrun f d,
      fun hre => hexit.trans (congrArg _ (if_pos hre)), fun hne => hexit.trans (congrArg _ (if_neg hne))⟩
  case sideband =>
    have hresult (r : Bool) := sidebandIn_result hhere r
    refine ⟨congrArg _ (sidebandIn_request hhere r), congrArg _ (sidebandIn_pulse hhere r), congrArg _ (hresult true), congrArg _ (hresult false),
      fun hroute hleader => ?_⟩
    have hreleased := sidebandIn_released hhere hroute hleader r
    exact ⟨fun hsensed => congrArg _ (hreleased.trans (if_pos hsensed)), fun hmissed => congrArg _ (hreleased.trans (if_neg hmissed))⟩
  case drop => rw [exec_dataMessage, dataMessage_noSink h]
  case sink => exact ⟨congrArg _ (dataMessage_sink h false), congrArg _ (dataMessage_sink h true)⟩
  case sense =>
    refine ⟨fun hlone => by rw [exec_faultIn, faultInSense_lone hlone], fun hpair htest => ?_, fun hpair htest => ?_⟩
    · exact congrArg Host.Outcome.next ((faultInSense_paired hpair).trans (if_pos htest))
    · exact congrArg Host.Outcome.next ((faultInSense_paired hpair).trans (if_neg htest))
  case classify =>
    refine ⟨fun hlow => ⟨?_, ?_, exec_dvFaultPin_low hlow⟩, fun hhigh hpair htest => ⟨?_, fun htwin => ?_⟩, fun hhigh => ?_, fun x hhigh hbeat => ?_⟩
    · rw [exec_faultInClassify, faultInClassify_low hlow]
    · rw [exec_faultInLow, if_neg (ne_true_of_eq_false hlow)]
    · exact congrArg _ (faultInClassify_high hhigh hpair htest true)
    · exact congrArg _ ((faultInClassify_high hhigh hpair htest false).trans (takeover_alone htwin))
    · rw [exec_faultInLow, if_pos hhigh]
    · have hpin := exec_dvFaultPin_high hhigh hbeat
      exact ⟨fun hrun => hpin.trans (congrArg _ (if_pos hrun)), fun hother => hpin.trans (congrArg _ (if_neg hother))⟩

end Sys2Proof.Laws
end

section
/-! PROOF. The start and the end of a frame: what posting an event reaches, the ledger's part on a quiet machine, and the frame that
ends (R204, R211, R276, R364, R404, R449, R451). -/

open Sys2Proof Sys2Proof.Machine
namespace Sys2Proof.Laws

/-! What posting an event reaches. -/

/-- From `s` to `t` the host's link, the objects and what is sent change, with the inbound windows and the invalidations as they
were. -/
structure Posts (s t : State) : Prop where
  frame : t = { s with sent := t.sent, host := t.host, obj := t.obj }
  inb : t.host.inb = s.host.inb
  invals : t.obj.invals = s.obj.invals

theorem Posts.refl (s : State) : Posts s s := ⟨rfl, rfl, rfl⟩

theorem Posts.trans {s t u : State} (h : Posts s t) (k : Posts t u) : Posts s u := by
  refine ⟨?_, k.inb.trans h.inb, k.invals.trans h.invals⟩
  rw [k.frame, h.frame]

theorem Posts.other (s : State) {sent : List Out} {host : HostLink} {obj : Obj} (hinb : host.inb = s.host.inb := by rfl)
    (hinvals : obj.invals = s.obj.invals := by rfl) : Posts s { s with sent, host, obj } := ⟨rfl, hinb, hinvals⟩

theorem Posts.ite {s a b : State} {c : Prop} {d : Decidable c} (ha : Posts s a) (hb : Posts s b) : Posts s (if c then a else b) := by
  split <;> assumption

theorem Posts.foldl {α : Type} {f : State → α → State} (hf : ∀ s x, Posts s (f s x)) (l : List α) (s : State) : Posts s (l.foldl f s) :=
  List.foldlRecOn l f (.refl s) fun t h x _ => h.trans (hf t x)

theorem msix_posts (v : Nat) (s : State) : Posts s (msix v s) := .ite (.other s) (.other s)

theorem discardPosted_posts (flag : BitVec 4) (w : Posted) (s : State) : Posts s (discardPosted flag w s) := by
  unfold discardPosted
  split
  · exact .other s
  · exact .refl s

theorem postWrite_posts (w : Posted) (s : State) : Posts s (postWrite w s) := by
  have hlost (flag : BitVec 4) (h : HostLink) (hinb : h.inb = s.host.inb) : Posts s (discardPosted flag w { s with host := h }) :=
    (Posts.other s hinb).trans (discardPosted_posts ..)
  exact .ite (hlost _ _ rfl) (.ite (.other s) (.ite (hlost _ _ rfl) (.ite (hlost _ _ rfl) (.other s))))

theorem setEvt_posts (e : EvtSlot) (s : State) : Posts s (setEvt e s) := .other s

theorem deliverTo_posts (e : EvtSlot) (r : EvtRec) (s : State) : Posts s (deliverTo e r s) := by
  unfold deliverTo
  dsimp only
  split
  · exact (postWrite_posts ..).trans (setEvt_posts ..)
  · have hset (w x : Posted) (y : EvtSlot) : Posts s (setEvt y (postWrite x (if e.record then postWrite w s else s))) :=
      ((Posts.ite (postWrite_posts w s) (.refl s)).trans (postWrite_posts x _)).trans (setEvt_posts y _)
    exact .ite ((hset ..).trans (msix_posts ..)) (hset ..)

theorem postEvent_posts (event kind : W16) (p : List Byte) (s : State) : Posts s (postEvent event kind p s) := by
  unfold postEvent
  dsimp only
  split
  · exact .refl s
  · split
    · exact .other s
    · split
      · exact .ite (.other s) (deliverTo_posts ..)
      · exact .ite (.other s) (.other s)

/-! A frame boundary with nothing due. -/

/-- With no command that waits and no guarded change written, a frame boundary has nothing to answer (R217, R345, R486). -/
theorem answerBoundary_idle {s : State} (hwait : s.mbD.waiting = []) (hguard : s.ltn.guard.written = false) : answerBoundary s = s := by
  have hdue : applyDue s = s := if_pos (.inr (ne_true_of_eq_false hguard))
  unfold answerBoundary
  rw [hdue]
  simp only [hwait, List.filter_nil, List.foldl_nil]
  rw [← hwait]

/-! The ledger's part of a frame start. -/

/-- Without a grant the frame before only corrects k (R213). -/
theorem reconcile_noGrant {s : State} (h : s.energy.grant = none) (m : Nat) (p : Loaded) :
    ∃ k, reconcile m p s = { s with energy := { s.energy with k } } := by
  unfold reconcile
  split
  · exact ⟨_, rfl⟩
  · simp only [h]
    exact ⟨_, rfl⟩

theorem noBudgetNote_noted {s : State} (h : s.energy.noBudget = true) : noBudgetNote s = s := if_pos (.inl h)

theorem windowStart_noGrant {s : State} (hnew : s.energy.newGrant = none) (hgrant : s.energy.grant = none) (n : W32) : windowStart n s = s := by
  simp only [windowStart, hnew, hgrant]

/-- With no pair retired and no floor in force, no floor is computed (R200). -/
theorem refloor_unretired {s : State} (hretired : s.mem.retired = []) (hfloor : s.mem.floor = 0) : refloor s = s := by
  unfold refloor
  split
  · rfl
  · simp [hretired, hfloor]

theorem rescaleBulk_served {s : State} (h : s.mem.halted = false) : rescaleBulk s = s := by
  unfold rescaleBulk
  split
  · rfl
  · split
    · exact if_neg (ne_true_of_eq_false h)
    · rfl

theorem rungTargets_frame (s : State) : ∃ cores, rungTargets s = { s with cores } := by
  unfold rungTargets
  split
  · exact ⟨s.cores, rfl⟩
  · refine List.foldlRecOn (motive := fun t : State => ∃ cores, t = { s with cores }) _ _ ⟨s.cores, rfl⟩ fun t ht x _ => ?_
    obtain ⟨cores, rfl⟩ := ht
    exact ⟨_, rfl⟩

/-- The rung before in force from frame `n`, with no floor: it is counted, and the floors of earlier frames are let go (R201, R217). -/
def rungForced (n : W32) (s : State) : State :=
  { s with
    mem := { s.mem with floors := floorsFrom n s.mem.floors, partnerFloors := floorsFrom n s.mem.partnerFloors }
    energy := { s.energy with
      force := s.energy.rung, floor := 0, rungFrames := updK {} s.energy.rungFrames s.energy.rung (fun c => c.inc) } }

/-- A change of the rung in force posts RUNG_CHANGE (R218). -/
def rungAnnounced (n : W32) (s : State) : State :=
  if s.energy.rung ≠ s.energy.force then ledgerEvent 2 (leBytes 1 s.energy.force ++ leBytes 1 s.energy.rung) (rungForced n s) else rungForced n s

theorem rungAnnounced_posts (n : W32) (s : State) : Posts (rungForced n s) (rungAnnounced n s) := .ite (postEvent_posts ..) (.refl _)

/-- Outside TWIN no rung is decided, no floor stands, the memories serve every request, and no grant, old or new, and no note of its
absence is due: the ledger's part of a frame start leaves the rung as it is. -/
structure LedgerIdle (s : State) : Prop where
  twin : s.dv.twin = false
  undecided : s.energy.nextRung = none
  retired : s.mem.retired = []
  floor : s.mem.floor = 0
  served : s.mem.halted = false
  stalled : s.mem.stalled = []
  noted : s.energy.noBudget = true
  grant : s.energy.grant = none
  newGrant : s.energy.newGrant = none

section Idle
variable {s : State} (h : LedgerIdle s)
include h

/-- The rung before stands (R211). -/
theorem rungStart_keeps (n : W32) : rungStart n s = (false,
    let t := pumpStalled (rescaleBulk (rungAnnounced n s))
    if t.energy.capped = true ∨ (¬s.energy.rung ≠ s.energy.force ∧ 0 < t.loop.started) then t else rungTargets t) := by
  have hundecided : { s.energy with rung := s.energy.rung, nextRung := none } = s.energy := by rw [← h.undecided]
  simp only [rungStart, h.undecided, h.twin, Bool.false_and, Bool.false_eq_true, if_false, hundecided, refloor_unretired h.retired h.floor, floorFor,
    h.floor, Nat.max_zero, decide_eq_true_eq, rungAnnounced, rungForced]

/-- The rung in force follows, and beyond it only events, core targets and the count change (R210, R211, R217, R218). -/
theorem rungStart_idle (n : W32) : ∃ sent host obj cores, rungStart n s = (false, { rungForced n s with sent, host, obj, cores }) ∧
    host.inb = s.host.inb ∧ obj.invals = s.obj.invals := by
  obtain ⟨hframe, hinb, hinvals⟩ := rungAnnounced_posts n s
  have hmem : (rungAnnounced n s).mem = (rungForced n s).mem := by rw [hframe]
  rw [rungStart_keeps h, rescaleBulk_served (by rw [hmem]; exact h.served), pumpStalled_nil (by rw [hmem]; exact h.stalled)]
  generalize rungAnnounced n s = u at hframe hinb hinvals ⊢
  obtain ⟨cores, htargets⟩ := rungTargets_frame u
  dsimp only
  split
  · exact ⟨_, _, _, _, congrArg (Prod.mk false) hframe, hinb, hinvals⟩
  · have hall : rungTargets u = { rungForced n s with sent := u.sent, host := u.host, obj := u.obj, cores } :=
      htargets.trans (congrArg (fun t : State => { t with cores }) hframe)
    exact ⟨_, _, _, _, congrArg (Prod.mk false) hall, hinb, hinvals⟩

/-- The meters are latched and the frame before is reconciled (R204, R213); the rung in force is the rung (R217). -/
theorem energyStart_idle (n : W32) (p : Loaded) : ∃ energy mem sent host obj cores,
    energyStart n false p s = (false, { s with energy, mem, sent, host, obj, cores }) ∧
      energy.latched = s.energy.meters ∧ energy.force = s.energy.rung ∧ host.inb = s.host.inb ∧ obj.invals = s.obj.invals := by
  obtain ⟨k, hreconcile⟩ := reconcile_noGrant (s := (latchMeters s).2) h.grant (latchMeters s).1 p
  have hidle : LedgerIdle (reconcile (latchMeters s).1 p (latchMeters s).2) := by
    rw [hreconcile]
    exact ⟨h.twin, h.undecided, h.retired, h.floor, h.served, h.stalled, h.noted, h.grant, h.newGrant⟩
  have hstart : energyStart n false p s = rungStart n (reconcile (latchMeters s).1 p (latchMeters s).2) := by
    simp only [energyStart, Bool.false_eq_true, if_false, noBudgetNote_noted hidle.noted, windowStart_noGrant hidle.newGrant hidle.grant]
  obtain ⟨sent, host, obj, cores, hrung, hinb, hinvals⟩ := rungStart_idle hidle n
  rw [hreconcile] at hstart hrung hinb hinvals
  exact ⟨_, _, sent, host, obj, cores, hstart.trans hrung, rfl, rfl, hinb, hinvals⟩

end Idle

/-! What a frame start serves on a quiet machine. -/

/-- The frames of plan `p` run in RUNNING, and nothing is due at a frame start: no open fault, pair, window, stream, invalidation or
comparison, and a plan with no core section and no sequence. -/
structure Quiet (p : Loaded) (s : State) : Prop where
  plan : curPlan s = some p
  active : s.fc.active = []
  pairs : s.mir.pairs = []
  invals : s.obj.invals = []
  inb : s.host.inb = []
  streams : s.intake.streams = []
  splits : s.intake.splitNext = []
  compare : s.dv.compare = false
  state : s.dev.state = .running
  sections : p.img.cores = []
  seqs : p.img.seqs = []

theorem markEpisodes_none {s : State} (h : s.fc.active = []) : ∃ b, markEpisodes s = { s with loop := { s.loop with clearNext := b } } := by
  unfold markEpisodes
  split
  · exact ⟨false, rfl⟩
  · exact ⟨s.loop.clearNext, by rw [h]; rfl⟩

theorem mirFrameStart_unpaired {s : State} (h : s.mir.pairs = []) (torch : Bool) :
    ∃ mir cores, mirFrameStart torch s = { s with mir, cores } ∧ mir.pairs = [] := by
  refine ⟨{ s.mir with cmp0 := [], cmp1 := [], pairs := [] }, s.cores.map (fun e => (e.1, { e.2 with heldStop := false })), ?_, rfl⟩
  simp only [mirFrameStart, h, List.map_nil, List.filter_nil, List.foldl_nil]

section Serve
variable {p : Loaded} {s : State} (h : Quiet p s)
include h

theorem recoverAll_quiet : recoverAll s = s := by simp only [recoverAll, h.active, List.filter_nil, List.foldl_nil]

theorem invalBoundary_quiet (n : W32) (torch : Bool) : invalBoundary n torch s = s := by
  simp only [invalBoundary, h.invals, List.filter_nil, List.foldl_nil]

theorem inbBoundary_quiet : inbBoundary s = s := by simp only [inbBoundary, h.inb, List.filter_nil, List.foldl_nil]

theorem dvFrameStart_quiet (n : W32) : dvFrameStart n s = s := by
  have hne : s.dev.state ≠ .realign := by rw [h.state]; decide
  simp only [dvFrameStart, h.compare, Bool.false_eq_true, if_false, if_pos hne]

theorem intakeFrameStart_quiet (n : W32) : intakeFrameStart n s = s := by
  have hsplit : applySplit n s = s := by simp only [applySplit, h.splits, List.filter_nil, List.foldl_nil]
  simp only [intakeFrameStart, hsplit, streamsOf, h.streams, List.filterMap_nil, List.map_nil, List.foldl_nil, ite_self]

theorem inbFrameStart_quiet (n : W32) : inbFrameStart n s = s := by
  simp only [inbFrameStart, h.inb, List.map_nil]
  rw [← h.inb]

theorem kvFrameStart_quiet : kvFrameStart s = s := by simp only [kvFrameStart, h.plan, h.seqs, List.map_nil, List.foldl_nil]

theorem sendMessages_quiet (f : Frame) (first : Bool) : sendMessages p f first s = s := by
  simp only [sendMessages, h.sections, List.filter_nil, List.foldl_nil]

theorem sendStarts_quiet (torch : Bool) : sendStarts p torch s = s := by
  simp only [sendStarts, h.sections, List.filter_nil, List.foldl_nil]

end Serve

/-- What follows the opening of a loop frame without shapes (R99, R100, R300, R325, R397, R435, R457). -/
def frameServed (n : W32) (first : Bool) (f : Frame) (p : Loaded) (s : State) : State :=
  let s := mirFrameStart false (markEpisodes (recoverAll s))
  let s := inbBoundary (invalBoundary n false s)
  let s := whileAlive p false (dvFrameStart n) s
  let s := whileAlive p false (intakeFrameStart n) s
  let s := whileAlive p false (fun s => kvFrameStart (inbFrameStart n s)) s
  let s := whileAlive p false (fun s => [].foldl (fun (s : State) (d : DynShape) => whileAlive p false (opShape p d) s) s) s
  let s := whileAlive p false (fun s => sendMessages p (s.loop.cur.getD f) first s) s
  whileAlive p false (sendStarts p false) s

/-- On a quiet machine only the episodes' mark, the pairs' windows and the cores change. -/
theorem frameServed_quiet {p : Loaded} {s : State} (h : Quiet p s) (n : W32) (first : Bool) (f : Frame) :
    ∃ b mir cores, frameServed n first f p s = { s with loop := { s.loop with clearNext := b }, mir, cores } := by
  obtain ⟨b, hmark⟩ := markEpisodes_none h.active
  obtain ⟨mir, cores, hmir, hpairs⟩ := mirFrameStart_unpaired (s := { s with loop := { s.loop with clearNext := b } }) h.pairs false
  have hq : Quiet p { s with loop := { s.loop with clearNext := b }, mir, cores } :=
    ⟨h.plan, h.active, hpairs, h.invals, h.inb, h.streams, h.splits, h.compare, h.state, h.sections, h.seqs⟩
  refine ⟨b, mir, cores, ?_⟩
  unfold frameServed
  rw [recoverAll_quiet h, hmark, hmir]
  generalize { s with loop := { s.loop with clearNext := b }, mir, cores } = u at hq ⊢
  simp only [whileAlive, invalBoundary_quiet hq, inbBoundary_quiet hq, dvFrameStart_quiet hq, intakeFrameStart_quiet hq, inbFrameStart_quiet hq,
    kvFrameStart_quiet hq, List.foldl_nil, sendMessages_quiet hq, sendStarts_quiet hq, ite_self]

/-! FRAME_START. -/

theorem exec_frameStart (sh : List DynShape) (s : State) : exec (.frameStart sh) s = .next (frameStart sh s) := rfl

theorem frameStart_noLoop {s : State} (h : s.loop.ctx = none) (sh : List DynShape) : frameStart sh s = s := by
  simp only [frameStart, h, Option.isSome_none, Bool.false_and, Bool.false_eq_true, if_false]

/-- With a loop and no frame in progress, the next frame begins (R276). -/
theorem frameStart_begins {s : State} {c : Nat} {p : Loaded} (hctx : s.loop.ctx = some c) (hplan : planOf s c = some p) (hcur : s.loop.cur = none)
    (sh : List DynShape) : frameStart sh s = beginFrame false sh p s := by
  simp only [frameStart, hctx, hcur, Option.isSome_none, Bool.and_false, Bool.false_eq_true, if_false, hplan]

/-- The frame that a loop begins (R276, R404, R451). -/
def frameOpened (n : W32) (p : Loaded) (unagreed : Bool) (s : State) : Frame :=
  { n, recs := p.img.outputs.map (fun o => { obj := o.obj }), rung := s.energy.force, stamp := s.time.stamp, unagreed, absent := s.dv.absent }

/-- The loop with that frame in progress (R276). -/
def loopAdvanced (n : W32) (f : Frame) (s : State) : State :=
  { s with loop := { s.loop with cur := some f, next := n + 1, started := s.loop.started + 1 } }

/-- A loop frame begins with its stamp and the ledger's part; the loop advances; and what the frame starts is served. -/
theorem beginFrame_loop (p : Loaded) (s : State) : beginFrame false [] p s =
    let e := energyStart s.loop.next false p (stampNow s.loop.next (answerBoundary s))
    let f := frameOpened s.loop.next p e.1 e.2
    frameServed s.loop.next (decide (s.loop.started = 0)) f p (loopAdvanced s.loop.next f e.2) := by
  simp only [beginFrame, frameServed, loopAdvanced, frameOpened, Bool.false_eq_true, if_false]

theorem curPlan_loop {s : State} {c : Nat} (h : s.loop.ctx = some c) : curPlan s = planOf s c := by simp only [curPlan, h]

/-- On a quiet machine a loop frame begins with the meters latched, the rung in force and its stamp (R204, R211, R276). -/
theorem beginFrame_quiet {s : State} {p : Loaded} (hquiet : Quiet p s) (hidle : LedgerIdle s) (hctx : s.loop.ctx = some p.ctx) (hwait : s.mbD.waiting = [])
    (hguard : s.ltn.guard.written = false) : let t := beginFrame false [] p s
    t.loop.next = s.loop.next + 1 ∧ t.loop.started = s.loop.started + 1 ∧ t.energy.latched = s.energy.meters ∧ t.energy.force = s.energy.rung ∧
      t.time.stamp.n = s.loop.next ∧ t.time.stamp.ltc = now s ∧ t.loop.cur =
        some { n := s.loop.next, recs := p.img.outputs.map (fun o => { obj := o.obj }), rung := s.energy.rung, stamp := t.time.stamp, absent := s.dv.absent } := by
  have hstamped : LedgerIdle (stampNow s.loop.next s) :=
    ⟨hidle.twin, hidle.undecided, hidle.retired, hidle.floor, hidle.served, hidle.stalled, hidle.noted, hidle.grant, hidle.newGrant⟩
  obtain ⟨energy, mem, sent, host, obj, cores, henergy, hlatched, hforce, hinb, hinvals⟩ := energyStart_idle hstamped s.loop.next p
  have hopened (f : Frame) : Quiet p (loopAdvanced s.loop.next f { stampNow s.loop.next s with energy, mem, sent, host, obj, cores }) :=
    ⟨(curPlan_loop hctx).trans ((curPlan_loop hctx).symm.trans hquiet.plan), hquiet.active, hquiet.pairs, hinvals.trans hquiet.invals,
      hinb.trans hquiet.inb, hquiet.streams, hquiet.splits, hquiet.compare, hquiet.state, hquiet.sections, hquiet.seqs⟩
  have hbegin := beginFrame_loop p s
  rw [answerBoundary_idle hwait hguard, henergy] at hbegin
  obtain ⟨b, mir, cores', hserve⟩ := frameServed_quiet (hopened _) s.loop.next (decide (s.loop.started = 0))
    (frameOpened s.loop.next p false { stampNow s.loop.next s with energy, mem, sent, host, obj, cores })
  rw [hserve] at hbegin
  rw [hbegin]
  refine ⟨rfl, rfl, hlatched, hforce, rfl, rfl, ?_⟩
  simp only [loopAdvanced, frameOpened, hforce]
  rfl

/-! FRAME_END. -/

theorem exec_frameEnd (outs : List OutData) (s : State) : exec (.frameEnd outs) s = .next (frameEnd outs s) := rfl

theorem frameEnd_none {s : State} (h : s.loop.cur = none ∨ curPlan s = none) (outs : List OutData) : frameEnd outs s = s := by
  unfold frameEnd
  split
  next hcur hplan => simp [hcur, hplan] at h
  next => rfl

/-- What the cores wrote fills the records of a frame alone (R449). -/
theorem fillRecs_frame (p : Loaded) (f : Frame) (outs : List OutData) : ∃ recs, fillRecs p f outs = { f with recs } := by
  refine List.foldlRecOn (motive := fun g : Frame => ∃ recs, g = { f with recs }) _ _ ⟨f.recs, rfl⟩ fun g hg d _ => ?_
  obtain ⟨recs, rfl⟩ := hg
  split
  · exact ⟨_, rfl⟩
  · exact ⟨_, rfl⟩

/-- CLIP_THRESHOLD events reach the host, and the cores' counters are marked as posted (R178). -/
theorem clipEvents_frame (p : Loaded) (s : State) : ∃ sent host obj cores, clipEvents p s = { s with sent, host, obj, cores } := by
  refine List.foldlRecOn (motive := fun t : State => ∃ sent host obj cores, t = { s with sent, host, obj, cores }) _ _
    ⟨s.sent, s.host, s.obj, s.cores, rfl⟩ fun t ht c _ => ?_
  obtain ⟨sent, host, obj, cores, rfl⟩ := ht
  dsimp only
  generalize hfold : List.foldl _ _ _ = u
  have hposts : Posts { s with sent, host, obj, cores } u := hfold ▸ Posts.foldl (fun s e => postEvent_posts ..) _ _
  exact ⟨_, _, _, _, (congrArg (setCore c.site _) hposts.frame).trans rfl⟩

/-- The ends of the manager's and the windows' frame reach the KV pages and the host's link (R157, R300). -/
theorem endWork_frame (n : W32) (p : Loaded) (s : State) :
    ∃ sent host obj cores kv, inbFrameEnd n (kvFrameEnd (clipEvents p s)) = { s with sent, host, obj, cores, kv } := by
  obtain ⟨sent, host, obj, cores, hclip⟩ := clipEvents_frame p s
  exact ⟨_, _, _, _, _, (congrArg (fun t => inbFrameEnd n (kvFrameEnd t)) hclip).trans rfl⟩

theorem releaseSafe_loop (s : State) : (releaseSafe s).loop = s.loop := by
  unfold releaseSafe
  dsimp only
  split <;> rfl

/-- A loop frame outside TWIN as it ends now (R404, R449). -/
def endedFrame (p : Loaded) (outs : List OutData) (f : Frame) (s : State) : Frame :=
  { fillRecs p f outs with
    ended := true, endLtc := now s
    flags := p.img.streams.filterMap (fun k => (getStream s k).map (fun t => (k, BitVec.ofNat 8 (flagNum t.flag), BitVec.ofNat 8 t.focus)))
    realign := decide (s.dev.state = .realign), absent := s.dv.absent, verdict := 4 }

/-- The frame kept among the ended ones, with none in progress (R449). -/
def frameKept (x : Frame) (s : State) : State := { s with loop := { s.loop with cur := none, past := s.loop.past ++ [x] } }

theorem endVerdict_alone {s : State} (h : s.dv.twin = false) (f : Frame) : endVerdict s f = 4 := if_pos (.inr (ne_true_of_eq_false h))

/-- A loop frame outside TWIN that ends with no stop due is kept, and the SAFE pins follow (R364, R449). -/
theorem frameEnd_alone {s : State} {f : Frame} {p : Loaded} (hcur : s.loop.cur = some f) (hplan : curPlan s = some p) (hloop : f.torch = false)
    (htwin : s.dv.twin = false) (hstop : s.loop.stopAt = none) (outs : List OutData) : ∃ sent host obj cores kv,
    frameEnd outs s = releaseSafe (frameKept (endedFrame p outs f s) { s with sent, host, obj, cores, kv }) := by
  obtain ⟨recs, hfill⟩ := fillRecs_frame p f outs
  obtain ⟨sent, host, obj, cores, kv, hwork⟩ := endWork_frame f.n p s
  refine ⟨sent, host, obj, cores, kv, ?_⟩
  have hjudged : ¬(4 : Nat) = 3 := by decide
  have hwaits : ¬(4 : Nat) = 0 := by decide
  simp only [frameEnd, hcur, hplan, hfill, hloop, htwin, endVerdict_alone htwin, hwork, Bool.false_eq_true, not_false_eq_true, or_true, if_true, if_false,
    if_neg hjudged, if_neg hwaits, releaseSafe_loop, hstop, frameKept, endedFrame]

/-- In RUNNING, with no C3 or C4 cause, the SAFE pins are released (R364, R448). -/
theorem releaseSafe_running {s : State} (hrun : s.dev.state = .running) (hc3 : s.fc.c3 = false) (hc4 : s.fc.c4 = false) (hactive : s.fc.active = []) :
    (releaseSafe s).fc.safeA = false ∧ (releaseSafe s).fc.safeBN = true := by
  have hfree : safeBlocked s = false := by simp [safeBlocked, hc3, hc4, hactive]
  have hrelease : releaseSafe s = driveSafe false s := if_pos (by simp [hrun, hfree])
  rw [hrelease]
  simp [driveSafe, hactive]

/-- Settles O44: the frame that begins with its stamp and the ledger's part on a quiet machine, and the frame that ends alone. -/
theorem frameStartAndEnd : Obligations.FrameStartAndEnd := by
  refine ⟨fun s sh h => ?noLoop, fun s sh c p hctx hplan hcur => ?begins,
    fun s p hctx hplan hcur hactive hpairs hinvals hinb hstreams hsplits hwait hcompare htwin hrun hnoted hgrant hnew hrung hretired hfloor hserved hstalled
      hguard hsections hseqs => ?quiet,
    fun s outs h => ?none, fun s outs f p hcur hplan hloop htwin hstop => ?ends⟩
  case noLoop => rw [exec_frameStart, frameStart_noLoop h]
  case begins => rw [exec_frameStart, frameStart_begins hctx hplan hcur]
  case quiet =>
    have hmachine : Quiet p s :=
      ⟨(curPlan_loop hctx).trans hplan, hactive, hpairs, hinvals, hinb, hstreams, hsplits, hcompare, hrun, hsections, hseqs⟩
    have hledger : LedgerIdle s := ⟨htwin, hrung, hretired, hfloor, hserved, hstalled, hnoted, hgrant, hnew⟩
    exact ⟨_, by rw [exec_frameStart, frameStart_begins hctx hplan hcur], beginFrame_quiet hmachine hledger hctx hwait hguard⟩
  case none => rw [exec_frameEnd, frameEnd_none h]
  case ends =>
    obtain ⟨sent, host, obj, cores, kv, hend⟩ := frameEnd_alone hcur hplan hloop htwin hstop outs
    obtain ⟨recs, hfill⟩ := fillRecs_frame p f outs
    refine ⟨_, endedFrame p outs f s, by rw [exec_frameEnd, hend], ?_⟩
    rw [releaseSafe_loop]
    have hx : (endedFrame p outs f s).n = f.n ∧ (endedFrame p outs f s).stamp = f.stamp := by rw [endedFrame, hfill]; exact ⟨rfl, rfl⟩
    exact ⟨rfl, rfl, hx.1, hx.2, rfl, rfl, rfl, fun hrun hc3 hc4 hactive => releaseSafe_running hrun hc3 hc4 hactive⟩

end Sys2Proof.Laws
end

section
/-! PROOF. The commands of the sensors and intake group (R237, R252, R260, R348). -/

open Sys2Proof Sys2Proof.Machine
namespace Sys2Proof.Laws

/-! STREAM_STATUS. -/

section Stream
variable {r : Req} {s : State}

theorem streamStatus_unknown (h : getStream s (r.arg 0 1) = none) : streamStatus r s = refuse .dispatch r 5 16 [] s := by simp only [streamStatus, h]

/-- STREAM_STATUS answers the flag, the kind, the last frame and then the counters, the skip count first, and clears them with CLEAR
(R348). -/
theorem streamStatus_reads {x : Stream} (h : getStream s (r.arg 0 1) = some x) : ∃ b,
    streamStatus r s = ok .dispatch r b (if r.flag 0 = true then clearCounters (r.arg 0 1) s else s) ∧
    b.take 16 = leBytes 1 (flagNum x.flag) ++ leBytes 1 (kindNum x.decl.kind) ++ [0, 0] ++ leBytes 4 x.lastFrame.toNat ++ leBytes 8 x.lastLtc.toNat ∧
    (b.drop 16).take 4 = leBytes 4 x.skip.val.toNat := by
  simp only [streamStatus, h]
  exact ⟨_, rfl, rfl, rfl⟩

/-- CLEAR returns a stream's own counters to 0, and with a CSI stream's those of its port (R348). -/
theorem clearCounters_stream {k : Nat} {x : Stream} (h : getStream s k = some x) (hid : x.decl.id = k) (hwf : wfK none s.intake.streams = true) :
    getStream (clearCounters k s) k = some { x with skip := {}, short := {}, ovf := {}, gap := {}, preClip := {}, focusDrop := {} } ∧
    (clearCounters k s).dev = s.dev := by
  have hput : getStream (setStream { x with skip := {}, short := {}, ovf := {}, gap := {}, preClip := {}, focusDrop := {} } s) k =
      some { x with skip := {}, short := {}, ovf := {}, gap := {}, preClip := {}, focusDrop := {} } :=
    (getK_putK none hwf x.decl.id k _).trans (if_pos hid.symm)
  simp only [clearCounters, h]
  split <;> exact ⟨hput, rfl⟩

end Stream

/-! RECORD_OPEN and RECORD_CLOSE. -/

section Record
variable {r : Req} {s : State} {file : Option MsrFile}

theorem recordOpen_noSet (h : 3 < r.arg 0 1) : recordOpen file r s = bad .dispatch r 16 s := if_pos h

theorem recordOpen_noObject (hset : r.arg 0 1 ≤ 3) (hzero : zeros r.args 1 3 = true) (hnamed : r.arg 4 4 ≠ 0xFFFFFFFF)
    (hcount : s.obj.objTab.count ≤ r.arg 4 4) : recordOpen file r s = refuse .dispatch r 5 20 [] s := by
  simp only [recordOpen, if_neg (Nat.not_lt.mpr hset), hzero, not_true_eq_false, if_false, if_pos (And.intro hnamed hcount)]

/-- The file lies in DRAM that the device has, or in a named object that is not TORN (R237, R305). -/
def FileLies (r : Req) (s : State) : Prop :=
  r.arg 4 4 = 0xFFFFFFFF ∧ r.arg 8 8 + r.arg 16 8 ≤ dramU s ∨
    r.arg 4 4 ≠ 0xFFFFFFFF ∧ r.arg 4 4 < s.obj.objTab.count ∧ tornObj s (r.arg 4 4) = false

/-- A file's entry in its set (R237). -/
def fileEntry (f : MsrFile) : MsrFileState := { frames := f.sceneFrames, indexed := f.indexValid }

/-- The file appended to its set (R237). -/
def fileAppended (set : Nat) (f : MsrFile) (s : State) : State :=
  { s with intake := { s.intake with sets := putK [] s.intake.sets set (getK [] s.intake.sets set ++ [fileEntry f]) } }

/-- With room in the set, a file of which the header fits its own checks is judged by its header (R237, R348). -/
theorem recordOpen_judged {f : MsrFile} (hset : r.arg 0 1 ≤ 3) (hzero : zeros r.args 1 3 = true) (hlies : FileLies r s) (hlen : 64 ≤ r.arg 16 8)
    (hroom : (getK [] s.intake.sets (r.arg 0 1)).length < 64) : recordOpen (some f) r s =
    if msrHeaderOk f.header = true then
      if (crc32c (f.header.take 60)).toNat = fld f.header 60 4 then
        ok .dispatch r (leBytes 4 f.sceneFrames ++ leBytes 1 (if f.indexValid then 1 else 0) ++ [0, 0, 0] ++
          leBytes 4 (getK [] s.intake.sets (r.arg 0 1)).length) (fileAppended (r.arg 0 1) f s)
      else refuse .dispatch r 12 1 [] s
    else bad .dispatch r 20 s := by
  have hknown : ¬(r.arg 4 4 ≠ 0xFFFFFFFF ∧ s.obj.objTab.count ≤ r.arg 4 4) := by
    rintro ⟨hne, hcount⟩
    rcases hlies with ⟨hdram, -⟩ | ⟨-, hlt, -⟩
    · exact hne hdram
    · exact Nat.not_le.mpr hlt hcount
  have hwhole : ¬(r.arg 4 4 ≠ 0xFFFFFFFF ∧ tornObj s (r.arg 4 4) = true) := by
    rintro ⟨hne, htorn⟩
    rcases hlies with ⟨hdram, -⟩ | ⟨-, -, hnot⟩
    · exact hne hdram
    · exact Bool.false_ne_true (hnot.symm.trans htorn)
  have hinside : ¬(r.arg 4 4 = 0xFFFFFFFF ∧ dramU s < r.arg 8 8 + r.arg 16 8) := by
    rintro ⟨hdram, hpast⟩
    rcases hlies with ⟨-, hle⟩ | ⟨hne, -⟩
    · exact Nat.not_lt.mpr hle hpast
    · exact hne hdram
  simp only [recordOpen, if_neg (Nat.not_lt.mpr hset), hzero, not_true_eq_false, if_false, if_neg hknown, if_neg hwhole, if_neg hinside,
    if_neg (Nat.not_lt.mpr hlen), if_neg (Nat.not_le.mpr hroom), ite_not, satBit, Nat.pow_zero, fileAppended, fileEntry]

theorem recordClose_noSet (h : 3 < r.arg 0 1) : recordClose r s = bad .dispatch r 16 s := if_pos h

theorem recordClose_empty (hset : r.arg 0 1 ≤ 3) (h : getK [] s.intake.sets (r.arg 0 1) = []) : recordClose r s = refuse .dispatch r 5 16 [] s := by
  simp only [recordClose, if_neg (Nat.not_lt.mpr hset), h, List.isEmpty_nil, if_true]

/-- A set that a run reads stays open (R348). -/
theorem recordClose_read {a : AdaptRun} (hset : r.arg 0 1 ≤ 3) (h : getK [] s.intake.sets (r.arg 0 1) ≠ []) (hrun : s.adapt.run = some a)
    (hread : a.scene = r.arg 0 1 ∨ a.valid = r.arg 0 1) : recordClose r s = refuse .dispatch r 6 (Config.suggestedWait 4) [] s := by
  have hused : (decide (a.scene = r.arg 0 1) || decide (a.valid = r.arg 0 1)) = true := by simpa using hread
  simp only [recordClose, if_neg (Nat.not_lt.mpr hset), List.isEmpty_eq_false_iff.mpr h, Bool.false_eq_true, if_false, hrun, hused, if_true]

theorem recordClose_closes (hset : r.arg 0 1 ≤ 3) (h : getK [] s.intake.sets (r.arg 0 1) ≠ []) (hrun : s.adapt.run = none) :
    recordClose r s = ok .dispatch r [] { s with intake := { s.intake with sets := putK [] s.intake.sets (r.arg 0 1) [] } } := by
  simp only [recordClose, if_neg (Nat.not_lt.mpr hset), List.isEmpty_eq_false_iff.mpr h, Bool.false_eq_true, if_false, hrun]

end Record

/-! INTAKE_COUNTERS, SPLIT_STATUS and PRISM_STATUS. -/

/-- The intake's counters at 0 (R220, R229, R230). -/
def intakeCleared (s : State) : State :=
  { s with intake := { s.intake with
      undecl := {}, macs := s.intake.macs.map (fun e => (e.1, { e.2 with fcs := {}, len := {}, proto := {}, csum := {} })) } }

theorem intakeCounters_reads (r : Req) (s : State) : ∃ b,
    intakeCounters r s = ok .dispatch r b (if r.flag 0 = true then intakeCleared s else s) ∧ b.take 4 = leBytes 4 s.intake.undecl.val.toNat :=
  ⟨_, rfl, rfl⟩

theorem splitStatus_reads (r : Req) (s : State) : splitStatus r s = ok .dispatch r (leBytes 1 s.intake.moved.length ++
    sub (s.intake.moved.flatMap (fun k => leBytes 1 k)) 0 8 ++ [0, 0, 0] ++ leBytes 4 s.intake.splitFrame.toNat) s := rfl

theorem prismStatus_reads (r : Req) (s : State) : prismStatus r s = ok .dispatch r (leBytes 2 s.intake.util ++ leBytes 2 (s.intake.utilHist.foldl max 0)
    ++ leBytes 4 s.intake.above ++ leBytes 4 s.intake.below) s := rfl

end Sys2Proof.Laws
end

section
/-! PROOF. The commands of the time group (R272, R273, R275, R278, R282, R349, R350). -/

open Sys2Proof Sys2Proof.Machine
namespace Sys2Proof.Laws

/-! TIME_STATUS. -/

theorem timeStatus_reads (r : Req) (s : State) : timeStatus r s = ok .lantern r (timeBlock s ++ supprBytes s ++ leBytes 2 s.time.domainCnt.val.toNat)
    (if r.flag 0 = true then clearTimeSat (2 ^ 25 - 1) s else s) := by
  simp only [timeStatus]

/-- The time block begins with the LTC (R282). -/
theorem timeBlock_ltc (s : State) : (timeBlock s).take 8 = leBytes 8 (now s).toNat := by
  delta timeBlock
  simp only [List.append_assoc]
  exact List.take_left' (length_leBytes 8 _)

/-- A mask of all places clears the count of its own, and nothing but the counters of ports and outputs with it (R272). -/
theorem clearTimeSat_domain (s : State) : clearTimeSat (2 ^ 25 - 1) s = { s with time := { s.time with
    ports := (clearTimeSat (2 ^ 25 - 1) s).time.ports, trig := (clearTimeSat (2 ^ 25 - 1) s).time.trig, domainCnt := {} } } := by
  have hplace : decide ((2 ^ 25 - 1) / 2 ^ 24 % 2 = 1) = true := by decide
  simp only [clearTimeSat, hplace, if_true]

/-- The trigger outputs of which the mask has the bit lose their count of suppressed edges (R272). -/
theorem getTrig_clearTimeSat (m : Nat) {s : State} (hwf : wfK ({} : Trig) s.time.trig = true) {n : Nat} (hn : n < 12) :
    getTrig (clearTimeSat m s) n = if m / 2 ^ (12 + n) % 2 = 1 then { getTrig s n with suppr := {} } else getTrig s n := by
  have hfold := getK_foldl_updK hwf (fun k => m / 2 ^ (12 + k) % 2 = 1) (fun _ x => { x with suppr := {} }) (l := List.range 12) List.nodup_range n
  simp only [List.mem_range, hn, true_and, decide_eq_true_eq] at hfold
  simpa only [clearTimeSat, getTrig, decide_eq_true_eq] using hfold

/-- The ports of which the mask has the bit lose their count of dropped time stamps (R272). -/
theorem getPtp_clearTimeSat (m : Nat) {s : State} (hwf : wfK ({} : PtpPort) s.time.ports = true) {n : Nat} (hn : n < 4) :
    getPtp (clearTimeSat m s) n = if m / 2 ^ (8 + n) % 2 = 1 then { getPtp s n with drop := {} } else getPtp s n := by
  have hfold := getK_foldl_updK hwf (fun k => m / 2 ^ (8 + k) % 2 = 1) (fun _ x => { x with drop := {} }) (l := List.range 4) List.nodup_range n
  simp only [List.mem_range, hn, true_and, decide_eq_true_eq] at hfold
  simpa only [clearTimeSat, getPtp, decide_eq_true_eq] using hfold

/-- A mask of all places clears the counts of suppressed edges (R272). -/
theorem clearTimeSat_suppr {s : State} (hwf : wfK ({} : Trig) s.time.trig = true) {n : Nat} (hn : n < 12) :
    (getTrig (clearTimeSat (2 ^ 25 - 1) s) n).suppr = {} := by
  have hplace : (2 ^ 25 - 1) / 2 ^ (12 + n) % 2 = 1 := by interval_cases n <;> decide
  rw [getTrig_clearTimeSat _ hwf hn, if_pos hplace]

/-- A mask of all places clears the counts of dropped time stamps (R272). -/
theorem clearTimeSat_drop {s : State} (hwf : wfK ({} : PtpPort) s.time.ports = true) {n : Nat} (hn : n < 4) :
    (getPtp (clearTimeSat (2 ^ 25 - 1) s) n).drop = {} := by
  have hplace : (2 ^ 25 - 1) / 2 ^ (8 + n) % 2 = 1 := by interval_cases n <;> decide
  rw [getPtp_clearTimeSat _ hwf hn, if_pos hplace]

/-! TIME_STEP. -/

section TimeStep
variable {r : Req} {s : State}

/-- TIME_STEP waits for the next Sync, or for the LTC that it names (R273). -/
def stepWaits (args : List Nat) (r : Req) (s : State) : State :=
  { s with mbL := { s.mbL with waiting := s.mbL.waiting ++ [{ slot := r.slot, opcode := 0x0502, args, limit := BitVec.ofNat 64 (r.arg 24 8) }] } }

theorem timeStep_noMode (h : 1 < r.arg 0 1) : timeStep r s = bad .lantern r 16 s := if_pos h

variable (hmode : r.arg 0 1 ≤ 1) (hzero : zeros r.args 1 7 = true)
include hmode hzero

theorem timeStep_busy (h : s.mbL.waiting.any (fun w => w.opcode = 0x0502) = true) : timeStep r s = refuse .lantern r 6 (Config.suggestedWait 3) [] s := by
  simp only [timeStep, if_neg (Nat.not_lt.mpr hmode), hzero, not_true_eq_false, if_false, h, if_true]

variable (hfree : s.mbL.waiting.any (fun w => w.opcode = 0x0502) = false)
include hfree

/-- A step by the next Sync needs a qualified master (R273). -/
theorem timeStep_sync (h : r.arg 0 1 = 0) :
    timeStep r s = if masterQualified s = true then stepWaits [0] r s else refuse .lantern r 5 16 [] s := by
  simp only [timeStep, if_neg (Nat.not_lt.mpr hmode), hzero, not_true_eq_false, if_false, hfree, Bool.false_eq_true, if_pos h, stepWaits]

/-- A step at an LTC needs one 100 µs to 1 s ahead (R273). -/
theorem timeStep_ltc (h : r.arg 0 1 = 1) (hpad : zeros r.args 14 2 = true) (hns : r.arg 16 4 < 1000000000) : timeStep r s =
    if r.arg 24 8 < (now s).toNat + 100000 ∨ (now s).toNat + 1000000000 < r.arg 24 8 then bad .lantern r 40 s
    else stepWaits [1, r.arg 8 6, r.arg 16 4, r.arg 24 8] r s := by
  have hltc : ¬r.arg 0 1 = 0 := by omega
  simp only [timeStep, if_neg (Nat.not_lt.mpr hmode), hzero, not_true_eq_false, if_false, hfree, Bool.false_eq_true, if_neg hltc, hpad,
    if_neg (Nat.not_le.mpr hns), stepWaits]

end TimeStep

/-! TIME_CONFIG. -/

section TimeConfig
variable {r : Req} {s : State}

theorem timeConfig_badLimit (h : r.arg 0 2 < 50 ∨ 500 < r.arg 0 2) : timeConfig r s = bad .lantern r 16 s := if_pos h

variable (hlimit : ¬(r.arg 0 2 < 50 ∨ 500 < r.arg 0 2))
include hlimit

theorem timeConfig_badPorts (h : 15 < r.arg 2 1) : timeConfig r s = bad .lantern r 18 s := (if_neg hlimit).trans (if_pos h)

/-- The latencies that TIME_CONFIG gives a port (R269). -/
def portLatency (r : Req) (k : Nat) (p : PtpPort) : PtpPort := { p with rxLat := r.arg (4 + 4 * k) 2, txLat := r.arg (6 + 4 * k) 2 }

/-- The port table with the latencies of the ports named (R269). -/
def portsConfigured (r : Req) (s : State) : SMap PtpPort :=
  (List.range 4).foldl (fun l k => if r.arg 2 1 / 2 ^ k % 2 = 1 then updK {} l k (portLatency r k) else l) s.time.ports

theorem timeConfig_writes (hports : r.arg 2 1 ≤ 15) (hzero : r.arg 3 1 = 0) :
    timeConfig r s = ok .lantern r [] { s with time := { s.time with slewLimit := r.arg 0 2, ports := portsConfigured r s } } := by
  simp only [timeConfig, if_neg hlimit, if_neg (Nat.not_lt.mpr hports), if_neg (not_not.mpr hzero)]
  rfl

omit hlimit in
theorem getK_portsConfigured (hwf : wfK ({} : PtpPort) s.time.ports = true) {n : Nat} (hn : n < 4) :
    getK {} (portsConfigured r s) n = if r.arg 2 1 / 2 ^ n % 2 = 1 then portLatency r n (getPtp s n) else getPtp s n := by
  have hfold := getK_foldl_updK hwf (fun k => r.arg 2 1 / 2 ^ k % 2 = 1) (portLatency r) (l := List.range 4) List.nodup_range n
  simp only [List.mem_range, hn, true_and, decide_eq_true_eq] at hfold
  exact hfold

end TimeConfig

/-! TRIG_SET and TRIG_STOP. -/

theorem trigNext_before {start period : Nat} {ptc : Int} (h : ptc < start) : trigNext start period ptc = 0 := if_pos h

/-- The point chosen lies after a PTC value that the series' start does not (R278, R279). -/
theorem trigNext_after {start period : Nat} {ptc : Int} (hstart : (start : Int) ≤ ptc) (hperiod : 4294967296 ≤ period) :
    ptc < (start : Int) + (trigNext start period ptc * period / 4294967296 : Nat) := by
  obtain ⟨d, rfl⟩ : ∃ d : Nat, ptc = start + d := ⟨(ptc - start).toNat, by omega⟩
  have hafter : d < trigNext start period (start + d) * period / 4294967296 := by
    have hd : ((start : Int) + d - start).toNat = d := by omega
    rw [trigNext, if_neg (by omega)]
    simp only [hd, Nat.max_eq_left (Nat.one_le_of_lt hperiod)]
    have hpoint : d * 4294967296 < (d * 4294967296 / period + 1) * period := Nat.lt_mul_of_div_lt (Nat.lt_succ_self _) (by omega)
    split
    · assumption
    split
    · assumption
    · rw [Nat.lt_div_iff_mul_lt (by decide)]
      have hnext : (d * 4294967296 / period + 2) * period = (d * 4294967296 / period + 1) * period + period := by ring
      omega
  omega

section Trig
variable {r : Req} {s : State}

theorem trigSet_undeclared (h : 11 < r.arg 0 1 ∨ (getTrig s (r.arg 0 1)).declared = false) : trigSet r s = bad .lantern r 16 s :=
  if_pos (h.imp_right fun h => .inl (ne_true_of_eq_false h))

/-- An FSYNC that R27 holds inactive is set only by the survivor that takes it over (R280). -/
theorem trigSet_held (hheld : (getTrig s (r.arg 0 1)).heldInactive = true) (htake : s.dv.takeover.contains (r.arg 0 1) = false) :
    trigSet r s = bad .lantern r 16 s := if_pos (.inr (.inr ⟨hheld, ne_true_of_eq_false htake⟩))

/-- The fields of TRIG_SET before the period are right: a declared output that may run, a polarity, reserved fields of 0, and a start
within its second (R278, R349). -/
structure TrigFields (r : Req) (s : State) : Prop where
  output : r.arg 0 1 ≤ 11
  declared : (getTrig s (r.arg 0 1)).declared = true
  runs : (getTrig s (r.arg 0 1)).heldInactive = false ∨ s.dv.takeover.contains (r.arg 0 1) = true
  polarity : r.arg 1 1 ≤ 1
  reserved : r.arg 2 2 = 0
  reserved' : r.arg 10 2 = 0
  ns : r.arg 12 4 < 1000000000

/-- The series that TRIG_SET starts, at its first point after the PTC (R278). -/
def seriesSet (r : Req) (s : State) : Series :=
  { start := r.arg 4 6 * 1000000000 + r.arg 12 4, period := r.arg 16 8, width := r.arg 24 4, activeLow := r.arg 1 1 = 1
    next := trigNext (r.arg 4 6 * 1000000000 + r.arg 12 4) (r.arg 16 8) (ptcNs s.time) }

theorem trigSet_judged (h : TrigFields r s) : trigSet r s =
    if r.arg 16 8 < 1000000 * 2 ^ 32 ∨ 2000000000 * 2 ^ 32 < r.arg 16 8 then bad .lantern r 32 s
    else if r.arg 24 4 < 1000 ∨ r.arg 16 8 < 2 * r.arg 24 4 * 2 ^ 32 ∨ r.arg 24 4 % 2 = 1 then bad .lantern r 40 s
    else ok .lantern r (leBytes 8 (seriesSet r s).next) (setTrig (r.arg 0 1) { getTrig s (r.arg 0 1) with series := some (seriesSet r s) } s) := by
  have hfit : ¬(11 < r.arg 0 1 ∨ ¬(getTrig s (r.arg 0 1)).declared = true ∨
      ((getTrig s (r.arg 0 1)).heldInactive = true ∧ ¬s.dv.takeover.contains (r.arg 0 1) = true)) := by
    rintro (hout | hnot | ⟨hheld, htake⟩)
    · exact Nat.not_lt.mpr h.output hout
    · exact hnot h.declared
    · exact h.runs.elim (fun hfree => Bool.false_ne_true (hfree.symm.trans hheld)) htake
  simp only [trigSet, if_neg hfit, if_neg (Nat.not_lt.mpr h.polarity), if_neg (not_not.mpr h.reserved), if_neg (not_not.mpr h.reserved'),
    if_neg (Nat.not_le.mpr h.ns), seriesSet]

theorem trigStop_noOutput (h : 11 < r.arg 0 1) : trigStop r s = bad .lantern r 16 s := if_pos h

theorem trigStop_noSeries (hout : r.arg 0 1 ≤ 11) (h : (getTrig s (r.arg 0 1)).series = none) : trigStop r s = refuse .lantern r 5 16 [] s := by
  simp only [trigStop, if_neg (Nat.not_lt.mpr hout), h]

/-- The LTC of an output's last edge, 0 before any (R349). -/
def lastEdgeLtc (x : Trig) : Nat := match x.lastEdge with | some t => t.toNat | none => 0

/-- The series ends at its next edge (R272). -/
theorem trigStop_stops {q : Series} (hout : r.arg 0 1 ≤ 11) (h : (getTrig s (r.arg 0 1)).series = some q) :
    trigStop r s = ok .lantern r (leBytes 8 (lastEdgeLtc (getTrig s (r.arg 0 1))))
      (setTrig (r.arg 0 1) { getTrig s (r.arg 0 1) with series := some { q with stopping := true } } s) := by
  simp only [trigStop, if_neg (Nat.not_lt.mpr hout), h]
  rfl

end Trig

end Sys2Proof.Laws
end

section
/-! PROOF. The commands of the energy group (R205, R208, R217, R218, R351), and with them those of the three groups. -/

open Sys2Proof Sys2Proof.Machine
namespace Sys2Proof.Laws

/-! ENERGY_BUDGET. -/

section Budget
variable {r : Req} {s : State}

theorem energyBudget_badFrames (h : r.arg 0 4 < 1 ∨ 1200 < r.arg 0 4) : energyBudget r s = bad .dispatch r 16 s := if_pos h

variable (hframes : ¬(r.arg 0 4 < 1 ∨ 1200 < r.arg 0 4))
include hframes

theorem energyBudget_reserved (h : r.arg 4 4 ≠ 0) : energyBudget r s = bad .dispatch r 20 s := (if_neg hframes).trans (if_pos h)

variable (hzero : r.arg 4 4 = 0)
include hzero

/-- A grant covers rung 5 in every frame of its window (R205). -/
theorem energyBudget_low (hgrant : r.arg 8 8 ≠ 0) (h : ∃ x ∈ floorEnergies s, r.arg 8 8 < r.arg 0 4 * x) : energyBudget r s = bad .dispatch r 24 s := by
  have hlow : r.arg 8 8 ≠ 0 ∧ (floorEnergies s).any (fun x => decide (r.arg 8 8 < r.arg 0 4 * x)) = true := ⟨hgrant, by simpa using h⟩
  simp only [energyBudget, if_neg hframes, if_neg (not_not.mpr hzero), if_pos hlow]

/-- The first frame start whose rung is not decided, 0 with no loop (R205). -/
def undecidedFrame (s : State) : W32 := if s.loop.ctx = none then 0 else if s.energy.nextRung = none then s.loop.next else s.loop.next + 1

/-- The grant that opens a window at that frame (R205). -/
def grantKept (r : Req) (s : State) : State := { s with energy := { s.energy with newGrant := some (r.arg 0 4, r.arg 8 8, undecidedFrame s) } }

theorem energyBudget_grants (h : r.arg 8 8 = 0 ∨ ∀ x ∈ floorEnergies s, r.arg 0 4 * x ≤ r.arg 8 8) :
    energyBudget r s = ok .dispatch r (leBytes 4 (undecidedFrame s).toNat) (grantKept r s) := by
  have hcovers : ¬(r.arg 8 8 ≠ 0 ∧ (floorEnergies s).any (fun x => decide (r.arg 8 8 < r.arg 0 4 * x)) = true) := by
    rintro ⟨hgrant, hlow⟩
    obtain ⟨x, hx, hlt⟩ := List.any_eq_true.mp hlow
    exact absurd (h.resolve_left hgrant x hx) (Nat.not_le.mpr (of_decide_eq_true hlt))
  have hframe : (if s.loop.ctx.isNone = true then 0 else if s.energy.nextRung.isSome = true then s.loop.next + 1 else s.loop.next) = undecidedFrame s := by
    unfold undecidedFrame
    cases s.loop.ctx <;> cases s.energy.nextRung <;> rfl
  simp only [energyBudget, if_neg hframes, if_neg (not_not.mpr hzero), if_neg hcovers, hframe, grantKept]

end Budget

/-! ENERGY_LOOP and ENERGY_STATUS. -/

theorem energyLoop_sets (r : Req) (s : State) : energyLoop r s = ok .dispatch r (leBytes 8 (now s + 1000000000).toNat)
    { s with energy := { s.energy with heat := some (r.arg 0 4, now s + 1000000000) } } := rfl

/-- ENERGY_STATUS held until the frame boundary (R217). -/
def statusWaits (r : Req) (s : State) : State :=
  { s with mbD := { s.mbD with waiting := s.mbD.waiting ++ [{ slot := r.slot, opcode := 0x0603, args := [if r.flag 0 then 1 else 0], limit := 0 }] } }

theorem energyStatus_judged (r : Req) (s : State) : energyStatus r s =
    if loopRuns s = true then statusWaits r s else ok .dispatch r (ledgerBytes s) (if r.flag 0 = true then clearLedger s else s) := rfl

/-! ENERGY_THRESH. -/

theorem getK_tabulateK {α : Type} [DecidableEq α] (d : α) (f : Nat → α) (n k : Nat) : getK d (tabulateK d n f) k = if k < n then f k else d := by
  have hlist (l : List Nat) : getK d (l.filterMap (fun i => if f i = d then none else some (i, f i))) k = if k ∈ l then f k else d := by
    induction l with
    | nil => rfl
    | cons i l ih =>
      by_cases hi : f i = d
      · simp only [List.filterMap_cons, if_pos hi, ih]
        by_cases hk : k = i
        · subst hk; simp [hi]
        · simp [hk]
      · simp only [List.filterMap_cons, if_neg hi, getK, ih]
        by_cases hk : i = k
        · subst hk; simp
        · simp [hk, Ne.symm hk]
  rw [tabulateK, hlist]
  simp only [List.mem_range]

section Thresh
variable {r : Req} {s : State}

/-- The event of a place is named and is none (R351). -/
def noEvent (r : Req) (s : State) (k : Nat) : Bool :=
  decide (((List.range 5).map (fun k => r.arg (2 * k) 2)).getD k 0xFFFF ≠ 0xFFFF) && !evtValid s (((List.range 5).map (fun k => r.arg (2 * k) 2)).getD k 0xFFFF)

theorem noEvent_iff {n : Nat} (hn : n < 5) : noEvent r s n = true ↔ r.arg (2 * n) 2 ≠ 0xFFFF ∧ evtValid s (r.arg (2 * n) 2) = false := by
  have hget : ((List.range 5).map (fun k => r.arg (2 * k) 2)).getD n 0xFFFF = r.arg (2 * n) 2 := by simp [List.getD_eq_getElem?_getD, hn]
  simp only [noEvent, hget, Bool.and_eq_true, decide_eq_true_eq, Bool.not_eq_true']

/-- The events and thresholds that ENERGY_THRESH writes (R218). -/
def threshWritten (r : Req) (s : State) : State :=
  { s with energy := { s.energy with
      events := ((List.range 5).map (fun k => r.arg (2 * k) 2)).map (fun h => BitVec.ofNat 16 h), lowFrac := r.arg 10 1
      thresh := tabulateK 0 16 (fun k => BitVec.ofNat 64 (r.arg (16 + 8 * k) 8)), crossed := [] } }

/-- ENERGY_THRESH looks for the first event named that is none (R351). -/
theorem energyThresh_search (r : Req) (s : State) : energyThresh r s =
    match (List.range 5).find? (noEvent r s) with
    | some k => refuse .dispatch r 5 (BitVec.ofNat 16 (16 + 2 * k)) [] s
    | none => if ¬zeros r.args 11 5 then bad .dispatch r 27 s else ok .dispatch r [] (threshWritten r s) := rfl

/-- The first event named that is none refuses ENERGY_THRESH (R351). -/
theorem energyThresh_noEvent (h : ∃ n < 5, r.arg (2 * n) 2 ≠ 0xFFFF ∧ evtValid s (r.arg (2 * n) 2) = false) :
    ∃ n < 5, energyThresh r s = refuse .dispatch r 5 (BitVec.ofNat 16 (16 + 2 * n)) [] s ∧ evtValid s (r.arg (2 * n) 2) = false := by
  cases hfind : (List.range 5).find? (noEvent r s) with
  | none =>
    obtain ⟨n, hn, hgiven, hnot⟩ := h
    exact absurd ((noEvent_iff hn).mpr ⟨hgiven, hnot⟩) (List.find?_eq_none.mp hfind n (List.mem_range.mpr hn))
  | some n =>
    have hn : n < 5 := List.mem_range.mp (List.mem_of_find?_eq_some hfind)
    refine ⟨n, hn, ?_, ((noEvent_iff hn).mp (List.find?_some hfind)).2⟩
    rw [energyThresh_search, hfind]

theorem energyThresh_writes (h : ∀ n < 5, r.arg (2 * n) 2 = 0xFFFF ∨ evtValid s (r.arg (2 * n) 2) = true) (hzero : zeros r.args 11 5 = true) :
    energyThresh r s = ok .dispatch r [] (threshWritten r s) := by
  have hfind : (List.range 5).find? (noEvent r s) = none := by
    refine List.find?_eq_none.mpr fun n hmem hno => ?_
    obtain ⟨hgiven, hnot⟩ := (noEvent_iff (List.mem_range.mp hmem)).mp hno
    exact (h n (List.mem_range.mp hmem)).elim hgiven (fun hvalid => Bool.false_ne_true (hnot.symm.trans hvalid))
  rw [energyThresh_search, hfind]
  exact if_neg (not_not.mpr hzero)

theorem threshWritten_places (r : Req) (s : State) : (∀ n < 5, (threshWritten r s).energy.events[n]? = some (BitVec.ofNat 16 (r.arg (2 * n) 2))) ∧
    ∀ n < 16, getK 0 (threshWritten r s).energy.thresh n = BitVec.ofNat 64 (r.arg (16 + 8 * n) 8) :=
  ⟨fun n hn => by simp [threshWritten, hn], fun n hn => (getK_tabulateK _ _ _ _).trans (if_pos hn)⟩

end Thresh

/-- Settles O59: each command is the refusal or the effect that its own lemma gives, answered or held as every command is. -/
theorem sensorTimeEnergyCommands : Obligations.SensorTimeEnergyCommands := by
  intro s k ks r
  dsimp only
  refine ⟨fun hask => ?streamStatus, fun file hask => ?recordOpen, fun hask => ?recordClose, fun hask => ?intakeCounters, fun hask => ?splitStatus,
    fun hask => ?prismStatus, fun hask => ?timeStatus, fun hask => ?timeStep, fun hask => ?timeConfig, fun hask => ?trigSet, fun hask => ?trigStop,
    fun hask => ?energyBudget, fun hask => ?energyLoop, fun hask => ?energyStatus, fun hask => ?energyThresh⟩
  case streamStatus =>
    refine ⟨fun hnone => serve_refuses hask (streamStatus_unknown hnone), fun x hsome => ?_⟩
    obtain ⟨b, heq, hfront, hskip⟩ := streamStatus_reads (s := taken .dispatch ks s) hsome
    refine ⟨b, _, serve_answers hask heq, hfront, hskip, fun hkeep => if_neg (ne_true_of_eq_false hkeep), fun hclear hid hwf => ?_⟩
    rw [if_pos hclear]
    exact clearCounters_stream (s := taken .dispatch ks s) hsome hid hwf
  case recordOpen =>
    refine ⟨fun hset => serve_refuses hask (recordOpen_noSet hset),
      fun hset hzero hnamed hcount => serve_refuses hask (recordOpen_noObject hset hzero hnamed hcount),
      fun f hset hzero hlies hlen hroom hfile => ?_⟩
    subst hfile
    have hbody := recordOpen_judged (s := taken .dispatch ks s) (f := f) hset hzero hlies hlen hroom
    exact ⟨fun hbad => serve_refuses hask (hbody.trans (if_neg (ne_true_of_eq_false hbad))),
      fun hok hcrc => serve_refuses hask (hbody.trans ((if_pos hok).trans (if_neg hcrc))),
      fun hok hcrc => serve_answers hask (hbody.trans ((if_pos hok).trans (if_pos hcrc)))⟩
  case recordClose =>
    exact ⟨fun hset => serve_refuses hask (recordClose_noSet hset), fun hset hempty => serve_refuses hask (recordClose_empty hset hempty),
      fun a hset hfull hrun hread => serve_refuses hask (recordClose_read hset hfull hrun hread),
      fun hset hfull hrun => serve_answers hask (recordClose_closes (s := taken .dispatch ks s) hset hfull hrun)⟩
  case intakeCounters =>
    obtain ⟨b, heq, hfront⟩ := intakeCounters_reads r (taken .dispatch ks s)
    exact ⟨b, _, serve_answers hask heq, hfront, fun hkeep => if_neg (ne_true_of_eq_false hkeep), fun hclear => if_pos hclear⟩
  case splitStatus => exact serve_answers hask (splitStatus_reads r (taken .dispatch ks s))
  case prismStatus => exact serve_answers hask (prismStatus_reads r (taken .dispatch ks s))
  case timeStatus =>
    refine ⟨_, serve_answers hask (timeStatus_reads r (taken .lantern ks s)), timeBlock_ltc s, fun hkeep => if_neg (ne_true_of_eq_false hkeep),
      fun hclear => ?_⟩
    rw [if_pos hclear]
    exact ⟨clearTimeSat_domain (taken .lantern ks s), fun hwf n hn => clearTimeSat_suppr (s := taken .lantern ks s) hwf hn,
      fun hwf n hn => clearTimeSat_drop (s := taken .lantern ks s) hwf hn⟩
  case timeStep =>
    refine ⟨fun hmode => serve_refuses hask (timeStep_noMode hmode), fun hmode hzero => ⟨fun hbusy => serve_refuses hask (timeStep_busy hmode hzero hbusy),
      fun hfree => ?_⟩⟩
    have hsync := timeStep_sync (s := taken .lantern ks s) hmode hzero hfree
    have hltc := timeStep_ltc (s := taken .lantern ks s) hmode hzero hfree
    simp only [stepWaits, asked_slot hask] at hsync hltc
    exact ⟨fun h0 hmaster => serve_gives hask ((hsync h0).trans (if_pos hmaster)),
      fun h0 hnot => serve_refuses hask ((hsync h0).trans (if_neg (ne_true_of_eq_false hnot))),
      fun h1 hpad hns hout => serve_refuses hask ((hltc h1 hpad hns).trans (if_pos hout)),
      fun h1 hpad hns hlow hhigh => serve_gives hask ((hltc h1 hpad hns).trans
        (if_neg (not_or_intro (Nat.not_lt.mpr hlow) (Nat.not_lt.mpr hhigh))))⟩
  case timeConfig =>
    refine ⟨fun hbad => serve_refuses hask (timeConfig_badLimit hbad),
      fun hlow hhigh hports => serve_refuses hask (timeConfig_badPorts (by omega) hports), fun hlow hhigh hports hzero => ?_⟩
    exact ⟨_, serve_answers hask (timeConfig_writes (s := taken .lantern ks s) (by omega) hports hzero), rfl,
      fun hwf n hn => getK_portsConfigured (s := taken .lantern ks s) hwf hn⟩
  case trigSet =>
    refine ⟨fun hnone => serve_refuses hask (trigSet_undeclared hnone), fun hout hdeclared hheld htake => serve_refuses hask (trigSet_held hheld htake),
      fun hout hdeclared hruns hpol hres hres' hns => ?_⟩
    have hbody := trigSet_judged (s := taken .lantern ks s) ⟨hout, hdeclared, hruns, hpol, hres, hres', hns⟩
    refine ⟨fun hper => serve_refuses hask (hbody.trans (if_pos hper)), fun hlow hhigh hwidth => ?_, fun hlow hhigh hw hfit heven => ?_⟩
    · exact serve_refuses hask (hbody.trans ((if_neg (by omega)).trans (if_pos hwidth)))
    · exact ⟨(seriesSet r s).next, serve_answers hask (hbody.trans ((if_neg (by omega)).trans (if_neg (by omega)))), trigNext_before,
        fun hstart => trigNext_after hstart (by omega)⟩
  case trigStop =>
    exact ⟨fun hout => serve_refuses hask (trigStop_noOutput hout), fun hout hnone => serve_refuses hask (trigStop_noSeries hout hnone),
      fun q hout hsome => serve_answers hask (trigStop_stops (s := taken .lantern ks s) hout hsome)⟩
  case energyBudget =>
    refine ⟨fun hbad => serve_refuses hask (energyBudget_badFrames hbad),
      fun hlow hhigh hres => serve_refuses hask (energyBudget_reserved (by omega) hres),
      fun hlow hhigh hzero hgrant hless => serve_refuses hask (energyBudget_low (by omega) hzero hgrant hless),
      fun hlow hhigh hzero hcovers => serve_answers hask (energyBudget_grants (s := taken .dispatch ks s) (by omega) hzero hcovers)⟩
  case energyLoop => exact serve_answers hask (energyLoop_sets r (taken .dispatch ks s))
  case energyStatus =>
    have hbody := energyStatus_judged r (taken .dispatch ks s)
    rw [statusWaits, asked_slot hask] at hbody
    exact ⟨fun hruns => serve_gives hask (hbody.trans (if_pos hruns)),
      fun hidle => serve_answers hask (hbody.trans (if_neg (ne_true_of_eq_false hidle)))⟩
  case energyThresh =>
    refine ⟨fun hbad => ?_, fun hvalid hzero => ⟨threshWritten r (taken .dispatch ks s), serve_answers hask (energyThresh_writes hvalid hzero), rfl,
      threshWritten_places r (taken .dispatch ks s)⟩⟩
    obtain ⟨n, hn, heq, hnot⟩ := energyThresh_noEvent (s := taken .dispatch ks s) hbad
    exact ⟨n, hn, serve_refuses hask heq, hnot⟩

end Sys2Proof.Laws
end

section
/-! PROOF. Sensor intake: camera packets, Ethernet frames, coded pictures and loss (R220–R236, R242). -/

open Sys2Proof Sys2Proof.Machine
namespace Sys2Proof.Laws

theorem exec_csiPacket (n : Nat) (p : CsiPkt) (s : State) : exec (.csiPacket n p) s = .next (csiPacket n p s) := rfl
theorem exec_csiLaneOrder (n : Nat) (l : Option (List Nat)) (s : State) : exec (.csiLaneOrder n l) s = .next (csiLaneOrder n l s) := rfl
theorem exec_ethFrame (m : Nat) (e : EthFrame) (s : State) : exec (.ethFrame m e) s = .next (ethFrame m e s) := rfl
theorem exec_rtpReorderExpiry (k : Nat) (s : State) : exec (.rtpReorderExpiry k) s = .next (rtpReorderExpiry k s) := rfl
theorem exec_pictureDecoded (k : Nat) (p : Picture) (s : State) : exec (.pictureDecoded k p) s = .next (pictureDecoded k p s) := rfl
theorem exec_lossTimeout (k : Nat) (s : State) : exec (.lossTimeout k) s = .next (lossTimeout k s) := rfl

/-- Live input is taken in every state but ADAPTING (R242). -/
theorem liveInput_iff {s : State} : liveInput s = true ↔ s.dev.state ≠ .adapting := decide_eq_true_iff

theorem not_liveInput {s : State} (h : s.dev.state = .adapting) : ¬liveInput s = true := fun hlive => liveInput_iff.mp hlive h

/-! A stream's record. -/

section Stream
variable {s : State} {t : Stream}

/-- A stream put in place is the one read back. -/
theorem getStream_setStream (hwf : wfK none s.intake.streams = true) (x : Stream) : getStream (setStream x s) x.decl.id = some x :=
  (getK_putK none hwf x.decl.id x.decl.id (some x)).trans (if_pos rfl)

theorem setStream_wf (hwf : wfK none s.intake.streams = true) (x : Stream) : wfK none (setStream x s).intake.streams = true :=
  wfK_putK none x.decl.id (some x) hwf

theorem updStream_declared {k : Nat} (h : getStream s k = some t) (f : Stream → Stream) : updStream k f s = setStream (f t) s := by
  simp only [updStream, h]

theorem closeFrame_noFrame {k : Nat} (h : getStream s k = some t) (hopen : t.open_ = none) : closeFrame k s = s := by
  simp only [closeFrame, h, hopen]

/-- The frame in reception becomes a unit, CORRUPT unless exactly HEIGHT lines arrived (R227). -/
theorem closeFrame_completes {k : Nat} {o : OpenFrame} (h : getStream s k = some t) (hopen : t.open_ = some o) : closeFrame k s =
    completeUnit k (o.corrupt || decide (o.lines.length ≠ t.decl.height)) (.csi o.dt o.lines) (setStream { t with open_ := none } s) := by
  simp only [closeFrame, h, hopen]

end Stream

/-! Units. -/

section Unit
variable {s : State} {t : Stream}

theorem supersede_first (a : W64) (h : t.fresh = none) : supersede a t = t := by simp only [supersede, h]

/-- What the unit before a new one becomes (R222): skipped when both completed at one LTC, else the prior unit. -/
theorem supersede_earlier (a : W64) {f : SUnit} (h : t.fresh = some f) : supersede a t =
    if f.stamp = a then { t with skip := t.skip.inc } else { t with prior := some f, skip := if t.prior.isSome then t.skip.inc else t.skip } := by
  simp only [supersede, h]

theorem supersede_decl (a : W64) (t : Stream) : (supersede a t).decl = t.decl := by
  cases h : t.fresh with
  | none => rw [supersede_first a h]
  | some f =>
    rw [supersede_earlier a h]
    split <;> rfl

/-- Without a profile no base image is written (R243, R244). -/
theorem writeBase_noProfile (h : getProfile s t.decl.profile = none) (u : SUnit) : writeBase t u s = s := by simp only [writeBase, h]

/-- A stream with its new unit in place (R222). -/
def unitPlaced (u : SUnit) (s : State) (t : Stream) : Stream :=
  { supersede (now s) t with fresh := some u, lastLtc := now s, lastFrame := s.loop.next }

theorem unitPlaced_decl (u : SUnit) (s : State) (t : Stream) : (unitPlaced u s t).decl = t.decl := supersede_decl (now s) t

/-- A unit of a stream on the device (R222, R250): it takes its place, and its base image is written. -/
theorem completeUnit_onDevice {k : Nat} (h : getStream s k = some t) (hhere : t.moved = false) (c : Bool) (b : UnitBody) :
    let u : SUnit := { stamp := now s, corrupt := c, buffer := freeBuffer t, body := b }
    completeUnit k c b s = writeBase (unitPlaced u s t) u (setStream (unitPlaced u s t) s) := by
  simp only [completeUnit, h, hhere, Bool.false_eq_true, false_and, if_false, unitPlaced]

theorem completeUnit_noProfile {k : Nat} (h : getStream s k = some t) (hhere : t.moved = false) (hprofile : getProfile s t.decl.profile = none)
    (c : Bool) (b : UnitBody) :
    completeUnit k c b s = setStream (unitPlaced { stamp := now s, corrupt := c, buffer := freeBuffer t, body := b } s t) s := by
  refine (completeUnit_onDevice h hhere c b).trans (writeBase_noProfile ?_ _)
  rw [unitPlaced_decl]
  exact hprofile

end Unit

/-! Camera packets. -/

section Camera
variable {s : State} {n : Nat} {p : CsiPkt}

theorem csiPacket_adapting (n : Nat) (p : CsiPkt) (h : s.dev.state = .adapting) : csiPacket n p s = s := if_pos (not_liveInput h)

/-- A header beyond repair spoils the port's frames, is counted, dates the failure and is raised (R227, R226). -/
theorem csiPacket_badHeader (hlive : s.dev.state ≠ .adapting) (hhdr : p.hdr = .uncorrectable) : csiPacket n p s =
    raise .csiHdrUe (sub_ prismNode n) [] (spoilPort n (updPort n (fun c =>
      { c with hdrUe := c.hdrUe.inc, failSince := some (c.failSince.getD (now s)) }) s)) := by
  simp only [csiPacket, liveInput_iff.mpr hlive, hhdr, not_true_eq_false, if_false]

/-- A clean header ends the port's run of failures (R226). -/
def headerSound (n : Nat) (s : State) : State := updPort n (fun c => { c with failSince := none }) s

/-- A port's record is apart from the streams of its virtual channels. -/
@[simp] theorem vcStreams_updPort (m : Nat) (f : CsiPort → CsiPort) (s : State) (vc : BitVec 4) : vcStreams (updPort m f s) n vc = vcStreams s n vc := rfl

section Clean
variable (hlive : s.dev.state ≠ .adapting) (hhdr : p.hdr = .clean)
include hlive hhdr

/-- On a virtual channel of no stream the packet is an undeclared input (R220, R225). -/
theorem csiPacket_noStream (hvc : vcStreams s n p.vc = []) :
    csiPacket n p s = undeclared (n, p.vc.toNat, p.dt.toNat) (headerSound n s) := by
  simp only [csiPacket, liveInput_iff.mpr hlive, hhdr, reduceCtorEq, not_true_eq_false, if_false, vcStreams_updPort, hvc, List.isEmpty_nil, if_true, headerSound]

section OneStream
variable {t : Stream} (hvc : vcStreams s n p.vc = [t])
include hvc

/-- A frame start closes the frame in reception and opens the stream's next one (R227). -/
theorem csiPacket_frameStart (hdt : p.dt = 0) : csiPacket n p s =
    updStream t.decl.id (fun t => { t with open_ := some { dt := t.decl.dt.toNat } }) (closeFrame t.decl.id (headerSound n s)) := by
  have hcode : p.dt.toNat = 0 := congrArg BitVec.toNat hdt
  simp only [csiPacket, liveInput_iff.mpr hlive, hhdr, reduceCtorEq, not_true_eq_false, if_false, vcStreams_updPort, hvc, hcode, List.isEmpty_cons,
    Bool.false_eq_true, List.foldl_cons, List.foldl_nil, headerSound]

/-- A frame end closes the stream's frame in reception (R227). -/
theorem csiPacket_frameEnd (hdt : p.dt = 1) : csiPacket n p s = closeFrame t.decl.id (headerSound n s) := by
  have hcode : p.dt.toNat = 1 := congrArg BitVec.toNat hdt
  simp only [csiPacket, liveInput_iff.mpr hlive, hhdr, reduceCtorEq, not_true_eq_false, if_false, vcStreams_updPort, hvc, hcode, List.isEmpty_cons,
    Bool.false_eq_true, List.foldl_cons, List.foldl_nil, headerSound]

/-- A long packet of the stream's data type is a line of its frame in reception (R225, R227). -/
theorem csiPacket_line (hlong : 4 ≤ p.dt.toNat) (hdt : t.decl.dt = p.dt) {o : OpenFrame} (hopen : t.open_ = some o) :
    csiPacket n p s = csiLine n p t o (headerSound n s) := by
  have hfind : [t].find? (fun t => decide (t.decl.dt = p.dt)) = some t := List.find?_cons_of_pos (decide_eq_true hdt)
  obtain ⟨k, hk⟩ := Nat.exists_eq_add_of_le' hlong
  simp only [csiPacket, liveInput_iff.mpr hlive, hhdr, reduceCtorEq, not_true_eq_false, if_false, vcStreams_updPort, hvc, hk, List.isEmpty_cons,
    Bool.false_eq_true, hfind, hopen, headerSound]

end OneStream

end Clean

/-- A line of the right length counts at its port only when its CRC is wrong (R227). -/
def lineCounted (n : Nat) (crcOk : Bool) (s : State) : State :=
  updPort n (fun c => { c with crc := if crcOk then c.crc else c.crc.inc }) s

/-- A line of the right length joins the frame (R227); one with a wrong CRC makes it CORRUPT, is counted and raised. -/
theorem csiLine_whole {t : Stream} {o : OpenFrame} (hkept : o.dropping = false) (hfits : p.overflow = false)
    (hlen : p.data.length * 8 = t.decl.width * dtBits p.dt.toNat) : csiLine n p t o s =
    let v := setStream { t with open_ := some { o with lines := o.lines ++ [p.data], corrupt := o.corrupt || !p.crcOk } } (lineCounted n p.crcOk s)
    if p.crcOk then v else raise .csiCrc (sub_ prismNode n) [] v := by
  simp only [csiLine, hkept, hfits, hlen, ne_eq, not_true_eq_false, decide_false, Bool.false_eq_true, if_false, Bool.or_false, lineCounted]

end Camera

/-! The lane-order search. -/

section LaneOrder
variable {s : State} {n : Nat}

theorem csiLaneOrder_noFailure (h : (getPort s n).failSince = none) (l : Option (List Nat)) : csiLaneOrder n l s = s := by
  simp only [csiLaneOrder, h]

/-- The search of a failing port is raised, and the order found is noted (R226). -/
theorem csiLaneOrder_found {u : W64} (h : (getPort s n).failSince = some u) (perm : List Nat) : csiLaneOrder n (some perm) s =
    note Source.csiLaneOrder.code (leBytes 1 n ++ perm.map (BitVec.ofNat 8)) (raise .csiLaneOrder (sub_ prismNode n) [] s) := by
  simp only [csiLaneOrder, h]

end LaneOrder

/-! Ethernet frames. -/

section Ethernet
variable {s : State} {m : Nat} {e : EthFrame}

theorem ethFrame_adapting (m : Nat) (e : EthFrame) (h : s.dev.state = .adapting) : ethFrame m e s = s := if_pos (not_liveInput h)

theorem ethFrame_wrongLength (hlive : s.dev.state ≠ .adapting) (h : e.len < 64 ∨ 9022 < e.len) :
    ethFrame m e s = updMac m (fun c => { c with len := c.len.inc }) s := by
  simp only [ethFrame, liveInput_iff.mpr hlive, not_true_eq_false, if_false, if_pos h]

/-- Live input is taken and the frame's length is within 64 to 9022 bytes (R229, R242). -/
structure FrameSized (e : EthFrame) (s : State) : Prop where
  live : s.dev.state ≠ .adapting
  low : 64 ≤ e.len
  high : e.len ≤ 9022

theorem FrameSized.not_wrongLength (h : FrameSized e s) : ¬(e.len < 64 ∨ 9022 < e.len) :=
  not_or_intro (Nat.not_lt.mpr h.low) (Nat.not_lt.mpr h.high)

theorem ethFrame_badFcs (h : FrameSized e s) (hfcs : e.fcsOk = false) : ethFrame m e s = updMac m (fun c => { c with fcs := c.fcs.inc }) s := by
  simp only [ethFrame, liveInput_iff.mpr h.live, not_true_eq_false, if_false, if_neg h.not_wrongLength, hfcs, Bool.false_eq_true, not_false_eq_true, if_true]

theorem ethFrame_gptp (h : FrameSized e s) (hfcs : e.fcsOk = true) (htype : e.ethertype = 0x88F7) : ethFrame m e s = s := by
  simp only [ethFrame, liveInput_iff.mpr h.live, not_true_eq_false, if_false, if_neg h.not_wrongLength, hfcs, if_pos htype]

/-- A whole frame that carries an IP packet (R229, R230). -/
structure CarriesIp (e : EthFrame) (p : IpPkt) (s : State) : Prop extends FrameSized e s where
  fcs : e.fcsOk = true
  notGptp : e.ethertype ≠ 0x88F7
  ip : e.ip = some p

section Ip
variable {p : IpPkt} (h : CarriesIp e p s)
include h

theorem ethFrame_notAddressed (htakes : macTakes s m e = false) : ethFrame m e s = undeclared (16 + m, p.src.toNat, p.dport.toNat) s := by
  simp only [ethFrame, liveInput_iff.mpr h.live, not_true_eq_false, if_false, if_neg h.not_wrongLength, h.fcs, if_neg h.notGptp, h.ip, htakes,
    Bool.false_eq_true, not_false_eq_true, if_true]

theorem ethFrame_unsupported (htakes : macTakes s m e = true) (hproto : p.unsupported = true) :
    ethFrame m e s = updMac m (fun c => { c with proto := c.proto.inc }) s := by
  simp only [ethFrame, liveInput_iff.mpr h.live, not_true_eq_false, if_false, if_neg h.not_wrongLength, h.fcs, if_neg h.notGptp, h.ip, htakes, if_pos hproto]

theorem ethFrame_badChecksum (htakes : macTakes s m e = true) (hproto : p.unsupported = false) (hsums : sumsOk p = false) :
    ethFrame m e s = updMac m (fun c => { c with csum := c.csum.inc }) s := by
  simp only [ethFrame, liveInput_iff.mpr h.live, not_true_eq_false, if_false, if_neg h.not_wrongLength, h.fcs, if_neg h.notGptp, h.ip, htakes, hproto, hsums,
    Bool.false_eq_true, not_false_eq_true, if_true]

/-- A sound datagram of the one flow declared goes to the flow's stream (R230, R231). -/
theorem ethFrame_matched {f : Flow} {t : Stream} (htakes : macTakes s m e = true) (hproto : p.unsupported = false) (hsums : sumsOk p = true)
    (hflows : s.intake.flows = [f]) (hmatch : flowMatch m e p f = true) (hstream : flowStream s m 0 = some t) :
    ethFrame m e s = flowData t.decl.id f p.payload s := by
  simp only [ethFrame, liveInput_iff.mpr h.live, not_true_eq_false, if_false, if_neg h.not_wrongLength, h.fcs, if_neg h.notGptp, h.ip, htakes, hproto, hsums,
    Bool.false_eq_true, hflows, List.length_singleton, List.range_one, List.find?_cons, List.getElem?_cons_zero, hmatch, hstream]

end Ip

/-- A UDP_RAW payload joins its stream's ring behind its length (R231). -/
theorem flowData_udpRaw {k : Nat} {t : Stream} {f : Flow} (hkind : f.kind = .udpRaw) (h : getStream s k = some t) (bs : List Byte) :
    flowData k f bs s = setStream { t with ring := t.ring ++ [leBytes 4 bs.length ++ bs] } s := by
  simp only [flowData, hkind, updStream_declared h]

end Ethernet

/-! The RTP reorder buffer. -/

section Reorder
variable {s : State} {k : Nat} {t : Stream}

theorem rtpReorderExpiry_undeclared (h : getStream s k = none) : rtpReorderExpiry k s = s := by simp only [rtpReorderExpiry, h]

theorem rtpReorderExpiry_empty (h : getStream s k = some t) (hnone : t.reorder = []) : rtpReorderExpiry k s = s := by
  simp only [rtpReorderExpiry, h, hnone]

/-- The one packet held is released when it is next in order (R234). -/
theorem rtpRelease_single {q : W16} {u : W64} {bs : List Byte} (hone : t.reorder = [(q, u, bs)]) (hnext : t.rtpNext = some q) :
    rtpRelease 1 t = { t with reorder := [], rtpNext := some (q + 1), decode := depacket bs t.decode } := by
  simp only [rtpRelease, hone, hnext, or_true, if_true]

/-- The packets missing before the one held are lost, it is released, and the loss spoils the stream (R234, R236). -/
theorem rtpReorderExpiry_single {q r : W16} {u : W64} {bs : List Byte} (h : getStream s k = some t) (hone : t.reorder = [(q, u, bs)])
    (hnext : t.rtpNext = some r) (hmissing : q ≠ r) : rtpReorderExpiry k s = spoilVideo k (setStream { t with
      rtpLost := t.rtpLost + (q - r).toNat, rtpNext := some (q + 1), reorder := [], decode := depacket bs t.decode } s) := by
  have hlost : (q - r).toNat ≠ 0 := fun h0 => hmissing (by bv_omega)
  have hrelease := rtpRelease_single (t := { t with rtpLost := t.rtpLost + (q - r).toNat, rtpNext := some q }) hone rfl
  rw [hone] at hrelease
  simp only [rtpReorderExpiry, h, hone, hnext, Option.getD_some, List.length_singleton, if_neg hlost, hrelease]

end Reorder

/-! Pictures. -/

section Pictures
variable {s : State} {k : Nat} {t : Stream}

theorem pictureDecoded_undeclared (h : getStream s k = none) (p : Picture) : pictureDecoded k p s = s := by
  simp only [pictureDecoded, h, Option.isNone_none, if_true]

/-- A clean IRAP picture ends the episode, and its unit is not CORRUPT (R222, R236). -/
theorem pictureDecoded_irap {p : Picture} (h : getStream s t.decl.id = some t) (hwf : wfK none s.intake.streams = true) (hclean : p.clean = true)
    (hirap : p.irap = true) : pictureDecoded t.decl.id p s = completeUnit t.decl.id false (.picture p.depth p.y p.cb p.cr)
      (setStream { t with episode := false, decode := [] } (setStream { t with episode := false } s)) := by
  have hput : getStream (setStream { t with episode := false } s) t.decl.id = some { t with episode := false } :=
    getStream_setStream hwf { t with episode := false }
  simp only [pictureDecoded, h, Option.isNone_some, Bool.false_eq_true, if_false, hclean, hirap, if_true, updStream_declared h, hput, updStream_declared hput]

end Pictures

/-! Loss. -/

section Loss
variable {s : State} {k : Nat} {t : Stream}

theorem lossTimeout_undeclared (h : getStream s k = none) : lossTimeout k s = s := by simp only [lossTimeout, h]

theorem lossTimeout_fresh (h : getStream s k = some t) (hfresh : t.fresh ≠ none) : lossTimeout k s = s := by
  simp only [lossTimeout, h, Option.isSome_iff_ne_none.mpr hfresh, true_or, if_true]

theorem lossTimeout_adapting (k : Nat) (h : s.dev.state = .adapting) : lossTimeout k s = s := by
  cases hk : getStream s k with
  | none => exact lossTimeout_undeclared hk
  | some t => simp only [lossTimeout, hk, not_liveInput h, Bool.false_eq_true, not_false_eq_true, or_true, if_true]

/-- Without a fresh unit the stream keeps no last unit and no frame in reception, and turns MISSING (R223, R224). -/
theorem lossTimeout_stale (h : getStream s k = some t) (hlive : s.dev.state ≠ .adapting) (hstale : t.fresh = none) :
    lossTimeout k s = loseStream k (setStream { t with last := none, open_ := none } s) := by
  simp only [lossTimeout, h, hstale, Option.isSome_none, Bool.false_eq_true, liveInput_iff.mpr hlive, not_true_eq_false, or_self, if_false]

/-- SENSOR_LOSS is raised once until the stream has delivered a FRESH unit (R224). -/
theorem loseStream_declared (h : getStream s k = some t) : loseStream k s =
    if t.lost then s else raise .sensorLoss (streamInst k) [] (setStream { t with lost := true } s) := by
  simp only [loseStream, h]

end Loss

/-- Settles O46: camera packets, lane orders, Ethernet frames, the reorder buffer, pictures, units and loss, each by its case. -/
theorem sensorIntake : Obligations.SensorIntake := by
  refine ⟨fun s n p e hadapt => ?adapting, fun s n p hlive hhdr => ?badHeader, fun s n p hlive hhdr hvc => ?noStream,
    fun s n p t hlive hhdr hvc hget hwf => ⟨fun hdt hclosed => ?frameStart, fun hdt o hopen => ?frameEnd,
      fun hlong hdt o hopen hkept hfits hlen => ?line⟩,
    fun s n perm => ⟨fun hnone => ?noFailure, fun u hsome => ?laneOrder⟩,
    fun s m e hlive => ⟨fun hlen => ?length, fun hlow hhigh => ?sized⟩,
    fun s t q r u bs hget => ⟨fun hnone => ?noPacket, fun hone hnext hmissing => ?expiry⟩,
    fun s k p hnone => ?undeclared, fun s t p hget hwf hclean hirap => ?picture, fun s t c b hget hhere hprofile => ?completed,
    fun a t => ⟨supersede_first a, fun f hfresh => ?earlier⟩,
    fun s t hget hlive hwf => ⟨fun hfresh => ?fresh, fun hstale hlost => ?lostAlready, fun hstale hkept => ?lost⟩⟩
  case adapting =>
    rw [exec_csiPacket, exec_ethFrame, exec_lossTimeout, csiPacket_adapting n p hadapt, ethFrame_adapting n e hadapt, lossTimeout_adapting n hadapt]
    exact ⟨rfl, rfl, rfl⟩
  case badHeader => rw [exec_csiPacket, csiPacket_badHeader hlive hhdr]
  case noStream => rw [exec_csiPacket, csiPacket_noStream hlive hhdr hvc, headerSound]
  case frameStart =>
    have hget' : getStream (headerSound n s) t.decl.id = some t := hget
    rw [exec_csiPacket, csiPacket_frameStart hlive hhdr hvc hdt, closeFrame_noFrame hget' hclosed, updStream_declared hget', headerSound]
  case frameEnd =>
    have hget' : getStream (headerSound n s) t.decl.id = some t := hget
    rw [exec_csiPacket, csiPacket_frameEnd hlive hhdr hvc hdt, closeFrame_completes hget' hopen, headerSound]
  case line =>
    have hput (b : Bool) (o' : OpenFrame) : getStream (setStream { t with open_ := some o' } (lineCounted n b (headerSound n s))) t.decl.id =
        some { t with open_ := some o' } :=
      getStream_setStream (s := lineCounted n b (headerSound n s)) hwf { t with open_ := some o' }
    rw [exec_csiPacket, csiPacket_line hlive hhdr hvc hlong hdt hopen, csiLine_whole hkept hfits hlen]
    refine ⟨fun hcrc => ?_, fun hcrc => ?_⟩
    · simp only [hcrc, if_true, Bool.not_true, Bool.or_false]
      exact ⟨_, rfl, hput true _, rfl⟩
    · simp only [hcrc, Bool.false_eq_true, if_false, Bool.not_false, Bool.or_true]
      exact ⟨_, rfl, hput false _, rfl⟩
  case noFailure => rw [exec_csiLaneOrder, csiLaneOrder_noFailure hnone]
  case laneOrder => rw [exec_csiLaneOrder, csiLaneOrder_found hsome]
  case length => rw [exec_ethFrame, ethFrame_wrongLength hlive hlen]
  case sized =>
    have hsized : FrameSized e s := ⟨hlive, hlow, hhigh⟩
    refine ⟨fun hfcs => ?fcs, fun hfcs => ⟨fun htype => ?gptp, fun p htype hip => ?ip⟩⟩
    case fcs => rw [exec_ethFrame, ethFrame_badFcs hsized hfcs]
    case gptp => rw [exec_ethFrame, ethFrame_gptp hsized hfcs htype]
    case ip =>
      have hcarries : CarriesIp e p s := ⟨hsized, hfcs, htype, hip⟩
      refine ⟨fun htakes => ?_, fun htakes hproto => ?_, fun htakes hproto hsums => ?_,
        fun f t htakes hproto hsums hflows hmatch hkind hstream hget => ?_⟩
      · rw [exec_ethFrame, ethFrame_notAddressed hcarries htakes]
      · rw [exec_ethFrame, ethFrame_unsupported hcarries htakes hproto]
      · rw [exec_ethFrame, ethFrame_badChecksum hcarries htakes hproto hsums]
      · rw [exec_ethFrame, ethFrame_matched hcarries htakes hproto hsums hflows hmatch hstream, flowData_udpRaw hkind hget]
  case noPacket => rw [exec_rtpReorderExpiry, rtpReorderExpiry_empty hget hnone]
  case expiry => rw [exec_rtpReorderExpiry, rtpReorderExpiry_single hget hone hnext hmissing]
  case undeclared =>
    rw [exec_pictureDecoded, exec_lossTimeout, exec_rtpReorderExpiry, pictureDecoded_undeclared hnone, lossTimeout_undeclared hnone,
      rtpReorderExpiry_undeclared hnone]
    exact ⟨rfl, rfl, rfl⟩
  case picture =>
    exact ⟨_, by rw [exec_pictureDecoded, pictureDecoded_irap hget hwf hclean hirap], rfl,
      getStream_setStream (setStream_wf hwf { t with episode := false }) { t with episode := false, decode := [] }⟩
  case completed => exact completeUnit_noProfile hget hhere hprofile c b
  case earlier =>
    rw [supersede_earlier a hfresh]
    exact ⟨fun hsame => if_pos hsame, fun hother => if_neg hother⟩
  case fresh => rw [exec_lossTimeout, lossTimeout_fresh hget hfresh]
  case lostAlready =>
    have hput := getStream_setStream hwf { t with last := none, open_ := none }
    rw [exec_lossTimeout, lossTimeout_stale hget hlive hstale, loseStream_declared hput, if_pos hlost]
  case lost =>
    have hput := getStream_setStream hwf { t with last := none, open_ := none }
    exact ⟨_, by rw [exec_lossTimeout, lossTimeout_stale hget hlive hstale, loseStream_declared hput, if_neg (ne_true_of_eq_false hkept)], rfl,
      getStream_setStream (setStream_wf hwf { t with last := none, open_ := none }) { t with last := none, open_ := none, lost := true }⟩

end Sys2Proof.Laws
end

section
/-! PROOF. Nothing writes the LTC (R262), and every step keeps the invariant (R263, R376): a command but POWER_ON and POWER_CYCLE leads
to a state that is steady after the one before, those two start from the state without supply, and an idle step is a tick. -/

open Sys2Proof Sys2Proof.Machine
namespace Sys2Proof.Laws

/-! How a steady step composes. -/

/-- A change of the ledger, the host link or Dvorpo alone writes nothing that `Steady` watches. -/
theorem steady_unwatched {s t : State} (h : Steady s t) {energy : Energy} {host : HostLink} {dv : Dv} :
    Steady s { t with energy := energy, host := host, dv := dv } :=
  h.build rfl rfl rfl rfl rfl id id id

theorem faultRaise_steady {s t : State} (h : Steady s t) {src : Source} {i : Inst} {detail : List Byte} :
    Steady s (faultRaise src i detail t) :=
  .ite (coreFault_steady h) (raise_steady h)

/-- The outcome is a next state, and one that is steady after `s`. -/
def SteadyNext (s : State) (o : Res) : Prop := ∃ t, o = .next t ∧ Steady s t

theorem SteadyNext.next {s t : State} (h : Steady s t) : SteadyNext s (.next t) := ⟨t, rfl, h⟩

/-- A core's instruction is steady where its body is. -/
theorem SteadyNext.issue {s : State} {n : Node} {body : Core → State → State} (h : ∀ c t, Steady s t → Steady s (body c t)) :
    SteadyNext s (.next (Machine.issue n body s)) := .next (issue_steady (.refl s) h)

/-- A mailbox command is steady where its body is. -/
theorem SteadyNext.serve {s : State} {m : Mailbox} {op : Nat} {body : Req → State → State} (h : ∀ r t, Steady s t → Steady s (body r t)) :
    SteadyNext s (.next (serveCmd m op body s)) := .next (serveCmd_steady (.refl s) h)

/-- Every command but POWER_ON and POWER_CYCLE answers a next state that is steady after the one before. -/
theorem exec_steadyNext {i : Instr} (hon : ∀ f, i ≠ .powerOn f) (hcycle : i ≠ .powerCycle) (s : State) : SteadyNext s (exec i s) := by
  have hs := Steady.refl s
  cases i with
  | registerWrite => exact .next (registerWrite_steady hs)
  | lowHalfRead => exact .next (lowHalfRead_steady hs)
  | ltcLoRead => exact .next (ltcLoRead_steady hs)
  | arSessionRead => exact .next (arSessionRead_steady hs)
  | timeEvent => exact .next (timeEventClear_steady hs)
  | ledgerFlags => exact .next (ledgerFlags_steady hs)
  | objFlags => exact .next (objFlags_steady hs)
  | trcFlags => exact .next (trcFlags_steady hs)
  | mbBadSat => exact .next (mbBadSat_steady hs)
  | mbDoorbell => exact .next (mbDoorbell_steady hs)
  | mbDone => exact .next (mbDone_steady hs)
  | mbLate => exact .next (mbLate_steady hs)
  | urgAck => exact .next (urgAck_steady hs)
  | queueDb => exact .next (queueDb_steady hs)
  | evtRearm => exact .next (evtRearm_steady hs)
  | flitTransfer => exact .next (flitTransfer_steady hs)
  | fabLinkTimeout => exact .next (fabLinkTimeout_steady hs)
  | dataArrival => exact .next (dataArrival_steady hs)
  | readReq => exact .next (serve_steady hs)
  | writeReq => exact .next (serve_steady hs)
  | reply => exact .next (replyArrives_steady hs)
  | credit => exact .next (creditBack_steady hs)
  | nackIslandDown => exact .next (nackArrives_steady hs)
  | fabReplyTimeout => exact .next (replyTimeout_steady hs)
  | quiesce => exact .next (quiesce_steady hs)
  | quiesced => exact .next (quiesced_steady hs)
  | fabQuiesceTimeout => exact .next (fabQuiesceTimeout_steady hs)
  | quiescedReceived => exact .next (quiescedReceived_steady hs)
  | readmit => exact .next (readmit_steady hs)
  | scrubSlot => exact .next (scrubSlot_steady hs)
  | frequencyTarget => exact .next (frequencyTarget_steady hs)
  | frequencyChange => exact .next (frequencyChange_steady hs)
  | coreClkRange => exact .next (coreClkRange_steady hs)
  | controlStart => exact .next (controlStart_steady hs)
  | trailStart => exact .next (updCore_steady hs)
  | pace => exact .next (updCore_steady hs)
  | waitRestart => exact .next (waitRestart_steady hs)
  | coreWaitLimit => exact .next (coreWaitLimit_steady hs)
  | scalar => exact .issue fun _ _ h => scalarStep_steady h
  | branch => exact .issue fun _ _ h => branchStep_steady h
  | scalarLoad => exact .issue fun _ _ h => scalarLoadStep_steady h
  | scalarStore => exact .issue fun _ _ h => scalarStoreStep_steady h
  | fetchAdd => exact .issue fun _ _ h => atomicStep_steady h
  | compareAndSwap => exact .issue fun _ _ h => atomicStep_steady h
  | matrix => exact .issue fun _ _ h => matrixStep_steady h
  | vector => exact .issue fun _ _ h => vectorStep_steady h
  | rescale => exact .issue fun _ _ h => rescaleStep_steady h
  | sclload => exact .issue fun _ _ h => sclloadStep_steady h
  | vectorLoad => exact .issue fun _ _ h => vectorLoadStep_steady h
  | vectorStore => exact .issue fun _ _ h => vectorStoreStep_steady h
  | ldload => exact .issue fun _ _ h => ldloadStep_steady h
  | bind => exact .issue fun _ _ h => bindStep_steady h
  | agenStart => exact .issue fun _ _ h => agenStartStep_steady h
  | agAccess => exact .next (agVisit_steady hs)
  | agRunEnd => exact .next (agRunEnd_steady hs)
  | agenWait => exact .issue fun _ _ h => agenWaitStep_steady h
  | send => exact .issue fun _ _ h => sendStep_steady h
  | sends => exact .issue fun _ _ h => sendsStep_steady h
  | recv => exact .issue fun _ _ h => recvStep_steady h
  | release => exact .issue fun _ _ h => releaseStep_steady h
  | poll => exact .issue fun _ _ h => pollStep_steady h
  | get => exact .issue fun _ _ h => getStep_steady h
  | put => exact .issue fun _ _ h => putStep_steady h
  | waitt => exact .issue fun _ _ h => waittStep_steady h
  | end_ => exact .issue fun _ _ h => endStep_steady h
  | nop => exact .issue fun _ _ h => nopStep_steady h
  | fence => exact .issue fun _ _ h => fenceStep_steady h
  | a1mode => exact .issue fun _ _ h => a1modeStep_steady h
  | sigmark => exact .issue fun _ _ h => sigmarkStep_steady h
  | tracemark => exact .issue fun _ _ h => tracemarkStep_steady h
  | clrflag => exact .issue fun _ _ h => clrflagStep_steady h
  | status => exact .issue fun _ _ h => statusStep_steady h
  | chamberScrub => exact .next (chamberScrub_steady hs)
  | patrolScrub => exact .next (patrolScrub_steady hs)
  | phyLockLoss => exact .next (.ite hs (setLock_steady hs))
  | phyRetrainTimeout => exact .next (phyRetrainTimeout_steady hs)
  | migrationComplete => exact .next (migrationComplete_steady hs)
  | kvFetch => exact .next (kvFetch_steady hs)
  | kvPlace => exact .next (kvPlace_steady hs)
  | kvSeal => exact .next (kvSeal_steady hs)
  | sumpPageArrival => exact .next (sumpArrival_steady hs)
  | pageWriteComplete => exact .next (pageWritten_steady hs)
  | demotionWritesAccepted => exact .next (demotionAccepted_steady hs)
  | adaptRun => exact .serve fun _ _ h => adaptRun_steady h
  | epochEnd => exact .next (epochEnd_steady hs)
  | recalibrationComplete => exact .next (recalibrationComplete_steady hs)
  | frameStart => exact .next (frameStart_steady hs)
  | frameEnd => exact .next (frameEnd_steady hs)
  | resultGateOpen => exact .next (gateOpen_steady hs)
  | retirePoint => exact .next (retirePoint_steady hs)
  | decisionPoint => exact .next (decisionPoint_steady hs)
  | ceilingInterval => exact .next (ceilingInterval_steady hs)
  | meterTrim => exact .next (steady_unwatched hs)
  | loopHeatExpiry => exact .next (steady_unwatched hs)
  | coolantSample => exact .next (coolantSample_steady hs)
  | junctionSample => exact .next (junctionSample_steady hs)
  | railCurrentSample => exact .next (.build hs rfl rfl rfl rfl rfl id id id)
  | railRange => exact .next (raise_steady hs)
  | clkRefRange => exact .next (raise_steady hs)
  | csiPacket => exact .next (csiPacket_steady hs)
  | csiLaneOrder => exact .next (csiLaneOrder_steady hs)
  | ethFrame => exact .next (ethFrame_steady hs)
  | rtpReorderExpiry => exact .next (rtpReorderExpiry_steady hs)
  | pictureDecoded => exact .next (pictureDecoded_steady hs)
  | lossTimeout => exact .next (lossTimeout_steady hs)
  | recordDecode => exact .next (recordDecode_steady hs)
  | intakeDone => exact .next (intakeDone_steady hs)
  | focusSeal => exact .next (updStream_steady hs)
  | prismUtilSample => exact .next (prismUtilSample_steady hs)
  | sync => exact .next (ptpTake_steady hs fun _ h => syncMsg_steady h)
  | announce => exact .next (ptpTake_steady hs fun _ h => announceMsg_steady h)
  | pdelayReq => exact .next (ptpTake_steady hs fun _ h => pdelayAnswer_steady h)
  | pdelayResp => exact .next (pdelayResp_steady hs)
  | pdelayReqSend => exact .next (pdelaySend_steady hs)
  | syncReceiptTimeout => exact .next (masterLost_steady hs)
  | announceReceiptTimeout => exact .next (masterLost_steady hs)
  | timeStepApply => exact .next (timeStepApply_steady hs)
  | trigEdge => exact .next (trigEdge_steady hs)
  | trigPulseEnd => exact .next (trigPulseEnd_steady hs)
  | dlDown => exact .next (detachLink_steady (steady_unwatched hs))
  | dlUp => exact .next (dlUp_steady hs)
  | perstN => exact .next (linkReset_steady (steady_unwatched hs))
  | perstNDeassert => exact .next (steady_unwatched hs)
  | hotReset => exact .next (linkReset_steady (steady_unwatched hs))
  | flr => exact .next (linkReset_steady hs)
  | d3hot => exact .next (detachLink_steady (steady_unwatched hs))
  | busMasterEnableClear => exact .next (detachLink_steady (steady_unwatched hs))
  | holdLimit => exact .next (holdLimit_steady hs)
  | msixUnmask => exact .next (msixUnmask_steady hs)
  | bar2Access => exact .next (bar2Access_steady hs)
  | bar2ReadTimeout => exact .next (bar2Timeout_steady hs)
  | inboundWrite => exact .next (inboundAccess_steady hs)
  | inboundDoorbell => exact .next (inboundAccess_steady hs)
  | inbRelease => exact .next (inbRelease_steady hs)
  | hostCompletion => exact .next (hostCompletion_steady hs)
  | hostCompletionTimeout => exact .next (hostTimeout_steady hs)
  | queueEntry => exact .next (queueEntry_steady hs)
  | doorbellFifoRelease => exact .next (fifoRelease_steady hs)
  | slotFaultServed => exact .next (slotFaultServed_steady hs)
  | invalidateComplete => exact .next (invalidateComplete_steady hs)
  | signature => exact .next (signature_steady hs)
  | comparatorTimeout => exact .next (comparatorTimeout_steady hs)
  | verdict => exact .next (verdict_steady hs)
  | verdictTimeout => exact .next (verdictTimeout_steady hs)
  | mirWindowLong => exact .next (mirWindowLong_steady hs)
  | retryRestart => exact .next (retryRestart_steady hs)
  | linkTraining => exact .next (linkTraining_steady hs)
  | trainingRetry => exact .next (.ite (setDv_steady hs) hs)
  | laneLockLoss => exact .next (retrain_steady hs)
  | flitReceive => exact .next (flitReceive_steady hs)
  | replayTimeout => exact .next (.ite (replayPort_steady hs) hs)
  | dvLinkDown => exact .next (linkDown_steady hs)
  | frameSig => exact .next (frameSigIn_steady hs)
  | frameSigWaitExpiry => exact .next (frameSigWait_steady hs)
  | timeReqInterval => exact .next (timeReqSend_steady hs)
  | timeReq => exact .next (timeReqIn_steady hs)
  | timeResp => exact .next (timeRespIn_steady hs)
  | timeReport => exact .next (timeReportIn_steady hs)
  | exchangeHold => exact .next (steady_unwatched hs)
  | heartbeatInterval => exact .next (.ite (toPartner_steady hs) hs)
  | heartbeat => exact .next (heartbeatIn_steady hs)
  | faultState => exact .next (faultStateIn_steady hs)
  | planCheck => exact .next (planCheckIn_steady hs)
  | loopPropose => exact .next (loopProposeIn_steady hs)
  | rungEnergy => exact ⟨_, rfl, execRungEnergy_steady hs _ rfl⟩
  | rungFloor => exact ⟨_, rfl, execRungFloor_steady hs _ rfl⟩
  | splitMove => exact .next (splitMoveIn_steady hs)
  | realignEnter => exact .next (enterRealign_steady (heardNow_steady hs))
  | realignExit => exact ⟨_, rfl, execRealignExit_steady hs _ rfl⟩
  | sidebandTest => exact .next (sidebandIn_steady hs)
  | dataMessage => exact .next (dataMessage_steady hs)
  | partnerLost => exact .next (.ite (losePartner_steady hs) hs)
  | faultIn => exact .next (faultInSense_steady hs)
  | faultInClassify => exact .next (faultInClassify_steady hs)
  | dvFaultPin => exact .next (.ite (raise_steady hs) hs)
  | faultRaise => exact .next (faultRaise_steady hs)
  | colChannelDiffer => exact .next (raise_steady hs)
  | torchStart => exact .next (torchStart_steady hs)
  | torchStartFail => exact .next (torchStartFail_steady hs)
  | torchFrameStart => exact .next (torchFrameStart_steady hs)
  | quietPeriodExpiry => exact .next (quietExpiry_steady hs)
  | aliveToggle => exact .next (aliveToggle_steady hs)
  | watchdogRefresh => exact .next (.build hs rfl rfl rfl rfl rfl id id id)
  | ltnWatchdog => exact .next (raise_steady hs)
  | sioSample => exact .next (.fold hs fun _ _ h => pinSample_steady h)
  | powerOn f => exact absurd rfl (hon f)
  | bootComplete => exact .next (bootComplete_steady hs)
  | warmReset => exact .next (.ite hs (bootRom_steady (readFlash_steady (warmClear_steady hs))))
  | powerCycle => exact absurd rfl hcycle
  | canWake => exact .next (.ite (wakeUp_steady hs) hs)
  | parkedChargingExpiry => exact .next (parkedLost_steady hs)
  | domainPowerUp => exact .next (.ite (domainOn_steady hs) hs)
  | domainGate => exact .next (.ite (domainOff_steady hs) hs)
  | voltageStep => exact .next (voltageStep_steady hs)
  | pmbusPoll => exact .next (pmbusPoll_steady hs)
  | i3cRead => exact .next (i3cRead_steady hs)
  | logFlush => exact .next (logFlush_steady hs)
  | spiTransaction => exact .next (spiTransaction_steady hs)
  | spiStatus => exact .next (spiServe_steady hs)
  | guardQuery => exact .next (spiServe_steady hs)
  | endorse => exact .next (spiServe_steady hs)
  | spiVeto => exact .next (spiServe_steady hs)
  | parkedCharging => exact .next (spiServe_steady hs)
  | standby => exact .next (spiServe_steady hs)
  | wake => exact .next (spiServe_steady hs)
  | spiReset => exact .next (spiServe_steady hs)
  | logRead => exact .next (spiServe_steady hs)
  | spiSilence => exact .next (spiSilence_steady hs)
  | configWriteDone => exact .next (configWriteDone_steady hs)
  | proposalExpiry => exact .next (.ite (guardPhase_steady hs) hs)
  | fwStageDone => exact .next (fwStageDone_steady hs)
  | reconcileRound => exact .next (reconcileRound_steady hs)
  | partnerCheckTimeout => exact .next (partnerCheckTimeout_steady hs)
  | dapAccess => exact .next (dapAccess_steady hs)
  | jtagInstruction => exact .next (jtagInstruction_steady hs)
  | attach => exact .serve fun _ _ h => attach_steady h
  | detach => exact .serve fun _ _ h => detach_steady h
  | tornRead => exact .serve fun _ _ h => tornRead_steady h
  | identify => exact .serve fun _ _ h => identify_steady h
  | objQuery => exact .serve fun _ _ h => objQuery_steady h
  | invalidate => exact .serve fun _ _ h => invalidate_steady h
  | evtQuery => exact .serve fun _ _ h => evtQuery_steady h
  | inboundBind => exact .serve fun _ _ h => inboundBind_steady h
  | inboundUnbind => exact .serve fun _ _ h => inboundUnbind_steady h
  | planLoad => exact .serve fun _ _ h => planLoad_steady h
  | planUnload => exact .serve fun _ _ h => planUnload_steady h
  | loopStart => exact .serve fun _ _ h => loopStart_steady h
  | loopStop => exact .serve fun _ _ h => loopStop_steady h
  | adaptEnter => exact .serve fun _ _ h => adaptEnter_steady h
  | adaptResult => exact .serve fun _ _ h => adaptResult_steady h
  | adaptExit => exact .serve fun _ _ h => adaptExit_steady h
  | clipRead => exact .serve fun _ _ h => clipRead_steady h
  | memStatus => exact .serve fun _ _ h => memStatus_steady h
  | coreStatus => exact .serve fun _ _ h => coreStatus_steady h
  | streamStatus => exact .serve fun _ _ h => streamStatus_steady h
  | recordOpen => exact .serve fun _ _ h => recordOpen_steady h
  | recordClose => exact .serve fun _ _ h => recordClose_steady h
  | intakeCounters => exact .serve fun _ _ h => intakeCounters_steady h
  | splitStatus => exact .serve fun _ _ h => splitStatus_steady h
  | prismStatus => exact .serve fun _ _ h => prismStatus_steady h
  | timeStatus => exact .serve fun _ _ h => timeStatus_steady h
  | timeStep => exact .serve fun _ _ h => timeStep_steady h
  | timeConfig => exact .serve fun _ _ h => timeConfig_steady h
  | trigSet => exact .serve fun _ _ h => trigSet_steady h
  | trigStop => exact .serve fun _ _ h => trigStop_steady h
  | energyBudget => exact .serve fun _ _ h => energyBudget_steady h
  | energyLoop => exact .serve fun _ _ h => energyLoop_steady h
  | energyStatus => exact .serve fun _ _ h => energyStatus_steady h
  | energyThresh => exact .serve fun _ _ h => energyThresh_steady h
  | propose => exact .serve fun _ _ h => propose_steady h
  | veto => exact .serve fun _ _ h => hostVeto_steady h
  | guardStatus => exact .serve fun _ _ h => guardStatus_steady h
  | recover => exact .serve fun _ _ h => recover_steady h
  | faultRead => exact .serve fun _ _ h => faultRead_steady h
  | spareSubstitute => exact .serve fun _ _ h => spareSubstitute_steady h
  | retireClear => exact .serve fun _ _ h => retireClear_steady h
  | fwStage => exact .serve fun _ _ h => fwStage_steady h
  | fwActivate => exact .serve fun _ _ h => fwActivate_steady h
  | fwStatus => exact .serve fun _ _ h => fwStatus_steady h
  | bootMeasure => exact .serve fun _ _ h => bootMeasure_steady h
  | traceConfig => exact .serve fun _ _ h => traceConfig_steady h
  | traceStart => exact .serve fun _ _ h => traceStart_steady h
  | traceStop => exact .serve fun _ _ h => traceStop_steady h
  | traceStatus => exact .serve fun _ _ h => traceStatus_steady h
  | faultInLow => exact .next (.ite (clearLevel_steady (.build hs rfl rfl rfl rfl rfl id id id)) hs)
  | hostSnoop => exact .next (steady_unwatched hs)
  | phyLockRegain => exact .next (setLock_steady hs)
  | meterThreshold => exact .next (meterThreshold_steady hs)
  | followUp => exact .next (ptpTake_steady hs fun _ h => followUp_steady h)
  | txtsConsume => exact .next (setPtp_steady hs)
  | dispatchRestart => exact .next (dispatchRestart_steady hs)

theorem exec_steady {i : Instr} {s t : State} (hon : ∀ f, i ≠ .powerOn f) (hcycle : i ≠ .powerCycle) (h : exec i s = .next t) : Steady s t := by
  obtain ⟨u, hu, hsteady⟩ := exec_steadyNext hon hcycle s
  obtain rfl : u = t := Host.Outcome.next.inj (hu.symm.trans h)
  exact hsteady

/-! The two commands that start afresh, and the tick. -/

theorem exec_powerOn (f : FlashEnv) (s : State) : exec (.powerOn f) s = .next (powerOn f s) := rfl

theorem exec_powerCycle (s : State) : exec .powerCycle s = .next (coldState false s) := rfl

theorem step_idle {s : State} (h : s.pending = []) : step s = .next (tick s) := by simp only [step, h]

theorem step_command {s : State} {c : Instr} {cs : List Instr} (h : s.pending = c :: cs) : step s = exec c { s with pending := cs } := by
  simp only [step, h]

/-- After power-on reset the boot leads on from the state without supply, steadily: it locks the device, or runs the ROM and calibrates. -/
theorem powerOn_steady (f : FlashEnv) (s : State) : Steady (coldState s.dev.lockedLatch s) (powerOn f s) := by
  have hread := readFlash_steady (f := f) (Steady.refl (coldState s.dev.lockedLatch s))
  have hstraps : Steady (coldState s.dev.lockedLatch s) { readFlash f (coldState s.dev.lockedLatch s) with
      dev := { (readFlash f (coldState s.dev.lockedLatch s)).dev with straps := f.straps } } :=
    hread.build rfl rfl rfl rfl rfl id id id
  have hrom := bootRom_steady hstraps
  exact .ite (transition_steady (hstraps.build rfl rfl rfl rfl rfl id id id)) (.ite hrom (calibrate_steady hrom))

theorem coldState_acc (latch : Bool) (s : State) : (coldState latch s).time.acc = 0 := rfl

theorem powerOn_acc (f : FlashEnv) (s : State) : (powerOn f s).time.acc = 0 :=
  (powerOn_steady f s).acc.trans (coldState_acc ..)

/-! The invariant. -/

theorem inv_of_steady {s t : State} (h : Steady s t) (hinv : Inv s) : Inv t := ⟨h.inc hinv.inc, h.sess hinv.sess, h.mem hinv.mem⟩

/-- The invariant reads LTC_INC, the sessions and the memories alone. -/
theorem inv_congr {s t : State} (hinv : Inv s) (hinc : t.time.inc = s.time.inc) (hsess : t.dev.sessions = s.dev.sessions) (hmem : t.mem = s.mem)
    (hD : t.mbD = s.mbD) (hL : t.mbL = s.mbL) : Inv t :=
  ⟨hinc ▸ hinv.inc, hsess ▸ hinv.sess, ⟨hmem ▸ hinv.mem.tier, hD ▸ hinv.mem.mbD, hL ▸ hinv.mem.mbL⟩⟩

theorem incOk_nominal : IncOk 0x200000000 := by
  unfold IncOk
  decide

theorem sessOk_nil : SessOk [] := fun _ => ⟨List.nodup_nil, List.not_mem_nil⟩

theorem inv_reset : Inv State.reset :=
  ⟨incOk_nominal, sessOk_nil, ⟨⟨rfl, rfl, rfl⟩, ⟨rfl, rfl⟩, ⟨rfl, rfl⟩⟩⟩

theorem inv_coldState (latch : Bool) (s : State) : Inv (coldState latch s) := inv_congr inv_reset rfl rfl rfl rfl rfl

theorem inv_tick {s : State} (hinv : Inv s) : Inv (tick s) := inv_congr hinv rfl rfl rfl rfl rfl

/-- Every command keeps the invariant; POWER_ON and POWER_CYCLE meet it whatever was before them. -/
theorem exec_keeps_inv {i : Instr} {s t : State} (h : exec i s = .next t) (hinv : Inv s) : Inv t := by
  by_cases hon : ∃ f, i = .powerOn f
  · obtain ⟨f, rfl⟩ := hon
    cases (exec_powerOn f s).symm.trans h
    exact inv_of_steady (powerOn_steady f s) (inv_coldState ..)
  by_cases hcycle : i = .powerCycle
  · subst hcycle
    cases (exec_powerCycle s).symm.trans h
    exact inv_coldState ..
  · exact inv_of_steady (exec_steady (not_exists.mp hon) hcycle h) hinv

/-! The statements. -/

/-- Settles O5: an idle step is a tick, and every command keeps the invariant. -/
theorem stepKeepsInv : Obligations.StepKeepsInv := by
  intro s t hinv h
  cases hqueue : s.pending with
  | nil =>
    cases (step_idle hqueue).symm.trans h
    exact inv_tick hinv
  | cons c cs =>
    rw [step_command hqueue] at h
    exact exec_keeps_inv h (inv_congr hinv rfl rfl rfl rfl rfl)

/-- Settles O4: a tick adds LTC_INC, power-on starts from the state without supply, and every other command is steady. -/
theorem nothingWritesTheLtc : Obligations.NothingWritesTheLtc := by
  refine ⟨fun s => rfl, fun s hidle => ⟨tick s, step_idle hidle, rfl⟩, rfl, rfl, fun f s t h => ?powerOn, fun s t h => ?powerCycle,
    fun i s t hon hcycle h => (exec_steady hon hcycle h).acc⟩
  case powerOn =>
    cases (exec_powerOn f s).symm.trans h
    exact powerOn_acc f s
  case powerCycle =>
    cases (exec_powerCycle s).symm.trans h
    exact coldState_acc false s

/-- Settles O2: an idle step is a tick, which advances the LTC and the PTC alone. -/
theorem tickAdvances : Obligations.TickAdvances :=
  ⟨fun s hidle => by rw [step_idle hidle, tick, ptcTick, ptcMod], fun s => rfl⟩

/-- Settles O6: LTC_INC is nominal at reset, no session is issued, and the memories list nothing. -/
theorem resetMeetsInv : Obligations.ResetMeetsInv := inv_reset

end Sys2Proof.Laws
end

section
/-! PROOF. gPTP: messages, receipt time-outs, transmit stamps and the step that waits (R264, R267, R268, R270, R273, R277, R283). -/

open Sys2Proof Sys2Proof.Machine
namespace Sys2Proof.Laws

/-! The commands, each by its operation. -/

theorem exec_sync (k : Nat) (m : SyncMsg) (s : State) : exec (.sync k m) s = .next (ptpTake k m.domain (syncMsg k m) s) := rfl
theorem exec_followUp (k : Nat) (d : Byte) (q : W16) (a b : Int) (s : State) :
    exec (.followUp k d q a b) s = .next (ptpTake k d (followUp k q a b) s) := rfl
theorem exec_announce (k : Nat) (d : Byte) (gm : W64) (s : State) : exec (.announce k d gm) s = .next (ptpTake k d (announceMsg k gm) s) := rfl
theorem exec_pdelayReq (k : Nat) (d : Byte) (q : W16) (a b : Int) (s : State) :
    exec (.pdelayReq k d q a b) s = .next (ptpTake k d (pdelayAnswer k q b) s) := rfl
theorem exec_pdelayReqSend (k : Nat) (a : Int) (s : State) : exec (.pdelayReqSend k a) s = .next (pdelaySend k a s) := rfl
theorem exec_pdelayResp (k : Nat) (q : W16) (a b c d : Int) (s : State) : exec (.pdelayResp k q a b c d) s = .next (pdelayResp k q a b c d s) := rfl
theorem exec_syncReceiptTimeout (k : Nat) (s : State) : exec (.syncReceiptTimeout k) s = .next (masterLost k s) := rfl
theorem exec_announceReceiptTimeout (k : Nat) (s : State) : exec (.announceReceiptTimeout k) s = .next (masterLost k s) := rfl
theorem exec_timeStepApply (s : State) : exec .timeStepApply s = .next (timeStepApply s) := rfl

/-! Which messages a port takes (R267). -/

section Take
variable {s : State} {k : Nat} {f : State → State}

theorem ptpTake_otherDomain {d : Byte} (h : d ≠ 0) :
    ptpTake k d f s = { s with time := { s.time with domainCnt := s.time.domainCnt.inc } } := if_pos h

theorem ptpTake_noPort (h : (getPtp s k).declared = false) : ptpTake k 0 f s = s :=
  (if_neg (not_not.mpr rfl)).trans (if_neg (ne_true_of_eq_false h))

theorem ptpTake_declared (h : (getPtp s k).declared = true) : ptpTake k 0 f s = f s :=
  (if_neg (not_not.mpr rfl)).trans (if_pos h)

end Take

/-! A port's record. -/

theorem getPtp_setPtp {s : State} (h : wfK ({} : PtpPort) s.time.ports = true) (k j : Nat) (p : PtpPort) :
    getPtp (setPtp k p s) j = if j = k then p else getPtp s j := getK_putK _ h k j p

theorem getPtp_setPtp_same {s : State} (h : wfK ({} : PtpPort) s.time.ports = true) (k : Nat) (p : PtpPort) : getPtp (setPtp k p s) k = p :=
  (getPtp_setPtp h k k p).trans (if_pos rfl)

theorem setPtp_wf {s : State} (h : wfK ({} : PtpPort) s.time.ports = true) (k : Nat) (p : PtpPort) :
    wfK ({} : PtpPort) (setPtp k p s).time.ports = true := wfK_putK _ k p h

/-! SYNC and FOLLOW_UP. -/

/-- The port as a Sync leaves it: the receive time, the interval `n` since the Sync before, and what a follow-up needs (R267, R268). -/
def synced (k : Nat) (m : SyncMsg) (n : Nat) (s : State) : PtpPort :=
  { getPtp s k with syncAt := some (now s), syncNs := n, twoStep := if m.twoStep = true then some (m.seqId, m.rxNs) else none }

/-- A Sync is noted with its distance from the one before, and measured at once when no follow-up comes (R267, R268). -/
theorem syncMsg_notes (k : Nat) (m : SyncMsg) (s : State) : ∃ n : Nat,
    syncMsg k m s = (if m.twoStep = true then setPtp k (synced k m n s) s
      else syncAt k m.originNs m.rxNs m.cumRatePpb (setPtp k (synced k m n s) s)) ∧
    ∀ u, (getPtp s k).syncAt = some u → n = max 31250000 (min 1000000000 (now s - u).toNat) := by
  cases hat : (getPtp s k).syncAt with
  | none => exact ⟨(getPtp s k).syncNs, by simp only [syncMsg, hat, synced], nofun⟩
  | some u => exact ⟨max 31250000 (min 1000000000 (now s - u).toNat), by simp only [syncMsg, hat, synced], fun v h => by rw [Option.some.inj h]⟩

theorem followUp_unawaited {s : State} {k : Nat} (h : (getPtp s k).twoStep = none) (q : W16) (a b : Int) : followUp k q a b s = s := by
  simp only [followUp, h]

/-- A follow-up completes the Sync of its sequence ID, and no other (R267). -/
theorem followUp_awaited {s : State} {k : Nat} {p : W16} {rx : Int} (h : (getPtp s k).twoStep = some (p, rx)) (q : W16) (a b : Int) :
    followUp k q a b s = if p = q then syncAt k a rx b (setPtp k { getPtp s k with twoStep := none } s) else s := by
  simp only [followUp, h]

/-! ANNOUNCE. -/

/-- The port as an Announce leaves it (R268): its grandmaster, and how often in a row that one was named, two at most. -/
def announced (k : Nat) (gm : W64) (s : State) : PtpPort :=
  { getPtp s k with
    annAt := some (now s), gm
    announces := if (getPtp s k).announces ≠ 0 ∧ (getPtp s k).gm = gm then min ((getPtp s k).announces + 1) 2 else 1 }

theorem announceMsg_eq (k : Nat) (gm : W64) (s : State) : announceMsg k gm s =
    if (getPtp s k).gm ≠ 0 ∧ (getPtp s k).gm ≠ gm then holdover true (setPtp k (announced k gm s) s) else setPtp k (announced k gm s) s := rfl

/-! Transmit stamps. -/

/-- With room in the port's queue a stamp is kept (R277). -/
theorem txStamp_kept {s : State} {k : Nat} (h : (getPtp s k).txts.length < 16) (q : W16) (ty : BitVec 4) (a : Int) : txStamp k q ty a s =
    (true, setPtp k { getPtp s k with txts := (getPtp s k).txts ++ [(q, ty, a + (getPtp s k).txLat)] } s) := if_pos h

/-- The port once a Pdelay_Req is answered and both stamps are kept (R277). -/
def answeredPort (k : Nat) (q : W16) (b : Int) (s : State) : PtpPort :=
  { getPtp s k with
    txts := (getPtp s k).txts ++ [(q, 3, b + (getPtp s k).txLat)] ++ [(q, 0xA, ptcNs s.time + (getPtp s k).txLat)] }

section Stamps
variable {s : State} {k : Nat} (hwf : wfK ({} : PtpPort) s.time.ports = true)
include hwf

/-- A Pdelay_Req is answered with two messages, whose stamps enter the queue (R267, R277). -/
theorem pdelayAnswer_kept (hroom : (getPtp s k).txts.length < 15) (q : W16) (b : Int) :
    (pdelayAnswer k q b s).sent = s.sent ++ [.gptp 1 k q, .gptp 2 k q] ∧ getPtp (pdelayAnswer k q b s) k = answeredPort k q b s ∧
    ∀ j, j ≠ k → getPtp (pdelayAnswer k q b s) j = getPtp s j := by
  let v := emit (.gptp 1 k q) s
  let first : PtpPort := { getPtp s k with txts := (getPtp s k).txts ++ [(q, 3, b + (getPtp s k).txLat)] }
  let u := emit (.gptp 2 k q) (setPtp k first v)
  have hport : getPtp u k = first := getPtp_setPtp_same (s := v) hwf k first
  have hwf' : wfK ({} : PtpPort) u.time.ports = true := setPtp_wf (s := v) hwf k first
  have hroom' : (getPtp u k).txts.length < 16 := by
    rw [hport, List.length_append, List.length_singleton]
    omega
  have hanswer : pdelayAnswer k q b s = setPtp k (answeredPort k q b s) u := by
    have hfirst : txStamp k q 3 b v = (true, setPtp k first v) := txStamp_kept (s := v) (Nat.lt_succ_of_lt hroom) ..
    have hsecond := txStamp_kept hroom' q 0xA (ptcNs s.time)
    rw [hport] at hsecond
    simp only [pdelayAnswer, v] at hfirst ⊢
    rw [hfirst]
    exact congrArg Prod.snd hsecond
  rw [hanswer]
  refine ⟨by simp [u, v], getPtp_setPtp_same hwf' .., fun j hj => ?_⟩
  rw [getPtp_setPtp hwf', if_neg hj]
  exact (getPtp_setPtp (s := v) hwf k j first).trans (if_neg hj)

/-- A declared port sends a Pdelay_Req with its next sequence ID, and awaits its answer (R267, R277). -/
theorem pdelaySend_kept (hport : (getPtp s k).declared = true) (hroom : (getPtp s k).txts.length < 16) (a : Int) :
    (pdelaySend k a s).sent = s.sent ++ [.gptp 0 k (getPtp s k).pdSeq] ∧
    getPtp (pdelaySend k a s) k = { getPtp s k with
      txts := (getPtp s k).txts ++ [((getPtp s k).pdSeq, 2, a + (getPtp s k).txLat)]
      pdelay := some ((getPtp s k).pdSeq, true), pdSeq := (getPtp s k).pdSeq + 1 } := by
  let v := emit (.gptp 0 k (getPtp s k).pdSeq) s
  let stamped : PtpPort := { getPtp s k with txts := (getPtp s k).txts ++ [((getPtp s k).pdSeq, 2, a + (getPtp s k).txLat)] }
  have hstamp : txStamp k (getPtp s k).pdSeq 2 a v = (true, setPtp k stamped v) := txStamp_kept (s := v) hroom ..
  have hself : getPtp (setPtp k stamped v) k = stamped := getPtp_setPtp_same (s := v) hwf k stamped
  have hsend : pdelaySend k a s =
      setPtp k { stamped with pdelay := some ((getPtp s k).pdSeq, true), pdSeq := (getPtp s k).pdSeq + 1 } (setPtp k stamped v) := by
    simp only [v] at hstamp hself ⊢
    simp only [pdelaySend, hport, not_true_eq_false, if_false, hstamp, hself]
  rw [hsend]
  exact ⟨rfl, getPtp_setPtp_same (setPtp_wf (s := v) hwf k stamped) k _⟩

end Stamps

theorem pdelaySend_noPort {s : State} {k : Nat} (h : (getPtp s k).declared = false) (a : Int) : pdelaySend k a s = s :=
  if_pos (ne_true_of_eq_false h)

/-! PDELAY_RESP. -/

theorem pdelayResp_unasked {s : State} {k : Nat} (h : (getPtp s k).pdelay = none) (q : W16) (a b c d : Int) : pdelayResp k q a b c d s = s := by
  simp only [pdelayResp, h]

section Awaited
variable {s : State} {k : Nat} {p q : W16} {kept : Bool} (h : (getPtp s k).pdelay = some (p, kept))
include h

theorem pdelayResp_other (hseq : p ≠ q) (a b c d : Int) : pdelayResp k q a b c d s = s := by simp only [pdelayResp, h, if_pos hseq]

/-- Without the stamp of its request an answer measures nothing (R277). -/
theorem pdelayResp_unstamped (hseq : p = q) (hkept : kept = false) (a b c d : Int) :
    pdelayResp k q a b c d s = setPtp k { getPtp s k with pdelay := none } s := by
  simp [pdelayResp, h, hseq, hkept]

/-- The first answer of a port gives the link delay with the rates taken as equal (R267). -/
theorem pdelayResp_first (hseq : p = q) (hkept : kept = true) (hprev : (getPtp s k).pdPrev = none) (hrate : (getPtp s k).nrr = 0)
    (a b c d : Int) : pdelayResp k q a b c d s = setPtp k { getPtp s k with
      pdelay := none, pdPrev := some (c, d - (getPtp s k).rxLat)
      delay := (((d - (getPtp s k).rxLat) - (a + (getPtp s k).txLat) - (c - b)) / 2).toNat } s := by
  simp [pdelayResp, h, hseq, hkept, hprev, hrate]

end Awaited

/-! Receipt time-outs. -/

/-- The port as a receipt time-out leaves it: its Sync and its Announces are forgotten (R270). -/
def forgotten (k : Nat) (s : State) : State := setPtp k { getPtp s k with announces := 0, syncAt := none } s

theorem masterLost_other {s : State} {k : Nat} (h : s.time.slave ≠ some k) : masterLost k s = forgotten k s := if_pos h

theorem masterLost_slave {s : State} {k : Nat} (h : s.time.slave = some k) (hnone : bestPort (forgotten k s) = none) :
    masterLost k s = holdover false (forgotten k s) := by
  unfold forgotten at hnone
  refine (if_neg (not_not.mpr h)).trans ?_
  simp only [hnone]
  rfl

/-! TIME_STEP_APPLY. -/

/-- An answer of a mailbox leaves the time unit. -/
theorem respond_time (m : Mailbox) (k : Nat) (st dt : W16) (bs : List Byte) (s : State) : (respond m k st dt bs s).time = s.time := by
  unfold respond
  split
  · rfl
  · dsimp only
    split
    · rw [msix_time]
      cases m <;> rfl
    · cases m <;> rfl

theorem answerStep_time (mode : Nat) (step : Int) (s : State) : (answerStep mode step s).time = s.time := by
  unfold answerStep
  split
  · rw [respond_time]
  · rfl

/-- A status of the PTC reaches STATUS and, as a cause, TIME_EVENT, alone (R265, R282). -/
theorem setStatusPtc_time (st : PtcStatus) (s : State) :
    ∃ event, (setStatusPtc st s).time = { s.time with status := st, event } ∧ ∀ i, s.time.event.getLsbD i = true → event.getLsbD i = true := by
  unfold setStatusPtc
  split
  next hsame => exact ⟨s.time.event, by rw [← hsame], fun _ h => h⟩
  next => exact ⟨_, timeEventSet_time .., fun i h => by simp [h]⟩

/-- A step sets the PTC and clears the slew term, as a time event, and leaves the LTC (R273, R276). -/
theorem stepPtc_time (v : Int) (s : State) : (stepPtc v s).time.ptc = v % ptcMod ∧ (stepPtc v s).time.slew = 0 ∧
    (stepPtc v s).time.acc = s.time.acc ∧ (stepPtc v s).time.event.getLsbD 3 = true := by
  obtain ⟨event, htime, hkept⟩ := setStatusPtc_time
    (if (bestPort (timeEventSet 8 { s with time := retrig { s.time with
      ptc := v % ptcMod, slew := 0, good := 0, stepped := some (v / 4294967296 - ptcNs s.time) } })).isSome then .slewing else .holdover)
    (timeEventSet 8 { s with time := retrig { s.time with
      ptc := v % ptcMod, slew := 0, good := 0, stepped := some (v / 4294967296 - ptcNs s.time) } })
  rw [timeEventSet_time] at htime hkept
  have hstep : (stepPtc v s).time = _ := htime
  rw [hstep]
  exact ⟨rfl, rfl, rfl, hkept 3 (by simp [retrig])⟩

theorem timeStepApply_idle {s : State} (h : s.mbL.waiting = []) : timeStepApply s = s := by simp only [timeStepApply, h, List.find?_nil]

theorem timeStepApply_waiting {s : State} {w : Waiting}
    (h : s.mbL.waiting.find? (fun w => decide (w.opcode = 0x0502) && decide (w.args.headD 2 = 1)) = some w) :
    (timeStepApply s).time = (stepPtc (((w.args.getD 1 0 : Int) * 1000000000 + (w.args.getD 2 0 : Int)) * 4294967296) s).time := by
  simp only [timeStepApply, h, answerStep_time]

/-- Settles O32: each message, time-out and step is the case that its own lemma gives. -/
theorem gptpMessages : Obligations.GptpMessages := by
  refine ⟨fun s k m d q a b gm hd => ?domain, fun s k m q a b gm hport => ?noPort, fun s k m hport hdomain htwo => ?twoStep,
    fun s k m hport hdomain hone => ?oneStep, fun s k q a b hport => ?followUp, fun s k gm hport => ?announce,
    fun s k q a b hport hroom hwf => ?pdelayReq, fun s k a hport hroom hwf => ?pdelaySend, fun s k q a b c d => ?pdelayResp,
    fun s k hslave => ?otherPort, fun s k hslave hnone => ?slavePort, fun s k => rfl, fun s hidle => ?noStep, fun s w v hwait hv => ?step⟩
  case domain =>
    refine ⟨fun hm => ?_, ?_, ?_, ?_⟩
    · rw [exec_sync, hm, ptpTake_otherDomain hd]
    · rw [exec_followUp, ptpTake_otherDomain hd]
    · rw [exec_announce, ptpTake_otherDomain hd]
    · rw [exec_pdelayReq, ptpTake_otherDomain hd]
  case noPort =>
    refine ⟨fun hm => ?_, ?_, ?_, ?_, ?_⟩
    · rw [exec_sync, hm, ptpTake_noPort hport]
    · rw [exec_followUp, ptpTake_noPort hport]
    · rw [exec_announce, ptpTake_noPort hport]
    · rw [exec_pdelayReq, ptpTake_noPort hport]
    · rw [exec_pdelayReqSend, pdelaySend_noPort hport]
  case twoStep =>
    obtain ⟨n, hsync, hgap⟩ := syncMsg_notes k m s
    refine ⟨synced k m n s, by rw [exec_sync, hdomain, ptpTake_declared hport, hsync, if_pos htwo], ?_, hgap⟩
    simp only [synced, if_pos htwo]
  case oneStep =>
    obtain ⟨n, hsync, -⟩ := syncMsg_notes k m s
    have hmeasured := ne_true_of_eq_false hone
    exact ⟨synced k m n s, rfl, if_neg hmeasured, by rw [exec_sync, hdomain, ptpTake_declared hport, hsync, if_neg hmeasured]⟩
  case followUp =>
    rw [exec_followUp, ptpTake_declared hport]
    refine ⟨fun hnone => by rw [followUp_unawaited hnone], fun p rx hsome => ?_⟩
    rw [followUp_awaited hsome]
    exact ⟨fun hother => by rw [if_neg hother], fun hsame => by rw [if_pos hsame]⟩
  case announce =>
    rw [exec_announce, ptpTake_declared hport, announceMsg_eq]
    refine ⟨fun hkept => ?_, fun hknown hchanged => ?_⟩
    · exact congrArg _ (if_neg fun ⟨hknown, hchanged⟩ => hkept.elim hknown hchanged)
    · exact congrArg _ (if_pos ⟨hknown, hchanged⟩)
  case pdelayReq =>
    obtain ⟨hsent, hself, hothers⟩ := pdelayAnswer_kept hwf hroom q b
    refine ⟨_, by rw [exec_pdelayReq, ptpTake_declared hport], hsent, ?_, hothers⟩
    rw [hself, answeredPort, List.append_assoc]
    rfl
  case pdelaySend => exact ⟨_, exec_pdelayReqSend .., pdelaySend_kept hwf hport hroom a⟩
  case pdelayResp =>
    rw [exec_pdelayResp]
    refine ⟨fun hnone => by rw [pdelayResp_unasked hnone], fun p kept hsome => ⟨fun hother => ?_, fun hsame hdropped => ?_,
      fun hsame hkept hprev hrate => ?_⟩⟩
    · rw [pdelayResp_other hsome hother]
    · rw [pdelayResp_unstamped hsome hsame hdropped]
    · rw [pdelayResp_first hsome hsame hkept hprev hrate]
  case otherPort =>
    rw [exec_syncReceiptTimeout, exec_announceReceiptTimeout, masterLost_other hslave]
    exact ⟨rfl, rfl⟩
  case slavePort =>
    rw [exec_syncReceiptTimeout, exec_announceReceiptTimeout, masterLost_slave hslave hnone]
    exact ⟨rfl, rfl⟩
  case noStep => rw [exec_timeStepApply, timeStepApply_idle hidle]
  case step =>
    subst hv
    refine ⟨_, exec_timeStepApply s, ?_⟩
    rw [timeStepApply_waiting hwait]
    exact stepPtc_time ..

end Sys2Proof.Laws
end

section
/-! PROOF. Partners over Dvorpo: frame signatures, the time exchange and the heartbeats (R281, R404, R420–R426). -/

open Sys2Proof Sys2Proof.Machine
namespace Sys2Proof.Laws

/-! The commands, each by its operation. -/

theorem exec_frameSig (m : FrameSigMsg) (s : State) : exec (.frameSig m) s = .next (frameSigIn m s) := rfl
theorem exec_frameSigWaitExpiry (s : State) : exec .frameSigWaitExpiry s = .next (frameSigWait s) := rfl
theorem exec_timeReqInterval (s : State) : exec .timeReqInterval s = .next (timeReqSend s) := rfl
theorem exec_timeReq (t1 : W64) (corr : W32) (s : State) : exec (.timeReq t1 corr) s = .next (timeReqIn t1 corr s) := rfl
theorem exec_timeResp (m : TimeRespMsg) (s : State) : exec (.timeResp m) s = .next (timeRespIn m s) := rfl
theorem exec_timeReport (m : TimeReportMsg) (s : State) : exec (.timeReport m) s = .next (timeReportIn m s) := rfl
theorem exec_heartbeat (b : Beat) (s : State) : exec (.heartbeat b) s = .next (heartbeatIn b s) := rfl
theorem exec_faultState (own : Bool) (b : Beat) (src : W16) (s : State) : exec (.faultState own b src) s = .next (faultStateIn own b src s) := rfl

/-! A message of the partner. -/

/-- A message dates the partner and ends its loss, whether it was lost or not (R426). -/
theorem heardNow_frame (s : State) : ∃ fc, heardNow s = { s with fc, dv := { s.dv with heard := some (now s), lost := false } } := by
  unfold heardNow
  dsimp only
  split
  next => exact ⟨_, rfl⟩
  next hhere => exact ⟨s.fc, by rw [← Bool.eq_false_of_not_eq_true hhere]⟩

theorem isFollower_heardNow (s : State) : isFollower (heardNow s) = isFollower s := by
  obtain ⟨fc, h⟩ := heardNow_frame s
  rw [h]
  rfl

theorem heardNow_n (s : State) : (heardNow s).dv.n = s.dv.n := by
  obtain ⟨fc, h⟩ := heardNow_frame s
  rw [h]

/-! FRAME_SIG and its wait. -/

/-- Outside TWIN, and while signatures are not compared, a signature only dates the partner (R420). -/
theorem frameSigIn_uncompared {s : State} (h : s.dv.twin = false ∨ s.dv.comparing = false) (m : FrameSigMsg) : frameSigIn m s = heardNow s := by
  have hoff : ¬(heardNow s).dv.twin = true ∨ ¬(heardNow s).dv.comparing = true := by
    obtain ⟨fc, hheard⟩ := heardNow_frame s
    rw [hheard]
    exact h.imp ne_true_of_eq_false ne_true_of_eq_false
  exact if_pos hoff

/-- In TWIN, with no signature kept from before, the one received is compared (R404, R421). -/
theorem frameSigIn_compared {s : State} (htwin : s.dv.twin = true) (hcompare : s.dv.comparing = true) (hhere : s.dv.lost = false)
    (hnone : s.dv.sigs = []) (m : FrameSigMsg) :
    frameSigIn m s = compareSigs { s with dv := { s.dv with heard := some (now s), sigs := [(now s, m)] } } := by
  unfold frameSigIn
  rw [heardNow_heardAt hhere]
  have hon : ¬(¬(heardAt s).dv.twin = true ∨ ¬(heardAt s).dv.comparing = true) := by simp [heardAt, htwin, hcompare]
  refine (if_neg hon).trans ?_
  simp only [heardAt, hnone, List.nil_append]
  rfl

/-- A frame awaits its verdict: it has ended, is no torch frame and has none yet (R421). -/
structure AwaitsVerdict (f : Frame) : Prop where
  ended : f.ended = true
  torch : f.torch = false
  verdict : f.verdict = 0

theorem filter_awaiting {f : Frame} (h : AwaitsVerdict f) : [f].filter (fun f => f.ended && !f.torch && decide (f.verdict = 0)) = [f] := by
  simp [h.ended, h.torch, h.verdict]

theorem compareSigs_noFrame {s : State} (h : s.loop.past = []) : compareSigs s = s := by
  simp only [compareSigs, h, List.filter_nil, List.foldl_nil]

/-- The signature of the one frame that awaits its verdict, both frames aligned and agreed, decides between MATCH and MISMATCH (R404). -/
theorem compareSigs_single {s : State} {f : Frame} {t : W64} {m : FrameSigMsg} (hpast : s.loop.past = [f]) (hf : AwaitsVerdict f)
    (hsigs : s.dv.sigs = [(t, m)]) (hframe : fromPartner s m.frame = f.n) (hagreed : f.unagreed = false) (haligned : f.realign = false)
    (hagreed' : m.unagreed = false) (haligned' : m.realign = false) (hmapped : m.mapped = f.n) :
    compareSigs s = judgeFrame f.n (if m.sig = f.sig then 1 else 2) { s with dv := { s.dv with sigs := [] } } := by
  simp [compareSigs, hpast, filter_awaiting hf, hsigs, hframe, hagreed, haligned, hagreed', haligned', hmapped]

theorem frameSigWait_noFrame {s : State} (h : s.loop.past = []) : frameSigWait s = s := by
  simp only [frameSigWait, h, List.filter_nil, List.foldl_nil]

theorem frameSigWait_single {s : State} {f : Frame} (hpast : s.loop.past = [f]) (hf : AwaitsVerdict f) : frameSigWait s = judgeFrame f.n 3 s := by
  simp only [frameSigWait, hpast, filter_awaiting hf, List.foldl_cons, List.foldl_nil]

/-! TIME_REQ, sent and received. -/

theorem timeReqSend_asks {s : State} (hfollower : isFollower s = true) (hroute : partnerPort s ≠ none) :
    timeReqSend s = toPartner 1 ([0x10, 0, 0, 0] ++ leBytes 8 (now s).toNat) { s with dv := { s.dv with t1 := some (now s) } } :=
  if_pos ⟨hfollower, Option.isSome_iff_ne_none.mpr hroute⟩

theorem timeReqSend_silent {s : State} (h : isFollower s = false ∨ partnerPort s = none) : timeReqSend s = s := by
  refine if_neg fun ⟨hfollower, hroute⟩ => ?_
  exact h.elim (ne_false_of_eq_true hfollower) (Option.isSome_iff_ne_none.mp hroute)

theorem timeReqIn_ignored {s : State} (h : s.dv.n < 2 ∨ isFollower s = true) (t1 : W64) (corr : W32) : timeReqIn t1 corr s = heardNow s := by
  refine if_pos ?_
  rw [heardNow_n, isFollower_heardNow]
  simpa using h

/-- A leader answers with its stamps, the correction, its frame number and that frame's start (R422). -/
theorem timeReqIn_answered {s : State} {f : Frame} (hpair : 2 ≤ s.dv.n) (hleader : isFollower s = false) (hcur : s.loop.cur = some f)
    (t1 : W64) (corr : W32) : timeReqIn t1 corr s = toPartner 1 ([0x11, 0, 0, 0] ++ leBytes 8 t1.toNat ++ leBytes 8 (now s).toNat ++
      leBytes 8 (now s).toNat ++ leBytes 4 corr.toNat ++ leBytes 4 (frameNo s).toNat ++ leBytes 8 f.stamp.ltc.toNat) (heardNow s) := by
  have hanswers : ¬(decide ((heardNow s).dv.n < 2) || isFollower (heardNow s)) = true := by
    rw [heardNow_n, isFollower_heardNow]
    simp [hleader, Nat.not_lt.mpr hpair]
  obtain ⟨fc, hheard⟩ := heardNow_frame s
  have hcur' : (heardNow s).loop.cur = some f := by rw [hheard]; exact hcur
  have hnow : now (heardNow s) = now s := by rw [hheard]; rfl
  have hno : frameNo (heardNow s) = frameNo s := by rw [hheard]; rfl
  refine (if_neg hanswers).trans ?_
  simp only [hcur', hnow, hno]

/-! TIME_RESP. -/

/-- From `s` to `t` the time unit and what the exchanges have measured stand. -/
structure KeepsExchange (s t : State) : Prop where
  time : t.time = s.time
  t1 : t.dv.t1 = s.dv.t1
  exch : t.dv.exch = s.dv.exch
  deltas : t.dv.deltas = s.dv.deltas
  delay : t.dv.delay = s.dv.delay
  holdInc : t.dv.holdInc = s.dv.holdInc

theorem KeepsExchange.refl (s : State) : KeepsExchange s s := ⟨rfl, rfl, rfl, rfl, rfl, rfl⟩

theorem KeepsExchange.trans {s t u : State} (h : KeepsExchange s t) (k : KeepsExchange t u) : KeepsExchange s u :=
  ⟨k.time.trans h.time, k.t1.trans h.t1, k.exch.trans h.exch, k.deltas.trans h.deltas, k.delay.trans h.delay, k.holdInc.trans h.holdInc⟩

theorem KeepsExchange.ite {s a b : State} {c : Prop} {d : Decidable c} (ha : KeepsExchange s a) (hb : KeepsExchange s b) :
    KeepsExchange s (if c then a else b) := by
  split <;> assumption

theorem dvSend_keepsExchange (k chan dst : Nat) (p : List Byte) (s : State) : KeepsExchange s (dvSend k chan dst p s) := by
  unfold dvSend dvQueue
  obtain ⟨sent, ports, h⟩ := dvPump_frame 65 k _
  rw [h]
  exact ⟨rfl, rfl, rfl, rfl, rfl, rfl⟩

theorem toPartner_keepsExchange (chan : Nat) (p : List Byte) (s : State) : KeepsExchange s (toPartner chan p s) := by
  unfold toPartner
  split
  · exact dvSend_keepsExchange ..
  · exact .refl s

theorem announce_keepsExchange (s : State) : KeepsExchange s (announce s) := by
  have hside (k pos : Nat) (p : List Byte) (s : State) :
      KeepsExchange s (if pos = partnerPos s then s else if (getK {} s.dv.ports k).state = .active then dvSend k 2 pos p s else s) :=
    .ite (.refl s) (.ite (dvSend_keepsExchange ..) (.refl s))
  exact .ite (.refl s) (.ite (toPartner_keepsExchange ..) (((hside ..).trans (hside ..)).trans (toPartner_keepsExchange ..)))

theorem notifyAll_posts (kind : W16) (p : List Byte) (s : State) : Posts s (notifyAll kind p s) :=
  .foldl (f := fun s (c : CtxSlot) => postEvent c.notify kind p s) (fun s c => postEvent_posts c.notify kind p s) _ s

theorem notifyAll_keepsExchange (kind : W16) (p : List Byte) (s : State) : KeepsExchange s (notifyAll kind p s) := by
  rw [(notifyAll_posts kind p s).frame]
  exact ⟨rfl, rfl, rfl, rfl, rfl, rfl⟩

theorem logRec_keepsExchange (kind cls : Byte) (code : W16) (p : List Byte) (s : State) : KeepsExchange s (logRec kind cls code p s) := by
  obtain ⟨mem, log, h⟩ := logRec_frame kind cls code p s
  rw [h]
  exact ⟨rfl, rfl, rfl, rfl, rfl, rfl⟩

/-- Entering a state is recorded and announced, and leaves the exchanges (R361, R425). -/
theorem enter_keepsExchange (st : DevState) (prior : Option DevState) (cause : W16) (s : State) : KeepsExchange s (enter st prior cause s) := by
  have hentered : KeepsExchange s (entered st prior s) := ⟨rfl, rfl, rfl, rfl, rfl, rfl⟩
  have hlog := logRec_keepsExchange 2 0 cause [devByte s.dev, devByte (entered st prior s).dev] (entered st prior s)
  exact ((hentered.trans hlog).trans (notifyAll_keepsExchange ..)).trans (announce_keepsExchange _)

/-- The marks of REALIGN are not part of an exchange. -/
theorem KeepsExchange.marks (s : State) {entry exitAt : Option W32} {beyond within : Nat} :
    KeepsExchange s { s with dv := { s.dv with entry, exitAt, beyond, within } } := ⟨rfl, rfl, rfl, rfl, rfl, rfl⟩

theorem enterRealign_keepsExchange (s : State) : KeepsExchange s (enterRealign s) := by
  unfold enterRealign
  split
  · exact .refl s
  · split
    · exact (KeepsExchange.marks s).trans (enter_keepsExchange ..)
    · exact (KeepsExchange.marks s).trans (enter_keepsExchange ..)
    · exact .refl s

theorem restoreAlign_keepsExchange (s : State) : KeepsExchange s (restoreAlign s) :=
  (KeepsExchange.marks s).trans (toPartner_keepsExchange ..)

/-- The guard counts exchanges, and enters or leaves REALIGN (R433, R435): neither touches what was measured. -/
theorem guardStep_keepsExchange (d : Int) (gap : Bool) (s : State) : KeepsExchange s (guardStep d gap s).1 := by
  unfold guardStep
  dsimp only
  split
  · exact (KeepsExchange.marks s).trans (.ite (restoreAlign_keepsExchange _) (.refl _))
  · exact (KeepsExchange.marks s).trans (.ite ((enterRealign_keepsExchange _).trans (toPartner_keepsExchange ..)) (.refl _))

/-- The two ways of an exchange, each stamp less its correction (R423). -/
def wayOut (m : TimeRespMsg) : Int := (m.t2.toNat : Int) - m.t1.toNat - m.corrReq.toNat
def wayBack (m : TimeRespMsg) : Int := (m.t4.toNat : Int) - m.t3.toNat - m.corrResp.toNat

/-- The exchange measured (R281, R423): Δ, the link delay and the deviation, with no request in flight. -/
def measuredExchange (m : TimeRespMsg) (s : State) : State :=
  { s with
    dv := { s.dv with
      t1 := none, exch := some (now s), deltas := ((now s, (wayOut m - wayBack m) / 2) :: s.dv.deltas).take 8
      delay := (wayOut m + wayBack m) / 2, holdInc := false }
    time := { s.time with alignOffset := s.dv.offset, alignDev := (wayOut m - wayBack m) / 2 - s.dv.offset } }

theorem timeRespIn_ignored {s : State} {m : TimeRespMsg} (h : isFollower s = false ∨ s.dv.t1 ≠ some m.t1) : timeRespIn m s = heardNow s := by
  refine if_pos ?_
  rw [isFollower_heardNow]
  obtain ⟨fc, hheard⟩ := heardNow_frame s
  rw [hheard]
  exact h.imp_left ne_true_of_eq_false

/-- After the answer to its request a follower trims LTC_INC, and all that follows leaves what was measured (R423, R424). -/
theorem timeRespIn_measures {s : State} {m : TimeRespMsg} (hfollower : isFollower s = true) (ht1 : s.dv.t1 = some m.t1) :
    ∃ d, KeepsExchange (followInc d (measuredExchange m (heardNow s))) (timeRespIn m s) := by
  have hanswers : ¬(¬isFollower (heardNow s) = true ∨ (heardNow s).dv.t1 ≠ some m.t1) := by
    rw [isFollower_heardNow]
    obtain ⟨fc, hheard⟩ := heardNow_frame s
    rw [hheard]
    simp [hfollower, ht1]
  refine ⟨(wayOut m - wayBack m) / 2 - (heardNow s).dv.offset, ?_⟩
  unfold timeRespIn
  dsimp only
  rw [if_neg hanswers]
  exact (guardStep_keepsExchange ..).trans (toPartner_keepsExchange ..)

theorem followInc_inc (d : Int) (s : State) : IncOk (followInc d s).time.inc := trimInc_ok _

/-! TIME_REPORT. -/

theorem timeReportIn_ignored {s : State} (h : s.dv.n < 2 ∨ isFollower s = true) (m : TimeReportMsg) : timeReportIn m s = heardNow s := by
  refine if_pos ?_
  rw [heardNow_n, isFollower_heardNow]
  simpa using h

/-- A report that asks for no realignment gives the leader the pointer with its signs reversed (R281, R423). -/
theorem timeReportIn_leader {s : State} {m : TimeReportMsg} (hpair : 2 ≤ s.dv.n) (hleader : isFollower s = false) (hhere : s.dv.lost = false)
    (haligned : m.realign = false) : timeReportIn m s = { s with
      dv := { s.dv with heard := some (now s), exch := some (now s), deltas := ((now s, -m.delta) :: s.dv.deltas).take 8, delay := m.delay.toNat }
      time := { s.time with alignOffset := m.dev - m.delta, alignDev := -m.dev } } := by
  have htakes : ¬(decide ((heardNow s).dv.n < 2) || isFollower (heardNow s)) = true := by
    rw [heardNow_n, isFollower_heardNow]
    simp [hleader, Nat.not_lt.mpr hpair]
  unfold timeReportIn
  dsimp only
  rw [if_neg htakes, haligned, if_neg Bool.false_ne_true, heardNow_heardAt hhere]
  rfl

/-! Heartbeats. -/

theorem execHeartbeatInterval_paired {s : State} (h : 2 ≤ s.dv.n) : exec .heartbeatInterval s = .next (toPartner 2
    ([0x21, devByte s.dev, BitVec.ofNat 8 (highest s).num, BitVec.ofNat 8 s.energy.force] ++ leBytes 4 (frameNo s).toNat) s) :=
  congrArg Host.Outcome.next (if_pos h)

theorem execHeartbeatInterval_lone {s : State} (h : s.dv.n < 2) : exec .heartbeatInterval s = .next s :=
  congrArg Host.Outcome.next (if_neg (Nat.not_le.mpr h))

/-- The partner's latest report of its state, dated (R425, R426). -/
def beatKept (b : Beat) (s : State) : State := { s with dv := { s.dv with heard := some (now s), partner := some b } }

section Beats
variable {s : State} (hhere : s.dv.lost = false)
include hhere

theorem heardNow_beatKept (b : Beat) : heardNow { s with dv := { s.dv with partner := some b } } = beatKept b s := heardNow_present hhere

/-- Without RUNNING shown, with FAULT_IN high, and before it ever fell, a HEARTBEAT is kept and no more (R429). -/
theorem heartbeatIn_kept {b : Beat} (h : b.devstate.toNat % 16 ≠ 4 ∨ s.fc.faultIn = true ∨ s.dv.lowAt = none) :
    heartbeatIn b s = beatKept b s := by
  unfold heartbeatIn
  rw [heardNow_beatKept hhere b]
  refine if_neg ?_
  rcases h with hstate | hhigh | hnever
  · simp [hstate]
  · simp [beatKept, hhigh]
  · simp [beatKept, hnever]

/-- RUNNING shown, with FAULT_IN low for 1 ms, ends the UNCHECKED verdicts of a partner fault (R429). -/
theorem heartbeatIn_clears {b : Beat} {u : W64} (hstate : b.devstate.toNat % 16 = 4) (hlow : s.fc.faultIn = false) (hfell : s.dv.lowAt = some u)
    (hlong : 1000000 ≤ (now s - u).toNat) : heartbeatIn b s = { beatKept b s with dv := { (beatKept b s).dv with uncheck := false } } := by
  unfold heartbeatIn
  rw [heardNow_beatKept hhere b]
  refine if_pos ?_
  have hlow' : (beatKept b s).fc.faultIn = false := hlow
  have hfell' : (beatKept b s).dv.lowAt = some u := hfell
  have hlong' : 1000000 ≤ (now (beatKept b s) - u).toNat := hlong
  simp only [hstate, hlow', hfell', decide_eq_true hlong', decide_true, Bool.not_false, Bool.and_true]

theorem faultStateIn_partner (b : Beat) (src : W16) : faultStateIn true b src s = beatKept b s := heardNow_beatKept hhere b

end Beats

/-- Settles O49: each message and interval is the case that its own lemma gives. -/
theorem partnerTime : Obligations.PartnerTime := by
  refine ⟨fun s => heardNow_present, fun s m => ⟨fun hoff => ?uncompared, fun htwin hcompare hhere hnone =>
      ⟨fun hpast => ?kept, fun f hpast hended htorch hverdict hagreed haligned hagreed' haligned' hframe hmapped => ?judged⟩⟩,
    fun s f => ⟨fun hpast => ?noFrame, fun hpast hended htorch hverdict => ?unchecked⟩,
    fun s => ⟨fun hfollower hroute => ?asks, fun hsilent => ?silent⟩,
    fun s t1 corr => ⟨fun hignored => ?reqIgnored, fun f hpair hleader hcur => ?answers⟩,
    fun s m hignored => ?respIgnored, fun s m hfollower ht1 => ?measures,
    fun s m => ⟨fun hignored => ?reportIgnored, fun hpair hleader hhere haligned => ?pointer⟩,
    fun s => ⟨rfl, execHeartbeatInterval_paired, execHeartbeatInterval_lone⟩, fun s b src hhere => ?beats⟩
  case uncompared => rw [exec_frameSig, frameSigIn_uncompared hoff]
  case kept =>
    rw [exec_frameSig, frameSigIn_compared htwin hcompare hhere hnone, compareSigs_noFrame]
    exact hpast
  case judged =>
    rw [exec_frameSig, frameSigIn_compared htwin hcompare hhere hnone]
    exact congrArg _ (compareSigs_single hpast ⟨hended, htorch, hverdict⟩ rfl hframe hagreed haligned hagreed' haligned' hmapped)
  case noFrame => rw [exec_frameSigWaitExpiry, frameSigWait_noFrame hpast]
  case unchecked => rw [exec_frameSigWaitExpiry, frameSigWait_single hpast ⟨hended, htorch, hverdict⟩]
  case asks => rw [exec_timeReqInterval, timeReqSend_asks hfollower hroute]
  case silent => rw [exec_timeReqInterval, timeReqSend_silent hsilent]
  case reqIgnored => rw [exec_timeReq, timeReqIn_ignored hignored]
  case answers => rw [exec_timeReq, timeReqIn_answered hpair hleader hcur]
  case respIgnored => rw [exec_timeResp, timeRespIn_ignored hignored]
  case measures =>
    intro a b
    obtain ⟨d, hkept⟩ := timeRespIn_measures hfollower ht1
    obtain ⟨fc, hheard⟩ := heardNow_frame s
    have hinc : IncOk (timeRespIn m s).time.inc := hkept.time ▸ followInc_inc ..
    rw [hheard] at hkept
    exact ⟨_, exec_timeResp m s, hkept.t1, hkept.exch, hkept.deltas, hkept.delay, congrArg TimeU.alignDev hkept.time, hkept.holdInc, hinc⟩
  case reportIgnored => rw [exec_timeReport, timeReportIn_ignored hignored]
  case pointer => rw [exec_timeReport, timeReportIn_leader hpair hleader hhere haligned]
  case beats =>
    refine ⟨fun hkept => ?_, fun u hstate hlow hfell hlong => ?_, ?_, ?_⟩
    · exact congrArg _ (heartbeatIn_kept hhere hkept)
    · exact congrArg _ (heartbeatIn_clears hhere hstate hlow hfell hlong)
    · exact congrArg _ (faultStateIn_partner hhere b src)
    · rfl

end Sys2Proof.Laws
end

section
/-! PROOF. The front of the queue, what power-on reset leaves, and what no command but a power cycle undoes (R262, R330, R361, R376, R460,
R479). -/

open Sys2Proof Sys2Proof.Machine
namespace Sys2Proof.Laws

/-- Settles O1: the queue is not empty, so the step is its front command. -/
theorem stepRunsFront : Obligations.StepRunsFront := fun _ _ _ => step_command rfl

/-- Settles O3: each field of the reset state, read off; a mailbox lists no slot, and a memory no byte. -/
theorem resetValues : Obligations.ResetValues := by
  refine ⟨rfl, rfl, rfl, rfl, rfl, rfl, rfl, rfl, rfl, rfl, fun m k => ?slots, fun m => ?order, rfl, fun a => ⟨rfl, rfl, rfl⟩, rfl⟩
  case slots => cases m <;> rfl
  case order => cases m <;> rfl

/-- POWER_ON starts without supply, the latch as it was (R460), and leads on steadily. -/
theorem powerOn_keeps_latch {s : State} (h : s.dev.lockedLatch = true) (f : FlashEnv) : (powerOn f s).dev.lockedLatch = true :=
  (powerOn_steady f s).latch h

/-- Settles O7: every command but POWER_ON and POWER_CYCLE is steady, and POWER_ON keeps the latch. -/
theorem monotoneMachine : Obligations.MonotoneMachine := by
  refine ⟨fun i s t hon hcycle h => ?steady, fun f s t hlatch h => ?powerOn⟩
  case steady =>
    have hsteady := exec_steady hon hcycle h
    exact ⟨hsteady.latch, hsteady.otp, hsteady.sess, hsteady.pending, hsteady.sent⟩
  case powerOn =>
    cases (exec_powerOn f s).symm.trans h
    exact powerOn_keeps_latch hlatch f

end Sys2Proof.Laws
end

section
/-! PROOF. The mailboxes: an answer, the doorbells, DONE, late responses and the urgent slot's acknowledgement (R302, R330, R332, R334,
R335, R339). -/

open Sys2Proof Sys2Proof.Machine
namespace Sys2Proof.Laws

/-! An answer. -/

/-- The header and results of an answer (R332). -/
def answerBytes (m : Mailbox) (k : Nat) (st detail : W16) (results : List Byte) (s : State) : List Byte :=
  rdN (getMb m s).req (k * 256) 4 ++ leBytes 2 st.toNat ++ leBytes 2 results.length ++ [devByte s.dev, 0] ++ leBytes 2 detail.toNat
    ++ leBytes 4 (frameNo s).toNat ++ results

/-- The mailbox once slot `k` is answered: the response is in RSP_k, and the slot is DONE (R330, R332). -/
def answeredBox (m : Mailbox) (k : Nat) (st detail : W16) (results : List Byte) (s : State) : Mbx :=
  { getMb m s with
    rsp := wrN (getMb m s).rsp (k * 256) (sub (answerBytes m k st detail results s) 0 256)
    slots := updK {} (getMb m s).slots k (fun x => { x with phase := .done }) }

/-- An answer changes its mailbox, and then the vector of its interrupt where that is enabled (R302, R330). -/
theorem respond_eq {k : Nat} (hk : k < 8) (m : Mailbox) (st detail : W16) (results : List Byte) (s : State) :
    respond m k st detail results s = if (getMb m s).irqEn then
        msix (match m with | .dispatch => 1 | .lantern => 2) (setMb m (answeredBox m k st detail results s) s)
      else setMb m (answeredBox m k st detail results s) s := if_neg (Nat.not_le.mpr hk)

theorem getMb_respond {k : Nat} (hk : k < 8) (m : Mailbox) (st detail : W16) (results : List Byte) (s : State) :
    getMb m (respond m k st detail results s) = answeredBox m k st detail results s := by
  rw [respond_eq hk]
  split
  · rw [getMb_msix, getMb_setMb]
  · exact getMb_setMb ..

/-- Settles O10: the answer writes RSP_k and the slot's phase, and its interrupt follows. -/
theorem mailboxAnswer : Obligations.MailboxAnswer := by
  intro m k st detail results s hk hok hslots hlen t
  have hbox : getMb m t = answeredBox m k st detail results s := getMb_respond hk m st detail results s
  refine ⟨?change, ?box, fun j => ?slot, fun a => ?byte⟩
  case change =>
    rw [hbox]
    exact respond_eq hk ..
  case box => simp only [hbox, answeredBox]
  case slot =>
    rw [hbox]
    simp only [answeredBox, updK]
    rw [getK_putK ({} : Slot) hslots]
  case byte =>
    rw [hbox]
    simp only [answeredBox]
    rw [rd_wrN _ hok.rsp, length_sub]
    split
    next hin => exact getD_sub _ _ _ (by omega)
    next => rfl

/-! Doorbells. -/

theorem exec_mbDoorbell (m : Mailbox) (v : W32) (s : State) : exec (.mbDoorbell m v) s = .next (mbDoorbell m v s) := rfl

/-- The mailbox once a doorbell has found its slot FREE: the slot is BUSY with the doorbell's TAG (R330). -/
def rungBox (m : Mailbox) (v : W32) (s : State) : Mbx :=
  { getMb m s with slots := putK {} (getMb m s).slots (v.toNat % 8) { phase := .busy, tag := BitVec.ofNat 16 (v.toNat / 65536), ltc := now s } }

section Doorbell
variable {m : Mailbox} {v : W32} {s : State}

theorem mbDoorbell_taken (h : (getK {} (getMb m s).slots (v.toNat % 8)).phase ≠ .free) :
    mbDoorbell m v s = setMb m { getMb m s with bad := (getMb m s).bad.inc } s := if_pos h

variable (hfree : (getK {} (getMb m s).slots (v.toNat % 8)).phase = .free)
include hfree

/-- The first request of an idle mailbox waits, and what its mailbox serves is not answered at the doorbell (R330, R333). -/
theorem mbDoorbell_waits (hservice : (getMb m s).service = true) (hidle : (getMb m s).fifo = [])
    (hhome : (cmdInfo (readReqOf m (v.toNat % 8) s).op).map (·.1) = some m) :
    mbDoorbell m v s = setMb m { rungBox m v s with fifo := [v.toNat % 8] } s := by
  have hring : mbDoorbell m v s = settle 8 m (setMb m { rungBox m v s with fifo := [v.toNat % 8] } s) := by
    simp only [mbDoorbell, hfree, not_true_eq_false, ne_eq, if_false, getMb_setMb, hservice, if_true, hidle, List.nil_append, rungBox]
    cases m <;> rfl
  rw [hring]
  refine settle_home (ks := []) (by rw [getMb_setMb]) ?_
  have hreq : readReqOf m (v.toNat % 8) (setMb m { rungBox m v s with fifo := [v.toNat % 8] } s) = readReqOf m (v.toNat % 8) s := by
    simp only [readReqOf, getMb_setMb, rungBox]
  rw [hreq, hhome]

/-- With SERVICE 0 a doorbell is answered at once (R335). -/
theorem mbDoorbell_unserved (hservice : (getMb m s).service = false) : mbDoorbell m v s =
    respond m (v.toNat % 8) (if s.dev.state = .booting ∨ s.dev.state = .locked then 9 else 6)
      (if s.dev.state = .booting ∨ s.dev.state = .locked then 0 else 10) [] (setMb m (rungBox m v s) s) := by
  simp only [mbDoorbell, hfree, not_true_eq_false, ne_eq, if_false, hservice, Bool.false_eq_true, setMb_dev, rungBox]
  cases s.dev.state <;> rfl

end Doorbell

/-! DONE and late responses. -/

theorem exec_mbDone (m : Mailbox) (v : W32) (s : State) : exec (.mbDone m v) s = .next (mbDone m v s) := rfl

/-- One bit of a write to MB_DONE (R330). -/
def doneBit (v : W32) (slots : SMap Slot) (k : Nat) : SMap Slot :=
  if v.getLsbD k = true ∧ (getK ({} : Slot) slots k).phase = .done then putK {} slots k {} else slots

theorem getK_doneBit {slots : SMap Slot} (hwf : wfK ({} : Slot) slots = true) (v : W32) (n k : Nat) :
    getK ({} : Slot) (doneBit v slots n) k =
      if k = n ∧ v.getLsbD k = true ∧ (getK ({} : Slot) slots k).phase = .done then {} else getK ({} : Slot) slots k := by
  unfold doneBit
  by_cases hk : k = n
  · subst hk
    split
    next h => rw [getK_putK ({} : Slot) hwf, if_pos rfl, if_pos ⟨rfl, h⟩]
    next h => rw [if_neg fun hdone => h hdone.2]
  · have hother : ¬ (k = n ∧ v.getLsbD k = true ∧ (getK ({} : Slot) slots k).phase = .done) := fun h => hk h.1
    rw [if_neg hother]
    split
    next h => rw [getK_putK ({} : Slot) hwf, if_neg hk]
    next h => rfl

theorem doneBit_wf {slots : SMap Slot} (hwf : wfK ({} : Slot) slots = true) (v : W32) (n : Nat) : wfK ({} : Slot) (doneBit v slots n) = true := by
  unfold doneBit
  split
  · exact wfK_putK ({} : Slot) n _ hwf
  · exact hwf

/-- A write to MB_DONE frees the DONE slots among those listed whose bit is 1, and no other. -/
theorem getK_foldl_doneBit {slots : SMap Slot} (hwf : wfK ({} : Slot) slots = true) (v : W32) {l : List Nat} (hl : l.Nodup) (k : Nat) :
    getK ({} : Slot) (l.foldl (doneBit v) slots) k =
      if k ∈ l ∧ v.getLsbD k = true ∧ (getK ({} : Slot) slots k).phase = .done then {} else getK ({} : Slot) slots k := by
  induction l generalizing slots with
  | nil => simp
  | cons n l ih =>
    obtain ⟨hn, hl⟩ := List.nodup_cons.mp hl
    rw [List.foldl_cons, ih (doneBit_wf hwf v n) hl, getK_doneBit hwf]
    by_cases hk : k = n
    · subst hk; simp [hn]
    · simp [hk]

/-! Late responses, and the urgent slot's acknowledgement. -/

theorem exec_mbLate (m : Mailbox) (k : Nat) (s : State) : exec (.mbLate m k) s = .next (mbLate m k s) := rfl
theorem mbLate_busy {m : Mailbox} {k : Nat} {s : State} (hbusy : (getK {} (getMb m s).slots k).phase = .busy)
    (hlate : (getK {} (getMb m s).slots k).late = false) : mbLate m k s = raise .mbLate (sub_ 0x200 (mbNum m)) []
      (setMb m { getMb m s with slots := putK {} (getMb m s).slots k { getK {} (getMb m s).slots k with late := true } } s) :=
  if_pos ⟨hbusy, ne_true_of_eq_false hlate⟩

theorem exec_urgAck (q : W32) (s : State) : exec (.urgAck q) s = .next (urgAck q s) := rfl

theorem urgAck_matching {s : State} {q : W32} {r : Report} (h : s.urg.slot = some (q, r)) :
    urgAck q s = loadUrgent { s with urg := { s.urg with slot := none } } := by
  simp only [urgAck, h, if_true]

theorem urgAck_other {s : State} {v : W32} (h : s.urg.slot.map (·.1) ≠ some v) :
    urgAck v s = { s with mbL := { s.mbL with bad := s.mbL.bad.inc } } := by
  cases hslot : s.urg.slot with
  | none => simp only [urgAck, hslot]
  | some x =>
    have hne : x.1 ≠ v := fun heq => h (by rw [hslot, ← heq]; rfl)
    simp only [urgAck, hslot, if_neg hne]

/-- Settles O36: the three cases of a doorbell, MB_DONE over the eight slots, MB_LATE, and the two of URG_ACK. -/
theorem mailboxRegisters : Obligations.MailboxRegisters := by
  refine ⟨fun s m v htaken => ?taken, fun s m v hfree hservice hidle hhome => ?waits, fun s m v hfree hservice => ?unserved,
    fun s m v hwf => ⟨mbDone m v s, exec_mbDone m v s, ?done, fun k hk => ?slots⟩, fun s m k hbusy hlate => ?late,
    fun s q r hslot => ?acknowledged, fun s v hother => ?wrong⟩
  case taken => rw [exec_mbDoorbell, mbDoorbell_taken htaken]
  case waits => exact congrArg _ (mbDoorbell_waits hfree hservice hidle hhome)
  case unserved => exact congrArg _ (mbDoorbell_unserved hfree hservice)
  case done => rw [mbDone, getMb_setMb]
  case slots =>
    rw [mbDone, getMb_setMb]
    refine (getK_foldl_doneBit hwf v List.nodup_range k).trans ?_
    simp [hk]
  case late =>
    rw [exec_mbLate, mbLate_busy hbusy hlate]
    cases m <;> rfl
  case acknowledged => rw [exec_urgAck, urgAck_matching hslot]
  case wrong => rw [exec_urgAck, urgAck_other hother]

end Sys2Proof.Laws
end

section
/-! PROOF. Shared objects: queue doorbells, queue entries, the doorbell FIFO, EVT_REARM, and descriptor fetches (R312, R314–R316, R318,
R564, R572, R573). -/

open Sys2Proof Sys2Proof.Machine
namespace Sys2Proof.Laws

/-! QUEUE_DB. -/

/-- A whole QUEUE_DB word (R572). -/
def queueWord (v : W64) (s : State) : State :=
  if v.toNat / 16384 % 262144 ≠ 0 then dropDoorbell s else doorbell (v.toNat % 16384) (BitVec.ofNat 32 (v.toNat / 2 ^ 32)) s

theorem exec_queueDb_whole (v : W64) (s : State) : exec (.queueDb (.whole v)) s = .next (queueWord v s) := rfl
theorem exec_queueDb_low (rid : W16) (v : W32) (s : State) : exec (.queueDb (.low rid v)) s =
    .next { s with dev := { s.dev with qdbLow := putK none s.dev.qdbLow rid.toNat (some v) } } := rfl

theorem exec_queueDb_high_alone {s : State} {rid : W16} (h : getK none s.dev.qdbLow rid.toNat = none) (v : W32) :
    exec (.queueDb (.high rid v)) s = .next (dropDoorbell s) := by
  have heq : queueDb (.high rid v) s = dropDoorbell s := by simp only [queueDb, h]
  exact congrArg _ heq

/-- A high half completes the word whose low half the same requester wrote (R564). -/
theorem exec_queueDb_high {s : State} {rid : W16} {lo : W32} (h : getK none s.dev.qdbLow rid.toNat = some lo) (v : W32) :
    exec (.queueDb (.high rid v)) s =
      .next (queueWord (v ++ lo) { s with dev := { s.dev with qdbLow := putK none s.dev.qdbLow rid.toNat none } }) := by
  have heq : queueDb (.high rid v) s = queueWord (v ++ lo) { s with dev := { s.dev with qdbLow := putK none s.dev.qdbLow rid.toNat none } } := by
    simp only [queueDb, h, queueWord]
  exact congrArg _ heq

/-- Reserved bits, or a handle beyond the table, discard a doorbell (R572). -/
theorem queueWord_discarded {v : W64} {s : State} (h : v.toNat / 16384 % 262144 ≠ 0 ∨ s.obj.queueTab.count ≤ v.toNat % 16384) :
    queueWord v s = dropDoorbell s := by
  by_cases hbits : v.toNat / 16384 % 262144 ≠ 0
  · exact if_pos hbits
  · exact (if_neg hbits).trans (if_pos (h.resolve_left hbits))

/-- A doorbell for a resident queue (R572). -/
theorem queueWord_resident {v : W64} {s : State} {x : QueueSlot} (hbits : v.toNat / 16384 % 262144 = 0)
    (hhandle : v.toNat % 16384 < s.obj.queueTab.count) (hqueue : s.obj.queues.find? (fun y => y.id = v.toNat % 16384) = some x) :
    queueWord v s = ringQueue x (BitVec.ofNat 32 (v.toNat / 2 ^ 32)) s := by
  have hget : getQueue s (v.toNat % 16384) = some x := hqueue
  rw [queueWord, if_neg (not_not.mpr hbits), doorbell, if_neg (Nat.not_le.mpr hhandle), hget]

/-- Settles O39: the discarded doorbells, the two halves, and the TAIL of a resident queue. -/
theorem queueDoorbell : Obligations.QueueDoorbell := by
  refine ⟨fun s v h => ?discarded, fun s rid v h => ?highAlone, fun s rid lo hi hwf => ?halves, fun s v x hbits hhandle hqueue hfar => ?tooFar,
    fun s v x hbits hhandle hqueue hnear => ?rung⟩
  case discarded =>
    rw [exec_queueDb_whole, queueWord_discarded h]
    rfl
  case highAlone => exact exec_queueDb_high_alone h v
  case halves =>
    refine ⟨_, exec_queueDb_low rid lo s, rfl, ?_⟩
    have hlow : getK none (putK none s.dev.qdbLow rid.toNat (some lo)) rid.toNat = some lo := by rw [getK_putK none hwf, if_pos rfl]
    exact exec_queueDb_high (s := { s with dev := { s.dev with qdbLow := putK none s.dev.qdbLow rid.toNat (some lo) } }) hlow hi
  case tooFar =>
    rw [exec_queueDb_whole, queueWord_resident hbits hhandle hqueue, ringQueue, if_pos hfar]
    rfl
  case rung =>
    rw [exec_queueDb_whole, queueWord_resident hbits hhandle hqueue, ringQueue, if_neg (Nat.not_lt.mpr hnear)]

/-! QUEUE_ENTRY, DOORBELL_FIFO_RELEASE and EVT_REARM. -/

theorem exec_doorbellFifoRelease (s : State) : exec .doorbellFifoRelease s = .next (fifoRelease s) := rfl
theorem exec_evtRearm (v : W32) (s : State) : exec (.evtRearm v) s = .next (evtRearm v s) := rfl

/-- HEAD moves past the entry and is written back (R312). -/
def consumed (q : Nat) (x : QueueSlot) (s : State) : State :=
  postWrite { obj := none, addr := s.obj.queueTab.base + BitVec.ofNat 64 (q * 64 + 16), data := leBytes 4 (x.head + 1).toNat }
    (setQueue { x with head := x.head + 1, used := now s } s)

section Entry
variable {s : State} {q : Nat} {x : QueueSlot} (hqueue : s.obj.queues.find? (fun y => y.id = q) = some x) (hwaits : x.head ≠ x.tail)
include hqueue hwaits

theorem queueEntry_noOp {entry : List Byte} (h : fld entry 0 2 = 0) : queueEntry q entry s = consumed q x s := by
  have hget : getQueue s q = some x := hqueue
  simp [queueEntry, hget, hwaits, h, consumed, setQueue]

theorem queueEntry_signal {entry : List Byte} (h : fld entry 0 2 = 1) :
    queueEntry q entry s = postEvent x.event (Config.evtKind 20) (leBytes 2 q ++ [0, 0] ++ sub entry 4 4) (consumed q x s) := by
  have hget : getQueue s q = some x := hqueue
  simp [queueEntry, hget, hwaits, h, consumed, setQueue]

end Entry

theorem fifoRelease_serves {s : State} {q : Nat} {tail : W32} {rest : List (Nat × W32)} (hheld : s.obj.dbFifo = (q, tail) :: rest)
    (hroom : slotsUsed s < 48) : fifoRelease s = doorbell q tail { s with obj := { s.obj with dbFifo := rest } } := by
  have hslot : (slotRoom s).isSome = true := by rw [slotRoom, if_pos hroom]; rfl
  simp only [fifoRelease, hheld, hslot, if_true]

/-! Fetches of descriptors. -/

theorem exec_slotFaultServed (f : SlotFaultOf) (got : Fetched) (s : State) : exec (.slotFaultServed f got) s = .next (slotFaultServed f got s) := rfl

section Fetch
variable {s : State} {f : SlotFaultOf} (hwait : s.host.inbWait = [])
include hwait

theorem slotFaultServed_unknown (h : s.obj.faults.contains f = false) (got : Fetched) : slotFaultServed f got s = s := by
  have hserved : slotServed f got s = s := if_pos (ne_true_of_eq_false h)
  rw [slotFaultServed, hserved, replayInbound_id hwait]

variable (hfault : s.obj.faults.contains f = true)
include hfault

theorem slotFaultServed_poison : slotFaultServed f .poison s = endFault f s := by
  have hserved : slotServed f .poison s = endFault f s := if_neg (not_not.mpr hfault)
  rw [slotFaultServed, hserved]
  exact replayInbound_id (by exact hwait)

end Fetch

theorem slotFaultServed_badContext {s : State} {id : Nat} {bs : List Byte} (hfault : s.obj.faults.contains (.context id) = true)
    (hbad : parseCtx id bs = none) : slotFaultServed (.context id) (.bytes bs) s = replayInbound (badObject 0 id (endFault (.context id) s)) := by
  rw [slotFaultServed, slotServed, if_neg (not_not.mpr hfault)]
  simp only [hbad]

/-- An object that no loaded plan uses takes one translation, unpinned and in no gallery's copy (R316, R317). -/
theorem putTrans_unplanned {s : State} (h : s.plans = []) (t : TransEnt) : putTrans t none s = { s with obj := { s.obj with
    trans := lruInsert 4096 (fun x => x.pinned) { t with pinned := false } (s.obj.trans.filter (fun x => !(x.obj = t.obj && x.page = t.page))) } } := by
  have hpins : pinnedIn s t.obj = [] := by rw [pinnedIn, h]; rfl
  simp only [putTrans, hpins]
  rfl

theorem mem_lruInsert {α : Type} (cap : Nat) (p : α → Bool) (x : α) (l : List α) : x ∈ lruInsert cap p x l := by
  unfold lruInsert
  split
  · exact List.mem_append_right _ List.mem_cons_self
  · exact List.mem_append_right _ List.mem_cons_self

/-- The objects' caches once an object's descriptor and one page's translation are fetched (R316). -/
def objectFetched (h : Handle) (page : Nat) (d : ObjDesc) (bs : List Byte) (s : State) : Obj :=
  { s.obj with
    faults := s.obj.faults.erase (.object h page none)
    descs := s.obj.descs.filter (fun x => x.1 ≠ h) ++ [(h, d)]
    trans := lruInsert 4096 (fun x => x.pinned) { obj := h, page, base := pageBase d bs } (s.obj.trans.filter (fun x => !(x.obj = h && x.page = page))) }

theorem slotFaultServed_object {s : State} {h : Handle} {page : Nat} {bs : List Byte} {d : ObjDesc} (hwait : s.host.inbWait = [])
    (hfault : s.obj.faults.contains (.object h page none) = true) (hparse : parseObj bs = some d) (hvalid : d.length ≠ 0)
    (hnotices : s.obj.notices = []) (hplans : s.plans = []) : slotFaultServed (.object h page none) (.bytes bs) s =
      { s with obj := objectFetched h page d bs s
               host := { s.host with reqs := s.host.reqs.filter (fun r => r.what ≠ .table (.object h page none)) } } := by
  have hplans' : (putDesc h d (endFault (.object h page none) s)).plans = [] := hplans
  have hserved : slotServed (.object h page none) (.bytes bs) s =
      { s with obj := objectFetched h page d bs s
               host := { s.host with reqs := s.host.reqs.filter (fun r => r.what ≠ .table (.object h page none)) } } := by
    rw [slotServed, if_neg (not_not.mpr hfault)]
    simp only [hparse, Option.getD_some, if_neg hvalid, putTrans_unplanned hplans']
    simp only [putDesc, endFault, hnotices, List.filter_nil, List.foldl_nil, objectFetched]
  rw [slotFaultServed, hserved]
  exact replayInbound_id (by exact hwait)

/-- Settles O40: the entry consumed with and without a signal, the FIFO, EVT_REARM, and each end of a fetch. -/
theorem queueEntriesAndFetches : Obligations.QueueEntriesAndFetches := by
  refine ⟨fun s q entry x hqueue hwaits hkind => ?noOp, fun s q entry x hqueue hwaits hkind => ?signal, fun s q tail rest hheld hroom => ?fifo,
    fun s v hv => ?rearmed, fun s v hv => ?notRearmed, fun s f got hwait hfault => ?unknown, fun s f hwait hfault => ?poison,
    fun s h page bs d hwait hfault hparse hvalid hnotices hplans => ?object, fun s id bs hwait hfault hbad => ?context⟩
  case noOp => exact congrArg _ (queueEntry_noOp hqueue hwaits hkind)
  case signal => exact congrArg _ (queueEntry_signal hqueue hwaits hkind)
  case fifo => rw [exec_doorbellFifoRelease, fifoRelease_serves hheld hroom]
  case rearmed => rw [exec_evtRearm, evtRearm, if_neg (Nat.not_le.mpr hv)]
  case notRearmed => rw [exec_evtRearm, evtRearm, if_pos (Nat.le_of_succ_le hv)]
  case unknown => rw [exec_slotFaultServed, slotFaultServed_unknown hwait hfault]
  case poison => exact congrArg _ (slotFaultServed_poison hwait hfault)
  case object =>
    refine ⟨_, by rw [exec_slotFaultServed, slotFaultServed_object hwait hfault hparse hvalid hnotices hplans], rfl, ?_, ?_⟩
    · exact List.mem_append_right _ List.mem_cons_self
    · exact mem_lruInsert ..
  case context => exact congrArg _ (slotFaultServed_badContext hfault hbad)

end Sys2Proof.Laws
end

section
/-! PROOF. Power domains 0 to 7, adaptive voltage and the board's monitors: DOMAIN_POWER_UP, DOMAIN_GATE, VOLTAGE_STEP, PMBUS_POLL and
I3C_READ (R467, R468, R536–R539). -/

open Sys2Proof Sys2Proof.Machine
namespace Sys2Proof.Laws

/-! Domains without cores. -/

theorem exec_domainPowerUp (d : Nat) (s : State) : exec (.domainPowerUp d) s = .next (if d < 16 then domainOn d s else s) := rfl
theorem exec_domainGate (d : Nat) (s : State) :
    exec (.domainGate d) s = .next (if d < 16 ∧ ¬ gateRefused s d then domainOff d s else s) := rfl

theorem mem_coreSites {n : Node} (h : n ∈ coreSites) : n.toNat / 128 < 4 := by
  simp only [coreSites, List.mem_flatMap, List.mem_map, List.mem_range] at h
  obtain ⟨g, hg, c, hc, r, hr, rfl⟩ := h
  rw [BitVec.toNat_ofNat]
  omega

theorem domainOf_gallery {n : Node} (h : n.toNat / 128 < 4) : 8 ≤ domainOf n := by
  simp only [domainOf, if_pos h]
  split <;> omega

/-- The core sites lie in the gallery halves (R35). -/
theorem sitesOf_hub {d : Nat} (hd : d < 8) : sitesOf d = [] := by
  refine List.filter_eq_nil_iff.mpr fun n hn => ?_
  have hhalf := domainOf_gallery (mem_coreSites hn)
  simp only [decide_eq_true_eq]
  omega

/-- No record of a run state while the trace is stopped (R502). -/
theorem traceRun_off {s : State} (h : s.trace.running = false) (before : SMap Core) (src : W16) : traceRun before src s = s := by
  refine List.foldlRecOn (motive := fun t => t = s) _ _ rfl fun t ht e _ => ?_
  rw [ht]
  exact ite_eq_left_iff.mpr fun _ => traceRec_off h ..

theorem domainOn_on {s : State} {d : Nat} (h : d ∉ s.fab.gated) : domainOn d s = s := if_pos (by simpa using h)

theorem domainOff_gated {s : State} {d : Nat} (h : d ∈ s.fab.gated) : domainOff d s = s := if_pos (.inl (by simpa using h))

/-- A domain without cores that no gap awaits is taken out of the gated ones, alone (R538). -/
theorem domainOn_hub {s : State} {d : Nat} (hd : d < 8) (hgated : d ∈ s.fab.gated) (hgap : s.trace.gated = [])
    (hstopped : s.trace.running = false) :
    domainOn d s = { s with fab := { s.fab with gated := s.fab.gated.filter (fun x => x ≠ d) } } := by
  have hin : s.fab.gated.contains d = true := by simpa using hgated
  have hnone : getK none s.trace.gated d = none := by rw [hgap]; rfl
  simp only [domainOn, hin, not_true_eq_false, if_false, sitesOf_hub hd, List.foldl_nil, hnone]
  exact traceRun_off (by exact hstopped) ..

/-- Gating a domain without cores loses what its banks held (R537). -/
theorem domainOff_hub {s : State} {d : Nat} (hlow : 1 ≤ d) (hd : d < 8) (hon : d ∉ s.fab.gated) (hstopped : s.trace.running = false) :
    domainOff d s = { s with mem := gateMem d s.mem, fab := { s.fab with gated := s.fab.gated ++ [d] } } := by
  have hgo : ¬ (s.fab.gated.contains d = true ∨ d = 0) := by simpa using ⟨hon, Nat.ne_of_gt hlow⟩
  simp only [domainOff, if_neg hgo, sitesOf_hub hd, List.foldl_nil, List.any_nil, Bool.false_eq_true, if_false]
  exact traceRun_off (by exact hstopped) ..

/-! Adaptive voltage. -/

theorem exec_voltageStep (g : Nat) (s : State) : exec (.voltageStep g) s = .next (voltageStep g s) := rfl

theorem voltageStep_still {s : State} {g : Nat} (h : 4 ≤ g ∨ getK 0 s.ltn.vout g = 0 ∨ s.ltn.pmbusFrozen = true ∨
    (now s - getK 0 s.ltn.voutAt g).toNat < 200000) : voltageStep g s = s := by
  refine if_pos ?_
  rcases h with h | h | h | h
  · exact .inl h
  · exact .inr (.inr (.inl h))
  · exact .inr (.inr (.inr (.inl h)))
  · exact .inr (.inr (.inr (.inr (.inl h))))

/-- The rail's next value: at most 10 mV nearer to its target (R467). -/
def railNext (s : State) (g : Nat) : Nat :=
  let v := getK 0 s.ltn.vout g
  if v < railTarget s g then min (railTarget s g) (v + 10) else max (railTarget s g) (v - 10)

theorem railNext_moves {s : State} {g : Nat} (htarget : railTarget s g ≠ getK 0 s.ltn.vout g) :
    railNext s g ≠ getK 0 s.ltn.vout g := by
  simp only [railNext]
  split <;> omega

theorem voltageStep_moves {s : State} {g : Nat} (hg : g < 4) (hheld : ltnHeld s = false) (hrail : getK 0 s.ltn.vout g ≠ 0)
    (hfrozen : s.ltn.pmbusFrozen = false) (hdue : 200000 ≤ (now s - getK 0 s.ltn.voutAt g).toNat)
    (htarget : railTarget s g ≠ getK 0 s.ltn.vout g) : voltageStep g s = setRail g (railNext s g) s := by
  refine if_neg ?_
  rintro (h | h | h | h | h | h)
  · omega
  · exact ne_true_of_eq_false hheld h
  · exact hrail h
  · exact ne_true_of_eq_false hfrozen h
  · omega
  · exact railNext_moves htarget h

/-! The board's monitors. -/

theorem exec_pmbusPoll (k : Nat) (w : Option W16) (s : State) : exec (.pmbusPoll k w) s = .next (pmbusPoll k w s) := rfl
theorem exec_i3cRead (k : Nat) (v : W16) (s : State) : exec (.i3cRead k v) s = .next (i3cRead k v s) := rfl

section Monitors
variable {s : State} {k : Nat} (hk : k < 8) (hheld : ltnHeld s = false)
include hk hheld

theorem monitor_runs : ¬ (8 ≤ k ∨ ltnHeld s = true) := by simp [hheld, hk]

theorem pmbusPoll_clean : pmbusPoll k (some 0) s =
    { s with ltn := { s.ltn with pmFail := putK 0 s.ltn.pmFail k 0, pmStatus := putK 0 s.ltn.pmStatus k 0 } } := by
  simp only [pmbusPoll, if_neg (monitor_runs hk hheld), if_true]

theorem pmbusPoll_failed (h : getK 0 s.ltn.pmFail k < 2) : pmbusPoll k none s =
    { s with ltn := { s.ltn with pmFail := putK 0 s.ltn.pmFail k (getK 0 s.ltn.pmFail k + 1) } } := by
  simp only [pmbusPoll, if_neg (monitor_runs hk hheld)]
  exact if_pos (by omega)

theorem pmbusPoll_freezes (h : 2 ≤ getK 0 s.ltn.pmFail k) : pmbusPoll k none s =
    logRec 7 0 2 (leBytes 1 k) { s with ltn := { s.ltn with pmFail := putK 0 s.ltn.pmFail k 0, pmbusFrozen := true } } := by
  simp only [pmbusPoll, if_neg (monitor_runs hk hheld)]
  exact if_neg (by omega)

theorem i3cRead_logs (v : W16) : i3cRead k v s =
    logRec 9 0 1 (leBytes 1 k ++ leBytes 2 v.toNat) { s with ltn := { s.ltn with i3c := putK 0 s.ltn.i3c k v } } :=
  if_neg (monitor_runs hk hheld)

end Monitors

/-- Settles O29: the domain commands with and without effect, the adaptive step, and each reading of the monitors. -/
theorem domainsAndRails : Obligations.DomainsAndRails := by
  refine ⟨fun s d h => ?stays, fun s d hd hgated hgap hstopped => ?powered, fun s d h => ?refused,
    fun s d hlow hd hallowed hon hstopped => ?gated, fun s g => ⟨fun h => ?still, fun hg hheld hrail hfrozen hdue htarget => ?moves⟩,
    fun s k hk hheld => ⟨?clean, fun h => ?failed, fun h => ?freezes, fun v => ?reading⟩⟩
  case stays =>
    rw [exec_domainPowerUp]
    rcases h with h | h
    · rw [if_neg (Nat.not_lt.mpr h)]
    · rw [domainOn_on h, ite_self]
  case powered =>
    rw [exec_domainPowerUp, if_pos (by omega), domainOn_hub hd hgated hgap hstopped]
    exact ⟨_, rfl, rfl, rfl, rfl⟩
  case refused =>
    rw [exec_domainGate]
    rcases h with h | h | h
    · rw [if_neg fun hgo => Nat.not_lt.mpr h hgo.1]
    · rw [if_neg fun hgo => hgo.2 h]
    · rw [domainOff_gated h, ite_self]
  case gated =>
    rw [exec_domainGate, if_pos ⟨by omega, ne_true_of_eq_false hallowed⟩, domainOff_hub hlow hd hon hstopped]
    exact ⟨_, rfl, rfl, rfl, rfl⟩
  case still => rw [exec_voltageStep, voltageStep_still h]
  case moves => exact congrArg _ (voltageStep_moves hg hheld hrail hfrozen hdue htarget)
  case clean => rw [exec_pmbusPoll, pmbusPoll_clean hk hheld]
  case failed => rw [exec_pmbusPoll, pmbusPoll_failed hk hheld h]
  case freezes => rw [exec_pmbusPoll, pmbusPoll_freezes hk hheld h]
  case reading => rw [exec_i3cRead, i3cRead_logs hk hheld]

end Sys2Proof.Laws
end

section
/-! PROOF. The Dvorpo link: training, replay, flits and a port's loss (R407–R413, R416–R418). -/

open Sys2Proof Sys2Proof.Machine
namespace Sys2Proof.Laws

/-! A port's record. -/

theorem getDv_setDv {s : State} (h : wfK ({} : DvPort) s.dv.ports = true) (k : Nat) (p : DvPort) : getDv (setDv k p s) k = p :=
  (getK_putK _ h k k p).trans (if_pos rfl)

theorem setDv_wf {s : State} (h : wfK ({} : DvPort) s.dv.ports = true) (k : Nat) (p : DvPort) :
    wfK ({} : DvPort) (setDv k p s).dv.ports = true := wfK_putK _ k p h

/-! Training. -/

theorem exec_linkTraining (k : Nat) (ls : List LaneState) (g : BitVec 4) (far : Option Ident) (s : State) :
    exec (.linkTraining k ls g far) s = .next (linkTraining k ls g far s) := rfl

theorem linkTraining_idle {s : State} {k : Nat}
    (h : dvOn s = false ∨ (getDv s k).state = .active ∨ (getDv s k).state = .unused ∨ (getDv s k).state = .held)
    (ls : List LaneState) (g : BitVec 4) (far : Option Ident) : linkTraining k ls g far s = s := by
  refine if_pos ?_
  rcases h with h | h | h | h
  · exact .inl (ne_true_of_eq_false h)
  · exact .inr (by rw [h]; decide)
  · exact .inr (by rw [h]; decide)
  · exact .inr (by rw [h]; decide)

/-- Four lanes, each connected to its own number (R408). -/
def straightLanes : List LaneState := [{ number := 0 }, { number := 1 }, { number := 2 }, { number := 3 }]

/-- The port as four straight lanes that are good at both ends leave it (R408, R409). -/
def straightPort (k : Nat) (s : State) : DvPort := { getDv s k with good := 15, inverted := 0, reversed := false, width := 4 }

section Training
variable {s : State} {k : Nat} (hon : dvOn s = true) (htrains : (getDv s k).state = .down ∨ (getDv s k).state = .training)
variable (hnew : (getDv s k).adapted = false)
include hon htrains hnew

/-- The far end says nothing: another try (R407). -/
theorem linkTraining_silent : linkTraining k straightLanes 15 none s = setDv k { straightPort k s with state := .training } s := by
  rcases htrains with h | h <;> simp only [linkTraining, hon, h, hnew] <;> rfl

theorem linkTraining_wrongFar (hbuf : (getDv s k).buf = []) {f : Ident} (hwrong : wrongFar s k f.p.toNat = true) :
    linkTraining k straightLanes 15 (some f) s = raise .dvMiswire (at_ (portNode k)) []
      (setDv k { straightPort k s with state := .held, far := f.p.toNat, wait := [] } s) := by
  have hport : ({ straightPort k s with state := .held, far := f.p.toNat, wait := [] } : DvPort) =
      { straightPort k s with state := .held, far := f.p.toNat, adapted := false, buf := [], wait := [] } := by
    simp only [straightPort, hnew, hbuf]
  rw [hport]
  rcases htrains with h | h <;> simp only [linkTraining, hon, h, hnew] <;> exact if_pos hwrong

/-- The port once trained for the first time: its sequence numbers start anew (R407, R411). -/
def trainedPort (k : Nat) (f : Ident) (s : State) : DvPort :=
  { straightPort k s with state := .active, far := f.p.toNat, adapted := true, txSeq := 0, rxSeq := 0xFFF, nak := false }

theorem linkTraining_active (hbuf : (getDv s k).buf = []) {f : Ident} (hright : wrongFar s k f.p.toNat = false)
    (hwf : wfK ({} : DvPort) s.dv.ports = true) : linkTraining k straightLanes 15 (some f) s =
      dvSend k 2 f.p.toNat (identBytes s) (setDv k (trainedPort k f s) s) := by
  have hheld : resendHeld k (setDv k (trainedPort k f s) s) = setDv k (trainedPort k f s) s := by
    rw [resendHeld, getDv_setDv hwf]
    have hnone : (trainedPort k f s).buf = [] := hbuf
    rw [hnone, List.foldl_nil]
  have hsend : linkTraining k straightLanes 15 (some f) s = dvSend k 2 f.p.toNat (identBytes (resendHeld k (setDv k (trainedPort k f s) s)))
      (resendHeld k (setDv k (trainedPort k f s) s)) := by
    rcases htrains with h | h <;> simp only [linkTraining, hon, h, hnew] <;> exact if_neg (ne_true_of_eq_false hright)
  rw [hsend, hheld]
  rfl

end Training

theorem exec_trainingRetry (k : Nat) (s : State) : exec (.trainingRetry k) s =
    .next (if dvOn s ∧ (getDv s k).state = .down then setDv k { getDv s k with state := .training } s else s) := rfl

/-! Retraining and replay. -/

theorem exec_laneLockLoss (k l : Nat) (s : State) : exec (.laneLockLoss k l) s = .next (retrain k s) := rfl
theorem exec_replayTimeout (k : Nat) (s : State) :
    exec (.replayTimeout k) s = .next (if (getDv s k).state = .active then replayPort k s else s) := rfl

/-- The port sent back to training, and counted (R410, R416). -/
def retrainedPort (p : DvPort) : DvPort := { p with state := .training, retrain := p.retrain.inc }

theorem retrain_active {s : State} {k : Nat} (h : (getDv s k).state = .active) :
    retrain k s = raise .dvRetrain (at_ (portNode k)) [] (setDv k (retrainedPort (getDv s k)) s) := if_pos h

theorem retrain_idle {s : State} {k : Nat} (h : (getDv s k).state ≠ .active) : retrain k s = s := if_neg h

/-- A held flit as it goes out. -/
def flitOut (k : Nat) (f : HeldFlit) : Out := .dv k f.seq f.chan f.src f.dst f.hops f.msgId f.corr f.first f.last f.payload

theorem foldl_emit {α : Type} (out : α → Out) (l : List α) (s : State) :
    l.foldl (fun s x => emit (out x) s) s = { s with sent := s.sent ++ l.map out } := by
  induction l generalizing s with
  | nil => simp
  | cons x l ih => rw [List.foldl_cons, ih]; simp [emit]

/-- The held flits go out again, in order (R413). -/
theorem resendHeld_eq (k : Nat) (s : State) : resendHeld k s = { s with sent := s.sent ++ (getDv s k).buf.map (flitOut k) } :=
  foldl_emit (flitOut k) _ s

/-- The port after a replay: every held flit counts one (R413). -/
def replayedPort (k : Nat) (s : State) : DvPort :=
  { getDv s k with
    replay := (getDv s k).replay.inc
    buf := (getDv s k).buf.map (fun x => { x with replays := x.replays + 1, at_ := now s }) }

/-- The port whose oldest flit has been replayed four times: its flits count anew (R413). -/
def spentPort (k : Nat) (s : State) : DvPort := { getDv s k with buf := (getDv s k).buf.map (fun x => { x with replays := 0 }) }

section Replay
variable {s : State} {k : Nat}

theorem replayPort_empty (h : (getDv s k).buf = []) : replayPort k s = s := by simp only [replayPort, h]

variable {f : HeldFlit} {fs : List HeldFlit} (hbuf : (getDv s k).buf = f :: fs) (hwf : wfK ({} : DvPort) s.dv.ports = true)
include hbuf hwf

theorem replayPort_resends (h : f.replays < 4) : replayPort k s =
    { setDv k (replayedPort k s) s with sent := s.sent ++ (f :: fs).map (flitOut k) } := by
  have hout : (replayedPort k s).buf.map (flitOut k) = (f :: fs).map (flitOut k) := by
    rw [replayedPort, List.map_map, hbuf]
    rfl
  have hresend : replayPort k s = resendHeld k (setDv k (replayedPort k s) s) := by
    simp only [replayPort, hbuf, if_neg (Nat.not_le.mpr h), replayedPort]
  rw [hresend, resendHeld_eq, getDv_setDv hwf, hout]
  rfl

theorem replayPort_retrains (hactive : (getDv s k).state = .active) (h : 4 ≤ f.replays) : replayPort k s =
    raise .dvRetrain (at_ (portNode k)) [] (setDv k (retrainedPort (spentPort k s)) (setDv k (spentPort k s) s)) := by
  have hretrain : replayPort k s = retrain k (setDv k (spentPort k s) s) := by
    simp only [replayPort, hbuf, if_pos h, spentPort]
  have hport : getDv (setDv k (spentPort k s) s) k = spentPort k s := getDv_setDv hwf ..
  rw [hretrain, retrain_active (by rw [hport]; exact hactive), hport]

end Replay

/-! Flits. -/

theorem exec_flitReceive {k : Nat} (hk : k < 2) (b : List Byte) (s : State) : exec (.flitReceive k b) s = .next (flitReceive k b s) := by
  have hport : k % 2 = k := Nat.mod_eq_of_lt hk
  exact congrArg (fun j => Host.Outcome.next (flitReceive j b s)) hport

theorem flitReceive_ignored {s : State} {k : Nat} {b : List Byte} (h : (getDv s k).state ≠ .active ∨ dvOn s = false ∨ b.length ≠ 256) :
    flitReceive k b s = s := if_pos (h.imp_right (Or.imp_left ne_true_of_eq_false))

section Flit
variable {s : State} {k : Nat} {b : List Byte} (hactive : (getDv s k).state = .active) (hon : dvOn s = true) (hlen : b.length = 256)

include hactive hon hlen in
theorem flitReceive_badCrc (hcrc : crc64 0xFFFFFFFFFFFFFFFF (b.take 248) ≠ BitVec.ofNat 64 (fld b 248 8)) :
    flitReceive k b s = badFlit k true s :=
  (if_neg (by simp [hactive, hon, hlen])).trans (if_pos hcrc)

/-- Below 1,000 CRC errors in 1 ms a bad flit is counted and NAKed, and the port goes on (R410, R412, R416). -/
theorem badFlit_counted (hfew : (getDv s k).crcAt.length < 1000) : badFlit k true s = emit (.dvAck k true (getDv s k).rxSeq)
    (setDv k { getDv s k with
      crc := (getDv s k).crc.inc, nak := true
      crcAt := now s :: (getDv s k).crcAt.filter (fun t => decide ((now s - t).toNat ≤ 1000000)) } s) := by
  have hkept := List.length_filter_le (fun t => decide ((now s - t).toNat ≤ 1000000)) (getDv s k).crcAt
  have hcalm : ¬ 1000 < (now s :: (getDv s k).crcAt.filter (fun t => decide ((now s - t).toNat ≤ 1000000))).length := by
    rw [List.length_cons]
    omega
  simp only [badFlit, if_true, decide_eq_false hcalm, Bool.false_eq_true, if_false]

/-- The MSG flit that a frame of 256 bytes carries (R411). -/
def msgFlit (b : List Byte) (s : State) : HeldFlit :=
  { seq := 0, at_ := now s, chan := fld b 4 1 % 4, src := fld b 5 1 % 8, dst := fld b 5 1 / 8 % 8, hops := fld b 6 1
    msgId := BitVec.ofNat 16 (fld b 8 2), corr := BitVec.ofNat 32 (fld b 12 4), first := fld b 4 1 / 4 % 2 = 1
    last := fld b 4 1 / 8 % 2 = 1, payload := sub b 16 (min (fld b 10 2) 232) }

/-- The expected flit is accepted and acknowledged (R412). -/
def flitAcked (k : Nat) (b : List Byte) (s : State) : State :=
  emit (.dvAck k false (BitVec.ofNat 12 (fld b 0 2))) (setDv k { getDv s k with rxSeq := BitVec.ofNat 12 (fld b 0 2), nak := false } s)

variable (hcrc : crc64 0xFFFFFFFFFFFFFFFF (b.take 248) = BitVec.ofNat 64 (fld b 248 8)) (hplain : fld b 2 2 / 4096 % 4 = 0)
include hactive hon hlen hcrc hplain

/-- A sound flit without ACK or NAK: an IDLE flit changes nothing, and the expected MSG flit is acknowledged, then forwarded or taken
(R411, R412, R418). -/
theorem flitReceive_sound : flitReceive k b s =
    if fld b 0 2 / 4096 ≠ 0 then s
    else if BitVec.ofNat 12 (fld b 0 2) ≠ (getDv s k).rxSeq + 1 then badFlit k false s
    else if (msgFlit b s).dst ≠ s.dv.p then forwardFlit k (msgFlit b s) (flitAcked k b s)
    else takeFlit (getDv s k).nak (msgFlit b s).chan (msgFlit b s).src (msgFlit b s).msgId (msgFlit b s).corr (msgFlit b s).first
      (msgFlit b s).last (msgFlit b s).payload (flitAcked k b s) := by
  have hvalid : ¬ fld b 2 2 / 4096 % 2 = 1 := by omega
  have hnak : ¬ fld b 2 2 / 8192 % 2 = 1 := by omega
  refine ((if_neg (by simp [hactive, hon, hlen])).trans (if_neg (not_not.mpr hcrc))).trans ?_
  simp only [decide_eq_false hvalid, decide_eq_false hnak, Bool.or_false, Bool.false_eq_true, if_false]
  rfl

end Flit

/-- A flit whose HOPS would reach N is dropped (R418). -/
theorem forwardFlit_spent {s : State} {k : Nat} {f : HeldFlit} (h : s.dv.n ≤ f.hops + 1) : forwardFlit k f s = s := if_pos h

/-- A first DATA flit of another device's message, not its last, is kept for reassembly (R411, R427). -/
theorem takeFlit_dataFirst {s : State} {src : Nat} {id : W16} (hforeign : src ≠ partnerPos s) (hnew : ∀ e ∈ s.dv.seen, e ≠ (src, 3, id))
    (r : Bool) (corr : W32) (pay : List Byte) : takeFlit r 3 src id corr true false pay s =
      { s with dv := { s.dv with frags := s.dv.frags.filter (fun e => !(e.1 = src && e.2.1 = id)) ++ [(src, id, pay)] } } := by
  have hunseen : s.dv.seen.contains (src, 3, id) = false := by
    simp only [List.contains_eq_mem, decide_eq_false_iff_not]
    exact fun hmem => hnew _ hmem rfl
  have hold : (match s.dv.frags.find? (fun e => e.1 = src && e.2.1 = id) with | some e => if true then [] else e.2.2 | none => ([] : List Byte)) = [] := by
    split <;> rfl
  simp only [takeFlit, hunseen, Bool.false_eq_true, if_false, hforeign, decide_false, if_true]
  split <;> simp

/-! A port's loss. -/

theorem exec_dvLinkDown {k : Nat} (hk : k < 2) (s : State) : exec (.dvLinkDown k) s = .next (linkDown k s) := by
  have hport : k % 2 = k := Nat.mod_eq_of_lt hk
  exact congrArg (fun j => Host.Outcome.next (linkDown j s)) hport

theorem linkDown_notUp {s : State} {k : Nat} (hactive : (getDv s k).state ≠ .active) (htraining : (getDv s k).state ≠ .training) :
    linkDown k s = s := by
  unfold linkDown
  cases h : (getDv s k).state <;> simp_all

/-- A port that was up and holds nothing goes DOWN, and a partner left without a route is lost (R417). -/
theorem linkDown_empty {s : State} {k : Nat} (hactive : (getDv s k).state = .active) (hup : (getDv s k).adapted = true)
    (hbuf : (getDv s k).buf = []) (hwait : (getDv s k).wait = []) :
    linkDown k s = if (partnerPort (raise .dvLinkDown (at_ (portNode k)) [] (setDv k { getDv s k with state := .down, width := 0, adapted := false } s))).isNone
      then losePartner (raise .dvLinkDown (at_ (portNode k)) [] (setDv k { getDv s k with state := .down, width := 0, adapted := false } s))
      else raise .dvLinkDown (at_ (portNode k)) [] (setDv k { getDv s k with state := .down, width := 0, adapted := false } s) := by
  simp only [linkDown, hactive, hup, hbuf, hwait, List.nil_append, List.foldl_nil, not_true_eq_false, if_false]

/-- Settles O48: training on straight lanes, the retrain, the replay, each fate of a flit, and the loss of a port. -/
theorem dvorpoLink : Obligations.DvorpoLink := by
  refine ⟨fun s k ls g far h => ?idle, fun s k hon htrains hnew hbuf => ⟨?silent, fun f hwrong => ?wrongFar, fun f hright hwf => ?active⟩,
    fun s k => ⟨fun hon hdown => ?retries, fun h => ?retriesNot⟩, fun s k l => ⟨fun h => ⟨?lockIdle, ?replayIdle⟩, fun h => ?lockLost⟩,
    fun s k hactive hwf => ⟨fun hbuf => ?replayEmpty, fun f fs hbuf hfew => ?replays, fun f fs hbuf hspent => ?spent⟩,
    fun s k b hk h => ?ignored, fun s k b hk hactive hon hlen => ⟨fun hcrc hfew => ?badCrc, fun hcrc hplain => ⟨fun hidle => ?idleFlit,
      fun hmsg hseq => ⟨fun hother hhops => ?forwarded, fun hmine hforeign hdata hunseen => ?kept⟩⟩⟩,
    fun s k hk => ⟨fun hactive htraining => ?notUp, fun hactive hup hbuf hwait => ?down⟩⟩
  case idle => rw [exec_linkTraining, linkTraining_idle h]
  case silent => exact congrArg _ (linkTraining_silent hon htrains hnew)
  case wrongFar => exact congrArg _ (linkTraining_wrongFar hon htrains hnew hbuf hwrong)
  case active => exact congrArg _ (linkTraining_active hon htrains hnew hbuf hright hwf)
  case retries => rw [exec_trainingRetry, if_pos ⟨hon, hdown⟩]
  case retriesNot =>
    rw [exec_trainingRetry, if_neg]
    rintro ⟨hon, hdown⟩
    exact h.elim (ne_true_of_eq_false · hon) (· hdown)
  case lockIdle => rw [exec_laneLockLoss, retrain_idle h]
  case replayIdle => rw [exec_replayTimeout, if_neg h]
  case lockLost => exact congrArg _ (retrain_active h)
  case replayEmpty => rw [exec_replayTimeout, if_pos hactive, replayPort_empty hbuf]
  case replays =>
    refine ⟨_, by rw [exec_replayTimeout, if_pos hactive, replayPort_resends hbuf hwf hfew], rfl, ?_⟩
    refine (getDv_setDv hwf k (replayedPort k s)).trans ?_
    rw [replayedPort, hbuf]
  case spent =>
    refine ⟨_, by rw [exec_replayTimeout, if_pos hactive, replayPort_retrains hbuf hwf hactive hspent], ?_, rfl⟩
    rw [getDv_setDv (setDv_wf hwf ..), retrainedPort, spentPort, hbuf]
  case ignored => rw [exec_flitReceive hk, flitReceive_ignored h]
  case badCrc => rw [exec_flitReceive hk, flitReceive_badCrc hactive hon hlen hcrc, badFlit_counted hfew]
  case idleFlit => rw [exec_flitReceive hk, flitReceive_sound hactive hon hlen hcrc hplain, if_pos hidle]
  case forwarded =>
    have hdst : (msgFlit b s).dst ≠ s.dv.p := hother
    have hspent : (flitAcked k b s).dv.n ≤ (msgFlit b s).hops + 1 := hhops
    rw [exec_flitReceive hk, flitReceive_sound hactive hon hlen hcrc hplain, if_neg (not_not.mpr hmsg), if_neg (not_not.mpr hseq), if_pos hdst,
      forwardFlit_spent hspent]
    rfl
  case kept =>
    have hdst : ¬ (msgFlit b s).dst ≠ s.dv.p := not_not.mpr hmine
    have hchan : (msgFlit b s).chan = 3 := show fld b 4 1 % 4 = 3 by omega
    have hfirst : (msgFlit b s).first = true := decide_eq_true (show fld b 4 1 / 4 % 2 = 1 by omega)
    have hlast : (msgFlit b s).last = false := decide_eq_false (show ¬ fld b 4 1 / 8 % 2 = 1 by omega)
    rw [exec_flitReceive hk, flitReceive_sound hactive hon hlen hcrc hplain, if_neg (not_not.mpr hmsg), if_neg (not_not.mpr hseq), if_neg hdst,
      hchan, hfirst, hlast]
    exact congrArg _ (takeFlit_dataFirst (s := flitAcked k b s) (src := (msgFlit b s).src) (id := (msgFlit b s).msgId) hforeign hunseen _ _ _)
  case notUp => rw [exec_dvLinkDown hk, linkDown_notUp hactive htraining]
  case down => exact (exec_dvLinkDown hk s).trans (congrArg _ (linkDown_empty hactive hup hbuf hwait))

end Sys2Proof.Laws
end

section
/-! PROOF. The host link: loss, resets, return, the hold, MSI-X and held BAR2 reads; the host's accesses and the device's requests
(R285–R304, R325, R368). -/
open Sys2Proof Sys2Proof.Machine
namespace Sys2Proof.Laws

/-! Loss, resets and the hold. -/

/-- The state in which an attached device's detachment begins (R303). -/
def detached (cause : BitVec 4) (s : State) : State :=
  { s with host := { s.host with attached := false, gen := s.host.gen + 1, cause, detachLtc := now s, holdEnded := false, overflowed := false } }

theorem detachLink_attached {s : State} (h : s.host.attached = true) (cause : BitVec 4) :
    detachLink cause s = raise .hostLinkDown { node := 0x220 } [] (detached cause s) := if_neg (not_not.mpr h)

theorem detachLink_away {s : State} (h : s.host.attached = false) (cause : BitVec 4) : detachLink cause s = s :=
  if_pos (ne_true_of_eq_false h)

theorem discardHeld_none {s : State} (hheld : s.host.held = []) (hsump : (kvPools s).sumpObj = none) (flag : BitVec 4) :
    discardHeld flag s = { s with host := { s.host with holdEnded := true } } := by
  have hsame : { s with host := { s.host with held := [], holdEnded := true } } = { s with host := { s.host with holdEnded := true } } := by
    rw [← hheld]
  rw [discardHeld, hheld]
  refine (kvTorn_none ?_).trans hsame
  exact hsump

theorem linkReset_flags (cause : BitVec 4) (s : State) :
    (linkReset cause s).host.bme = false ∧ (linkReset cause s).host.atomicEn = false ∧ (linkReset cause s).host.msixEn = false ∧
      (linkReset cause s).host.d3 = false ∧ (linkReset cause s).host.needAttach = true := functionReset_flags _

/-- A reset of a device that is not attached and holds nothing clears the configuration and the hold (R302, R303, R306). -/
theorem linkReset_away {s : State} (haway : s.host.attached = false) (hheld : s.host.held = []) (hsump : (kvPools s).sumpObj = none)
    (cause : BitVec 4) : ∃ m, linkReset cause s = { s with host := { s.host with
      holdEnded := true, needAttach := true, resetSeen := true, bme := false, atomicEn := false, msixEn := false, d3 := false, msix := m } } := by
  rw [linkReset, detachLink_away haway, discardHeld_none hheld hsump, haway, Bool.not_false, Bool.or_true]
  exact ⟨_, rfl⟩

theorem holdLimit_still {s : State} (h : s.host.attached = true ∨ s.host.holdEnded = true) : holdLimit s = s := if_pos h

theorem holdLimit_ends {s : State} (haway : s.host.attached = false) (hopen : s.host.holdEnded = false) (hheld : s.host.held = [])
    (hsump : (kvPools s).sumpObj = none) : holdLimit s = { s with host := { s.host with holdEnded := true } } := by
  rw [holdLimit, if_neg (by simp [haway, hopen]), discardHeld_none hheld hsump]

/-! The link comes up. -/

theorem flushMsix_off {s : State} (h : s.host.msixEn = false ∨ s.host.up = false) : flushMsix s = s := by
  refine if_neg ?_
  rintro ⟨hup, hen⟩
  exact h.elim (ne_true_of_eq_false · hen) (ne_true_of_eq_false · hup)

theorem dlUp_ignored {s : State} (h : s.host.enabled = false ∨ s.host.perst = true) (cxl : Bool) (w r : Nat) : dlUp cxl w r s = s :=
  if_pos (h.imp_left ne_true_of_eq_false)

/-- The state with the link up at the width and rate given (R285); a changed CXL mode drops the line cache (R295). -/
def linkedUp (cxl : Bool) (w r : Nat) (s : State) : State :=
  { s with host := { s.host with up := true, detect := false, width := w, rate := r, cxl, lines := if cxl = s.host.cxl then s.host.lines else [] } }

theorem trains_of_enabled {s : State} (hon : s.host.enabled = true) (hperst : s.host.perst = false) :
    ¬ (¬ s.host.enabled ∨ s.host.perst) := by simp [hon, hperst]

/-- A link of an enabled device that may not attach again only notes what was trained. -/
theorem dlUp_notes {s : State} (hon : s.host.enabled = true) (hperst : s.host.perst = false) (hmsix : s.host.msixEn = false)
    (h : s.host.attached = true ∨ s.host.needAttach = true ∨ s.host.holdEnded = true ∨ s.host.bme = false) (cxl : Bool) (w r : Nat) :
    dlUp cxl w r s = linkedUp (cxl && decide (r = 5) && (decide (w = 8) || decide (w = 4))) w r s := by
  have hstay : ¬ (¬ s.host.attached ∧ ¬ s.host.holdEnded ∧ ¬ s.host.needAttach ∧ s.host.bme ∧ ¬ s.host.d3) := by
    rintro ⟨ha, he, hn, hb, -⟩
    rcases h with h | h | h | h
    · exact ha h
    · exact hn h
    · exact he h
    · exact ne_true_of_eq_false h hb
  rw [dlUp, if_neg (trains_of_enabled hon hperst)]
  dsimp only
  rw [if_neg hstay]
  exact flushMsix_off (.inl hmsix)

/-- Within the hold the device is attached and its held writes go out in order (R304). -/
theorem dlUp_attaches {s : State} (hon : s.host.enabled = true) (hperst : s.host.perst = false) (haway : s.host.attached = false)
    (hopen : s.host.holdEnded = false) (hkept : s.host.needAttach = false) (hbme : s.host.bme = true) (hd3 : s.host.d3 = false)
    (hmsix : s.host.msixEn = false) (cxl : Bool) (w r : Nat) : dlUp cxl w r s =
      let u := linkedUp (cxl && decide (r = 5) && (decide (w = 8) || decide (w = 4))) w r s
      { u with sent := s.sent ++ s.host.held.map Out.hostWrite
               host := { u.host with attached := true, replayed := true, held := [], overflowed := false, holdEnded := true } } := by
  have hmay : ¬ s.host.attached ∧ ¬ s.host.holdEnded ∧ ¬ s.host.needAttach ∧ s.host.bme ∧ ¬ s.host.d3 := by simp [haway, hopen, hkept, hbme, hd3]
  rw [dlUp, if_neg (trains_of_enabled hon hperst)]
  dsimp only
  rw [if_pos hmay, emits]
  exact flushMsix_off (.inl hmsix)

/-! MSI-X. -/

/-- The vector's table entry as MSIX_UNMASK writes it (R302). -/
def unmasked (v : Nat) (a : W64) (d : W32) (s : State) : MsixVec := { addr := a, data := d, masked := false, pend := (getVec s v).pend }

theorem msixUnmask_eq {v : Nat} (hv : v < 64) (en : Bool) (a : W64) (d : W32) (s : State) :
    msixUnmask en v a d s = flushMsix { s with host := { s.host with msixEn := en, msix := putK {} s.host.msix v (unmasked v a d s) } } := by
  rw [msixUnmask]
  dsimp only
  rw [if_pos hv]
  rfl

theorem unmasked_ne_masked (a : W64) (d : W32) (p : Bool) : ({ addr := a, data := d, masked := false, pend := p } : MsixVec) ≠ {} := by
  intro h
  exact Bool.false_ne_true (congrArg MsixVec.masked h)

theorem putK_alone {α : Type} [DecidableEq α] {d x : α} (hx : x ≠ d) (k : Nat) (y : α) : putK d [(k, y)] k x = [(k, x)] := by
  rw [putK, if_neg (Nat.lt_irrefl k), if_pos rfl, if_neg hx]

/-- A vector that pends alone and may go out is sent and pends no more (R302). -/
theorem flushMsix_one {s : State} {v : Nat} {a : W64} {d : W32} (hup : s.host.up = true) (hen : s.host.msixEn = true)
    (h : s.host.msix = [(v, { addr := a, data := d, masked := false, pend := true })]) :
    flushMsix s = emit (.msix v) { s with host := { s.host with msix := [(v, { addr := a, data := d, masked := false, pend := false })] } } := by
  rw [flushMsix, if_pos ⟨hup, hen⟩, h]
  simp only [List.filter, Bool.not_false, Bool.and_true, List.foldl, h]
  rw [putK_alone (unmasked_ne_masked _ _ _)]

/-- Settles O41: a clause per command, each from the case of the link's operation that its hypotheses name. -/
theorem hostLinkLossAndReturn : Obligations.HostLinkLossAndReturn := by
  unfold Obligations.HostLinkLossAndReturn
  refine ⟨fun s h => ⟨?downAtt, ?d3Att, ?bmeAtt⟩, fun s h => ⟨?downAway, ?d3Away, ?bmeAway⟩, fun s i hi => ?resets,
    fun s haway hheld hsump => ⟨?perst, ?hot, ?flr⟩, fun s => rfl, fun s cxl w r h => ?ignored,
    fun s w r hon hperst hcxl hmsix h => ?noted, fun s cxl w r hon hperst haway hopen hkept hbme hd3 hmsix => ?attaches,
    fun s => ⟨fun h => ?holdStill, fun haway hopen hheld hsump => ?holdEnds⟩, fun s v a d en hv h => ?unmaskQuiet,
    fun s v a d e hv hup hmsix hpend => ?unmaskSends, fun s x rest => ⟨fun h => ?noRead, fun h => ?oldest⟩⟩
  case downAtt => exact congrArg Host.Outcome.next (detachLink_attached (s := { s with host := { s.host with up := false } }) h 1)
  case d3Att => exact congrArg Host.Outcome.next (detachLink_attached (s := { s with host := { s.host with d3 := true } }) h 5)
  case bmeAtt => exact congrArg Host.Outcome.next (detachLink_attached (s := { s with host := { s.host with bme := false } }) h 6)
  case downAway => exact congrArg Host.Outcome.next (detachLink_away (s := { s with host := { s.host with up := false } }) h 1)
  case d3Away => exact congrArg Host.Outcome.next (detachLink_away (s := { s with host := { s.host with d3 := true } }) h 5)
  case bmeAway => exact congrArg Host.Outcome.next (detachLink_away (s := { s with host := { s.host with bme := false } }) h 6)
  case resets =>
    simp only [List.mem_cons, List.not_mem_nil, or_false] at hi
    rcases hi with rfl | rfl | rfl
    · exact ⟨_, rfl, linkReset_flags ..⟩
    · exact ⟨_, rfl, linkReset_flags ..⟩
    · exact ⟨_, rfl, linkReset_flags ..⟩
  case perst =>
    obtain ⟨m, hm⟩ := linkReset_away (s := { s with host := { s.host with up := false, perst := true, detect := false } }) haway hheld hsump 2
    exact ⟨_, rfl, m, hm⟩
  case hot =>
    obtain ⟨m, hm⟩ := linkReset_away (s := { s with host := { s.host with up := false, detect := s.host.enabled && !s.host.perst } }) haway hheld hsump 3
    exact ⟨_, rfl, m, hm⟩
  case flr =>
    obtain ⟨m, hm⟩ := linkReset_away haway hheld hsump 4
    exact ⟨_, rfl, m, hm⟩
  case ignored => exact congrArg Host.Outcome.next (dlUp_ignored h cxl w r)
  case noted =>
    refine congrArg Host.Outcome.next ((dlUp_notes hon hperst hmsix h false w r).trans ?_)
    simp [linkedUp, hcxl]
  case attaches =>
    refine ⟨_, congrArg Host.Outcome.next (dlUp_attaches hon hperst haway hopen hkept hbme hd3 hmsix cxl w r), rfl, rfl, rfl, ?_, fun hne => if_neg hne⟩
    simp only [linkedUp, Bool.and_eq_true, Bool.or_eq_true, decide_eq_true_eq, and_assoc]
  case holdStill => exact congrArg Host.Outcome.next (holdLimit_still h)
  case holdEnds => exact congrArg Host.Outcome.next (holdLimit_ends haway hopen hheld hsump)
  case unmaskQuiet => exact congrArg Host.Outcome.next ((msixUnmask_eq hv en a d s).trans (flushMsix_off h))
  case unmaskSends =>
    have hvec : getVec s v = e := by rw [getVec, hmsix, getK, if_pos rfl]
    refine congrArg Host.Outcome.next ((msixUnmask_eq hv true a d s).trans ?_)
    rw [hmsix, unmasked, hvec, hpend, putK_alone (unmasked_ne_masked a d true)]
    exact flushMsix_one hup rfl rfl
  case noRead =>
    refine congrArg Host.Outcome.next ?_
    rw [bar2Timeout, h]
  case oldest =>
    refine congrArg Host.Outcome.next ?_
    rw [bar2Timeout, h]
    rfl

end Sys2Proof.Laws
end

section
/-! PROOF. The host's accesses through BAR2 and the inbound windows, and the ends of the device's own requests to the host
(R289–R300, R325). -/
open Sys2Proof Sys2Proof.Machine
namespace Sys2Proof.Laws

/-! BAR2. -/

theorem bar2At_beyond {a n : Nat} (s : State) (ha : 0x808800000 ≤ a) (hn : 0 < n) : bar2At s a n = .gone := by
  rw [bar2At, if_neg (by omega), if_neg (by omega), if_neg (by omega)]

theorem bar2At_staging {a n : Nat} (s : State) (ha : 0x808000000 ≤ a) (hend : a + n ≤ 0x808800000) : bar2At s a n = .staging (a - 0x808000000) := by
  rw [bar2At, if_neg (by omega), if_neg (by omega), if_pos ⟨ha, hend⟩]

theorem bar2At_chamber {a n : Nat} (s : State) (ha : 0x800000000 ≤ a) (hend : a < 0x804000000) :
    bar2At s a n = .chamber (a - 0x800000000) ∨ bar2At s a n = .gone := by
  rw [bar2At, if_neg (by omega), if_pos hend]
  dsimp only
  split
  · exact .inl rfl
  · exact .inr rfl

/-- A write to the read-only range or to no memory is discarded with one C0 note (R289). -/
theorem bar2Write_discarded {s : State} {a : Nat} {bs : List Byte} (ep : Bool)
    (h : (0x808000000 ≤ a ∧ a < 0x808200000 ∧ a + bs.length ≤ 0x808800000) ∨ (0x808800000 ≤ a ∧ 0 < bs.length)) :
    bar2Access a (.write bs ep) s = bar2Discard a s := by
  rw [bar2Access]
  rcases h with ⟨ha, hread, hend⟩ | ⟨ha, hn⟩
  · rw [bar2At_staging s ha hend]
    have hlow : a - 0x808000000 < 0x200000 := by omega
    exact if_pos (decide_eq_true hlow)
  · rw [bar2At_beyond s ha hn]
    have hnone : ¬ (0x800000000 ≤ a ∧ a < 0x804000000) := by omega
    exact if_neg hnone

theorem bar2Write_staging {s : State} {o : Nat} {bs : List Byte} (ho : 0x200000 ≤ o) (hend : o + bs.length ≤ 0x800000) :
    bar2Access (0x808000000 + o) (.write bs false) s = { s with mem := stagingPut o bs [] s.mem } := by
  have hoff : 0x808000000 + o - 0x808000000 = o := Nat.add_sub_cancel_left ..
  rw [bar2Access, bar2At_staging s (by omega) (by omega), hoff]
  have hhigh : ¬ o < 0x200000 := by omega
  exact if_neg (ne_true_of_eq_false (decide_eq_false hhigh))

theorem bar2Atomic_chamber {s : State} {a : Nat} (ha : 0x800000000 ≤ a) (hend : a < 0x804000000) (op : AtomicOp) (wide : Bool) (x y : W64) :
    bar2Access a (.atomic op wide x y) s = emit (.completion [] false true false) s := by
  rw [bar2Access]
  dsimp only
  rcases bar2At_chamber (n := if wide then 8 else 4) s ha hend with h | h <;> rw [h]

/-! Inbound windows (R298). -/

section Window
variable {s : State} {w off : Nat}

/-- A window's access that lies outside every buffer and the doorbell page. -/
theorem inbound_beyond (hw : w < 16) (h : (getInb s w).bound = false ∨
      ((getInb s w).nb * ((getInb s w).bufsz * 4096) ≤ off ∧ 0 < (getInb s w).bufsz ∧ off < 0x3FFF000)) (data : List Byte) (ep : Bool) (rid : W16) :
    inboundAccess w off data ep rid s = setInb w { getInb s w with oor := (getInb s w).oor.inc } s := by
  rw [inboundAccess]
  dsimp only
  rcases h with h | ⟨hoff, hsize, hpage⟩
  · rw [if_pos (.inl (ne_true_of_eq_false h)), if_pos hw]
  · have hbeyond : (getInb s w).nb ≤ off / max ((getInb s w).bufsz * 4096) 1 := by
      rw [Nat.max_eq_left (by omega)]
      exact (Nat.le_div_iff_mul_le (by omega)).2 hoff
    have hout : decide (doorbellPage ≤ off) = false := decide_eq_false (Nat.not_le_of_lt hpage)
    split
    · rfl
    · exact if_pos ⟨ne_true_of_eq_false hout, .inl hbeyond⟩

/-- An access of `n` bytes at byte `j` of buffer `b` of a bound window. -/
structure InBuffer (s : State) (w b j n : Nat) : Prop where
  window : w < 16
  bound : (getInb s w).bound = true
  buffer : b < (getInb s w).nb
  fits : j + n ≤ (getInb s w).bufsz * 4096
  inside : j < (getInb s w).bufsz * 4096
  below : b * ((getInb s w).bufsz * 4096) + j < 0x3FFF000

section InBuffer
variable {b j : Nat} {data : List Byte} (h : InBuffer s w b j data.length)
include h

theorem InBuffer.index : (b * ((getInb s w).bufsz * 4096) + j) / max ((getInb s w).bufsz * 4096) 1 = b := by
  have hj := h.inside
  rw [Nat.max_eq_left (by omega), Nat.mul_comm b, Nat.mul_add_div (by omega), Nat.div_eq_of_lt hj, Nat.add_zero]

theorem InBuffer.inRange : ¬ ((getInb s w).nb ≤ b ∨
    (b + 1) * ((getInb s w).bufsz * 4096) < b * ((getInb s w).bufsz * 4096) + j + data.length) := by
  have hb := h.buffer
  have hfits := h.fits
  rw [Nat.add_one_mul]
  omega

theorem InBuffer.isBound : ¬ (¬ (getInb s w).bound ∨ 16 ≤ w) := not_or.2 ⟨not_not.2 h.bound, Nat.not_le_of_lt h.window⟩

theorem InBuffer.noDoorbell : decide (doorbellPage ≤ b * ((getInb s w).bufsz * 4096) + j) = false := decide_eq_false (Nat.not_le_of_lt h.below)

theorem inbound_filtered (ep : Bool) {rid : W16} (hfilter : (getInb s w).filter = true) (hrid : (getInb s w).rid ≠ rid) :
    inboundAccess w (b * ((getInb s w).bufsz * 4096) + j) data ep rid s = setInb w { getInb s w with rej := (getInb s w).rej.inc } s := by
  rw [inboundAccess]
  dsimp only
  rw [h.index, if_neg h.isBound, if_neg (fun hr => h.inRange hr.2), if_pos ⟨hfilter, hrid⟩]

/-- A write to a HELD buffer is counted, and the buffer's next doorbell is CORRUPT (R300). -/
theorem inbound_held (ep : Bool) (rid : W16) (hopen : (getInb s w).filter = false) (hheld : (getInb s w).isHeld b = true) :
    inboundAccess w (b * ((getInb s w).bufsz * 4096) + j) data ep rid s = setInb w { getInb s w with
      heldCnt := (getInb s w).heldCnt.inc
      corrupt := if (getInb s w).corrupt.contains b then (getInb s w).corrupt else (getInb s w).corrupt ++ [b] } s := by
  rw [inboundAccess]
  dsimp only
  rw [h.index, if_neg h.isBound, if_neg (fun hr => h.inRange hr.2), if_neg (fun hf => ne_true_of_eq_false hopen hf.1),
    if_neg (ne_true_of_eq_false h.noDoorbell), if_pos hheld]

theorem inbound_toObject (ep : Bool) (rid : W16) (hopen : (getInb s w).filter = false) (hfree : (getInb s w).isHeld b = false) {d : Handle × ObjDesc}
    (hdesc : s.obj.descs.find? (fun d => d.1 = (getInb s w).obj) = some d) (hlen : d.2.length ≠ 0) (hwait : s.host.inbWait = []) :
    inboundAccess w (b * ((getInb s w).bufsz * 4096) + j) data ep rid s =
      inbPut (objectAt s d.2 (b * ((getInb s w).bufsz * 4096) + j) data.length) data ep s := by
  rw [inboundAccess]
  dsimp only
  rw [h.index, if_neg h.isBound, if_neg (fun hr => h.inRange hr.2), if_neg (fun hf => ne_true_of_eq_false hopen hf.1),
    if_neg (ne_true_of_eq_false h.noDoorbell), if_neg (ne_true_of_eq_false hfree), hdesc, hwait]
  exact if_neg hlen

end InBuffer

/-- A doorbell of a bound window without a filter, its value's reserved bits 0. -/
theorem inbound_doorbell (hw : w < 16) (hbound : (getInb s w).bound = true) (hopen : (getInb s w).filter = false) {v : W32}
    (hres : v.toNat / 4 % 16384 = 0) (rid : W16) :
    inboundAccess w doorbellPage (leBytes 4 v.toNat) false rid s =
      if (getInb s w).nb ≤ v.toNat % 4 then setInb w { getInb s w with oor := (getInb s w).oor.inc } s
      else if s.host.inbWait.isEmpty then inboundRing w (v.toNat % 4) v s
      else { s with host := { s.host with inbWait := s.host.inbWait ++ [.inboundDoorbell w v rid] } } := by
  have hv : BitVec.ofNat 32 (leVal (leBytes 4 v.toNat)) = v := by
    rw [leVal_leBytes]
    exact BitVec.eq_of_toNat_eq (by rw [BitVec.toNat_ofNat, Nat.mod_mod]; exact Nat.mod_eq_of_lt v.isLt)
  rw [inboundAccess]
  dsimp only
  rw [if_neg (by simp [hbound]; omega), hv]
  simp [hopen, hres]

/-- The window after a doorbell of a buffer with no stream (R299, R300). -/
def rungWindow (w b : Nat) (v : W32) (s : State) : InbWin :=
  { getInb s w with
    seq := BitVec.ofNat 16 (v.toNat / 65536), dbLtc := now s
    held := ((getInb s w).held.filter (fun e => !(e.1 = b) && ((getInb s w).stream = 0xFF || e.2.isSome))) ++ [(b, none)]
    corrupt := (getInb s w).corrupt.erase b }

theorem rungWindow_held (b : Nat) (v : W32) : (rungWindow w b v s).isHeld b = true := by
  simp [rungWindow, InbWin.isHeld]

theorem inboundRing_streamless {b : Nat} (h : (getInb s w).stream = 0xFF) (v : W32) : inboundRing w b v s =
    postEvent (getInb s w).event (Config.evtKind 4) (leBytes 1 w ++ leBytes 1 b ++ leBytes 2 (v.toNat / 65536) ++ [0, 0, 0, 0] ++ leBytes 8 (now s).toNat)
      (setInb w (rungWindow w b v s) s) := if_pos h

end Window

/-! The ends of the device's requests (R296). -/

section Requests
variable {s : State} {tag : Nat}

/-- The state without the request of a tag. -/
def requestOver (tag : Nat) (s : State) : State := { s with host := { s.host with reqs := s.host.reqs.filter (fun r => r.tag ≠ tag) } }

theorem takeReq_none (h : s.host.reqs.find? (fun r => r.tag = tag) = none) : takeReq tag s = none := by
  rw [takeReq, h]
  rfl

theorem takeReq_some {q : HReq} (h : s.host.reqs.find? (fun r => r.tag = tag) = some q) : takeReq tag s = some (q, requestOver tag s) := by
  rw [takeReq, h]
  rfl

theorem hostCompletion_known {q : HReq} (h : s.host.reqs.find? (fun r => r.tag = tag) = some q) (st : CplStatus) (data : List Byte) :
    hostCompletion tag st data s = finishReq q (if st = .success then some data else none) (st = .unsupportedRequest) (requestOver tag s) := by
  rw [hostCompletion, takeReq_some h]

theorem hostTimeout_core {q : HReq} {core : Node} {tg : W16} {o : Handle} {a : W64} {len : Nat}
    (h : s.host.reqs.find? (fun r => r.tag = tag) = some q) (hq : q.what = .coreReq core tg o a len) : hostTimeout tag s = requestOver tag s := by
  rw [hostTimeout, takeReq_some h]
  dsimp only
  rw [hq]

/-- A core's read of no bytes is answered OK. -/
theorem finishReq_core_ok {q : HReq} {core : Node} {tg : W16} {o : Handle} {a : W64} (hq : q.what = .coreReq core tg o a 0) (bs : List Byte) (ur : Bool) :
    finishReq q (some bs) ur s = emitFab (.reply core tg .ok bs) s := by
  rw [finishReq, hq]
  rfl

/-- A core's request that fails is answered POISON, without a raise unless an atomic met Unsupported Request. -/
theorem finishReq_core_failed {q : HReq} {core : Node} {tg : W16} {o : Handle} {a : W64} {len : Nat} {ur : Bool}
    (hq : q.what = .coreReq core tg o a len) (hur : ¬ (ur = true ∧ len = 0)) : finishReq q none ur s = emitFab (.reply core tg .poison []) s := by
  rw [finishReq, hq]
  exact if_neg hur

end Requests

/-! Invalidations (R325). -/

theorem invalidateComplete_unknown {s : State} {id : W32} (h : ∀ x ∈ s.obj.invals, x.id ≠ id) : invalidateComplete id s = s := by
  have hnone : s.obj.invals.find? (fun x => x.id = id && (x.applied || !loopRuns s)) = none := by
    rw [List.find?_eq_none]
    intro x hx
    simp [h x hx]
  rw [invalidateComplete, hnone]

theorem invalidateComplete_applied {s : State} {id : W32} {x : Inval} (h : s.obj.invals.find? (fun x => x.id = id) = some x) (happ : x.applied = true) :
    invalidateComplete id s = postEvent x.event (Config.evtKind 23) (leBytes 4 id.toNat)
      { s with obj := { s.obj with invals := s.obj.invals.filter (fun y => y.id ≠ id) } } := by
  have hfound : s.obj.invals.find? (fun x => x.id = id && (x.applied || !loopRuns s)) = some x := by
    obtain ⟨hid, before, after, hlist, hearlier⟩ := List.find?_eq_some_iff_append.1 h
    refine List.find?_eq_some_iff_append.2 ⟨by simp [of_decide_eq_true hid, happ], before, after, hlist, fun y hy => ?_⟩
    have hother := hearlier y hy
    simp only [Bool.not_eq_true', decide_eq_false_iff_not] at hother
    simp [hother]
  rw [invalidateComplete, hfound]
  dsimp only
  rw [if_pos happ]

/-- Settles O42: each access goes through the lemma for the place it names, each completion through the request's end. -/
theorem hostAccesses : Obligations.HostAccesses := by
  unfold Obligations.HostAccesses
  refine ⟨fun s a n ha hn => ?readGone, fun s o n hend => ?readStaging, fun s a bs ep h => ?discarded, fun s o bs ho hend hwf => ?written,
    fun s a op wide x y ha hend => ?chamber, fun s w off data ep rid hw h => ?oor,
    fun s w b j data ep rid hw hbound hb hend hj hpage => ⟨fun hfilter hrid => ?rejected, fun hopen hheld => ?held, fun d hopen hfree hdesc hlen hwait => ?object⟩,
    fun s w v rid hw hbound hopen hres => ⟨fun hnb => ?bellOor, fun hnb hwait hstream => ?bell⟩,
    fun s w b => ⟨fun h => ?released, fun h => ?kept⟩, fun s tag st data h => ⟨?unknown, ?unknownLate⟩,
    fun s tag st data q core tg o a len hfound hq => ⟨fun hlen => ?ok, fun hst hno => ?failed, ?late⟩, fun s h l => rfl,
    fun s id => ⟨fun h => ?noInval, fun x hfound happ => ?inval⟩⟩
  case readGone =>
    refine congrArg Host.Outcome.next ?_
    rw [bar2Access, bar2At_beyond s ha hn]
    rfl
  case readStaging =>
    refine congrArg Host.Outcome.next ?_
    have hoff : 0x808000000 + o - 0x808000000 = o := Nat.add_sub_cancel_left ..
    rw [bar2Access, bar2At_staging s (by omega) (by omega), hoff]
    rfl
  case discarded => exact congrArg Host.Outcome.next (bar2Write_discarded ep h)
  case written =>
    refine ⟨_, congrArg Host.Outcome.next (bar2Write_staging ho hend), ?_, ?_, rfl⟩
    · intro i hi
      simp only [stagingPut_full]
      rw [rd_wrN _ hwf, if_pos (by omega), Nat.add_sub_cancel_left]
    · intro a ha
      simp only [stagingPut_full]
      exact rd_wrN_outside hwf ha
  case chamber => exact congrArg Host.Outcome.next (bar2Atomic_chamber ha hend op wide x y)
  case oor => exact congrArg Host.Outcome.next (inbound_beyond hw h data ep rid)
  case rejected => exact congrArg Host.Outcome.next (inbound_filtered ⟨hw, hbound, hb, hend, hj, hpage⟩ ep hfilter hrid)
  case held =>
    refine ⟨_, ?_, congrArg Host.Outcome.next (inbound_held ⟨hw, hbound, hb, hend, hj, hpage⟩ ep rid hopen hheld)⟩
    split
    · rename_i hin
      simpa using hin
    · simp
  case object => exact congrArg Host.Outcome.next (inbound_toObject ⟨hw, hbound, hb, hend, hj, hpage⟩ ep rid hopen hfree hdesc hlen hwait)
  case bellOor => exact congrArg Host.Outcome.next ((inbound_doorbell hw hbound hopen hres rid).trans (if_pos hnb))
  case bell =>
    refine ⟨rungWindow w (v.toNat % 4) v s, rfl, rfl, rungWindow_held .., rfl, congrArg Host.Outcome.next ?_⟩
    rw [inbound_doorbell hw hbound hopen hres, if_neg (by omega), hwait]
    exact inboundRing_streamless hstream v
  case released => exact congrArg Host.Outcome.next (if_pos h)
  case kept => exact congrArg Host.Outcome.next (if_neg h)
  case unknown =>
    refine congrArg Host.Outcome.next ?_
    rw [hostCompletion, takeReq_none h]
  case unknownLate =>
    refine congrArg Host.Outcome.next ?_
    rw [hostTimeout, takeReq_none h]
  case ok =>
    subst hlen
    exact congrArg Host.Outcome.next ((hostCompletion_known hfound ..).trans (finishReq_core_ok hq ..))
  case failed =>
    refine congrArg Host.Outcome.next ((hostCompletion_known hfound ..).trans ?_)
    rw [if_neg hst]
    refine finishReq_core_failed hq ?_
    rintro ⟨hur, hlen⟩
    exact hno.elim (· hlen) (· (of_decide_eq_true hur))
  case late => exact congrArg Host.Outcome.next (hostTimeout_core hfound hq)
  case noInval => exact congrArg Host.Outcome.next (invalidateComplete_unknown h)
  case inval => exact congrArg Host.Outcome.next (invalidateComplete_applied hfound happ)

end Sys2Proof.Laws
end

section
/-! PROOF. Samples of the supervised outputs (R364, R428, R430, R520–R527). -/
open Sys2Proof Sys2Proof.Machine
namespace Sys2Proof.Laws

/-! The condition that a sample shows (R522, R526). -/

section Condition
variable {s : State} {p : PinSample} {d : Bool} (hdrive : (sioMode s p.pin).openDrain = false)
include hdrive

theorem sampleCond_ground (hd : d = true) (hlevel : p.level = false) (hlimit : p.atLimit = true) : sampleCond s p d = 1 := by
  simp [sampleCond, hdrive, hd, hlevel, hlimit]

theorem sampleCond_supply (hd : d = false) (hlevel : p.level = true) (hlimit : p.atLimit = true) : sampleCond s p d = 2 := by
  simp [sampleCond, hdrive, hd, hlevel, hlimit]

theorem sampleCond_readback (hlevel : p.level ≠ d) (hlimit : p.atLimit = false) (hused : pinUsed s p.pin = true) : sampleCond s p d = 3 := by
  have hdiffer : d ≠ p.level := hlevel.symm
  simp [sampleCond, hdrive, hlimit, hused, hdiffer]

/-- A readback equal to the drive: what is left to judge is the legs and the current. -/
theorem sampleCond_equal (hlevel : p.level = d) : sampleCond s p d =
    if ¬ pinUsed s p.pin then 0
    else if againstLoad (sioMode s p.pin) d ∧ [0, 1, 3].contains p.pin ∧ (p.legPercent < 25 ∨ 75 < p.legPercent) then 4
    else if againstLoad (sioMode s p.pin) d ∧ (sioMode s p.pin).openDetect ∧ p.microAmp * (sioMode s p.pin).rMax * 100 < 1650000 then 5
    else 0 := by
  cases d <;> simp [sampleCond, hdrive, hlevel]

theorem sampleCond_leg (hlevel : p.level = d) (hused : pinUsed s p.pin = true) (hload : againstLoad (sioMode s p.pin) d = true)
    (hpin : p.pin ∈ [0, 1, 3]) (hleg : p.legPercent < 25 ∨ 75 < p.legPercent) : sampleCond s p d = 4 := by
  rw [sampleCond_equal hdrive hlevel, if_neg (not_not.2 hused), if_pos ⟨hload, List.contains_iff_mem.2 hpin, hleg⟩]

/-- Both legs carry their part: the current decides, where an open load is looked for. -/
theorem sampleCond_current (hlevel : p.level = d) (hused : pinUsed s p.pin = true) (hload : againstLoad (sioMode s p.pin) d = true)
    (hlow : 25 ≤ p.legPercent) (hhigh : p.legPercent ≤ 75) (hopen : (sioMode s p.pin).openDetect = true) :
    sampleCond s p d = if p.microAmp * (sioMode s p.pin).rMax * 100 < 1650000 then 5 else 0 := by
  have hlegs : ¬ (p.legPercent < 25 ∨ 75 < p.legPercent) := by omega
  rw [sampleCond_equal hdrive hlevel, if_neg (not_not.2 hused), if_neg (fun h => hlegs h.2.2)]
  simp only [hload, hopen, true_and]

theorem sampleCond_unloaded (hlevel : p.level = d) (hload : againstLoad (sioMode s p.pin) d = false) : sampleCond s p d = 0 := by
  simp [sampleCond_equal hdrive hlevel, hload]

end Condition

/-! What a pin's sample does (R430, R522). -/

theorem exec_sioSample_one (p : PinSample) (s : State) : exec (.sioSample [p]) s = .next (pinSample p s) := rfl

/-- The state with a pin's count of samples replaced. -/
def setPin (k : Nat) (y : SioPin) (s : State) : State := { s with sio := putK {} s.sio k y }

section Sample
variable {s : State} {p : PinSample}

theorem pinSample_beyond (h : 15 < p.pin) : pinSample p s = s := if_pos h

theorem pinSample_settling (hpin : p.pin ≤ 15) {u : W64} (hedge : pinEdge s p.pin = some u) (hsoon : (now s - u).toNat < 5000) : pinSample p s = s := by
  have hsettles : pinSettles s p.pin = true := by
    rw [pinSettles, hedge]
    exact decide_eq_true hsoon
  exact (if_neg (Nat.not_lt_of_le hpin)).trans (if_pos hsettles)

variable (hdue : ∀ u, pinEdge s p.pin = some u → 5000 ≤ (now s - u).toNat)
include hdue

theorem pinSettles_over : ¬ pinSettles s p.pin = true := by
  intro h
  rw [pinSettles] at h
  split at h
  · rename_i u hedge
    exact absurd (hdue u hedge) (Nat.not_le_of_lt (of_decide_eq_true h))
  · exact Bool.false_ne_true h

variable (hpin : p.pin ≤ 15)
include hpin

theorem pinSample_good (hcond : sampleCond s p (pinLevel s p.pin) = 0) (hfew : (getK {} s.sio p.pin).count < 5) :
    pinSample p s = setPin p.pin { getK {} s.sio p.pin with cond := 0, count := 0 } s := by
  rw [pinSample]
  dsimp only
  rw [if_neg (Nat.not_lt_of_le hpin), if_neg (pinSettles_over hdue), if_pos hcond, if_neg (Nat.not_le_of_lt hfew)]
  rfl

/-- A good sample where the confirmed condition would show withdraws its source. -/
theorem pinSample_recovers (hcond : sampleCond s p (pinLevel s p.pin) = 0) (hmany : 5 ≤ (getK {} s.sio p.pin).count)
    (hshows : condShows (sioMode s p.pin) (getK {} s.sio p.pin).cond (pinLevel s p.pin) = true) :
    pinSample p s = clearLevel (condSource (getK {} s.sio p.pin).cond) (sub_ 0x3FF p.pin)
      (setPin p.pin { getK {} s.sio p.pin with cond := 0, count := 0 } s) := by
  rw [pinSample]
  dsimp only
  rw [if_neg (Nat.not_lt_of_le hpin), if_neg (pinSettles_over hdue), if_pos hcond, if_pos hmany, if_pos hshows]
  rfl

theorem pinSample_first (hbad : sampleCond s p (pinLevel s p.pin) ≠ 0) (hnew : sampleCond s p (pinLevel s p.pin) ≠ (getK {} s.sio p.pin).cond)
    (hfew : (getK {} s.sio p.pin).count < 5) :
    pinSample p s = setPin p.pin { getK {} s.sio p.pin with cond := sampleCond s p (pinLevel s p.pin), count := 1 } s := by
  rw [pinSample]
  dsimp only
  rw [if_neg (Nat.not_lt_of_le hpin), if_neg (pinSettles_over hdue), if_neg hbad, if_neg hnew, if_neg (Nat.not_le_of_lt hfew)]
  rfl

/-- A sample that shows the pin's condition again is counted; the fifth in a row raises its source. -/
theorem pinSample_again (hbad : sampleCond s p (pinLevel s p.pin) ≠ 0) (hsame : sampleCond s p (pinLevel s p.pin) = (getK {} s.sio p.pin).cond) :
    pinSample p s =
      let c := sampleCond s p (pinLevel s p.pin)
      let t := setPin p.pin { getK {} s.sio p.pin with count := (getK {} s.sio p.pin).count + 1 } s
      let r := raise (condSource c) (sub_ 0x3FF p.pin) [BitVec.ofNat 8 c] t
      if (getK {} s.sio p.pin).count + 1 = 5 then (if c = 3 ∧ p.pin = 3 then raise .dvFaultPin dev [] r else r) else t := by
  rw [pinSample]
  dsimp only
  rw [if_neg (Nat.not_lt_of_le hpin), if_neg (pinSettles_over hdue), if_neg hbad, if_pos hsame]
  rfl

end Sample

/-- Settles O53: the condition by its cases, and what a sample does by the case of the condition and the count. -/
theorem supervisedSamples : Obligations.SupervisedSamples := by
  unfold Obligations.SupervisedSamples
  refine ⟨fun s => rfl, fun s t p ps h => ?pins, fun s p h => ?beyond, fun s p hpin => ⟨fun u hedge hsoon => ?settling, fun hdrive =>
    ⟨sampleCond_ground hdrive, sampleCond_supply hdrive, sampleCond_readback hdrive, sampleCond_leg hdrive,
      fun hlevel hused hload hlow hhigh hopen => ⟨fun hless => ?openLoad, fun hmore => ?right⟩, sampleCond_unloaded hdrive⟩,
    fun hdue hgood hfew => ?good, fun hdue hgood hmany hshows => ?recovers, fun hdue hbad hnew hfew => ?first, fun hdue hbad hsame hcount => ?again,
    fun hdue hbad hsame hcount => ?fifth⟩⟩
  case pins =>
    rw [exec_sioSample_one] at h
    cases h
    rfl
  case beyond => rw [exec_sioSample_one, pinSample_beyond h]
  case settling => rw [exec_sioSample_one, pinSample_settling hpin hedge hsoon]
  case openLoad => exact (sampleCond_current hdrive hlevel hused hload hlow hhigh hopen).trans (if_pos hless)
  case right => exact (sampleCond_current hdrive hlevel hused hload hlow hhigh hopen).trans (if_neg (Nat.not_lt_of_le hmore))
  case good => exact congrArg Host.Outcome.next (pinSample_good hdue hpin hgood hfew)
  case recovers => exact congrArg Host.Outcome.next (pinSample_recovers hdue hpin hgood hmany hshows)
  case first => exact congrArg Host.Outcome.next (pinSample_first hdue hpin hbad hnew hfew)
  case again =>
    have hnot : (getK {} s.sio p.pin).count + 1 ≠ 5 := fun h => hcount (Nat.succ.inj h)
    exact congrArg Host.Outcome.next ((pinSample_again hdue hpin hbad hsame).trans (if_neg hnot))
  case fifth =>
    have hfive : (getK {} s.sio p.pin).count + 1 = 5 := congrArg Nat.succ hcount
    have hraised := pinSample_again hdue hpin hbad hsame
    dsimp only at hraised
    rw [hfive, if_pos rfl] at hraised
    exact congrArg Host.Outcome.next hraised

end Sys2Proof.Laws
end

section
/-! PROOF. The torch conditions (R454): a torch stream that does not exist. -/
open Sys2Proof Sys2Proof.Machine
namespace Sys2Proof.Laws

/-- A loaded plan whose torch section names stream 0. -/
def streamTorchPlan : Loaded :=
  { emptyPlan with img := { emptyPlan.img with torch := some { cores := [], pairs := [], streams := [0], energy := 0 } } }

/-- The reset state with that plan loaded; stream 0 is not bound. -/
def unboundTorchState : State := { State.reset with plans := [streamTorchPlan] }

theorem getStream_unboundTorch (k : Nat) : getStream unboundTorchState k = none := rfl

/-- The model counts a torch stream that is not there as one that fails. -/
theorem torchCheck_unboundTorch : torchCheck unboundTorchState = .stream := by decide

/-- Refutes O52: the conditions as stated ask of a torch stream only what is asked of one that exists, and in `unboundTorchState` the
torch section's stream does not exist; the stated conditions hold there and `torchCheck` answers STREAM. -/
theorem not_torchQuietAndAlive : ¬ Obligations.TorchQuietAndAlive := by
  unfold Obligations.TorchQuietAndAlive
  rintro ⟨-, hconditions, -⟩
  have hsources : ∀ e ∈ unboundTorchState.fc.c3List, False := fun e he => nomatch he
  have hnone : torchCheck unboundTorchState = .none := by
    refine (hconditions unboundTorchState).2 ⟨streamTorchPlan, _, rfl, rfl, rfl, fun e he => (hsources e he).elim, fun e he => (hsources e he).elim, ?_⟩
    intro k _ r hr
    rw [getStream_unboundTorch] at hr
    cases hr
  rw [torchCheck_unboundTorch] at hnone
  cases hnone

end Sys2Proof.Laws
end

section
/-! PROOF. What records, events, interrupts and messages to other devices change (R302, R313, R361, R411, R425, R469). -/
open Sys2Proof Sys2Proof.Machine
namespace Sys2Proof.Laws

/-! What is told. -/

/-- From `s` to `t` something is only told: a log record, an event, an interrupt, a message to another device. -/
structure Tells (s t : State) : Prop where
  frame : t = { s with
    sent := t.sent, mem := t.mem, log := t.log, host := t.host, obj := t.obj
    dv := { s.dv with ports := t.dv.ports, ids := t.dv.ids } }

theorem Tells.refl (s : State) : Tells s s := ⟨rfl⟩

theorem Tells.trans {s t u : State} (h : Tells s t) (k : Tells t u) : Tells s u := by
  constructor
  rw [k.frame, h.frame]

theorem Tells.other (s : State) {sent : List Out} {mem : MemT} {log : Log} {host : HostLink} {obj : Obj} {ports : SMap DvPort} {ids : SMap W16} :
    Tells s { s with sent, mem, log, host, obj, dv := { s.dv with ports, ids } } := ⟨rfl⟩

theorem Tells.ite {s a b : State} {c : Prop} {d : Decidable c} (ha : Tells s a) (hb : Tells s b) : Tells s (if c then a else b) := by
  split <;> assumption

theorem logRec_tells (kind cls : Byte) (code : W16) (p : List Byte) (s : State) : Tells s (logRec kind cls code p s) := by
  obtain ⟨mem, log, h⟩ := logRec_frame kind cls code p s
  rw [h]
  exact .other s

theorem postEvent_tells (event kind : W16) (p : List Byte) (s : State) : Tells s (postEvent event kind p s) := by
  rw [(postEvent_posts event kind p s).frame]
  exact .other s

theorem note_tells (code : W16) (p : List Byte) (s : State) : Tells s (note code p s) := logRec_tells ..

theorem notifyAll_tells (kind : W16) (p : List Byte) (s : State) : Tells s (notifyAll kind p s) := by
  rw [(notifyAll_posts kind p s).frame]
  exact .other s

theorem dvSend_tells (k chan dst : Nat) (p : List Byte) (s : State) : Tells s (dvSend k chan dst p s) := by
  unfold dvSend dvQueue
  obtain ⟨sent, ports, h⟩ := dvPump_frame 65 k _
  rw [h]
  exact .other s

theorem toPartner_tells (chan : Nat) (p : List Byte) (s : State) : Tells s (toPartner chan p s) := by
  obtain ⟨sent, ports, ids, h⟩ := toPartner_frame chan p s
  rw [h]
  exact .other s

theorem announce_tells (s : State) : Tells s (announce s) := by
  have hside (k pos : Nat) (p : List Byte) (s : State) :
      Tells s (if pos = partnerPos s then s else if (getK {} s.dv.ports k).state = .active then dvSend k 2 pos p s else s) :=
    .ite (.refl s) (.ite (dvSend_tells ..) (.refl s))
  exact .ite (.refl s) (.ite (toPartner_tells ..) (((hside ..).trans (hside ..)).trans (toPartner_tells ..)))

theorem transition_tells (st : DevState) (prior : Option DevState) (cause : W16) (s : State) :
    Tells (entered st prior s) (transition st prior cause s) := (logRec_tells ..).trans (notifyAll_tells ..)

theorem enter_tells (st : DevState) (prior : Option DevState) (cause : W16) (s : State) :
    Tells (entered st prior s) (enter st prior cause s) := (transition_tells ..).trans (announce_tells _)

/-! What telling leaves. -/

section
variable {s t : State} (h : Tells s t)
include h

theorem Tells.dev : t.dev = s.dev := by rw [h.frame]
theorem Tells.ltn : t.ltn = s.ltn := by rw [h.frame]
theorem Tells.fc : t.fc = s.fc := by rw [h.frame]
theorem Tells.time : t.time = s.time := by rw [h.frame]
theorem Tells.mbD : t.mbD = s.mbD := by rw [h.frame]
theorem Tells.mbL : t.mbL = s.mbL := by rw [h.frame]
theorem Tells.loop : t.loop = s.loop := by rw [h.frame]
theorem Tells.plans : t.plans = s.plans := by rw [h.frame]
theorem Tells.cores : t.cores = s.cores := by rw [h.frame]
theorem Tells.adapt : t.adapt = s.adapt := by rw [h.frame]

end

end Sys2Proof.Laws
end

section
/-! PROOF. Firmware staging, the dispatch restart, configuration writes, the partner check's time-out, reconciliation, the parked
report and the debug port (R347, R382, R473–R486, R509–R512). -/
open Sys2Proof Sys2Proof.Machine
namespace Sys2Proof.Laws

/-! Staging (R477). -/

/-- The image that a good staging writes. -/
def stagedImage (x : StageCheck) : SlotCheck :=
  { wellFormed := true, signatureOk := true, rollback := x.rollback, version := x.version, digest := x.digest }

/-- A body's slots with the image in the slot that is not active. -/
def stagedSlots (x : StageCheck) (f : FwSlots) : FwSlots :=
  if f.activeB then { f with slotA := stagedImage x, staged := true } else { f with slotB := stagedImage x, staged := true }

theorem stageFailure_none (x : StageCheck) (otp : Nat) : stageFailure x otp = none ↔
    x.magic = true ∧ x.stepping = true ∧ x.signature = true ∧ x.body = true ∧ otp ≤ x.rollback := by
  simp only [stageFailure, ite_not]
  grind

section Staging
variable {s : State} {x : StageCheck}

theorem fwStageDone_idle (h : staging s = false ∨ ltnHeld s = true ∨ s.ltn.stageImg = none) (w : Bool) : fwStageDone x w s = s := by
  rcases h with h | h | h <;> simp [fwStageDone, h]

variable {b : FwBody} {off len : Nat} (hruns : staging s = true) (hlive : ltnHeld s = false) (himg : s.ltn.stageImg = some (b, off, len))
include hruns hlive himg

/-- The staging's end: it fails with the check's status, or with INTEGRITY (12) when the write fails, or fills the slot. -/
theorem fwStageDone_runs (w : Bool) : fwStageDone x w s =
    let failed (st : W16) : State := updateLog 2 (leBytes 2 st.toNat) { s with ltn := { s.ltn with stage := .failed, stageFail := st, stageImg := none } }
    match stageFailure x s.ltn.otpSteps with
    | some st => failed st
    | none => if ¬ w then failed 12
      else updateLog 3 [] (setFw b (stagedSlots x (getFw b s)) { s with ltn := { s.ltn with stage := .done, stageImg := none } }) := by
  unfold fwStageDone
  rw [hruns, hlive, himg]
  rfl

theorem fwStageDone_fails {w : Bool} {st : W16} (h : stageFailure x s.ltn.otpSteps = some st ∨ (stageFailure x s.ltn.otpSteps = none ∧ w = false ∧ st = 12)) :
    (fwStageDone x w s).ltn = { s.ltn with stage := .failed, stageFail := st, stageImg := none } := by
  rw [fwStageDone_runs hruns hlive himg]
  rcases h with h | ⟨h, rfl, rfl⟩ <;> rw [h] <;> exact (logRec_tells ..).ltn

theorem fwStageDone_fills (h : stageFailure x s.ltn.otpSteps = none) :
    (fwStageDone x true s).ltn = (setFw b (stagedSlots x (getFw b s)) { s with ltn := { s.ltn with stage := .done, stageImg := none } }).ltn := by
  rw [fwStageDone_runs hruns hlive himg, h]
  exact (logRec_tells ..).ltn

end Staging

/-! Configuration writes and expiry (R475, R486, R487). -/

section Configuration
variable {s : State}

theorem configWriteDone_idle (h : s.ltn.guard.writing = false ∨ ltnHeld s = true) (good : Bool) : configWriteDone good s = s :=
  if_pos (h.imp_left ne_true_of_eq_false)

/-- An endorsed change whose write is verified. -/
def writtenChange (s : State) : State :=
  { s with ltn := { s.ltn with cfg := { s.ltn.cfg with seq := s.ltn.cfg.seq + 1 }, guard := { s.ltn.guard with writing := false, written := true } } }

variable (hwriting : s.ltn.guard.writing = true) (hlive : ltnHeld s = false) (hphase : s.ltn.guard.phase = .endorsed)
include hwriting hlive hphase

theorem configWriteDone_bad : configWriteDone false s = guardPhase .vetoed 6 (updGuard (fun g => { g with writing := false }) s) := by
  rw [configWriteDone]
  dsimp only
  rw [if_neg (not_or.2 ⟨not_not.2 hwriting, ne_true_of_eq_false hlive⟩), if_pos Bool.false_ne_true, if_pos hphase]

theorem configWriteDone_good : configWriteDone true s = if loopRuns s then writtenChange s else applyDue (writtenChange s) := by
  rw [configWriteDone]
  dsimp only
  rw [if_neg (not_or.2 ⟨not_not.2 hwriting, ne_true_of_eq_false hlive⟩), if_neg (not_not.2 rfl), if_neg (not_not.2 hphase)]
  rfl

end Configuration

theorem guardPhase_tells (p : GPhase) (reason : Nat) (s : State) :
    Tells { s with ltn := { s.ltn with guard := { s.ltn.guard with phase := p } } } (guardPhase p reason s) := logRec_tells ..

/-- A written change that still passes its owner's checks is applied now (R486). -/
theorem applyDue_applies {s : State} (hphase : s.ltn.guard.phase = .endorsed) (hwritten : s.ltn.guard.written = true)
    (hcheck : checkChange s s.ltn.guard.change = none) : (applyDue s).ltn = { s.ltn with
      cfg := applyCfg s.ltn.guard.change s.ltn.cfg, guard := { s.ltn.guard with phase := .applied, written := false, deadline := now s } } := by
  rw [applyDue]
  dsimp only
  rw [if_neg (not_or.2 ⟨not_not.2 hphase, not_not.2 hwritten⟩), hcheck]
  dsimp only
  split <;> exact (guardPhase_tells ..).ltn

/-! The partner check's time-out (R347). -/

section PartnerCheck
variable {s : State}

theorem partnerCheckTimeout_idle (h : s.loop.starting = none ∨ s.mbD.waiting.find? (fun w => w.opcode = 0x0303) = none) : partnerCheckTimeout s = s := by
  unfold partnerCheckTimeout
  rcases h with h | h
  · rw [h]
  · rw [h]
    split
    · contradiction
    · rfl

theorem startPlan_none {c : Nat} (h : s.dev.state ≠ .attached ∨ planOf s c = none) : startPlan s c = none := by
  rw [startPlan]
  split
  next hatt => exact h.resolve_left (not_not.2 hatt)
  next => rfl

/-- The state without the start that waits. -/
def startTaken (w : Waiting) (s : State) : State :=
  { s with mbD := { s.mbD with waiting := s.mbD.waiting.erase w }, loop := { s.loop with starting := none } }

/-- The partner shows ADAPTING. -/
def PartnerAdapting (s : State) : Prop := ∃ b, s.dv.partner = some b ∧ b.devstate.toNat % 16 = 5

theorem partnerAdapting_iff (s : State) : (match s.dv.partner with | some b => b.devstate.toNat % 16 | none => 0) = 5 ↔ PartnerAdapting s := by
  unfold PartnerAdapting
  cases s.dv.partner <;> simp

variable {c : Nat} {e l : W64} {w : Waiting} (hstart : s.loop.starting = some (c, e, l)) (hwait : s.mbD.waiting.find? (fun w => w.opcode = 0x0303) = some w)
include hstart hwait

theorem partnerCheckTimeout_dropped (h : startPlan s c = none) : partnerCheckTimeout s = respond .dispatch w.slot 9 0 [] (startTaken w s) := by
  unfold partnerCheckTimeout
  rw [hstart, hwait]
  dsimp only
  rw [h]
  rfl

variable {p : Loaded} (hplan : startPlan s c = some p)
include hplan

theorem partnerCheckTimeout_adapting (htwin : s.dv.twin = true) (hlost : s.dv.lost = false) (hadapting : PartnerAdapting s) :
    partnerCheckTimeout s = logCheckFail 1 (respond .dispatch w.slot 12 1 [] (startTaken w s)) := by
  unfold partnerCheckTimeout
  rw [hstart, hwait]
  dsimp only
  rw [hplan]
  exact if_pos ⟨htwin, ne_true_of_eq_false hlost, (partnerAdapting_iff s).2 hadapting⟩

/-- Else the loop starts, the partner there only when a SPLIT partner is heard. -/
theorem partnerCheckTimeout_starts (h : ¬ (s.dv.twin = true ∧ s.dv.lost = false ∧ PartnerAdapting s)) : partnerCheckTimeout s =
    startLoop p w.slot (if e.toNat < (now s).toNat then now s else e)
      (!(!s.dv.twin && !s.dv.lost && s.dv.heard.isSome && (partnerPort s).isSome)) { startTaken w s with dv := { s.dv with mapped := false } } := by
  unfold partnerCheckTimeout
  rw [hstart, hwait]
  dsimp only
  rw [hplan]
  exact if_neg fun ⟨htwin, hlost, hshown⟩ => h ⟨htwin, eq_false_of_ne_true hlost, (partnerAdapting_iff s).1 hshown⟩

end PartnerCheck

/-! Reconciliation (R480–R482). -/

theorem reconcileRound_off {s : State} (h : s.dev.dispatchUp = false ∨ s.ltn.restart ≠ none) (v : Option (List (RUnit × UnitState))) :
    reconcileRound v s = s := if_pos (h.imp ne_true_of_eq_false Option.isSome_iff_ne_none.2)

theorem reconcileRound_runs {s : State} (hup : s.dev.dispatchUp = true) (hrestart : s.ltn.restart = none) :
    ¬ (¬ s.dev.dispatchUp ∨ s.ltn.restart.isSome) := by simp [hup, hrestart]

/-- A unit whose views differ for the first time, or agree, is left. -/
theorem judgeUnit_first {s : State} {before : List RUnit} {x : RUnit} (hnone : s.ltn.disagree = []) (h : viewsDiffer s x = true → x ∉ before) :
    judgeUnit before x s = s := by
  rw [judgeUnit, hnone]
  refine if_neg fun ⟨hdiffer, hbefore⟩ => h hdiffer (List.contains_iff_mem.1 hbefore)

/-- A unit that differs in two rounds in a row is quiesced and raised (R481). -/
theorem judgeUnit_second {s : State} {before : List RUnit} {x : RUnit} (hnone : s.ltn.disagree = []) (hdiffer : viewsDiffer s x = true) (h : x ∈ before) :
    judgeUnit before x s = raiseUnit x (match unitNode x with | some n => quiesce n 200000 s | none => s) := by
  rw [judgeUnit, hnone]
  exact if_pos ⟨hdiffer, List.contains_iff_mem.2 h⟩

theorem judgeUnits_first {s : State} {before : List RUnit} (us : List RUnit) (hnone : s.ltn.disagree = [])
    (h : ∀ x ∈ us, viewsDiffer s x = true → x ∉ before) : us.foldl (fun (s : State) (u : RUnit) => judgeUnit before u s) s = s := by
  induction us with
  | nil => rfl
  | cons u us ih =>
    rw [List.foldl_cons, judgeUnit_first hnone (h u List.mem_cons_self)]
    exact ih fun x hx => h x (List.mem_cons_of_mem _ hx)

/-! The parked report (R382). -/

theorem parkedLost_idle {s : State} (hparked : s.ltn.parked ≠ none) (hrun : s.adapt.run = none) :
    parkedLost s = { s with ltn := { s.ltn with parked := none } } := by
  obtain ⟨u, hu⟩ := Option.ne_none_iff_exists'.1 hparked
  rw [parkedLost, hu]
  dsimp only
  rw [if_neg (by simp [hrun])]

theorem abortRun_tells (s : State) : Tells { s with adapt := (abortRun s).adapt } (abortRun s) := by
  cases h : s.adapt.run with
  | none =>
    rw [abortRun_idle h]
    exact .refl s
  | some a =>
    rw [abortRun_running h]
    simp only [abortRun, h]
    exact postEvent_tells ..

/-- The report's end aborts a recalibration. -/
theorem parkedLost_runs {s : State} {a : AdaptRun} (hparked : s.ltn.parked ≠ none) (hrun : s.adapt.run = some a) :
    ∃ t, parkedLost s = t ∧ t.adapt.run = none ∧ t.ltn.parked = none ∧ t.dev = s.dev := by
  obtain ⟨u, hu⟩ := Option.ne_none_iff_exists'.1 hparked
  refine ⟨note 0 [4] (abortRun { s with ltn := { s.ltn with parked := none } }), ?_, ?_, ?_, ?_⟩
  · rw [parkedLost, hu]
    dsimp only
    rw [if_pos (by simp [hrun])]
  · rw [(note_tells ..).adapt, abortRun_run]
  · rw [(note_tells ..).ltn, (abortRun_tells _).ltn]
  · rw [(note_tells ..).dev, (abortRun_tells _).dev]

/-! The debug port (R509–R512). -/

/-- An instruction that is let in or replaced, neither of which is IDCODE, shows nothing. -/
theorem jtag_ne_idcode {c : Prop} [Decidable c] {i j : JtagInstr} (hi : i ≠ .idcode) (hj : j ≠ .idcode) : ¬ (if c then i else j) = .idcode := by
  split <;> assumption

/-- An instruction that drives the pins needs an open lock and READY, else it is BYPASS (R511). -/
theorem jtagInstruction_pins {s : State} {i : JtagInstr} (h : i = .extest ∨ i = .clamp ∨ i = .highz) : jtagInstruction i s =
    { s with trace := { s.trace with jtag := if s.ltn.cfg.lock.getLsbD 0 = false ∧ s.dev.state = .ready then i else .bypass } } := by
  have hpins : jtagInstruction i s =
      { s with trace := { s.trace with jtag := if s.ltn.cfg.lock.getLsbD 0 || !(s.dev.state = .ready) then .bypass else i } } := by
    rcases h with rfl | rfl | rfl <;> exact if_neg (by exact jtag_ne_idcode nofun nofun)
  have hopen : (s.ltn.cfg.lock.getLsbD 0 || !(s.dev.state = .ready)) = true ↔ ¬ (s.ltn.cfg.lock.getLsbD 0 = false ∧ s.dev.state = .ready) := by
    rw [Bool.or_eq_true, Bool.not_eq_true', decide_eq_false_iff_not, not_and_or, Bool.not_eq_false]
  rw [hpins]
  simp only [hopen, ite_not]

theorem jtagInstruction_dap (s : State) : jtagInstruction .dap s =
    { s with trace := { s.trace with jtag := if s.ltn.cfg.lock.getLsbD 0 then .bypass else .dap } } := if_neg (by exact jtag_ne_idcode nofun nofun)

section Debug
variable {s : State} {n : Node} (hdap : s.trace.jtag = .dap) (hlock : s.ltn.cfg.lock.getLsbD 0 = false)
include hdap hlock

theorem dapAccess_open : ¬ (s.trace.jtag ≠ .dap ∨ s.ltn.cfg.lock.getLsbD 0) := not_or.2 ⟨not_not.2 hdap, ne_true_of_eq_false hlock⟩

theorem dapAccess_read (a len : Nat) : dapAccess n (.read a len) s = emit (.debug (if powered s n then 0 :: dapGet s n a len else [1])) s := by
  refine (if_neg (dapAccess_open hdap hlock)).trans ?_
  dsimp only
  split <;> rfl

theorem dapAccess_refused {op : DapOp} (hop : ∀ a len, op ≠ .read a len) (h : loopRuns s = true ∨ powered s n = false) :
    dapAccess n op s = emit (.debug [1]) s := by
  have hrefused : (loopRuns s || !powered s n) = true := by simpa using h
  refine (if_neg (dapAccess_open hdap hlock)).trans ?_
  cases op with
  | read a len => exact absurd rfl (hop a len)
  | write | halt | step | resume => exact if_pos hrefused

/-- What an access other than a read does to a device at rest. -/
def dapDone (n : Node) (op : DapOp) (s : State) : State :=
  match op with
  | .read _ _ => s
  | .write a b => dapPut n a b s
  | .halt => updCore n (fun c => { c with halted := true, stepOne := false }) s
  | .step => updCore n (fun c => { c with halted := true, stepOne := true }) s
  | .resume => updCore n (fun c => { c with halted := false, stepOne := false }) s

theorem dapAccess_done {op : DapOp} (hop : ∀ a len, op ≠ .read a len) (hloop : loopRuns s = false) (hpower : powered s n = true) :
    dapAccess n op s = emit (.debug [0]) (dapDone n op s) := by
  have hfree : ¬ (loopRuns s || !powered s n) = true := by simp [hloop, hpower]
  refine (if_neg (dapAccess_open hdap hlock)).trans ?_
  cases op with
  | read a len => exact absurd rfl (hop a len)
  | write | halt | step | resume => exact if_neg hfree

end Debug

/-- Settles O55: each command by the lemma for the case its clause names. -/
theorem firmwareConfigurationAndDebug : Obligations.FirmwareConfigurationAndDebug := by
  unfold Obligations.FirmwareConfigurationAndDebug
  refine ⟨fun s x w h => ?stageIdle, stageFailure_none, fun s x w b off len hruns hlive himg => ⟨fun st h => ?checkFails, fun h hw => ?writeFails, fun h hw => ?staged⟩,
    fun s => ⟨fun up h => ?noRestart, fun h => ⟨?restarted, ?restartFails⟩⟩,
    fun s => ⟨fun good h => ?noWrite, fun hwriting hlive hphase => ⟨?badWrite, fun hloop => ?waits, fun hloop hcheck => ?applied⟩⟩,
    fun s => ⟨fun h => ?noExpiry, fun hphase hlive => ?expired⟩,
    fun s => ⟨fun h => ?noStart, fun c e l w hstart hwait => ⟨fun h => ?dropped, fun p hatt hplan => ⟨fun htwin hlost hadapt => ?adapting, fun htwin h => ?twinStarts, fun hsplit => ?splitStarts⟩⟩⟩,
    fun s => ⟨fun v h => ?noRound, fun hup hrestart => ⟨fun hmissed => ?missed, fun hmissed => ?third, fun v hnone hfirst => ?round⟩, fun before x hnone hdiffer hbefore => ?twice⟩,
    fun s => ⟨fun h => ?notParked, fun hparked hrun => ?parkedIdle, fun a hparked hrun => ?parkedRuns⟩,
    fun s => ⟨fun h => ?silent, fun hnew hfw => ?silence⟩, fun s i => ⟨fun h => ?jtagFree, fun h => ?jtagId, fun h => ?jtagPins, fun h => ?jtagDap⟩,
    fun s n op => ⟨fun h => ?dapShut, fun hdap hlock => ⟨fun a len hop => ?dapRead, fun hop h => ?dapRefused, fun hloop hpower =>
      ⟨fun a b hop => ?dapWrite, fun hop => ?dapHalt, fun hop => ?dapStep, fun hop => ?dapResume⟩⟩⟩⟩
  case stageIdle => exact congrArg Host.Outcome.next (fwStageDone_idle h w)
  case checkFails =>
    have hltn := fwStageDone_fails hruns hlive himg (w := w) (.inl h)
    exact ⟨_, rfl, by rw [hltn], by rw [hltn], by rw [hltn], by rw [hltn]⟩
  case writeFails =>
    have hltn := fwStageDone_fails hruns hlive himg (.inr ⟨h, hw, rfl⟩)
    exact ⟨_, rfl, by rw [hltn], by rw [hltn], by rw [hltn], by rw [hltn]⟩
  case staged =>
    subst hw
    have hltn := fwStageDone_fills hruns hlive himg h
    cases b <;> exact ⟨_, rfl, by rw [hltn]; rfl, by rw [hltn]; rfl, by rw [hltn]; rfl, by rw [hltn]; rfl⟩
  case noRestart => exact congrArg Host.Outcome.next (if_pos (Option.isNone_iff_eq_none.2 h))
  case restarted => exact ⟨_, congrArg Host.Outcome.next (if_neg (fun hn => h (Option.isNone_iff_eq_none.1 hn))), rfl, rfl, rfl, rfl⟩
  case restartFails => exact congrArg Host.Outcome.next (if_neg (fun hn => h (Option.isNone_iff_eq_none.1 hn)))
  case noWrite => exact congrArg Host.Outcome.next (configWriteDone_idle h good)
  case badWrite =>
    have htells := guardPhase_tells .vetoed 6 (updGuard (fun g => { g with writing := false }) s)
    exact ⟨_, congrArg Host.Outcome.next (configWriteDone_bad hwriting hlive hphase), by rw [htells.ltn], by rw [htells.ltn]; rfl, by rw [htells.ltn]; rfl⟩
  case waits => exact congrArg Host.Outcome.next ((configWriteDone_good hwriting hlive hphase).trans (if_pos hloop))
  case applied =>
    have hltn := applyDue_applies (s := writtenChange s) hphase rfl hcheck
    exact ⟨_, congrArg Host.Outcome.next ((configWriteDone_good hwriting hlive hphase).trans (if_neg (ne_true_of_eq_false hloop))),
      by rw [hltn], by rw [hltn]; rfl, by rw [hltn]; rfl⟩
  case noExpiry => exact congrArg Host.Outcome.next (if_neg fun ⟨hphase, hlive⟩ => h.elim (· hphase) hlive)
  case expired =>
    exact ⟨_, congrArg Host.Outcome.next (if_pos ⟨hphase, ne_true_of_eq_false hlive⟩), (guardPhase_tells ..).ltn, (guardPhase_tells ..).dev⟩
  case noStart => exact congrArg Host.Outcome.next (partnerCheckTimeout_idle h)
  case dropped => exact congrArg Host.Outcome.next (partnerCheckTimeout_dropped hstart hwait (startPlan_none h))
  case adapting => exact congrArg Host.Outcome.next (partnerCheckTimeout_adapting hstart hwait ((if_pos hatt).trans hplan) htwin hlost hadapt)
  case twinStarts =>
    refine congrArg Host.Outcome.next ((partnerCheckTimeout_starts hstart hwait ((if_pos hatt).trans hplan) ?_).trans ?_)
    · rintro ⟨-, hlost, hadapt⟩
      exact h.elim (ne_true_of_eq_false hlost) (· hadapt)
    · rw [htwin]
      rfl
  case splitStarts =>
    refine congrArg Host.Outcome.next ((partnerCheckTimeout_starts hstart hwait ((if_pos hatt).trans hplan) ?_).trans ?_)
    · exact fun h => ne_true_of_eq_false hsplit h.1
    · rw [hsplit]
      simp only [Bool.not_false, Bool.true_and, Bool.not_and, Bool.not_not, Option.not_isSome]
      rfl
  case noRound => exact congrArg Host.Outcome.next (reconcileRound_off h v)
  case missed =>
    have hnot : ¬ s.ltn.missed + 1 = 3 := by omega
    exact congrArg Host.Outcome.next ((if_neg (reconcileRound_runs hup hrestart)).trans (if_neg hnot))
  case third =>
    have hthree : s.ltn.missed + 1 = 3 := by omega
    refine congrArg Host.Outcome.next ((if_neg (reconcileRound_runs hup hrestart)).trans ((if_pos hthree).trans ?_))
    rw [hthree]
  case round => exact congrArg Host.Outcome.next ((if_neg (reconcileRound_runs hup hrestart)).trans (judgeUnits_first allUnits hnone hfirst))
  case twice => exact judgeUnit_second hnone hdiffer hbefore
  case notParked =>
    refine congrArg Host.Outcome.next ?_
    rw [parkedLost, h]
  case parkedIdle => exact congrArg Host.Outcome.next (parkedLost_idle hparked hrun)
  case parkedRuns =>
    obtain ⟨t, ht, hend⟩ := parkedLost_runs hparked hrun
    exact ⟨t, congrArg Host.Outcome.next ht, hend⟩
  case silent => exact congrArg Host.Outcome.next (if_pos (h.imp_right ne_true_of_eq_false))
  case silence =>
    have hnot : ¬ (s.ltn.spiLost = true ∨ ¬ s.ltn.fw = true) := not_or.2 ⟨ne_true_of_eq_false hnew, not_not.2 hfw⟩
    exact ⟨_, congrArg Host.Outcome.next (if_neg hnot), (logRec_tells ..).ltn, (logRec_tells ..).dev⟩
  case jtagFree => rcases h with rfl | rfl <;> rfl
  case jtagId =>
    subst h
    rfl
  case jtagPins => exact congrArg Host.Outcome.next (jtagInstruction_pins h)
  case jtagDap =>
    subst h
    exact congrArg Host.Outcome.next (jtagInstruction_dap s)
  case dapShut => exact congrArg Host.Outcome.next (if_pos h)
  case dapRead =>
    subst hop
    exact congrArg Host.Outcome.next (dapAccess_read hdap hlock a len)
  case dapRefused => exact congrArg Host.Outcome.next (dapAccess_refused hdap hlock hop h)
  case dapWrite =>
    subst hop
    exact congrArg Host.Outcome.next (dapAccess_done hdap hlock nofun hloop hpower)
  case dapHalt =>
    subst hop
    exact congrArg Host.Outcome.next (dapAccess_done hdap hlock nofun hloop hpower)
  case dapStep =>
    subst hop
    exact congrArg Host.Outcome.next (dapAccess_done hdap hlock nofun hloop hpower)
  case dapResume =>
    subst hop
    exact congrArg Host.Outcome.next (dapAccess_done hdap hlock nofun hloop hpower)

end Sys2Proof.Laws
end

section
/-! PROOF. The safety MCU's requests: what stands before Lantern's firmware, the requests served, and the transactions that carry them
(R366, R370, R381–R384, R470–R473, R485, R487, R557). -/
open Sys2Proof Sys2Proof.Machine
namespace Sys2Proof.Laws

/-! The requests. -/

/-- The requests as commands of their own. -/
def spiRequests (b : List Byte) (id : W32) (on : Bool) : List Instr :=
  [.spiStatus, .guardQuery, .endorse b, .spiVeto id, .parkedCharging on, .standby, .wake, .spiReset b, .logRead id]

/-- Each is a valid request with SEQ 0 that is served. -/
theorem spiRequests_served {b : List Byte} {id : W32} {on : Bool} {c : Instr} (h : c ∈ spiRequests b id on) :
    ∃ ty p, ∀ s, exec c s = .next (spiServe ty 0 p s) := by
  simp only [spiRequests, List.mem_cons, List.not_mem_nil, or_false] at h
  rcases h with rfl | rfl | rfl | rfl | rfl | rfl | rfl | rfl | rfl <;> exact ⟨_, _, fun _ => rfl⟩

theorem fld_leBytes_word (v : W32) : BitVec.ofNat 32 (fld (leBytes 4 v.toNat) 0 4) = v := by
  rw [fld, List.drop_zero, List.take_of_length_le (by simp), leVal_leBytes]
  exact BitVec.eq_of_toNat_eq (by rw [BitVec.toNat_ofNat, Nat.mod_mod]; exact Nat.mod_eq_of_lt v.isLt)

section Serve
variable {s : State}

theorem spiServe_held (h : ltnHeld s = true) (ty : Nat) (seq : W16) (b : List Byte) : spiServe ty seq b s = s := if_pos h

theorem romAnswer_halt (h : s.dev.state = .bootHalt) : romAnswer s = some (0x7F, haltBytes s) := if_pos h

theorem romAnswer_noFirmware (hstate : s.dev.state ≠ .bootHalt) (hfw : s.ltn.fw = false) : romAnswer s = some (0x7E, []) :=
  (if_neg hstate).trans (if_neg (ne_true_of_eq_false hfw))

theorem romAnswer_firmware (hstate : s.dev.state ≠ .bootHalt) (hfw : s.ltn.fw = true) : romAnswer s = none := (if_neg hstate).trans (if_pos hfw)

theorem spiServe_rom (hlive : ltnHeld s = false) {t : Byte} {p : List Byte} (h : romAnswer s = some (t, p)) (ty : Nat) (seq : W16) (b : List Byte) :
    spiServe ty seq b s = setSpiNext t seq 3 p s := by
  rw [spiServe, if_neg (ne_true_of_eq_false hlive), h]

/-- The state in which a valid request is served: its time is noted (R473). -/
def spiHeard (s : State) : State := { s with ltn := { s.ltn with spiLast := some (now s), spiLost := false } }

variable (hlive : ltnHeld s = false) (hstate : s.dev.state ≠ .bootHalt) (hfw : s.ltn.fw = true)
include hlive hstate hfw

theorem spiServe_open (ty : Nat) (seq : W16) (b : List Byte) : spiServe ty seq b s = (if ty = 8 then spiReset b (spiHeard s) else none).getD
    (setSpiNext (BitVec.ofNat 8 ty) seq (spiRequest ty b (spiHeard s)).1.1 (spiRequest ty b (spiHeard s)).1.2 (spiRequest ty b (spiHeard s)).2) := by
  rw [spiServe, if_neg (ne_true_of_eq_false hlive), romAnswer_firmware hstate hfw]
  change (match (if ty = 8 then spiReset b (spiHeard s) else none) with | some t => t | none => setSpiNext _ seq _ _ _) = _
  cases (if ty = 8 then spiReset b (spiHeard s) else none) <;> rfl

theorem spiServe_request {ty : Nat} (hty : ty ≠ 8) (seq : W16) (b : List Byte) : spiServe ty seq b s =
    setSpiNext (BitVec.ofNat 8 ty) seq (spiRequest ty b (spiHeard s)).1.1 (spiRequest ty b (spiHeard s)).1.2 (spiRequest ty b (spiHeard s)).2 := by
  rw [spiServe_open hlive hstate hfw, if_neg hty, Option.getD_none]

/-- RESET with its payload outside LOCKED is a warm reset (R366). -/
theorem spiServe_reset {b : List Byte} (hpay : sub b 0 4 = [0x52, 0x53, 0x54, 0x31]) (hopen : s.dev.state ≠ .locked) (seq : W16) :
    spiServe 8 seq b s = bootRom (warmClear (spiHeard s)) := by
  have hreset : spiReset b (spiHeard s) = some (bootRom (warmClear (spiHeard s))) := if_pos ⟨hpay, hopen⟩
  rw [spiServe_open hlive hstate hfw, if_pos rfl, hreset, Option.getD_some]

theorem spiServe_resetRefused {b : List Byte} (h : sub b 0 4 ≠ [0x52, 0x53, 0x54, 0x31] ∨ s.dev.state = .locked) (seq : W16) :
    spiServe 8 seq b s = setSpiNext 8 seq 3 [] (spiHeard s) := by
  have hnone : spiReset b (spiHeard s) = none := if_neg fun ⟨hpay, hopen⟩ => h.elim (· hpay) hopen
  rw [spiServe_open hlive hstate hfw, if_pos rfl, hnone, Option.getD_none]
  rfl

end Serve

/-! ENDORSE (R485) and VETO (R487). -/

/-- What ENDORSE gives: its RESULT and the state. -/
def endorsed (b : List Byte) (s : State) : Byte × State :=
  let g := s.ltn.guard
  if fld b 0 4 ≠ g.id.toNat ∨ g.phase ≠ .awaiting then (5, s)
  else if g.deadline.toNat < (now s).toNat then (6, guardPhase .expired 7 s)
  else if fld b 4 1 ≠ g.kind.toNat ∨ fld b 8 4 ≠ g.challenge.toNat ∨ sub b 12 32 ≠ sub g.digest 0 32 then (7, endorseFail 3 s)
  else if hmacSha256 Config.endorseKey (endorseMsg g) ≠ sub b 44 32 then (4, endorseFail 4 s)
  else (0, guardPhase .endorsed 0 (updGuard (fun g => { g with writing := true, written := false }) s))

theorem endorse_eq (b : List Byte) (s : State) : endorse b s = (((endorsed b s).1, leBytes 4 (endorsed b s).2.ltn.guard.id.toNat ++
    leBytes 1 (endorsed b s).2.ltn.guard.phase.num ++ [0, 0, 0] ++ leBytes 8 (if (endorsed b s).1 = 0 then (now s).toNat else 0)), (endorsed b s).2) := rfl

section Endorse
variable {s : State} {b : List Byte}

theorem guardPhase_ltn (p : GPhase) (reason : Nat) (s : State) : (guardPhase p reason s).ltn = { s.ltn with guard := { s.ltn.guard with phase := p } } :=
  (guardPhase_tells p reason s).ltn

theorem endorseFail_ltn (reason : Nat) (s : State) : (endorseFail reason s).ltn =
    { s.ltn with guard := { s.ltn.guard with phase := .vetoed, failCnt := s.ltn.guard.failCnt.inc } } := guardPhase_ltn ..

theorem endorsed_stale (h : fld b 0 4 ≠ s.ltn.guard.id.toNat ∨ s.ltn.guard.phase ≠ .awaiting) : endorsed b s = (5, s) := if_pos h

variable (hid : fld b 0 4 = s.ltn.guard.id.toNat) (hphase : s.ltn.guard.phase = .awaiting)
include hid hphase

theorem endorsed_expired (h : s.ltn.guard.deadline.toNat < (now s).toNat) : endorsed b s = (6, guardPhase .expired 7 s) :=
  (if_neg (not_or.2 ⟨not_not.2 hid, not_not.2 hphase⟩)).trans (if_pos h)

variable (htime : (now s).toNat ≤ s.ltn.guard.deadline.toNat)
include htime

theorem endorsed_other (h : fld b 4 1 ≠ s.ltn.guard.kind.toNat ∨ fld b 8 4 ≠ s.ltn.guard.challenge.toNat ∨ sub b 12 32 ≠ sub s.ltn.guard.digest 0 32) :
    endorsed b s = (7, endorseFail 3 s) :=
  (if_neg (not_or.2 ⟨not_not.2 hid, not_not.2 hphase⟩)).trans ((if_neg (Nat.not_lt_of_le htime)).trans (if_pos h))

/-- The proposal named: the HMAC decides. -/
theorem endorsed_signed (hkind : fld b 4 1 = s.ltn.guard.kind.toNat) (hchallenge : fld b 8 4 = s.ltn.guard.challenge.toNat)
    (hdigest : sub b 12 32 = sub s.ltn.guard.digest 0 32) : endorsed b s =
      if hmacSha256 Config.endorseKey (endorseMsg s.ltn.guard) ≠ sub b 44 32 then (4, endorseFail 4 s)
      else (0, guardPhase .endorsed 0 (updGuard (fun g => { g with writing := true, written := false }) s)) :=
  (if_neg (not_or.2 ⟨not_not.2 hid, not_not.2 hphase⟩)).trans ((if_neg (Nat.not_lt_of_le htime)).trans
    (if_neg (not_or.2 ⟨not_not.2 hkind, not_or.2 ⟨not_not.2 hchallenge, not_not.2 hdigest⟩⟩)))

end Endorse

theorem endorsed_id (b : List Byte) (s : State) : (endorsed b s).2.ltn.guard.id = s.ltn.guard.id := by
  unfold endorsed
  dsimp only
  split
  · rfl
  · split
    · rw [guardPhase_ltn]
    · split
      · rw [endorseFail_ltn]
      · split
        · rw [endorseFail_ltn]
        · rw [guardPhase_ltn]
          rfl

section Veto
variable {s : State} {id : W32}

theorem vetoProposal_refused (h : id ≠ s.ltn.guard.id ∨ id = 0 ∨ (s.ltn.guard.phase ≠ .awaiting ∧ s.ltn.guard.phase ≠ .endorsed)) (reason : Nat) :
    vetoProposal id reason s = (false, s) := by
  unfold vetoProposal
  dsimp only
  split
  next => rfl
  next hid =>
    obtain ⟨hsame, hnonzero⟩ := not_or.mp hid
    have hphase := (h.resolve_left (not_not.2 (not_not.1 hsame).symm)).resolve_left hnonzero
    split
    next hawaiting => exact absurd hawaiting hphase.1
    next hendorsed => exact absurd hendorsed hphase.2
    next => rfl

/-- The proposal named is ended VETOED, and a copy already written is restored. -/
theorem vetoProposal_accepted (hid : id = s.ltn.guard.id) (hnonzero : id ≠ 0) (hphase : s.ltn.guard.phase = .awaiting ∨ s.ltn.guard.phase = .endorsed)
    (reason : Nat) : (vetoProposal id reason s).1 = true ∧ (vetoProposal id reason s).2.ltn.guard.phase = .vetoed := by
  have hvetoed : (guardPhase .vetoed reason s).ltn.guard.phase = .vetoed := by rw [guardPhase_ltn]
  have hnamed : ¬ (s.ltn.guard.id ≠ id ∨ id = 0) := not_or.2 ⟨not_not.2 hid.symm, hnonzero⟩
  unfold vetoProposal
  dsimp only
  rw [if_neg hnamed]
  rcases hphase with h | h
  · rw [h]
    exact ⟨rfl, hvetoed⟩
  · rw [h]
    refine ⟨rfl, ?_⟩
    dsimp only
    split
    · exact hvetoed
    · exact hvetoed

end Veto

/-! STANDBY (R383). -/

theorem railsDown_tells (s : State) : Tells s (railsDown s) := by
  rw [railsDown, foldl_emit (fun g => Out.pmbus g 0)]
  exact .other s

theorem flushLog_tells (n : Nat) (s : State) : Tells s (flushLog n s) := ⟨rfl⟩

/-- A standby's steps end in AON_ONLY, everything outside PD_AON lost and the SAFE pins driven. -/
theorem standbySteps_ends (s : State) : ∃ u v, Tells (dropAll u) v ∧ Tells (entered .aonOnly none (driveSafe true v)) (standbySteps s) :=
  ⟨_, _, (flushLog_tells ..).trans (railsDown_tells _), transition_tells ..⟩

theorem standbySteps_drops (s : State) : ∃ t, standbySteps s = t ∧ t.dev.state = .aonOnly ∧ t.dev.session = 0 ∧ t.dev.dispatchUp = false ∧
    t.mbD = {} ∧ t.mbL = {} ∧ t.plans = [] ∧ t.cores = [] ∧ t.loop = {} ∧ t.fc.aliveRun = false ∧ t.fc.safeA = true := by
  obtain ⟨u, v, hlost, hend⟩ := standbySteps_ends s
  have hdev : (standbySteps s).dev = { v.dev with state := .aonOnly, prior := none, stateSeq := v.dev.stateSeq + 1 } := hend.dev
  have hfc : (standbySteps s).fc.aliveRun = v.fc.aliveRun := by rw [hend.fc]; rfl
  refine ⟨_, rfl, by rw [hdev], ?_, ?_, hend.mbD.trans hlost.mbD, hend.mbL.trans hlost.mbL, hend.plans.trans hlost.plans, hend.cores.trans hlost.cores,
    hend.loop.trans hlost.loop, ?_, by rw [hend.fc]; rfl⟩
  · rw [hdev, hlost.dev]
    rfl
  · rw [hdev, hlost.dev]
    rfl
  · rw [hfc, hlost.fc]
    rfl

/-! Transactions (R471, R557). -/

section Transaction
variable {s : State} {b : List Byte} {e : Nat}

/-- The transaction begins less than 50 µs after the last. -/
def TooSoon (s : State) : Prop := ∃ t, s.ltn.spiEnd = some t ∧ (now s - t).toNat < 50000

theorem tooSoon_iff (s : State) : (match s.ltn.spiEnd with | some t => decide ((now s - t).toNat < 50000) | none => false) = true ↔ TooSoon s := by
  unfold TooSoon
  cases s.ltn.spiEnd <;> simp

/-- The state once the response due has gone out. -/
def responded (s : State) : State := emit (.spi (misoNow s)) { s with ltn := { s.ltn with spiEnd := some (now s), spiNext := none } }

/-- A frame that is not served is counted, and answered with the RESULT. -/
def badSpiFrame (b : List Byte) (res : Byte) (s : State) : State :=
  setSpiNext (BitVec.ofNat 8 (fld b 1 1)) (BitVec.ofNat 16 (fld b 2 2)) res [] { s with ltn := { s.ltn with spiBad := s.ltn.spiBad.inc } }

theorem mosiOk_iff : mosiOk b e = true ↔ e = 1024 ∧ b.length = 128 ∧ fld b 0 1 = 0x5A ∧ fld b 4 2 ≤ 112 ∧ fld b 124 4 = (crc32c (b.take 124)).toNat := by
  simp only [mosiOk, Bool.and_eq_true, decide_eq_true_eq, and_assoc]

theorem spiTransaction_held (h : ltnHeld s = true) : spiTransaction b e s = s := if_pos h

variable (hlive : ltnHeld s = false)
include hlive

theorem spiTransaction_soon (h : TooSoon s) :
    spiTransaction b e s = { s with ltn := { s.ltn with spiBad := s.ltn.spiBad.inc, spiEnd := some (now s) } } :=
  (if_neg (ne_true_of_eq_false hlive)).trans (if_pos ((tooSoon_iff s).2 h))

variable (hdue : ¬ TooSoon s)
include hdue

theorem spiTransaction_judged : spiTransaction b e s =
    if (romAnswer (responded s)).isSome then spiServe (fld b 1 1) (BitVec.ofNat 16 (fld b 2 2)) [] (responded s)
    else if ¬ mosiOk b e then badSpiFrame b 1 (responded s)
    else if fld b 1 1 < 1 ∨ 9 < fld b 1 1 then badSpiFrame b 2 (responded s)
    else spiServe (fld b 1 1) (BitVec.ofNat 16 (fld b 2 2)) (sub (b.drop 8) 0 (fld b 4 2)) (responded s) :=
  (if_neg (ne_true_of_eq_false hlive)).trans (if_neg (fun h => hdue ((tooSoon_iff s).1 h)))

theorem spiTransaction_rom {t : Byte} {p : List Byte} (h : romAnswer (responded s) = some (t, p)) :
    spiTransaction b e s = setSpiNext t (BitVec.ofNat 16 (fld b 2 2)) 3 p (responded s) := by
  rw [spiTransaction_judged hlive hdue, h, Option.isSome_some, if_pos rfl]
  exact spiServe_rom (s := responded s) hlive h ..

variable (hstate : s.dev.state ≠ .bootHalt) (hfw : s.ltn.fw = true)
include hstate hfw

theorem spiTransaction_badFrame (h : ¬ mosiOk b e = true) : spiTransaction b e s = badSpiFrame b 1 (responded s) := by
  rw [spiTransaction_judged hlive hdue, romAnswer_firmware (s := responded s) hstate hfw, Option.isSome_none, if_neg Bool.false_ne_true, if_pos h]

theorem spiTransaction_badType (hok : mosiOk b e = true) (h : fld b 1 1 = 0 ∨ 9 < fld b 1 1) :
    spiTransaction b e s = badSpiFrame b 2 (responded s) := by
  rw [spiTransaction_judged hlive hdue, romAnswer_firmware (s := responded s) hstate hfw, Option.isSome_none, if_neg Bool.false_ne_true, if_neg (not_not.2 hok), if_pos (by omega)]

theorem spiTransaction_served (hok : mosiOk b e = true) (hlow : 1 ≤ fld b 1 1) (hhigh : fld b 1 1 ≤ 9) :
    spiTransaction b e s = spiServe (fld b 1 1) (BitVec.ofNat 16 (fld b 2 2)) (sub (b.drop 8) 0 (fld b 4 2)) (responded s) := by
  rw [spiTransaction_judged hlive hdue, romAnswer_firmware (s := responded s) hstate hfw, Option.isSome_none, if_neg Bool.false_ne_true, if_neg (not_not.2 hok), if_neg (by omega)]

end Transaction

/-- The response carries the TYPE due, the boot ROM's, or STATUS. -/
theorem misoNow_head (s : State) : (misoNow s).take 2 =
    [0xA5, match s.ltn.spiNext with | some x => x.1 | none => if s.dev.state = .bootHalt then 0x7F else if s.ltn.fw = false then 0x7E else 1] := by
  unfold misoNow
  split
  next h => rw [h]; rfl
  next h =>
    rw [h]
    dsimp only
    by_cases hstate : s.dev.state = .bootHalt
    · rw [romAnswer_halt hstate, if_pos hstate]
      rfl
    · cases hfw : s.ltn.fw with
      | true =>
        rw [romAnswer_firmware hstate hfw, if_neg hstate, if_neg (Bool.noConfusion)]
        rfl
      | false =>
        rw [romAnswer_noFirmware hstate hfw, if_neg hstate, if_pos rfl]
        rfl

/-- ENDORSE as a request of its own. -/
theorem exec_endorse {s : State} (hlive : ltnHeld s = false) (hstate : s.dev.state ≠ .bootHalt) (hfw : s.ltn.fw = true) (b : List Byte) :
    exec (.endorse b) s = .next (setSpiNext 3 0 (endorsed b (spiHeard s)).1 (leBytes 4 s.ltn.guard.id.toNat ++
      leBytes 1 (endorsed b (spiHeard s)).2.ltn.guard.phase.num ++ [0, 0, 0] ++ leBytes 8 (if (endorsed b (spiHeard s)).1 = 0 then (now s).toNat else 0))
      (endorsed b (spiHeard s)).2) := by
  have hid : s.ltn.guard.id = (endorsed b (spiHeard s)).2.ltn.guard.id := (endorsed_id b (spiHeard s)).symm
  refine congrArg Host.Outcome.next ((spiServe_request hlive hstate hfw (by decide) 0 b).trans ?_)
  rw [hid]
  rfl

/-- Settles O56: what stands before the firmware, each request by its own lemma, and the transaction that carries it. -/
theorem safetyMcuRequests : Obligations.SafetyMcuRequests := by
  unfold Obligations.SafetyMcuRequests
  refine ⟨fun s b e id on hheld c hc => ?held, fun s b id on hlive => ⟨fun hstate c hc => ?halted, fun hstate hfw c hc => ?noFirmware⟩,
    fun s hlive hstate hfw => ⟨?status, ?query, fun first => ?logs, ?parked, ?unparked, fun b => ?endorse, fun id => ⟨fun h => ?vetoRefused, fun hid hnz hphase => ?vetoed⟩,
      fun hready hatt hhold => ?standbyRefused, fun h => ?standby, fun h => ?wakeRefused, fun h => ?wakes, fun b => ⟨fun hpay hopen => ?resets, fun h => ?resetRefused⟩⟩,
    fun s b e hlive => ⟨fun hsoon => ?soon, fun hdue hstate => ?transHalt, fun hdue hstate hfw => ?transRom,
      fun hdue hstate hfw => ⟨fun h => ?badFrame, fun he hlen hsync hpay hcrc => ⟨fun h => ?badType, fun hlow hhigh => ?served⟩⟩, misoNow_head s⟩⟩
  case held =>
    rcases List.mem_cons.1 hc with rfl | hc
    · exact congrArg Host.Outcome.next (spiTransaction_held hheld)
    · obtain ⟨ty, p, hserve⟩ := spiRequests_served hc
      rw [hserve, spiServe_held hheld]
  case halted =>
    obtain ⟨ty, p, hserve⟩ := spiRequests_served (List.mem_map_of_mem (f := Prod.fst) hc)
    rw [hserve, spiServe_rom hlive (romAnswer_halt hstate)]
  case noFirmware =>
    obtain ⟨ty, p, hserve⟩ := spiRequests_served (List.mem_map_of_mem (f := Prod.fst) hc)
    rw [hserve, spiServe_rom hlive (romAnswer_noFirmware hstate hfw)]
  case status => exact congrArg Host.Outcome.next (spiServe_request hlive hstate hfw (by decide) 0 [])
  case query => exact congrArg Host.Outcome.next (spiServe_request hlive hstate hfw (by decide) 0 [])
  case logs =>
    refine congrArg Host.Outcome.next ((spiServe_request hlive hstate hfw (by decide) 0 (leBytes 4 first.toNat)).trans ?_)
    exact congrArg (fun f => setSpiNext 9 0 0 (logReadBytes f s.log) (spiHeard s)) (fld_leBytes_word first)
  case parked => exact congrArg Host.Outcome.next (spiServe_request hlive hstate hfw (by decide) 0 [1])
  case unparked => exact congrArg Host.Outcome.next (spiServe_request hlive hstate hfw (by decide) 0 [0])
  case endorse =>
    refine ⟨_, _, _, exec_endorse hlive hstate hfw b, rfl, fun h => ?stale, fun hid hphase => ⟨fun htime => ?late, fun htime => ⟨fun h => ?other,
      fun hkind hchallenge hdigest => ⟨fun h => ?forged, fun h => ?signed⟩⟩⟩⟩
    case stale =>
      rw [endorsed_stale (s := spiHeard s) h]
      exact ⟨rfl, rfl⟩
    case late =>
      rw [endorsed_expired (s := spiHeard s) hid hphase htime]
      exact ⟨rfl, by rw [guardPhase_ltn]⟩
    case other =>
      rw [endorsed_other (s := spiHeard s) hid hphase htime h]
      exact ⟨rfl, by rw [endorseFail_ltn], by rw [endorseFail_ltn]; rfl⟩
    case forged =>
      rw [(endorsed_signed (s := spiHeard s) hid hphase htime hkind hchallenge hdigest).trans (if_pos h)]
      exact ⟨rfl, by rw [endorseFail_ltn], by rw [endorseFail_ltn]; rfl⟩
    case signed =>
      rw [(endorsed_signed (s := spiHeard s) hid hphase htime hkind hchallenge hdigest).trans (if_neg (not_not.2 h))]
      exact ⟨rfl, by rw [guardPhase_ltn], by rw [guardPhase_ltn]; rfl, by rw [guardPhase_ltn]; rfl, by rw [guardPhase_ltn]; rfl⟩
  case vetoRefused =>
    have hveto := vetoProposal_refused (s := spiHeard s) h 2
    rw [← fld_leBytes_word id] at hveto
    refine congrArg Host.Outcome.next ((spiServe_request hlive hstate hfw (by decide) 0 (leBytes 4 id.toNat)).trans ?_)
    simp only [spiRequest, mcuVeto, hveto]
    rw [fld_leBytes_word]
    rfl
  case vetoed =>
    obtain ⟨hok, hend⟩ := vetoProposal_accepted (s := spiHeard s) hid hnz hphase 2
    refine ⟨_, congrArg Host.Outcome.next ((spiServe_request hlive hstate hfw (by decide) 0 (leBytes 4 id.toNat)).trans ?_), hend⟩
    simp only [spiRequest, mcuVeto, fld_leBytes_word, hok, hend]
    rfl
  case standbyRefused =>
    have hno : standbyOk s.dev.state = false := by
      cases hs : s.dev.state <;> simp_all [standbyOk]
    refine congrArg Host.Outcome.next ((spiServe_request hlive hstate hfw (by decide) 0 []).trans ?_)
    have hrefused : standby (spiHeard s) = ((3, []), spiHeard s) := if_neg (ne_true_of_eq_false hno)
    simp only [spiRequest, hrefused]
    rfl
  case standby =>
    have hyes : standbyOk s.dev.state = true := by
      rcases h with h | h | h <;> rw [h] <;> rfl
    have hstandby : standby (spiHeard s) = ((0, []), standbySteps (spiHeard s)) := if_pos hyes
    have hexec : exec .standby s = .next (setSpiNext 6 0 0 [] (standbySteps (spiHeard s))) := by
      refine congrArg Host.Outcome.next ((spiServe_request hlive hstate hfw (by decide) 0 []).trans ?_)
      simp only [spiRequest, hstandby]
      rfl
    obtain ⟨t, ht, hstate', hsession, hup, hD, hL, hplans, hcores, hloop, halive, hsafe⟩ := standbySteps_drops (spiHeard s)
    rw [ht] at hexec
    exact ⟨t, hexec, hstate', hsession, hup, hD, hL, hplans, hcores, hloop, halive, hsafe, (exec_steady (i := .standby) nofun nofun hexec).acc⟩
  case wakeRefused =>
    have hno : wake (spiHeard s) = ((3, []), spiHeard s) := if_neg h
    refine congrArg Host.Outcome.next ((spiServe_request hlive hstate hfw (by decide) 0 []).trans ?_)
    simp only [spiRequest, hno]
    rfl
  case wakes =>
    have hwake : wake (spiHeard s) = ((0, []), wakeUp (spiHeard s)) := if_pos h
    refine congrArg Host.Outcome.next ((spiServe_request hlive hstate hfw (by decide) 0 []).trans ?_)
    simp only [spiRequest, hwake]
    rfl
  case resets => exact congrArg Host.Outcome.next (spiServe_reset hlive hstate hfw hpay hopen 0)
  case resetRefused => exact congrArg Host.Outcome.next (spiServe_resetRefused hlive hstate hfw h 0)
  case soon => exact congrArg Host.Outcome.next (spiTransaction_soon hlive hsoon)
  case transHalt => exact congrArg Host.Outcome.next (spiTransaction_rom hlive hdue (romAnswer_halt hstate))
  case transRom => exact congrArg Host.Outcome.next (spiTransaction_rom hlive hdue (romAnswer_noFirmware hstate hfw))
  case badFrame =>
    have hbad : ¬ mosiOk b e = true := by
      rw [mosiOk_iff]
      rintro ⟨he, hlen, hsync, hpay, hcrc⟩
      rcases h with h | h | h | h | h
      · exact h he
      · exact h hlen
      · exact h hsync
      · exact Nat.not_lt_of_le hpay h
      · exact h hcrc
    exact congrArg Host.Outcome.next (spiTransaction_badFrame hlive hdue hstate hfw hbad)
  case badType => exact congrArg Host.Outcome.next (spiTransaction_badType hlive hdue hstate hfw (mosiOk_iff.2 ⟨he, hlen, hsync, hpay, hcrc⟩) h)
  case served => exact congrArg Host.Outcome.next (spiTransaction_served hlive hdue hstate hfw (mosiOk_iff.2 ⟨he, hlen, hsync, hpay, hcrc⟩) hlow hhigh)

end Sys2Proof.Laws
end

section
/-! PROOF. Power-on, boot, warm reset, wake and log flushes (R361–R374, R384, R460, R470, R479). -/
open Sys2Proof Sys2Proof.Machine
namespace Sys2Proof.Laws

/-! What powering domains changes. -/

/-- From `s` to `t` the fabric, the cores, the memories and the trace unit change. -/
structure Powers (s t : State) : Prop where
  frame : t = { s with fab := t.fab, cores := t.cores, mem := t.mem, trace := t.trace }

theorem Powers.refl (s : State) : Powers s s := ⟨rfl⟩

theorem Powers.trans {s t u : State} (h : Powers s t) (k : Powers t u) : Powers s u := by
  constructor
  rw [k.frame, h.frame]

theorem Powers.other (s : State) {fab : Fabric} {cores : SMap Core} {mem : MemT} {trace : TraceU} : Powers s { s with fab, cores, mem, trace } := ⟨rfl⟩

theorem Powers.ite {s a b : State} {c : Prop} {d : Decidable c} (ha : Powers s a) (hb : Powers s b) : Powers s (if c then a else b) := by
  split <;> assumption

theorem Powers.foldl {α : Type} {f : State → α → State} (hf : ∀ s x, Powers s (f s x)) (l : List α) (s : State) : Powers s (l.foldl f s) :=
  List.foldlRecOn l f (.refl s) fun t h x _ => h.trans (hf t x)

theorem traceFunnel_powers (kind dom : Nat) (p : List Byte) (s : State) : Powers s (traceFunnel kind dom p s) := by
  obtain ⟨mem, trace, h⟩ := traceFunnel_frame kind dom p s
  rw [h]
  exact .other s

theorem tracePut_powers (p : List Byte) (s : State) : Powers s (tracePut p s) := by
  obtain ⟨mem, trace, h⟩ := tracePut_frame p s
  rw [h]
  exact .other s

theorem setCore_powers (n : Node) (c : Core) (s : State) : Powers s (setCore n c s) := .other s

theorem traceRec_powers (n : Node) (kind bit : Nat) (p : List Byte) (s : State) : Powers s (traceRec n kind bit p s) := by
  unfold traceRec
  dsimp only
  split
  · exact .refl s
  · split
    · obtain ⟨mem, trace, hfold⟩ := foldl_tracePut_frame (getCore s n).traceFifo s
      rw [hfold]
      have hput : Powers s { s with mem, trace } := .other s
      split
      · exact (hput.trans (setCore_powers ..)).trans (tracePut_powers ..)
      · exact (hput.trans ((traceFunnel_powers ..).trans (setCore_powers ..))).trans (tracePut_powers ..)
    · exact .ite (setCore_powers ..) ((setCore_powers ..).trans (.other _))

theorem traceRun_powers (before : SMap Core) (src : W16) (s : State) : Powers s (traceRun before src s) :=
  .foldl (fun s _ => .ite (.refl s) (traceRec_powers ..)) _ s

theorem domainOn_powers (d : Nat) (s : State) : Powers s (domainOn d s) := by
  unfold domainOn
  dsimp only
  have hsites := Powers.foldl (f := fun (s : State) (n : Node) => setIsland n {} (setCore n { run := .held } s)) (fun s _ => .other s) (sitesOf d)
    { s with fab := { s.fab with gated := s.fab.gated.filter (fun x => x ≠ d) } }
  refine .ite (.refl s) (((Powers.other s).trans hsites).trans (.trans ?_ (traceRun_powers ..)))
  split
  · exact .ite ((Powers.other _).trans (traceFunnel_powers ..)) (.other _)
  · exact .refl _

theorem domainOff_powers (d : Nat) (s : State) : Powers s (domainOff d s) := by
  unfold domainOff
  dsimp only
  have hsites := Powers.foldl (f := fun (s : State) (n : Node) => setCore n {} (setIsland n {} s)) (fun s _ => .other s) (sitesOf d) s
  exact .ite (.refl s) (hsites.trans (.trans (.ite (.other _) (.other _)) (traceRun_powers ..)))

theorem gateUnused_powers (s : State) : Powers s (gateUnused s) :=
  .foldl (fun s d => .ite (.refl s) (domainOff_powers d s)) _ s

section
variable {s t : State} (h : Powers s t)
include h

theorem Powers.dev : t.dev = s.dev := by rw [h.frame]
theorem Powers.ltn : t.ltn = s.ltn := by rw [h.frame]
theorem Powers.fc : t.fc = s.fc := by rw [h.frame]
theorem Powers.time : t.time = s.time := by rw [h.frame]
theorem Powers.mbD : t.mbD = s.mbD := by rw [h.frame]

end

/-- A domain powered up is out of the gated ones (R538). -/
theorem domainOn_gated (d : Nat) (s : State) : (domainOn d s).fab.gated = s.fab.gated.filter (fun x => x ≠ d) := by
  unfold domainOn
  dsimp only
  split
  next h =>
    refine (List.filter_eq_self.2 fun x hx => ?_).symm
    have hne : x ≠ d := fun hxd => h (List.contains_iff_mem.2 (hxd ▸ hx))
    simpa using hne
  next =>
    have hgated : ((sitesOf d).foldl (fun (s : State) (n : Node) => setIsland n {} (setCore n { run := .held } s))
        { s with fab := { s.fab with gated := s.fab.gated.filter (fun x => x ≠ d) } }).fab.gated = s.fab.gated.filter (fun x => x ≠ d) :=
      List.foldlRecOn (motive := fun t : State => t.fab.gated = _) _ _ rfl (fun t h _ _ => h)
    generalize List.foldl _ _ (sitesOf d) = t at hgated ⊢
    rw [(traceRun_reports ..).fab]
    split
    · split
      · rw [traceGap, (traceFunnel_reports ..).fab]
        exact hgated
      · exact hgated
    · exact hgated

/-! Images and slots (R369). -/

/-- The image of the active slot. -/
def activeImage (f : FwSlots) : SlotCheck := if f.activeB then f.slotB else f.slotA

/-- The image that was booted. -/
def bootedImage (f : FwSlots) : SlotCheck := if f.bootedB then f.slotB else f.slotA

theorem bootSlot_active {otp : Nat} {f : FwSlots} (h : slotCheck otp (activeImage f) = 0) : bootSlot otp f = some (f.activeB, activeImage f) := if_pos h

theorem bootSlot_none {otp : Nat} {f : FwSlots} (hA : slotCheck otp f.slotA ≠ 0) (hB : slotCheck otp f.slotB ≠ 0) : bootSlot otp f = none := by
  cases h : f.activeB <;> simp [bootSlot, h, hA, hB]

/-! What is kept without supply (R366, R487). -/

/-- The end of a proposal changes the guard and, for a change written but not applied, the configuration. -/
theorem endProposal_frame (s : State) : ∃ guard cfg mem log, endProposal s = { s with ltn := { s.ltn with guard, cfg }, mem, log } ∧
    (s.ltn.guard.phase ≠ .endorsed → cfg = s.ltn.cfg) := by
  unfold endProposal
  dsimp only
  split
  · obtain ⟨mem, log, h⟩ := guardPhase_frame .expired 8 s
    exact ⟨_, _, mem, log, h, fun _ => rfl⟩
  next hphase =>
    split
    · obtain ⟨mem, log, h⟩ := guardPhase_frame .applied 0 (updGuard (fun g => { g with written := false, deadline := now s }) (updCfg (applyCfg s.ltn.guard.change) s))
      exact ⟨_, _, mem, log, h, fun hnot => absurd hphase hnot⟩
    · obtain ⟨mem, log, h⟩ := guardPhase_frame .vetoed 6 (updGuard (fun g => { g with writing := false }) s)
      exact ⟨_, _, mem, log, h, fun _ => rfl⟩
  · exact ⟨_, _, _, _, rfl, fun _ => rfl⟩

theorem keptLtn_eq (s : State) : ∃ cfg, keptLtn s = { cfg, guard := { drawn := (endProposal s).ltn.guard.drawn }, otpSteps := s.ltn.otpSteps, bootSeq := s.ltn.bootSeq
                                                     , cfgValid := s.ltn.cfgValid, fwLantern := { s.ltn.fwLantern with staged := false }
                                                     , fwDispatch := { s.ltn.fwDispatch with staged := false } } ∧
    (s.ltn.guard.phase ≠ .endorsed → cfg = s.ltn.cfg) := by
  obtain ⟨guard, cfg, mem, log, h, hcfg⟩ := endProposal_frame s
  refine ⟨cfg, ?_, hcfg⟩
  simp only [keptLtn, h]

/-! The boot (R367–R374). -/

/-- Lantern's firmware up from its active slot. -/
def lanternUp (s : State) : State :=
  measure 1 (activeImage s.ltn.fwLantern).digest { s with
    dev := { s.dev with ltnFwVer := (activeImage s.ltn.fwLantern).version, bootClean := true }
    ltn := { s.ltn with fw := true, spiNext := none, fallback := false, fwLantern := { s.ltn.fwLantern with bootedB := s.ltn.fwLantern.activeB } } }

section Lantern
variable {s : State}

theorem bootLantern_strap (h : strapHalt s.dev.straps ≠ 0) :
    bootLantern s = { s with dev := { s.dev with state := .bootHalt, haltCheck := (0, 0, strapHalt s.dev.straps) } } := if_pos h

variable (hstrap : strapHalt s.dev.straps = 0)
include hstrap

theorem bootLantern_noImage (hA : slotCheck s.ltn.otpSteps s.ltn.fwLantern.slotA ≠ 0) (hB : slotCheck s.ltn.otpSteps s.ltn.fwLantern.slotB ≠ 0) :
    bootLantern s = { s with dev := { s.dev with
      state := .bootHalt, haltCheck := (slotCheck s.ltn.otpSteps s.ltn.fwLantern.slotA, slotCheck s.ltn.otpSteps s.ltn.fwLantern.slotB, 0) } } := by
  refine (if_neg (not_not.2 hstrap)).trans ?_
  rw [bootSlot_none hA hB]

theorem bootLantern_boots (h : slotCheck s.ltn.otpSteps (activeImage s.ltn.fwLantern) = 0) : bootLantern s = lanternUp s := by
  refine (if_neg (not_not.2 hstrap)).trans ?_
  rw [bootSlot_active h]
  dsimp only
  rw [bne_self_eq_false]
  rfl

end Lantern

theorem railsUp_frame (s : State) : ∃ sent vout voutAt, railsUp s = { s with sent, ltn := { s.ltn with vout, voutAt } } := by
  refine List.foldlRecOn (motive := fun t : State => ∃ sent vout voutAt, t = { s with sent, ltn := { s.ltn with vout, voutAt } }) _ _ ⟨_, _, _, rfl⟩ fun t ht g _ => ?_
  obtain ⟨sent, vout, voutAt, rfl⟩ := ht
  exact ⟨_, _, _, rfl⟩

/-- The dispatch complex comes up from its active slot (R371). -/
theorem bootDispatch_boots {s : State} (h : slotCheck s.ltn.otpSteps (activeImage s.ltn.fwDispatch) = 0) : bootDispatch s =
    measure 3 (activeImage s.ltn.fwDispatch).digest { domainOn 1 s with
      dev := { s.dev with dispatchUp := true, dspFwVer := (activeImage s.ltn.fwDispatch).version }
      mbD := { s.mbD with service := true }, mbL := { (domainOn 1 s).mbL with service := true }
      ltn := { s.ltn with fwDispatch := { s.ltn.fwDispatch with bootedB := s.ltn.fwDispatch.activeB } } } := by
  have hpowers := domainOn_powers 1 s
  rw [bootDispatch]
  dsimp only
  rw [hpowers.ltn, hpowers.dev, hpowers.mbD, bootSlot_active h]
  dsimp only
  rw [bne_self_eq_false]
  rfl

/-- The dispatch complex and the hub are up. -/
structure DispatchUp (s t : State) : Prop where
  dev : t.dev = { s.dev with dispatchUp := true, dspFwVer := (activeImage s.ltn.fwDispatch).version }
  fw : t.ltn.fw = s.ltn.fw
  serviceD : t.mbD.service = true
  serviceL : t.mbL.service = true
  hub : t.fab.gated.contains 1 = false
  prism : t.fab.gated.contains 2 = false

theorem bootDispatch_up {s : State} (h : slotCheck s.ltn.otpSteps (activeImage s.ltn.fwDispatch) = 0) :
    DispatchUp s (domainOn 2 (bootDispatch s)) := by
  have hboots := bootDispatch_boots h
  have hprism := domainOn_powers 2 (bootDispatch s)
  have hgated : (domainOn 2 (bootDispatch s)).fab.gated = (s.fab.gated.filter (fun x => x ≠ 1)).filter (fun x => x ≠ 2) := by
    rw [domainOn_gated, ← domainOn_gated 1 s, hboots]
    rfl
  have hL : (domainOn 2 (bootDispatch s)).mbL = (bootDispatch s).mbL := by rw [hprism.frame]
  refine ⟨?_, ?_, ?_, ?_, ?_, ?_⟩
  · rw [hprism.dev, hboots]
    rfl
  · rw [hprism.ltn, hboots]
    rfl
  · rw [hprism.mbD, hboots]
    rfl
  · rw [hL, hboots]
    rfl
  · rw [hgated]
    simp
  · rw [hgated]
    simp

/-- The rails are up and the configuration area is measured. -/
def railed (s : State) : State := railsUp (measure 2 (leBytes 32 (freshBits 256 s).1.toNat) (freshBits 256 s).2)

theorem railed_frame (s : State) : ∃ free sent ltn, railed s = { s with free, sent, ltn } ∧
    ltn.otpSteps = s.ltn.otpSteps ∧ ltn.fwDispatch = s.ltn.fwDispatch ∧ ltn.fw = s.ltn.fw := by
  obtain ⟨sent, vout, voutAt, h⟩ := railsUp_frame (measure 2 (leBytes 32 (freshBits 256 s).1.toNat) (freshBits 256 s).2)
  exact ⟨_, sent, _, h, rfl, rfl, rfl⟩

/-- The host link is enabled (R368). -/
def linkEnabled (s : State) : State := { s with host := { s.host with enabled := true, detect := !s.host.perst } }

theorem bootTail_lost {s : State} (h : s.ltn.cfgValid = false) : bootTail s = raise .ltnConfigLost dev [] s := if_pos (ne_true_of_eq_false h)

theorem bootTail_valid {s : State} (h : s.ltn.cfgValid = true) : bootTail s = linkEnabled (domainOn 2 (bootDispatch (railed s))) := if_neg (not_not.2 h)

/-- Steps 4 to 7 with a valid copy and an acceptable dispatch image. -/
theorem bootTail_boots {s : State} (hvalid : s.ltn.cfgValid = true) (h : slotCheck s.ltn.otpSteps (activeImage s.ltn.fwDispatch) = 0) :
    DispatchUp s (bootTail s) ∧ (bootTail s).host.enabled = true := by
  obtain ⟨free, sent, ltn, hrails, hotp, hdispatch, hfw⟩ := railed_frame s
  have hup : DispatchUp (railed s) (domainOn 2 (bootDispatch (railed s))) := bootDispatch_up (by rw [hrails, hotp, hdispatch]; exact h)
  have hdev : (railed s).dev = s.dev := by rw [hrails]
  have hltn : (railed s).ltn = ltn := by rw [hrails]
  rw [bootTail_valid hvalid]
  refine ⟨⟨hup.dev.trans ?_, hup.fw.trans ?_, hup.serviceD, hup.serviceL, hup.hub, hup.prism⟩, rfl⟩
  · rw [hdev, hltn, hdispatch]
  · rw [hltn, hfw]

/-! Power-on (R366, R460). -/

/-- What a power-on starts from: the device without supply, its flash read and its straps sampled. -/
def bootStart (f : FlashEnv) (s : State) : State :=
  { readFlash f (coldState s.dev.lockedLatch s) with dev := { (readFlash f (coldState s.dev.lockedLatch s)).dev with straps := f.straps } }

/-- A body's slots as the flash has them. -/
def readSlots (a b : SlotCheck) (x : FwSlots) : FwSlots := { x with slotA := a, slotB := b, staged := false }

theorem bootStart_ltn (f : FlashEnv) (s : State) : (bootStart f s).ltn.otpSteps = s.ltn.otpSteps ∧ (bootStart f s).ltn.cfgValid = f.configValid ∧
    (bootStart f s).ltn.fw = false ∧ (bootStart f s).ltn.fwLantern = readSlots f.lanternA f.lanternB s.ltn.fwLantern ∧
    (bootStart f s).ltn.fwDispatch = readSlots f.dispatchA f.dispatchB s.ltn.fwDispatch := by
  obtain ⟨cfg, hkept, -⟩ := keptLtn_eq s
  have hltn : (bootStart f s).ltn = { keptLtn s with
      cfgValid := f.configValid
      fwLantern := { (keptLtn s).fwLantern with slotA := f.lanternA, slotB := f.lanternB }
      fwDispatch := { (keptLtn s).fwDispatch with slotA := f.dispatchA, slotB := f.dispatchB } } := rfl
  rw [hltn, hkept]
  exact ⟨rfl, rfl, rfl, rfl, rfl⟩

theorem powerOn_latched {s : State} (h : s.dev.lockedLatch = true) (f : FlashEnv) :
    powerOn f s = transition .locked none 0 { bootStart f s with fc := { (bootStart f s).fc with c4 := true } } := if_pos h

theorem powerOn_boots {s : State} (h : s.dev.lockedLatch = false) (f : FlashEnv) :
    powerOn f s = if (bootRom (bootStart f s)).dev.state = .bootHalt then bootRom (bootStart f s) else calibrate (bootRom (bootStart f s)) :=
  if_neg (ne_true_of_eq_false h)

theorem calibrate_dev (s : State) : (calibrate s).dev = s.dev := rfl

theorem calibrate_frame (s : State) : ∃ free time, calibrate s = { s with free, time } := ⟨_, _, rfl⟩

theorem bootRom_halts {s : State} (h : (bootLantern s).dev.state = .bootHalt) : bootRom s = bootLantern s := if_pos h

theorem bootRom_goes {s : State} (h : (bootLantern s).dev.state ≠ .bootHalt) : bootRom s = bootTail (bootLantern s) := if_neg h

theorem powerOn_halts {s : State} (h : s.dev.lockedLatch = false) {f : FlashEnv} (hhalt : (bootLantern (bootStart f s)).dev.state = .bootHalt) :
    powerOn f s = bootLantern (bootStart f s) := by
  rw [powerOn_boots h, bootRom_halts hhalt, if_pos hhalt]

/-- With Lantern's image acceptable the boot goes on from its firmware. -/
theorem bootRom_lantern {s : State} (hst : s.dev.state = .booting) (hstrap : strapHalt s.dev.straps = 0)
    (h : slotCheck s.ltn.otpSteps (activeImage s.ltn.fwLantern) = 0) : bootRom s = bootTail (lanternUp s) := by
  have hup := bootLantern_boots hstrap h
  have hgoes : (bootLantern s).dev.state ≠ .bootHalt := by
    rw [hup]
    show s.dev.state ≠ .bootHalt
    rw [hst]
    decide
  rw [bootRom_goes hgoes, hup]

theorem powerOn_calibrates {s : State} (h : s.dev.lockedLatch = false) {f : FlashEnv} (hgoes : (bootRom (bootStart f s)).dev.state ≠ .bootHalt) :
    powerOn f s = calibrate (bootRom (bootStart f s)) := (powerOn_boots h f).trans (if_neg hgoes)

/-- LTC_INC lies within ±200 ppm after a power-on (R263). -/
theorem powerOn_inc (f : FlashEnv) (s : State) : IncOk (powerOn f s).time.inc := (inv_of_steady (powerOn_steady f s) (inv_coldState ..)).inc

/-! C4 and C3 raises during a boot (R445, R446). -/

theorem c4Reaction_state (src : Source) (i : Inst) (s : State) : (c4Reaction src i s).dev.state = .locked := by
  by_cases hst : s.dev.state = .locked
  · have hdev : (c4Begun src i s).dev.state = .locked := hst
    have hstays : c4Reaction src i s = c4Begun src i s := if_pos hdev
    rw [hstays, hdev]
  · exact (c4Reaction_locks hst src i).1

/-- A raise of class C4 ends in LOCKED, whatever the state. -/
theorem raiseAs_c4_locks (src : Source) (i : Inst) (d : List Byte) (s : State) : (raiseAs src i .c4 false d s).dev.state = .locked := by
  have hraise : raise1 src i .c4 false d false s = (announce (c4Reaction src i (register src i .c4 false d false s)), false) := by
    simp [raise1, Cls.ge, Cls.num]
  rw [raiseAs_ends hraise nofun, (announce_tells _).dev]
  exact c4Reaction_state ..

theorem raise_configLost_locks (s : State) : (raise .ltnConfigLost dev [] s).dev.state = .locked := by
  rw [raise_unpaired (.inl (by decide))]
  exact raiseAs_c4_locks ..

/-- A raise that is new, with room in the table, enters it. -/
theorem register_enters {s : State} {src : Source} {i : Inst} (hnew : s.fc.active.find? (fun e => e.is src i) = none)
    (hroom : s.fc.active.length < 256) (cls : Cls) (d : List Byte) : ∃ mem log urg sent host, register src i cls false d false s =
        { s with mem, log, urg, sent, host, fc := { s.fc with active := s.fc.active ++ [firstEntry s src i cls] } } := by
  obtain ⟨mem, log, hlog⟩ := logRec_frame 1 (BitVec.ofNat 8 cls.num) src.code (raisePayload s src i ({} : Stick 16).inc d) s
  have hinsert : insertActive (firstEntry s src i cls) { s with mem, log } =
      { s with mem, log, fc := { s.fc with active := s.fc.active ++ [firstEntry s src i cls] } } := insertActive_appends hnew hroom
  unfold raisePayload at hlog
  unfold firstEntry at hinsert
  simp only [register, hnew, hlog, hinsert]
  obtain ⟨urg, sent, host, hrep⟩ := reportIf_frame _ _ _
  exact ⟨mem, log, urg, sent, host, hrep⟩

theorem c3Reaction_booting {s : State} (hst : s.dev.state = .booting) (src : Source) (i : Inst) :
    c3Reaction src i s = driveFault .high (c3Begun src i s) := by
  have hdev : (c3Begun src i s).dev.state = .booting := hst
  unfold c3Begun at hdev
  simp only [c3Reaction, hdev, c3Begun]

/-- A C3 raise during the boot enters the active table; the boot goes on. -/
theorem raiseAs_c3_booting {s : State} {src : Source} {i : Inst} (hst : s.dev.state = .booting) (hnew : s.fc.active.find? (fun e => e.is src i) = none)
    (hroom : s.fc.active.length < 256) (d : List Byte) :
    (raiseAs src i .c3 false d s).fc.active = s.fc.active ++ [firstEntry s src i .c3] := by
  have hnot : s.dev.state ≠ .degraded := by simp [hst]
  obtain ⟨v, hraise, hdev, hactive, hentry⟩ : ∃ v, raise1 src i .c3 false d false s =
      (announce (c3Reaction src i (register src i .c3 false d false v)), false) ∧ v.dev = s.dev ∧
      v.fc.active = s.fc.active ∧ firstEntry v src i .c3 = firstEntry s src i .c3 :=
    ⟨{ s with fc := { s.fc with c3List := s.fc.c3List ++ [(src, i)]
                                torchReason := torchCheck { s with fc := { s.fc with c3List := s.fc.c3List ++ [(src, i)] } } } },
      by simp [raise1, hnot, Cls.ge], rfl, rfl, rfl⟩
  obtain ⟨mem, log, urg, sent, host, hreg⟩ := register_enters (s := v) (src := src) (i := i) (by rw [hactive]; exact hnew) (by rw [hactive]; exact hroom) .c3 d
  have hudev : (register src i .c3 false d false v).dev.state = .booting := by
    rw [hreg]
    exact hdev ▸ hst
  have htells := announce_tells (c3Reaction src i (register src i .c3 false d false v))
  have hstate : (c3Reaction src i (register src i .c3 false d false v)).dev.state = .booting := by
    rw [c3Reaction_booting hudev]
    exact hudev
  rw [raiseAs_ends hraise (fun _ => by rw [htells.dev, hstate]; simp), htells.fc, c3Reaction_booting hudev, hreg, ← hactive, ← hentry]
  rfl

/-! The end of the boot (R361, R374, R479). -/

/-- Steps 8 and 9 up to the end state: galleries, tests, DRAM, measurement, gating. -/
def bootSteps (e : BootEnv) (s : State) : State :=
  let s := [3, 6, 9, 8, 11, 10, 13, 12, 15, 14].foldl (fun (s : State) (d : Nat) => domainOn d s) s
  let s := dramBoot e.dramLockFail (siteTests e.failedSites s)
  let s := gateUnused (measure 4 (leBytes 32 (freshBits 256 s).1.toNat) (freshBits 256 s).2)
  { s with fc := { s.fc with aliveRun := true } }

/-- READY's collector: no C3 cause, no torch. -/
def clearedFc (s : State) : State :=
  { s with fc := { s.fc with
      c3 := false, c3List := [], torchReason := .none, chan0 := { s.fc.chan0 with highest := .c0 }, chan1 := { s.fc.chan1 with highest := .c0 } } }

theorem bootEnd_eq (e : BootEnv) (s : State) : bootEnd e s =
    let u := bootSteps e (startPattern e.pattern s)
    if (heldCause u).isSome then enter .safeHold none 0 { u with fc := { u.fc with c3 := true } } else raiseOtp (enter .ready none 0 (clearedFc u)) := rfl

/-- What the boot's last steps leave: the collector, the time, the images and the OTP count; the sites that failed are unavailable. -/
structure Booted (sites : List Node) (s t : State) : Prop where
  fc : t.fc = { s.fc with aliveRun := true }
  dev : t.dev = { s.dev with unavailable := coreSites.filter (fun n => sites.contains n), sitesLost := !(coreSites.filter (fun n => sites.contains n)).isEmpty }
  time : t.time = s.time
  otp : t.ltn.otpSteps = s.ltn.otpSteps
  lantern : t.ltn.fwLantern = s.ltn.fwLantern
  dispatch : t.ltn.fwDispatch = s.ltn.fwDispatch

theorem siteTests_tells (sites : List Node) (s : State) : Tells { s with dev := { s.dev with
    unavailable := coreSites.filter (fun n => sites.contains n), sitesLost := !(coreSites.filter (fun n => sites.contains n)).isEmpty } } (siteTests sites s) :=
  List.foldlRecOn _ _ (.refl _) fun _ h _ _ => h.trans (logRec_tells ..)

/-- With every pair locked, DRAM training changes the memories alone. -/
theorem dramBoot_locked (s : State) : ∃ mem, dramBoot [] s = { s with mem } := ⟨_, rfl⟩

/-- Measurement 4 with the free digest. -/
def siteMeasured (s : State) : State := measure 4 (leBytes 32 (freshBits 256 s).1.toNat) (freshBits 256 s).2

theorem siteMeasured_frame (s : State) : ∃ free chain meas, siteMeasured s = { s with free, ltn := { s.ltn with chain, meas } } := ⟨_, _, _, rfl⟩

theorem bootSteps_booted {e : BootEnv} (hlocked : e.dramLockFail = []) (s : State) : Booted e.failedSites s (bootSteps e s) := by
  have hon := Powers.foldl (fun (s : State) (d : Nat) => domainOn_powers d s) [3, 6, 9, 8, 11, 10, 13, 12, 15, 14] s
  have hsteps : bootSteps e s = (fun u : State => { u with fc := { u.fc with aliveRun := true } }) (gateUnused (siteMeasured (dramBoot e.dramLockFail
      (siteTests e.failedSites ([3, 6, 9, 8, 11, 10, 13, 12, 15, 14].foldl (fun (s : State) (d : Nat) => domainOn d s) s))))) := rfl
  generalize [3, 6, 9, 8, 11, 10, 13, 12, 15, 14].foldl (fun (s : State) (d : Nat) => domainOn d s) s = v at hon hsteps
  have hsites := siteTests_tells e.failedSites v
  obtain ⟨mem, hdram⟩ := dramBoot_locked (siteTests e.failedSites v)
  obtain ⟨free, chain, meas, hmeasured⟩ := siteMeasured_frame { siteTests e.failedSites v with mem }
  rw [hlocked, hdram, hmeasured] at hsteps
  have hoff := gateUnused_powers { siteTests e.failedSites v with mem, free, ltn := { (siteTests e.failedSites v).ltn with chain, meas } }
  generalize gateUnused _ = g at hoff hsteps
  have hltn : g.ltn = { s.ltn with chain, meas } := by rw [hoff.ltn, hsites.ltn, ← hon.ltn]
  rw [hsteps]
  refine ⟨?_, ?_, ?_, ?_, ?_, ?_⟩
  · dsimp only
    rw [hoff.fc, hsites.fc, ← hon.fc]
  · dsimp only
    rw [hoff.dev, hsites.dev, ← hon.dev]
  · exact hoff.time.trans (hsites.time.trans hon.time)
  · show g.ltn.otpSteps = _
    rw [hltn]
  · show g.ltn.fwLantern = _
    rw [hltn]
  · show g.ltn.fwDispatch = _
    rw [hltn]

theorem heldCause_congr {s t : State} (hactive : t.fc.active = s.fc.active) (htime : t.time = s.time) : heldCause t = heldCause s := by
  have hheld (e : Active) : causeHeld t e = causeHeld s e := by rw [causeHeld, causeHeld, now, now, htime]
  rw [heldCause, heldCause, hactive]
  exact congrArg (fun p => s.fc.active.find? p) (funext hheld)

theorem startPattern_swapped (s : State) : startPattern { safeAHigh := false, safeBHigh := true } s = driveSafe true (raise .sioHarnessSwap dev [] s) := rfl

/-- The lower rollback step of the two images booted, at most 64 (R479). -/
def otpFloor (s : State) : Nat := min 64 (min (bootedImage s.ltn.fwLantern).rollback (bootedImage s.ltn.fwDispatch).rollback)

theorem raiseOtp_eq (s : State) : raiseOtp s = if s.dev.bootClean ∧ s.ltn.otpSteps < otpFloor s then
    updateLog 5 (leBytes 1 (otpFloor s)) { s with ltn := { s.ltn with otpSteps := otpFloor s } } else s := rfl

theorem raiseOtp_unclean {s : State} (h : s.dev.bootClean = false) : raiseOtp s = s := if_neg fun hclean => ne_true_of_eq_false h hclean.1

theorem raiseOtp_clean {s : State} (h : s.dev.bootClean = true) : (raiseOtp s).ltn.otpSteps = max s.ltn.otpSteps (otpFloor s) := by
  rw [raiseOtp_eq]
  split
  next hless => exact (congrArg Ltn.otpSteps (logRec_tells ..).ltn).trans (Nat.max_eq_right (Nat.le_of_lt hless.2)).symm
  next hmore => exact (Nat.max_eq_left (Nat.not_lt.1 fun hless => hmore ⟨h, hless⟩)).symm

theorem raiseOtp_kept (s : State) : (raiseOtp s).dev = s.dev ∧ (raiseOtp s).fc = s.fc := by
  rw [raiseOtp_eq]
  split
  · exact ⟨(logRec_tells ..).dev, (logRec_tells ..).fc⟩
  · exact ⟨rfl, rfl⟩

theorem bootComplete_idle {s : State} (h : s.dev.state ≠ .booting) (e : BootEnv) : bootComplete e s = s := if_pos h

theorem bootComplete_ends {s : State} (hst : s.dev.state = .booting) (hfw : s.ltn.fw = true) (e : BootEnv) : bootComplete e s = bootEnd e s := by
  rw [bootComplete, if_neg (not_not.2 hst), if_pos hfw]
  exact if_pos hst

/-- With a good pattern and no cause held the boot ends in READY. -/
theorem bootEnd_ready {s : State} (hcause : heldCause s = none) (sites : List Node) : ∃ u, Booted sites (startPattern {} s) u ∧
    bootEnd { failedSites := sites } s = raiseOtp (enter .ready none 0 (clearedFc u)) := by
  have hbooted := bootSteps_booted (e := { failedSites := sites }) rfl (startPattern {} s)
  have hnone : heldCause (bootSteps { failedSites := sites } (startPattern {} s)) = none :=
    (heldCause_congr (congrArg Fc.active hbooted.fc) hbooted.time).trans ((heldCause_congr rfl rfl).trans hcause)
  refine ⟨_, hbooted, ?_⟩
  rw [bootEnd_eq]
  dsimp only
  rw [hnone]
  rfl

/-- A swapped harness that stays raised holds the device in SAFE_HOLD. -/
theorem bootEnd_swapped {s : State} (hst : s.dev.state = .booting) (hactive : s.fc.active = []) (hcls : clsOf s .sioHarnessSwap dev = .c3)
    (hsticky : (entryFor s .sioHarnessSwap).sticky = true) : ∃ t, bootEnd { pattern := { safeAHigh := false, safeBHigh := true } } s = t ∧
      t.dev.state = .safeHold ∧ t.fc.c3 = true ∧ t.fc.safeA = true ∧ t.fc.safeBN = true := by
  have hentered : (raise .sioHarnessSwap dev [] s).fc.active = [firstEntry s .sioHarnessSwap dev .c3] := by
    rw [raise_unpaired (.inl (by decide)), hcls, raiseAs_c3_booting hst (by rw [hactive]; rfl) (by rw [hactive]; decide), hactive]
    rfl
  have hraised : (firstEntry s .sioHarnessSwap dev .c3).raised = true := by simp [firstEntry, hsticky]
  have hcause : (firstEntry s .sioHarnessSwap dev .c3).cause = true := by simp [firstEntry, hsticky]
  have hswap : (raise .sioHarnessSwap dev [] s).fc.active.any (fun e => e.source = .sioHarnessSwap && e.raised) = true := by
    rw [hentered, List.any_cons, hraised]
    rfl
  rw [bootEnd_eq, startPattern_swapped]
  generalize raise .sioHarnessSwap dev [] s = r at hentered hswap
  have hbooted := bootSteps_booted (e := { pattern := { safeAHigh := false, safeBHigh := true } }) rfl (driveSafe true r)
  generalize bootSteps _ (driveSafe true r) = u at hbooted
  have hlist : u.fc.active = [firstEntry s .sioHarnessSwap dev .c3] := (congrArg Fc.active hbooted.fc).trans hentered
  have hheld : (heldCause u).isSome = true := by
    simp only [heldCause, hlist, List.find?, causeHeld, hcause, hraised, Bool.true_or, Bool.and_self, Option.isSome_some]
  refine ⟨_, if_pos hheld, ?_, ?_, ?_, ?_⟩
  · rw [(enter_tells ..).dev]
    rfl
  · rw [(enter_tells ..).fc]
    rfl
  · rw [(enter_tells ..).fc]
    exact congrArg Fc.safeA hbooted.fc
  · rw [(enter_tells ..).fc]
    exact (congrArg Fc.safeBN hbooted.fc).trans hswap

/-! Warm reset (R366). -/

/-- From `s` to `t` the device's record, Lantern and the level of PERST_N stand. -/
structure KeepsLantern (s t : State) : Prop where
  dev : t.dev = s.dev
  ltn : t.ltn = s.ltn
  perst : t.host.perst = s.host.perst

theorem KeepsLantern.refl (s : State) : KeepsLantern s s := ⟨rfl, rfl, rfl⟩

theorem KeepsLantern.trans {s t u : State} (h : KeepsLantern s t) (k : KeepsLantern t u) : KeepsLantern s u :=
  ⟨k.dev.trans h.dev, k.ltn.trans h.ltn, k.perst.trans h.perst⟩

theorem KeepsLantern.ite {s a b : State} {c : Prop} {d : Decidable c} (ha : KeepsLantern s a) (hb : KeepsLantern s b) :
    KeepsLantern s (if c then a else b) := by
  split <;> assumption

/-- A change of other fields alone. -/
theorem KeepsLantern.other (s : State) {time : TimeU} {mbL : Mbx} : KeepsLantern s { s with time, mbL } := ⟨rfl, rfl, rfl⟩

theorem msix_keepsLantern (v : Nat) (s : State) : KeepsLantern s (msix v s) := .ite ⟨rfl, rfl, rfl⟩ ⟨rfl, rfl, rfl⟩

theorem setMb_keepsLantern (m : Mailbox) (b : Mbx) (s : State) : KeepsLantern s (setMb m b s) := by
  cases m <;> exact ⟨rfl, rfl, rfl⟩

theorem respond_keepsLantern (m : Mailbox) (k : Nat) (st dt : W16) (bs : List Byte) (s : State) : KeepsLantern s (respond m k st dt bs s) :=
  .ite (.refl s) (.ite ((setMb_keepsLantern ..).trans (msix_keepsLantern ..)) (setMb_keepsLantern ..))

theorem timeEventSet_keepsLantern (m : BitVec 6) (s : State) : KeepsLantern s (timeEventSet m s) :=
  .ite ((KeepsLantern.other s).trans (msix_keepsLantern ..)) (.other s)

theorem setStatusPtc_keepsLantern (st : PtcStatus) (s : State) : KeepsLantern s (setStatusPtc st s) :=
  .ite (.refl s) ((KeepsLantern.other s).trans (timeEventSet_keepsLantern ..))

theorem failStep_keepsLantern (s : State) : KeepsLantern s (failStep s) := by
  unfold failStep
  split
  · exact (KeepsLantern.other s).trans (respond_keepsLantern ..)
  · exact .refl s

theorem holdover_keepsLantern (change : Bool) (s : State) : KeepsLantern s (holdover change s) := by
  unfold holdover
  dsimp only
  have hevent (u : State) : KeepsLantern u (failStep (if change then timeEventSet 2 u else u)) :=
    (KeepsLantern.ite (timeEventSet_keepsLantern ..) (.refl u)).trans (failStep_keepsLantern _)
  have hbegun := (KeepsLantern.other s).trans (hevent { s with time := { s.time with
    slew := 0, good := 0, slave := none, gm := 0, masterChanged := s.time.masterChanged || change } })
  exact .ite hbegun (hbegun.trans (setStatusPtc_keepsLantern ..))

/-- Holdover begun where there is a slave port. -/
def slaveLeft (s : State) : State := match s.time.slave with | some _ => holdover false s | none => s

theorem slaveLeft_keepsLantern (s : State) : KeepsLantern s (slaveLeft s) := by
  unfold slaveLeft
  split
  · exact holdover_keepsLantern ..
  · exact .refl s

/-- The state that a warm reset clears. -/
def warmBase (s : State) : State := endProposal (slaveLeft s)

/-- A staging that ran takes a free value for its status. -/
def warmKept (s : State) : State := if staging (warmBase s) then (freshBits 16 (warmBase s)).2 else warmBase s

/-- The device as a warm reset leaves it, before its record in the log. -/
def warmCold (s : State) : State :=
  { State.reset with
    pending := (warmKept s).pending, free := (warmKept s).free, sent := (warmKept s).sent, log := (warmKept s).log
    time := { (warmKept s).time with trig := [], ports := [], order := [] }
    ltn := { keptLtn (warmKept s) with
      guard := (warmKept s).ltn.guard, stage := if staging (warmBase s) then .failed else .idle
      stageFail := if staging (warmBase s) then (freshBits 16 (warmBase s)).1 else 0 }
    host := { perst := (warmKept s).host.perst }
    dev := { sessions := (warmKept s).dev.sessions, straps := (warmKept s).dev.straps, lockedLatch := (warmKept s).dev.lockedLatch } }

theorem warmClear_eq (s : State) : warmClear s = logRec 2 0 0 [devByte s.dev, devByte (warmCold s).dev] (warmCold s) := rfl

theorem warmKept_base (s : State) : KeepsLantern (warmBase s) (warmKept s) := .ite ⟨rfl, rfl, rfl⟩ (.refl _)

theorem warmBase_kept (s : State) : (warmBase s).dev = s.dev ∧ (warmBase s).ltn.otpSteps = s.ltn.otpSteps ∧ (warmBase s).host.perst = s.host.perst := by
  have hslave := slaveLeft_keepsLantern s
  obtain ⟨guard, cfg, mem, log, hend, -⟩ := endProposal_frame (slaveLeft s)
  rw [warmBase, hend]
  refine ⟨hslave.dev, ?_, hslave.perst⟩
  show (slaveLeft s).ltn.otpSteps = _
  rw [hslave.ltn]

theorem keptLtn_otp (s : State) : (keptLtn s).otpSteps = s.ltn.otpSteps := by
  obtain ⟨cfg, h, -⟩ := keptLtn_eq s
  rw [h]

/-- What a warm reset's clearing leaves. -/
theorem warmClear_keeps (s : State) : ∃ t, warmClear s = t ∧ t.dev.state = .booting ∧ t.dev.sessions = s.dev.sessions ∧ t.dev.session = 0 ∧
    t.dev.straps = s.dev.straps ∧ t.dev.lockedLatch = s.dev.lockedLatch ∧ t.ltn.otpSteps = s.ltn.otpSteps ∧
    t.cores = [] ∧ t.plans = [] ∧ t.fc = State.reset.fc ∧ t.loop = State.reset.loop ∧ t.host = { perst := s.host.perst } := by
  obtain ⟨hdev, hotp, hperst⟩ := warmBase_kept s
  have hkept := warmKept_base s
  have hotp' : (keptLtn (warmKept s)).otpSteps = s.ltn.otpSteps := by rw [keptLtn_otp, hkept.ltn, hotp]
  have hdev' : (warmCold s).dev = { sessions := s.dev.sessions, straps := s.dev.straps, lockedLatch := s.dev.lockedLatch } := by
    rw [warmCold, hkept.dev, hdev]
  have hhost : (warmCold s).host = { perst := s.host.perst } := by rw [warmCold, hkept.perst, hperst]
  obtain ⟨mem, log, hlog⟩ := logRec_frame 2 0 0 [devByte s.dev, devByte (warmCold s).dev] (warmCold s)
  refine ⟨_, (warmClear_eq s).trans hlog, ?_⟩
  dsimp only
  rw [hdev']
  exact ⟨rfl, rfl, rfl, rfl, rfl, hotp', rfl, rfl, rfl, rfl, hhost⟩

/-! Wake (R384) and log flushes (R470). -/

theorem logPut_flash (kind cls : Byte) (code : W16) (p : List Byte) (s : State) : (logPut kind cls code p s).log.flash = s.log.flash := by
  unfold logPut
  dsimp only
  split
  · rfl
  · split <;> rfl

theorem logRec_flash (kind cls : Byte) (code : W16) (p : List Byte) (s : State) : (logRec kind cls code p s).log.flash = s.log.flash := by
  unfold logRec
  dsimp only
  split
  · rw [logPut_flash]
    exact logPut_flash ..
  · exact logPut_flash ..

theorem transition_flash (st : DevState) (prior : Option DevState) (cause : W16) (s : State) : (transition st prior cause s).log.flash = s.log.flash := by
  unfold transition
  rw [(notifyAll_posts ..).frame]
  exact logRec_flash ..

theorem wakeUp_idle {s : State} (h : s.dev.state ≠ .aonOnly) : wakeUp s = s := if_pos h

/-- A wake begins a new drive cycle in BOOTING, with the sites' results and RECOVERY_CNT cleared. -/
theorem wakeUp_boots {s : State} (h : s.dev.state = .aonOnly) : ∃ u, wakeUp s = bootTail u ∧ u.dev.state = .booting ∧
    u.dev.stateSeq = s.dev.stateSeq + 1 ∧ u.fc.recovery = {} ∧ u.dev.unavailable = [] ∧ u.log.flash = s.log.flash :=
  ⟨_, if_neg (not_not.2 h), by rw [(transition_tells ..).dev]; rfl, by rw [(transition_tells ..).dev]; rfl,
    by rw [(transition_tells ..).fc]; rfl, by rw [(transition_tells ..).dev]; rfl, transition_flash ..⟩

theorem logFlush_off {s : State} (h : s.ltn.guard.writing = true ∨ ltnHeld s = true) : logFlush s = s := if_pos h

theorem logFlush_on {s : State} (hwriting : s.ltn.guard.writing = false) (hlive : ltnHeld s = false) : logFlush s =
    if s.log.urgentFlush then flushLog (unflushed s.log).length s else if 128 ≤ (unflushed s.log).length then flushLog 128 s else s :=
  if_neg (not_or.2 ⟨ne_true_of_eq_false hwriting, ne_true_of_eq_false hlive⟩)

theorem logFlush_few {s : State} (hurgent : s.log.urgentFlush = false) (hfew : (unflushed s.log).length < 128) : logFlush s = s := by
  rw [logFlush, hurgent, if_neg (Nat.not_le_of_lt hfew), if_neg Bool.false_ne_true, ite_self]

/-- Settles O54: reset and power-on from the state without supply, the boot's end, warm reset, wake and flushes by their lemmas. -/
theorem powerAndBoot : Obligations.PowerAndBoot := by
  unfold Obligations.PowerAndBoot
  refine ⟨fun s => ?cycle, fun s f h => ?latched, fun s f h => ⟨fun hstrap => ?strap, fun hstrap hA hB => ?noImage, fun hstrap hgood hlost => ?configLost,
      fun hstrap hgood hdispatch hvalid => ?boots⟩, fun s e h => ?notBooting, fun s sites hst hfw hcause => ?ready,
    fun s hst hfw hactive hc4 hcls hsticky => ?swapped, fun s f => ⟨fun h => ?lockedReset, fun h => ?warm⟩,
    fun s id => ⟨fun h => ?asleep, fun hid hst => ?wakes⟩,
    fun s => ⟨fun h => ?noFlush, fun hwriting hlive hurgent => ?flushAll, fun hwriting hlive hcalm hmany => ?flushBlock, fun hcalm hfew => ?few⟩⟩
  case cycle =>
    obtain ⟨cfg, hkept, hcfg⟩ := keptLtn_eq s
    have hltn : (coldState false s).ltn = keptLtn s := rfl
    exact ⟨_, rfl, rfl, rfl, rfl, keptLtn_otp s, fun hphase => by rw [hltn, hkept]; exact hcfg hphase, rfl⟩
  case latched =>
    have htells := transition_tells .locked none 0 { bootStart f s with fc := { (bootStart f s).fc with c4 := true } }
    refine ⟨_, congrArg Host.Outcome.next (powerOn_latched h f), ?_, ?_, ?_, ?_, ?_, ?_⟩
    · rw [htells.dev]
      rfl
    · rw [htells.dev]
      exact h
    · rw [htells.fc]
      rfl
    · rw [htells.mbD]
      rfl
    · rw [htells.mbL]
      rfl
    · rw [htells.cores]
      rfl
  case strap =>
    have hhalt := bootLantern_strap (s := bootStart f s) hstrap
    have hon := powerOn_halts h (f := f) (by rw [hhalt])
    refine ⟨_, congrArg Host.Outcome.next (hon.trans hhalt), rfl, rfl, (bootStart_ltn f s).2.2.1⟩
  case noImage =>
    obtain ⟨hotp, -, hfw, hlan, -⟩ := bootStart_ltn f s
    have hhalt := bootLantern_noImage (s := bootStart f s) hstrap (by rw [hotp, hlan]; exact hA) (by rw [hotp, hlan]; exact hB)
    have hon := powerOn_halts h (f := f) (by rw [hhalt])
    refine ⟨_, congrArg Host.Outcome.next (hon.trans hhalt), rfl, ?_, hfw⟩
    dsimp only
    rw [hotp, hlan]
    rfl
  case configLost =>
    obtain ⟨hotp, hvalid, -, hlan, -⟩ := bootStart_ltn f s
    have hrom : bootRom (bootStart f s) = raise .ltnConfigLost dev [] (lanternUp (bootStart f s)) :=
      (bootRom_lantern rfl hstrap (by rw [hotp, hlan]; exact hgood)).trans (bootTail_lost (hvalid.trans hlost))
    have hlocked := raise_configLost_locks (lanternUp (bootStart f s))
    have hon := powerOn_calibrates h (f := f) (by rw [hrom, hlocked]; exact nofun)
    rw [hrom] at hon
    exact ⟨calibrate (raise .ltnConfigLost dev [] (lanternUp (bootStart f s))), lanternUp (bootStart f s), congrArg Host.Outcome.next hon, rfl, rfl, (congrArg Dev.state (calibrate_dev _)).trans hlocked⟩
  case boots =>
    obtain ⟨hotp, hcopy, -, hlan, hdsp⟩ := bootStart_ltn f s
    have hrom : bootRom (bootStart f s) = bootTail (lanternUp (bootStart f s)) := bootRom_lantern rfl hstrap (by rw [hotp, hlan]; exact hgood)
    obtain ⟨hup, hlink⟩ := bootTail_boots (s := lanternUp (bootStart f s)) (hcopy.trans hvalid)
      (by show slotCheck (bootStart f s).ltn.otpSteps (activeImage (bootStart f s).ltn.fwDispatch) = 0; rw [hotp, hdsp]; exact hdispatch)
    have hdev : (bootRom (bootStart f s)).dev = { (lanternUp (bootStart f s)).dev with
        dispatchUp := true, dspFwVer := (activeImage (bootStart f s).ltn.fwDispatch).version } := by rw [hrom]; exact hup.dev
    have hbooting : (bootRom (bootStart f s)).dev.state = .booting := congrArg Dev.state hdev
    have hon := powerOn_calibrates h (f := f) (by rw [hbooting]; exact nofun)
    have hinc := powerOn_inc f s
    rw [hon] at hinc
    refine ⟨_, congrArg Host.Outcome.next hon, ?_, ?_, ?_, ?_, ?_, ?_, ?_, ?_, ?_, ?_, ?_, hinc⟩
    all_goals obtain ⟨free, time, hcal⟩ := calibrate_frame (bootRom (bootStart f s))
    all_goals rw [hcal]
    · exact congrArg Dev.state hdev
    · exact (congrArg (fun u : State => u.ltn.fw) hrom).trans hup.fw
    · exact congrArg Dev.dispatchUp hdev
    · exact congrArg Dev.bootedAlt hdev
    · refine (congrArg Dev.ltnFwVer hdev).trans ?_
      show (activeImage (bootStart f s).ltn.fwLantern).version = _
      rw [hlan]
      rfl
    · refine (congrArg Dev.dspFwVer hdev).trans ?_
      show (activeImage (bootStart f s).ltn.fwDispatch).version = _
      rw [hdsp]
      rfl
    · exact (congrArg (fun u : State => u.mbD.service) hrom).trans hup.serviceD
    · exact (congrArg (fun u : State => u.mbL.service) hrom).trans hup.serviceL
    · exact (congrArg (fun u : State => u.host.enabled) hrom).trans hlink
    · exact (congrArg (fun u : State => u.fab.gated.contains 1) hrom).trans hup.hub
    · exact (congrArg (fun u : State => u.fab.gated.contains 2) hrom).trans hup.prism
  case notBooting => exact congrArg Host.Outcome.next (bootComplete_idle h e)
  case ready =>
    obtain ⟨u, hbooted, hend⟩ := bootEnd_ready hcause sites
    have htells := enter_tells .ready none 0 (clearedFc u)
    generalize enter .ready none 0 (clearedFc u) = v at hend htells
    have hdev : v.dev = { u.dev with state := .ready, prior := none, stateSeq := u.dev.stateSeq + 1 } := htells.dev
    have hltn : v.ltn = u.ltn := htells.ltn
    have hclean : v.dev.bootClean = s.dev.bootClean := by
      rw [hdev, hbooted.dev]
      rfl
    have hfloor : otpFloor v = otpFloor s := by
      rw [otpFloor, hltn, hbooted.lantern, hbooted.dispatch]
      rfl
    obtain ⟨hkept, hfc⟩ := raiseOtp_kept v
    refine ⟨_, congrArg Host.Outcome.next ((bootComplete_ends hst hfw _).trans hend), ?_, ?_, ?_, ?_, ?_, ?_, ?_, ?_, fun h => ?_, fun h => ?_⟩
    · rw [hkept, hdev]
    · rw [hkept, hdev]
    · rw [hkept, hdev, hbooted.dev]
      rfl
    · rw [hfc, htells.fc]
      exact congrArg Fc.aliveRun hbooted.fc
    · rw [hfc, htells.fc]
      rfl
    · rw [hfc, htells.fc]
      rfl
    · rw [hfc, htells.fc]
      show u.fc.safeA = s.fc.safeA
      rw [hbooted.fc]
      rfl
    · rw [hkept, hdev, hbooted.dev]
    · rw [raiseOtp_clean (hclean.trans h), hltn, hbooted.otp, hfloor]
      rfl
    · rw [raiseOtp_unclean (hclean.trans h), hltn, hbooted.otp]
      rfl
  case swapped =>
    obtain ⟨t, ht, hend⟩ := bootEnd_swapped hst hactive hcls hsticky
    exact ⟨t, congrArg Host.Outcome.next ((bootComplete_ends hst hfw _).trans ht), hend⟩
  case lockedReset => exact congrArg Host.Outcome.next (if_pos h)
  case warm =>
    obtain ⟨u, hu, hstate, hsessions, hsession, hstraps, hlatch, hotp, hcores, hplans, hfc, hloop, hhost⟩ := warmClear_keeps s
    have hacc : u.time.acc = s.time.acc := hu ▸ (warmClear_steady (.refl s)).acc
    refine ⟨u, congrArg Host.Outcome.next ((if_neg h).trans ?_), hstate, hacc, hsessions, hsession, hstraps, hlatch, hotp, hcores, hplans, hfc, hloop, hhost⟩
    rw [hu]
  case asleep =>
    refine congrArg Host.Outcome.next ?_
    split
    next hid => exact wakeUp_idle (h.resolve_left (not_not.2 hid))
    next => rfl
  case wakes =>
    obtain ⟨u, hu, hstate, hseq, hrecovery, hsites, hflash⟩ := wakeUp_boots hst
    refine ⟨u, congrArg Host.Outcome.next ((if_pos hid).trans hu), hstate, hseq, hrecovery, hsites, hflash, bootTail_lost, fun hvalid hgood => ?_⟩
    obtain ⟨hup, hlink⟩ := bootTail_boots hvalid hgood
    rw [hup.dev]
    exact ⟨hstate, rfl, hup.serviceD, hup.serviceL, hlink⟩
  case noFlush => exact congrArg Host.Outcome.next (logFlush_off h)
  case flushAll =>
    refine ⟨_, congrArg Host.Outcome.next ((logFlush_on hwriting hlive).trans (if_pos hurgent)), rfl, ?_, rfl, fun r hr => ?_⟩
    · simp only [flushLog, List.take_length]
    · simp only [flushLog, List.take_length, hr]
  case flushBlock =>
    exact ⟨_, congrArg Host.Outcome.next ((logFlush_on hwriting hlive).trans ((if_neg (ne_true_of_eq_false hcalm)).trans (if_pos hmany))), rfl, rfl⟩
  case few => exact congrArg Host.Outcome.next (logFlush_few hcalm hfew)

end Sys2Proof.Laws
end

section
/-! PROOF. TORN_READ with ACK (R305, R341): what it answers as the count of the entries still held. -/
open Sys2Proof Sys2Proof.Machine
namespace Sys2Proof.Laws

/-- An attached device with one entry in its torn list, and TORN_READ with ACK waiting for one entry (opcode, TAG, ARGLEN, CFLAGS, SESSION,
reserved bytes, argument). -/
def tornAskState : State :=
  askOn { State.reset with host := { State.reset.host with torn := [{ obj := 0, gen := 0, lost := 0, first := 0, last := 0, flags := 0 }] } }
    .dispatch .attached ([3, 1, 0, 0, 2, 0, 1, 0] ++ [1, 0, 0, 0, 0, 0, 0, 0] ++ [1, 0])

def tornAskReq : Req := readReqOf .dispatch 0 tornAskState

theorem asked_tornAskState : Asked .dispatch 0x0103 0 [] tornAskReq tornAskState := asked_askOn _ _ _ _ _ (by decide) (by decide)

/-- The device once the request is taken and the entry dropped. -/
def tornDropped : State := { taken .dispatch [] tornAskState with host := { tornAskState.host with torn := [] } }

/-- TORN_READ's results with one entry returned and `held` as the count of the entries still held. -/
def tornResults (held : Nat) : List Byte := leBytes 2 1 ++ leBytes 2 held ++ [0, 0, 0, 0] ++ (tornAskState.host.torn.take 1).flatMap tornBytes

theorem tornAskReq_arg : tornAskReq.arg 0 2 = 1 := by decide

theorem tornAskReq_flag : tornAskReq.flag 0 = true := by decide

/-- The model counts the entries after it has dropped those returned. -/
theorem tornRead_tornAskState : tornRead tornAskReq (taken .dispatch [] tornAskState) = ok .dispatch tornAskReq (tornResults 0) tornDropped := by
  simp only [tornRead, tornAskReq_arg, tornAskReq_flag]
  rfl

theorem settle_idle {m : Mailbox} {s : State} (h : (getMb m s).fifo = []) (fuel : Nat) : settle (fuel + 1) m s = s := by
  rw [settle]
  simp only [h]

/-- The header is 16 bytes, so the count of the entries still held is bytes 18 and 19 of the answer. -/
theorem answerBytes_tornHeld (held : Nat) (s : State) :
    (answerBytes .dispatch 0 0 0 (tornResults held) s).getD 18 0 = BitVec.ofNat 8 held := by
  have hhead : (rdN (getMb .dispatch s).req (0 * 256) 4 ++ leBytes 2 (0 : W16).toNat ++ leBytes 2 (tornResults held).length
      ++ [devByte s.dev, 0] ++ leBytes 2 (0 : W16).toNat ++ leBytes 4 (frameNo s).toNat).length = 16 := rfl
  rw [answerBytes, List.getD_append_right _ _ _ _ (by rw [hhead]; decide), hhead]
  rfl

/-- The byte of RSP_0 that holds the low byte of that count. -/
theorem rsp_tornAnswered (held : Nat) : rd (getMb .dispatch (answered .dispatch 0 (tornResults held) tornDropped)).rsp 18 = BitVec.ofNat 8 held := by
  have hidle : (getMb .dispatch (respond .dispatch 0 0 0 (tornResults held) tornDropped)).fifo = [] := by
    rw [getMb_respond (by decide)]
    rfl
  rw [answered, settle_idle hidle, getMb_respond (by decide), answeredBox, rd_wrN _ (by decide), length_sub, if_pos (by decide)]
  exact (getD_sub _ _ _ (by decide)).trans (answerBytes_tornHeld ..)

/-- Refutes O57: with ACK the model answers TORN_READ with the count of the entries left once those returned are dropped; the statement
asks for the count before. In `tornAskState` these are 0 and 1. -/
theorem not_mailboxAndSessions : ¬ Obligations.MailboxAndSessions := by
  unfold Obligations.MailboxAndSessions
  rintro ⟨-, -, hcommands⟩
  obtain ⟨-, htorn, -⟩ := hcommands tornAskState 0 [] tornAskReq
  have hstated := (htorn asked_tornAskState).2 (by rw [tornAskReq_arg]) (by rw [tornAskReq_arg]; decide)
  rw [tornAskReq_arg, tornAskReq_flag] at hstated
  have hmodel : exec .tornRead tornAskState = .next (answered .dispatch 0 (tornResults 0) tornDropped) :=
    serve_answers asked_tornAskState tornRead_tornAskState
  have hstates : answered .dispatch 0 (tornResults 0) tornDropped = answered .dispatch 0 (tornResults 1) tornDropped :=
    Host.Outcome.next.inj (hmodel.symm.trans hstated)
  have hbytes := congrArg (fun t => rd (getMb .dispatch t).rsp 18) hstates
  simp only [rsp_tornAnswered] at hbytes
  cases hbytes

end Sys2Proof.Laws
end
